-- ==== Sys2Proof/Word.lean ====
section
/-! DEFINITION. The word, byte and address types of the register space (R7, R30) and their plainest
field arithmetic. -/

namespace Sys2Proof

/-- A register: 32 bits (R30). -/
abbrev Word := BitVec 32

/-- One byte. -/
abbrev Byte := BitVec 8

/-- The bits [hi:lo] of a word, as a number. -/
def Word.fld (w : Word) (hi lo : Nat) : Nat := (w.toNat >>> lo) % 2 ^ (hi + 1 - lo)

/-- Bit n of a word. -/
def Word.bit (w : Word) (n : Nat) : Bool := w.getLsbD n

/-- The mask of bits [hi:lo]. -/
def Word.mask (hi lo : Nat) : Word := BitVec.ofNat 32 ((2 ^ (hi + 1 - lo) - 1) <<< lo)

/-- `w` with the bits of `m` taken from `v`. -/
def Word.mix (w m v : Word) : Word := (w &&& ~~~m) ||| (v &&& m)

/-- `w` with field [hi:lo] set to `v` (its low bits). -/
def Word.setFld (w : Word) (hi lo v : Nat) : Word :=
  Word.mix w (Word.mask hi lo) (BitVec.ofNat 32 (v <<< lo))

/-- `w` with bit n set to `b`. -/
def Word.setBit (w : Word) (n : Nat) (b : Bool) : Word := Word.setFld w n n b.toNat

/-- A number as a word. -/
def w32 (n : Nat) : Word := BitVec.ofNat 32 n

end Sys2Proof
end

