-- ==== Sys2Proof/Syntax.lean ====
section
/-! DEFINITION. The commands the block takes, one constructor per row of spec/opcode_table.json, and the types of
their operands. The table gives its rows no operand fields: the operands are the model's (log entry 1). -/

namespace Sys2Proof

/-- Who issues a request: its master ID and the tenant it carries (R17, R18). -/
structure Who where
  mid : Nat
  tenant : Nat
  deriving DecidableEq, Repr

/-- The access type a Bark table checks (R15). -/
inductive AccKind where
  | read | write | fetch
  deriving DecidableEq, Repr

/-- One Trunk request: who issues it, the first byte's internal address, the size in bytes, the type and, for
a write, the bytes written as a number, the first byte least significant. -/
structure Acc where
  who : Who
  addr : Nat
  size : Nat
  kind : AccKind
  data : Nat
  deriving DecidableEq, Repr

/-- The response codes of R13. -/
inductive TCode where
  | ok | denied | domainOff | decode | poison | timeout
  deriving DecidableEq, Repr

/-- A submission queue entry, by the fields this part reads (R94, R105 to R107). `rsvd` says that bits [13:10] of dword 0, which are reserved, are not all zero. -/
structure Sqe where
  opc : Nat
  fuse : Nat := 0
  psdt : Nat := 0
  cid : Nat
  nsid : Nat := 0
  cdw2 : Nat := 0
  cdw3 : Nat := 0
  mptr : Nat := 0
  prp1 : Nat := 0
  prp2 : Nat := 0
  cdw10 : Word := 0
  cdw11 : Word := 0
  cdw12 : Word := 0
  cdw13 : Word := 0
  cdw14 : Word := 0
  cdw15 : Word := 0
  rsvd : Bool := false
  deriving DecidableEq, Repr

/-- A command in execution: the controller's MID, the SQ and the command identifier. -/
structure CmdId where
  mid : Nat
  sqid : Nat
  cid : Nat
  deriving DecidableEq, Repr

/-- One wrong symbol of a DRAM codeword: its index 0 to 79 and the error XORed into it (R353). -/
structure SymErr where
  sym : Nat
  err : Nat
  deriving DecidableEq, Repr

/-- One training failure DMC meets: subchannel, rank, device, and the step of DMC_TRAIN_INFO (R351, R371). -/
structure TrainFail where
  sub : Nat
  rank : Nat
  dev : Nat
  step : Nat
  deriving DecidableEq, Repr


/-- Submitters of flash operations (R256). -/
inductive Submitter where
  | walker | coppice | ldc | flush | fw
  deriving DecidableEq, Repr

/-- The fields of a flash operation as its submitter fills them (R255). `rsvd` says that a reserved field is non-zero. -/
structure FlashReq where
  sub : Submitter
  cls : Fin 4
  slc : Bool := false
  tag : Nat := 0
  tenant : Nat := 0
  pmask : Nat := 0
  smask : Nat := 0
  addr : Nat := 0
  buf : Nat := 0
  rtry : Nat := 0
  arg : Nat := 0
  rsvd : Bool := false
  deriving DecidableEq, Repr

/-- What identification finds of a die (R244, R245): whether a copy of its ONFI 5.1 parameter page is valid, whether bus, supplies, interfaces, suspend and training meet R244,
its capacity in Gbit, geometry, page size and LUNs of its target. -/
structure ParamPage where
  valid : Bool
  meets : Bool
  gbit : Nat
  planes : Nat
  pagesPerWl : Nat
  twoPass : Bool
  pagesPerBlock : Nat
  blocks : Nat
  data : Nat
  spare : Nat
  luns : Nat
  deriving DecidableEq, Repr

/-- An engine's memory access (R375 to R377): AMO operations 0 to 8 are swap, add, xor, and, or, min, max, minu, maxu. -/
inductive EAcc where
  | load | store | lr | sc | fetch
  | amo (op : Fin 9)
  deriving DecidableEq, Repr

/-- MetaValue of a CXL.mem request (R326). -/
inductive Meta where
  | i | s | a
  deriving DecidableEq, Repr

/-- One reading of a fuse word after SEC-DED (R485): zero syndrome, corrected, or not decodable. -/
inductive FuseRd where
  | clean (w : Word)
  | fixed (w : Word)
  | bad
  deriving DecidableEq, Repr

/-- The readings of a fuse word at the normal, low and high references (R485). -/
structure FuseWord where
  word : Nat
  n : FuseRd
  l : FuseRd
  h : FuseRd
  deriving DecidableEq, Repr

/-- A completion of a device-issued read (R68, R75, R95): data, Unsupported Request, Completer Abort, poisoned, malformed; the last two with the header
of the TLP as a 128-bit number. -/
inductive HostCpl where
  | ok (bytes : List Byte)
  | ur
  | ca
  | poisoned (hdr : Nat)
  | malformed (hdr : Nat)
  deriving DecidableEq, Repr

/-- A configuration register (R66): the ones this part's rules act on by name, the others by their offset. -/
inductive CfgReg where
  | ids | classRev | command | pmcsr | msix | devCtl | devCtl2 | aerUnc | aerCor | sriovCtl | numVfs | totalVfs | serialLo | serialHi
  | other (off : Nat)
  deriving DecidableEq, Repr

/-- An SPDM request (R435, R437). `finish` carries the operator key hash, 1 to 4, at which the requester's chain ends, if mutual authentication succeeds;
`keyLimit` is the event of a direction key that reaches 2^31 invocations. -/
inductive SpdmReq where
  | getVersion | getCapabilities | negotiate | getDigests
  | getCertificate (slot : Fin 8)
  | challenge (slot : Fin 8)
  | keyExchange (slot : Fin 8)
  | finish (session : Nat) (root : Option (Fin 5))
  | heartbeat (session : Nat)
  | keyUpdate (session : Nat)
  | endSession (session : Nat)
  | keyLimit (session : Nat)
  | other
  deriving DecidableEq, Repr

/-- An NVMe-MI request over MCTP (R576): a log page C0h, C3h (with the bit that takes a snapshot, an offset and a length) or C4h, or a reset. -/
inductive MiReq where
  | logC0
  | logC3 (snap : Bool) (offset len : Nat)
  | logC4
  | reset
  deriving DecidableEq, Repr


/-- The requests that a target holds under a stated wait (R14): one on the Trunk, at the window engine, at the Leaf pools (the n-th that waits), at SEC. -/
inductive HeldAt where
  | trunk (id : Nat)
  | win (id : Nat)
  | bpm (n : Nat)
  | sec (id : Nat)
  deriving DecidableEq, Repr

/-- The BAR that a host access reaches (R64, R65): BAR2 of the management port's PF0, or BAR0 or BAR4 of a function. -/
inductive HostBar where
  | bar2
  | bar0 (mid : Fin 512)
  | bar4 (mid : Fin 512)
  deriving DecidableEq, Repr

/-- How AER names what a port finds wrong on its link (R80); `encoding` is the Reserved Encoding Violation of the CXL RAS capability (R341). -/
inductive LinkErr where
  | receiver | badTlp | badDllp | replayTimer | protocol | overflow | encoding
  deriving DecidableEq, Repr

/-- The commands of the block: one constructor per row of spec/opcode_table.json. -/
inductive Instr where
  /-- TRUNK_REQUEST (R15): A Trunk request reaches its target, which checks it against the Bark table and then performs it, refuses it or answers for a gated block. -/
  | trunkRequest (a : Acc) (answered : Bool)
  /-- TRUNK_RESPONSE_TIMEOUT (R14): A request with no response within TRK_TIMEOUT completes with TIMEOUT. -/
  | trunkResponseTimeout (id : Nat)
  /-- HOLD_NOTICE (R14): A target that holds an accepted request under a stated wait sends a HOLD notice before each half of TRK_TIMEOUT, which restarts the requester's timer. -/
  | holdNotice (w : HeldAt)
  /-- TRUNK_LATE_RESPONSE (R14): A response that arrives after its TIMEOUT is discarded at the requester's router and recorded. -/
  | trunkLateResponse (id : Nat)
  /-- REGISTER_WRITE (R33): A write to a register that has no row of its own is performed, ignored or refused as R33 states. -/
  | registerWrite (a : Acc)
  /-- RC_REGISTER_READ (R34): A read of an RC register returns its value and clears it, keeping any event that coincides with the read. -/
  | rcRegisterRead (a : Acc)
  /-- BARK_STAGE_WRITE (R139): A write to word +0x0, +0x4 or +0x8 of BARK_ENTRY goes to the TRK staging set. -/
  | barkStageWrite (who : Who) (entry : Fin 64) (word : Fin 3) (v : Word)
  /-- BARK_ENTRY_COMMIT (R139): A write to word +0xC of BARK_ENTRY commits the staged words and the written word to the entry in the table that BARK_SEL names, unless the entry is LOCKED. -/
  | barkEntryCommit (who : Who) (entry : Fin 64) (v : Word)
  /-- BROADCAST_WRITE (R46): A write through a broadcast aperture is checked and performed in each member, and skipped members are recorded. -/
  | broadcastWrite (a : Acc)
  /-- BROADCAST_READ (R47): A read through a broadcast aperture returns the OR of the register across the members that performed it. -/
  | broadcastRead (a : Acc)
  /-- ENABLE_SET (R623): A write that sets BLK_CTL.ENABLE moves the block from Reset to Init and starts its bring-up. -/
  | enableSet (who : Who) (rgn : Fin 128)
  /-- ENABLE_CLEAR (R623): A write that clears BLK_CTL.ENABLE stops new work and drains the block to STATE Reset. -/
  | enableClear (who : Who) (rgn : Fin 128)
  /-- BLOCK_INIT_DONE (R623): A block in Init finishes its bring-up and becomes Ready. -/
  | blockInitDone (rgn : Fin 128)
  /-- SOFT_RESET (R39): A write of BLK_CTL.SOFT_RESET, or of bit 1 of TOP_RGN_CTL, fences and resets the block, or records CTL_SEQ, according to its STATE. -/
  | softReset (who : Who) (rgn : Fin 128) (viaTop : Bool)
  /-- SOFT_RESET_END (R39): After the drain, the reset ends and returns the block's registers to their reset values, apart from the stated exceptions. -/
  | softResetEnd (rgn : Fin 128)
  /-- ISOLATE_SET (R624): A write that sets ISOLATE starts a fence: accepted requests complete, and later data requests receive DOMAIN_OFF. -/
  | isolateSet (who : Who) (rgn : Fin 128) (viaTop : Bool)
  /-- DRAIN_END (R585): The last accepted request of a draining block completes, and STATE becomes Isolated, or the block comes back at once if ISOLATE reads 0. -/
  | drainEnd (rgn : Fin 128)
  /-- POWER_REQ_CLEAR (R624): A write that clears POWER_REQ on an Isolated block removes its power, and STATE becomes Off. -/
  | powerReqClear (who : Who) (rgn : Fin 128) (viaTop : Bool)
  /-- POWER_REQ_SET (R624): A write that sets POWER_REQ on an Off block restores its power. -/
  | powerReqSet (who : Who) (rgn : Fin 128) (viaTop : Bool)
  /-- ISOLATE_CLEAR (R624): A write that clears ISOLATE returns the block in STATE Init or Reset, according to ENABLE. -/
  | isolateClear (who : Who) (rgn : Fin 128) (viaTop : Bool)
  /-- LOCK_SET (R42): A write of BLK_CTL.LOCK makes every RWL field of the block read only until device reset. -/
  | lockSet (who : Who) (rgn : Fin 128)
  /-- INT_SET_WRITE (R43): A write of 1 to an INT_SET bit sets the same bit in INT_STS. -/
  | intSetWrite (who : Who) (rgn : Fin 128) (v : Word)
  /-- RECEIVER_DETECTED (R58): A port in Down detects a receiver and moves to Training. -/
  | receiverDetected (p : Fin 8)
  /-- DETECT_INTERVAL_EXPIRY (R59): The 12 ms interval of Detect expires, and a port without a partner alternates Detect.Quiet and Detect.Active. -/
  | detectIntervalExpiry (p : Fin 8)
  /-- DL_ACTIVE_REACHED (R628): The data link layer reaches DL_Active, and the port moves to Up, or leaves Contained on a release. -/
  | dlActiveReached (p : Fin 8) (rate : Fin 6) (width : Fin 17) (flit cxl : Bool)
  /-- TRAINING_RETURN_TO_DETECT (R59): An LTSSM timeout before L0 returns the port to Detect, and the failure is counted and logged. -/
  | trainingReturnToDetect (p : Fin 8)
  /-- PERST_ASSERT (R72): PERST# of a port asserts: the port goes Down and resets its functions, controllers and HDM decoders, and containment ends. -/
  | perstAssert (p : Fin 8)
  /-- PERST_DEASSERT (R55): PERST# of a port deasserts, and the port trains once step 4 of power-up has ended. -/
  | perstDeassert (p : Fin 8)
  /-- HOT_RESET_RECEIVED (R72): A hot reset from the partner resets the port as PERST# does. -/
  | hotResetReceived (p : Fin 8)
  /-- LINK_DISABLE_RECEIVED (R72): A link disable from the partner takes the port Down and resets it as PERST# does. -/
  | linkDisableReceived (p : Fin 8)
  /-- LINK_RETRAIN (R629): A write of PRT_LINK_CTL.RETRAIN forces a return to Detect, which keeps the port's state and is no containment cause. -/
  | linkRetrain (who : Who) (p : Fin 8) (v : Word)
  /-- LINK_EN_CLEAR (R629): A write of LINK_EN = 0 holds the port in Detect with its transmitters idle and its commands held. -/
  | linkEnClear (who : Who) (p : Fin 8) (v : Word)
  /-- LINK_EN_SET (R55): A write of LINK_EN = 1 lets the port train again at its next entry to Detect. -/
  | linkEnSet (who : Who) (p : Fin 8) (v : Word)
  /-- FLIT_CRC_FAIL (R61): A flit that fails its CRC is replayed and counted in PRT_REPLAY_CNT. -/
  | flitCrcFail (p : Fin 8) (fec again : Bool) (e : LinkErr)
  /-- RECOVERY_END (R61): Recovery ends: the link returns to L0, or goes down, which is a surprise down. -/
  | recoveryEnd (p : Fin 8) (ok : Bool)
  /-- SURPRISE_DOWN (R78): DL_Down without PERST#, hot reset or link disable contains the port and ends or holds its commands as R78 states. -/
  | surpriseDown (p : Fin 8)
  /-- POISONED_TLP_RECEIVED (R75): A received TLP with EP set contains the port. -/
  | poisonedTlpReceived (p : Fin 8) (fn : Fin 64) (hdr : Nat)
  /-- MALFORMED_TLP_RECEIVED (R75): A malformed TLP contains the port and is logged under AER. -/
  | malformedTlpReceived (p : Fin 8) (fn : Option (Fin 64)) (hdr : Nat)
  /-- COMPLETION_TIMEOUT (R75): A device read's completion timeout expires, and the port enters Contained unless completion timeout is disabled. -/
  | completionTimeout (p : Fin 8) (tag hdr : Nat)
  /-- HOST_COMPLETION_RECEIVED (R68): A completion for a device-issued read arrives at the port and delivers its data, or is discarded after FLR or containment. -/
  | hostCompletionReceived (p : Fin 8) (tag : Nat) (r : HostCpl)
  /-- CONTAIN_RELEASE (R77): A write of PRT_CONTAIN.RELEASE while DL_Active ends containment, and held commands resume in order. -/
  | containRelease (who : Who) (p : Fin 8)
  /-- BAR2_READ (R62): A host read of BAR2 issues a Trunk request and starts the port's 2.0 ms timer. -/
  | bar2Read (bar : HostBar) (off size : Nat) (answered : Bool)
  /-- BAR2_WRITE (R65): A posted host write to BAR2 is issued on the Trunk, and a non-OK response is captured in PRT_MGMT_ERR. -/
  | bar2Write (bar : HostBar) (off size data : Nat) (answered : Bool)
  /-- BAR2_READ_TIMEOUT (R62): The port's BAR2 timer expires, and the port completes the read with Completer Abort. -/
  | bar2ReadTimeout (id : Nat)
  /-- BAR2_LATE_RESPONSE (R62): A Trunk response that arrives after the BAR2 timer is discarded and recorded as TRUNK_LATE. -/
  | bar2LateResponse (id : Nat)
  /-- CONFIG_REQUEST (R79): A configuration request is served, or receives RRS until the function is ready. -/
  | configRequest (p : Fin 8) (fn : Fin 64) (r : CfgReg) (w : Option Word)
  /-- FUNCTION_READY (R79): A function becomes ready within 1 s of DL_Active, and configuration requests receive Successful Completion. -/
  | functionReady (p : Fin 8) (fn : Fin 64)
  /-- FLR_INITIATE (R73): A configuration write that sets Initiate Function Level Reset silences the function and cancels or finishes its commands. -/
  | flrInitiate (p : Fin 8) (fn : Fin 64)
  /-- FLR_COMPLETE (R73): The FLR ends with the function's configuration and BAR state at reset values. -/
  | flrComplete (p : Fin 8) (fn : Fin 64)
  /-- HMB_DROP_COMPLETE (R175): The HMB drop finishes, and INT_STS.HMB_DROP is set. -/
  | hmbDropComplete
  /-- BME_CLEAR (R74): Bus Master Enable of a function is cleared, and the port holds the function's transfers and completions. -/
  | bmeClear (p : Fin 8) (fn : Fin 64)
  /-- BME_SET (R74): Bus Master Enable is set again, and held transfers and completions issue in their original order. -/
  | bmeSet (p : Fin 8) (fn : Fin 64)
  /-- D3HOT_ENTRY (R74): A function entering D3hot is treated as if its BME were cleared. -/
  | d3hotEntry (p : Fin 8) (fn : Fin 64)
  /-- L0P_REQUEST (R60): The partner requests L0p, and the port answers it. -/
  | l0pRequest (p : Fin 8) (lanes : Fin 17)
  /-- DOE_REQUEST (R81): A data object written to PF0's DOE mailbox is served by discovery, CMA/SPDM, secured SPDM or CDAT. -/
  | doeRequest (p : Fin 8) (vendor : Fin 65536) (typ : Fin 256) (d : List Byte)
  /-- DOE_ABORT (R81): A DOE Abort resets the DOE mailbox. -/
  | doeAbort (p : Fin 8)
  /-- SQ_TAIL_DOORBELL (R92): A write of an SQ tail doorbell is stored, or it makes the SQ Errored when it lies at or above the SQ size. -/
  | sqTailDoorbell (mid : Fin 512) (qid v : Fin 65536)
  /-- CQ_HEAD_DOORBELL (R92): A write of a CQ head doorbell frees slots, or it raises an Invalid Doorbell Write Value event. -/
  | cqHeadDoorbell (mid : Fin 512) (qid v : Fin 65536)
  /-- SQ_FETCH (R91): HQE, granted by arbitration and holding a context and a buffer, fetches up to BURST entries between the head and the tail. -/
  | sqFetch
  /-- SQ_ENTRY_ARRIVAL (R107): A fetched entry arrives and is checked for entry-level faults before its command runs. -/
  | sqEntryArrival (p : Fin 8) (tag : Nat) (e : Sqe)
  /-- CQ_POST (R93): A completion entry and its MSI-X message are posted once the CQ has a free slot, and the context returns. -/
  | cqPost (c : CmdId)
  /-- WRITE_POWER_PROTECTED (R108): A write's data is counted in the ledger and becomes power-protected, and a non-FUA write completes while VWC reads 0. -/
  | writePowerProtected (c : CmdId)
  /-- FLUSH (R110): Flush completes at once while VWC reads 0, or after every covered write is closed on NAND. -/
  | flush (c : CmdId)
  /-- WRITE (R109): Write fetches its data into buffers, and completes on power protection or, with FUA, on closure. -/
  | write (c : CmdId)
  /-- READ (R112): Read looks up the map, reads and decodes the data, decrypts it and transfers it before its completion. -/
  | read (c : CmdId)
  /-- WRITE_UNCORRECTABLE (R182): Write Uncorrectable journals UNCORR for its range. -/
  | writeUncorrectable (c : CmdId)
  /-- COMPARE (R105): Compare reads the data and compares it in the device without returning it. -/
  | compare (c : CmdId)
  /-- WRITE_ZEROES (R182): Write Zeroes writes zeros or deallocates its range. -/
  | writeZeroes (c : CmdId)
  /-- DATASET_MANAGEMENT (R182): Dataset Management with Deallocate journals TRIM for its ranges. -/
  | datasetManagement (c : CmdId)
  /-- VERIFY (R105): Verify runs the read path and the recovery ladder and transfers nothing. -/
  | verify (c : CmdId)
  /-- RESERVATION_REGISTER (R136): Reservation Register changes registration state, which is journalled as NSMETA. -/
  | reservationRegister (c : CmdId)
  /-- RESERVATION_REPORT (R136): Reservation Report returns the reservation state. -/
  | reservationReport (c : CmdId)
  /-- RESERVATION_ACQUIRE (R136): Reservation Acquire acquires or preempts a reservation. -/
  | reservationAcquire (c : CmdId)
  /-- RESERVATION_RELEASE (R136): Reservation Release releases or clears a reservation. -/
  | reservationRelease (c : CmdId)
  /-- COPY (R105): Copy completes with Invalid Command Opcode. -/
  | copy (c : CmdId)
  /-- RECLAIM_UNIT_HANDLE_UPDATE (R211): A Reclaim Unit Handle Update pads the handle's open row and closes its RU short. -/
  | reclaimUnitHandleUpdate (c : CmdId)
  /-- CREATE_IO_SQ (R89): Create I/O Submission Queue creates an SQ within the allotment and the device totals. -/
  | createIoSq (c : CmdId)
  /-- CREATE_IO_CQ (R89): Create I/O Completion Queue creates a CQ within the allotment and the device totals. -/
  | createIoCq (c : CmdId)
  /-- DELETE_IO_SQ (R97): Delete I/O Submission Queue deletes an SQ and clears any Errored or Frozen state. -/
  | deleteIoSq (c : CmdId)
  /-- DELETE_IO_CQ (R89): Delete I/O Completion Queue deletes a CQ, or fails while an SQ is attached. -/
  | deleteIoCq (c : CmdId)
  /-- IDENTIFY (R87): Identify returns the controller and namespace data structures. -/
  | identify (c : CmdId)
  /-- ABORT (R117): Abort acts on its target according to the target's stage. -/
  | abort (c : CmdId)
  /-- ASYNC_EVENT_REQUEST (R573): An Asynchronous Event Request is held until an event completes it. -/
  | asyncEventRequest (c : CmdId)
  /-- GET_LOG_PAGE_C0H (R235): Get Log Page C0h returns the media health log. -/
  | getLogPageC0h (c : CmdId)
  /-- GET_LOG_PAGE_C2H (R123): Get Log Page C2h returns the controller's Errored and Frozen SQs. -/
  | getLogPageC2h (c : CmdId)
  /-- GET_LOG_PAGE_C3H (R563): Get Log Page C3h takes or uses a snapshot and returns Rings records. -/
  | getLogPageC3h (c : CmdId)
  /-- GET_LOG_PAGE_C4H (R474): Get Log Page C4h returns the hold-up ledger and flush history. -/
  | getLogPageC4h (c : CmdId)
  /-- GET_LOG_PAGE_C5H (R342): Get Log Page C5h returns the window status. -/
  | getLogPageC5h (c : CmdId)
  /-- GET_LOG_PAGE_SMART (R234): Get Log Page SMART / Health Information returns the health fields. -/
  | getLogPageSmart (c : CmdId)
  /-- GET_LOG_PAGE_FW_SLOT (R539): Get Log Page Firmware Slot Information returns AFI and the slot revisions. -/
  | getLogPageFwSlot (c : CmdId)
  /-- NAMESPACE_MGMT_CREATE (R155): Namespace Management create takes the lowest free root-directory range and marks every MU unmapped. -/
  | namespaceMgmtCreate (c : CmdId)
  /-- NAMESPACE_MGMT_DELETE (R155): Namespace Management delete waits for the namespace's commands and then frees its range. -/
  | namespaceMgmtDelete (c : CmdId)
  /-- NAMESPACE_DELETE_RESUME (R155): The last command of a namespace that is being deleted completes, and the deletion frees the range and journals one TRIM. -/
  | namespaceDeleteResume (nsid : Nat)
  /-- NAMESPACE_ATTACHMENT (R134): Namespace Attachment attaches a namespace only to controllers of its owner or sharers. -/
  | namespaceAttachment (c : CmdId)
  /-- FORMAT_NVM (R418): Format NVM deallocates the namespace, and with Secure Erase replaces the slot's key. -/
  | formatNvm (c : CmdId)
  /-- RESUME_QUEUE (R116): Resume Queue waits for the SQ's commands, sets the restart head and makes the SQ Active. -/
  | resumeQueue (c : CmdId)
  /-- SET_FEATURES_NUMBER_OF_QUEUES (R88): Set Features Number of Queues returns the allotment. -/
  | setFeaturesNumberOfQueues (c : CmdId)
  /-- SET_FEATURES_ARBITRATION (R100): Set Features Arbitration sets the burst and weights. -/
  | setFeaturesArbitration (c : CmdId)
  /-- SET_FEATURES_ORDERED_QUEUE (R113): Set Features C1h makes an SQ ordered or unordered. -/
  | setFeaturesOrderedQueue (c : CmdId)
  /-- GET_FEATURES_ORDERED_QUEUE (R113): Get Features C1h returns ORDERED for an SQ. -/
  | getFeaturesOrderedQueue (c : CmdId)
  /-- SET_FEATURES_URGENT_BUDGET (R120): Set Features C2h from tenant 0 sets a tenant's URG_RATE and URG_BURST. -/
  | setFeaturesUrgentBudget (c : CmdId)
  /-- GET_FEATURES_URGENT_BUDGET (R120): Get Features C2h returns the urgent budget and the demotion count. -/
  | getFeaturesUrgentBudget (c : CmdId)
  /-- SET_FEATURES_PORT_WEIGHTS (R121): Set Features C4h from PF0 of the management port sets the port weights. -/
  | setFeaturesPortWeights (c : CmdId)
  /-- GET_FEATURES_PORT_WEIGHTS (R121): Get Features C4h returns the port weights. -/
  | getFeaturesPortWeights (c : CmdId)
  /-- SET_FEATURES_HOST_MEMORY_BUFFER (R173): Set Features Host Memory Buffer enables or disables the HMB tier on PF0 of the management port. -/
  | setFeaturesHostMemoryBuffer (c : CmdId) (sizes : List Nat)
  /-- SET_FEATURES_ERROR_RECOVERY (R288): Set Features Error Recovery sets TLER for one or every attached namespace. -/
  | setFeaturesErrorRecovery (c : CmdId)
  /-- GET_FEATURES_ERROR_RECOVERY (R300): Get Features Error Recovery returns TLER. -/
  | getFeaturesErrorRecovery (c : CmdId)
  /-- SET_FEATURES_POWER_MANAGEMENT (R464): Set Features Power Management writes the controller's requested power state. -/
  | setFeaturesPowerManagement (c : CmdId)
  /-- SET_FEATURES_FDP (R215): Set Features 1Dh enables FDP for an endurance group that has no namespace. -/
  | setFeaturesFdp (c : CmdId)
  /-- SET_FEATURES_TEMP_THRESHOLD (R617): Set Features Temperature Threshold sets a sensor's over- or under-threshold. -/
  | setFeaturesTempThreshold (c : CmdId)
  /-- SET_FEATURES_TIMESTAMP (R468): Set Features Timestamp sets the RTC from PF0 of the management port, or a per-controller offset. -/
  | setFeaturesTimestamp (c : CmdId)
  /-- CONTROLLER_RESET (R119): CC.EN 1 to 0 stops fetching, finishes or cancels commands, and deletes every I/O queue. -/
  | controllerReset (mid : Fin 512)
  /-- CONTROLLER_ENABLE (R119): CC.EN 0 to 1 starts the controller towards CSTS.RDY. -/
  | controllerEnable (mid : Fin 512) (ams : Bool) (mps : Fin 5) (aqa : Word) (asq acq : Nat)
  /-- CONTROLLER_READY (R119): CSTS.RDY reads 1 once power-up has completed, and a trial boot writes its READY ticket. -/
  | controllerReady (mid : Fin 512) (ms : Nat)
  /-- SHUTDOWN_NOTIFICATION (R119): CC.SHN stops fetching and starts the shutdown. -/
  | shutdownNotification (mid : Fin 512) (kind : Fin 3)
  /-- SHUTDOWN_COMPLETE (R119): Every command has posted its completion, and the writes are closed when VWC reads 1, so CSTS.SHST reads 10b. -/
  | shutdownComplete (mid : Fin 512)
  /-- TENANT_BIND_FUNCTION (R132): Tenant Configure OP 01h binds a function MID to a tenant. -/
  | tenantBindFunction (c : CmdId)
  /-- TENANT_QUEUE_ALLOTMENT (R132): Tenant Configure OP 02h sets a function's I/O queue allotment. -/
  | tenantQueueAllotment (c : CmdId)
  /-- TENANT_HOST_LIMITS (R132): Tenant Configure OP 03h sets CTX_MIN, CTX_CAP and the urgent budget. -/
  | tenantHostLimits (c : CmdId)
  /-- TENANT_POOL_OWNER (R132): Tenant Configure OP 04h maps a tenant to a Leaf-pool owner and evicts its leaves from the old owner. -/
  | tenantPoolOwner (c : CmdId)
  /-- TENANT_POOL_LIMITS (R132): Tenant Configure OP 05h sets an owner's MIN and CAP for a class. -/
  | tenantPoolLimits (c : CmdId)
  /-- TENANT_INTERNAL_RESERVE (R132): Tenant Configure OP 06h sets an owner's internal reserve. -/
  | tenantInternalReserve (c : CmdId)
  /-- TENANT_NAMESPACE_OWNER (R132): Tenant Configure OP 07h gives a namespace to a tenant. -/
  | tenantNamespaceOwner (c : CmdId)
  /-- TENANT_NAMESPACE_SHARE (R132): Tenant Configure OP 08h grants or revokes a namespace share. -/
  | tenantNamespaceShare (c : CmdId)
  /-- TENANT_KEY_SLOTS (R132): Tenant Configure OP 09h sets a tenant's XTS and GCM slot ranges and zeroes slots that leave it. -/
  | tenantKeySlots (c : CmdId)
  /-- TENANT_ENGINE_ASSIGNMENT (R132): Tenant Configure OP 0Ah replaces a tenant's engine set, scrubbing the engines that leave it. -/
  | tenantEngineAssignment (c : CmdId)
  /-- TENANT_WINDOW_SLICES (R132): Tenant Configure OP 0Bh gives a range of window slices to a tenant. -/
  | tenantWindowSlices (c : CmdId)
  /-- TENANT_CLEAR_WINDOW_SLICES (R132): Tenant Configure OP 0Ch recalls, invalidates and clears slices, returning every granule to Unwritten. -/
  | tenantClearWindowSlices (c : CmdId)
  /-- TRK_FN_TENANT_WRITE (R130): A write of TRK_FN_TENANT binds a function MID to a tenant, except PF0 of the management port. -/
  | trkFnTenantWrite (who : Who) (mid : Fin 512) (v : Word)
  /-- HQE_TENANT_TABLE_WRITE (R98): A write of the HQE tenant table is stored only if it keeps the CTX_MIN sum rule. -/
  | hqeTenantTableWrite (who : Who) (t : Fin 512) (word : Fin 3) (v : Word)
  /-- HQE_FN_QALLOT_WRITE (R88): A write of HQE_FN_QALLOT sets an allotment, or records ALLOT_RANGE. -/
  | hqeFnQallotWrite (who : Who) (mid : Fin 512) (v : Word)
  /-- BUFFER_ALLOC (R145): An allocation for an owner and class is served from an internal or held chunk, the reserve or the free pool, or waits. -/
  | bufferAlloc (owner : Fin 64) (size : Nat) (map : Bool) (internal : Bool) (work : Nat)
  /-- BUFFER_SHARE (R148): A share adds 1 to a buffer's reference count, or returns SATURATED or BAD. -/
  | bufferShare (addr : Nat) (tenant : Nat)
  /-- BUFFER_RELEASE (R148): A release subtracts 1 from the reference count, and at 0 frees the slot. -/
  | bufferRelease (addr : Nat) (tenant : Nat)
  /-- BPM_FW_ALLOC_WRITE (R152): A write of BPM_FW_ALLOC requests a buffer for a Crown core. -/
  | bpmFwAllocWrite (who : Who) (core : Fin 4) (v : Word)
  /-- BPM_FW_REF_WRITE (R152): A write of BPM_FW_REF_HI performs a share or release for firmware. -/
  | bpmFwRefWrite (who : Who) (core : Fin 4) (lo hi : Word)
  /-- BPM_CLASS_WRITE (R151): A write of BPM_CLASS changes a class only when no chunk of it is held and the sum rule holds. -/
  | bpmClassWrite (who : Who) (cls : Fin 8) (v : Word)
  /-- BPM_AREA_WRITE (R151): A write of the pool area registers is stored only while every chunk is free. -/
  | bpmAreaWrite (who : Who) (word : Fin 4) (v : Word)
  /-- BPM_TEN_OWNER_WRITE (R152): A write of BPM_TEN_OWNER follows the conditions of OP 04h. -/
  | bpmTenOwnerWrite (who : Who) (tenant : Fin 512) (v : Word)
  /-- BPM_LIMIT_WRITE (R146): A write of BPM_MIN, BPM_CAP or BPM_OWN_IRSV changes reservations subject to the sum rule. -/
  | bpmLimitWrite (who : Who) (off : Nat) (v : Word)
  /-- PAGE_IN_COMPLETE (R169): A leaf read completes: the leaf is installed, BUSY clears and waiting lookups proceed, or the leaf is unreadable. -/
  | pageInComplete (root : Nat)
  /-- HMB_MOVE_COMPLETE (R174): An HMB read completes and passes its checks, or the walker reads the leaf from flash. -/
  | hmbMoveComplete (root : Nat) (ok : Bool)
  /-- HMB_MOVE_TIMEOUT (R174): An HMB read not completed within TMO is abandoned, and the leaf is read from flash. -/
  | hmbMoveTimeout (root : Nat)
  /-- LEAF_WRITEBACK_START (R171): The walker starts writing back a dirty leaf when a threshold, the sweep, a checkpoint or the ring asks. -/
  | leafWritebackStart (root : Nat)
  /-- LEAF_WRITEBACK_DONE (R171): The leaf snapshot is written, a LEAFWB record is appended and the frame takes the new location. -/
  | leafWritebackDone (root : Nat)
  /-- JOURNAL_PAGE_TIMER (R184): A partly filled journal page is written 10 ms after its first record. -/
  | journalPageTimer
  /-- COPPICE_ASSIGN (R216): Coppice assigns buffered MUs to slots of the open RU of their tenant and handle. -/
  | coppiceAssign (tenant : Fin 512) (ruh : Fin 13) (accErr : Bool)
  /-- IDLE_CLOSURE_TIMEOUT (R211): A row whose first assignment is older than CPC_CLOSE_IDLE is padded and issued. -/
  | idleClosureTimeout (ru row : Nat)
  /-- FTL_WORK_TAIL_WRITE (R193): A write of FTL_WR_TAIL lets the walker fetch work entries up to it. -/
  | ftlWorkTailWrite (who : Who) (v : Word)
  /-- NS_INIT (R194): NS_INIT sets a range of root entries to GLEN = 0. -/
  | nsInit
  /-- NS_FREE (R194): NS_FREE drops the frames and descriptors of a range. -/
  | nsFree
  /-- LEAF_WB (R194): LEAF_WB writes back one leaf. -/
  | leafWb
  /-- CKPT_BEGIN (R186): CKPT_BEGIN records the replay start and writes back the leaves that are dirty. -/
  | ckptBegin
  /-- DIR_SNAPSHOT (R186): DIR_SNAPSHOT writes every root entry's flash location word to flash. -/
  | dirSnapshot
  /-- CKPT_COMMIT (R186): CKPT_COMMIT writes the anchor to both areas and resets the checkpoint counters. -/
  | ckptCommit
  /-- REPLAY (R185): REPLAY applies journal records in JSEQ order from the replay start. -/
  | replay
  /-- LEAF_REBUILD (R191): LEAF_REBUILD rebuilds a leaf, or every namespace, from MU headers and the journal. -/
  | leafRebuild (ends : Bool)
  /-- HMB_ATTACH (R194): HMB_ATTACH takes a host descriptor list for the HMB tier. -/
  | hmbAttach
  /-- HMB_DETACH (R194): HMB_DETACH releases the HMB tier. -/
  | hmbDetach
  /-- EVICT_OWNER (R194): EVICT_OWNER evicts every leaf of a tenant's namespaces. -/
  | evictOwner
  /-- FTL_COMPLETION_POST (R195): The walker posts a work completion once the completion ring has a free slot. -/
  | ftlCompletionPost
  /-- COPPICE_RECLAIM_START (R220): Coppice chooses a victim RU for a tenant whose headroom is at or below FREE_TGT and relocates its valid MUs. -/
  | coppiceReclaimStart (tenant : Fin 512)
  /-- RELOCATION_SOURCE_ERASE (R220): Once every RELOC record of a victim is applied and in the flash journal, Coppice erases it and it becomes FREE. -/
  | relocationSourceErase (ru : Nat)
  /-- STATIC_WEAR_LEVEL (R223): When the erase-count spread exceeds CPC_WL_DELTA, Coppice relocates the coldest CLOSED RU. -/
  | staticWearLevel (dset : Fin 64)
  /-- READ_DISTURB_LIMIT (R224): A block's read count reaches CPC_RD_LIMIT, and its RU is flagged REFRESH. -/
  | readDisturbLimit (ru : Nat)
  /-- PATROL_SAMPLE (R225): A CLOSED RU is sampled once per PERIOD_H and flagged REFRESH on high error or age. -/
  | patrolSample (ru bits : Nat) (soft : Bool)
  /-- TEMP_HISTORY_SAMPLE (R236): Each operating minute, the composite temperature is counted in a TEMP_HIST bin. -/
  | tempHistorySample
  /-- HOURLY_SLOT_ADVANCE (R236): Each operating hour, HOURLY_IDX advances and clears the slot it enters. -/
  | hourlySlotAdvance
  /-- CPC_WORK_TAIL_WRITE (R240): A write of CPC_WR_TAIL lets CPC fetch work entries up to it, and a malformed entry puts the device in Fault. -/
  | cpcWorkTailWrite (who : Who) (v : Word)
  /-- RU_INIT (R204): RU_INIT forms the RU descriptors of a die set. -/
  | ruInit (factory : List (Nat × Nat))
  /-- DIE_RETIRE (R229): DIE_RETIRE retires a die, flags its RUs DEGRADED and starts the rebuild. -/
  | dieRetire
  /-- BLOCK_RETIRE (R240): BLOCK_RETIRE marks a block grown bad. -/
  | blockRetire
  /-- RU_RELOCATE (R240): RU_RELOCATE makes an RU the next victim of its tenant. -/
  | ruRelocate
  /-- SUMMARY_WRITE (R240): SUMMARY_WRITE writes the validity bitmaps and the bad-block table for a checkpoint. -/
  | summaryWrite
  /-- SUMMARY_LOAD (R240): SUMMARY_LOAD reads them at power-up and sets NOSUM where a bitmap cannot be loaded. -/
  | summaryLoad (lost : List Nat)
  /-- FLUSH_ADOPT (R214): FLUSH_ADOPT relocates the MUs in FLUSH RUs into their tenants' GC handles and erases the RUs. -/
  | flushAdopt
  /-- PATROL_NOW (R240): PATROL_NOW samples one RU, or every RU, at once. -/
  | patrolNow (found : List (Nat × Nat × Bool))
  /-- CPC_TEN_RSV_WRITE (R217): A write of CPC_TEN_RSV is stored only if the free RUs still cover every reservation. -/
  | cpcTenRsvWrite (who : Who) (tenant : Fin 512) (v : Word)
  /-- CPC_TEN_CTL_WRITE (R242): A write of CPC_TEN_CTL judges FREE_LOW and FREE_TGT together and stores PROG_BUDGET. -/
  | cpcTenCtlWrite (who : Who) (tenant : Fin 512) (v : Word)
  /-- FCH_POWER_WAIT_DONE (R250): The channel's power-on wait ends, and it enters DETECT. -/
  | fchPowerWaitDone (c : Fin 32)
  /-- DIE_DETECT_TIMEOUT (R251): A die silent for 10 ms after its target's Reset is marked ABSENT. -/
  | dieDetectTimeout (c : Fin 32) (d : Fin 16)
  /-- FCH_IDENT_DONE (R245): IDENT ends, and dies that fail R244 or R245 are excluded as INCOMPAT. -/
  | fchIdentDone (c : Fin 32) (pages : List (Fin 16 × ParamPage)) (ids : List (Fin 16 × Word)) (tim0 tim1 : Word)
  /-- FCH_TRAIN_DONE (R252): Rate search ends: the channel rate is set, and the channel enters READY or EMPTY. -/
  | fchTrainDone (c : Fin 32) (rates : List (Fin 16 × Nat))
  /-- ZQ_CALIBRATION (R254): Every ZQ_MS a READY die receives ZQ calibration. -/
  | zqCalibration (c : Fin 32) (d : Fin 16)
  /-- READ_DQ_RETRAIN (R254): A temperature change of TEMP_DELTA, or RETRAIN_H hours, retrains a die's read DQ. -/
  | readDqRetrain (c : Fin 32) (d : Fin 16) (ok : Bool)
  /-- FCH_RETRAIN (R254): A write of FCH_CMD.RETRAIN, or a failed retraining, puts the channel in RETRAIN. -/
  | fchRetrain (who : Who) (c : Fin 32) (v : Word)
  /-- FCH_RETRAIN_DONE (R254): Retraining ends, and the channel returns to READY and resumes its queues. -/
  | fchRetrainDone (c : Fin 32) (rates : List (Fin 16 × Nat))
  /-- FCH_OP_READ (R256): A READ operation is accepted into a die queue. -/
  | fchOpRead (c : Fin 32) (o : FlashReq)
  /-- FCH_OP_READ_SOFT (R256): A READ_SOFT operation is accepted into a die queue. -/
  | fchOpReadSoft (c : Fin 32) (o : FlashReq)
  /-- FCH_OP_PROG (R256): A one-pass PROG operation is accepted into a die queue. -/
  | fchOpProg (c : Fin 32) (o : FlashReq)
  /-- FCH_OP_PROG_FOGGY (R256): A PROG_FOGGY operation is accepted into a die queue. -/
  | fchOpProgFoggy (c : Fin 32) (o : FlashReq)
  /-- FCH_OP_PROG_FINE (R256): A PROG_FINE operation is accepted into a die queue. -/
  | fchOpProgFine (c : Fin 32) (o : FlashReq)
  /-- FCH_OP_ERASE (R256): An ERASE operation is accepted into a die queue. -/
  | fchOpErase (c : Fin 32) (o : FlashReq)
  /-- FCH_OP_RESET_LUN (R256): A RESET_LUN operation from the firmware ring is accepted. -/
  | fchOpResetLun (c : Fin 32) (o : FlashReq)
  /-- FCH_OP_READ_ID (R256): A READ_ID or READ_PARAM operation from the firmware ring is accepted. -/
  | fchOpReadId (c : Fin 32) (o : FlashReq)
  /-- FCH_OP_GET_FEATURE (R256): A GET_FEATURE operation from the firmware ring is accepted. -/
  | fchOpGetFeature (c : Fin 32) (o : FlashReq)
  /-- FCH_OP_SET_FEATURE (R256): A SET_FEATURE operation from the firmware ring is accepted. -/
  | fchOpSetFeature (c : Fin 32) (o : FlashReq)
  /-- FCH_OP_CANCEL (R266): CANCEL removes a queued operation that has not started, or is refused for a running one. -/
  | fchOpCancel (c : Fin 32) (o : FlashReq)
  /-- DIE_OP_START (R260): A free die starts its highest-class, oldest eligible operation. -/
  | dieOpStart (die : Fin 512) (aged : List Nat)
  /-- BUS_BURST_GRANT (R261): The channel arbiter grants the next burst by class and age. -/
  | busBurstGrant (die : Fin 512) (aged : List Nat)
  /-- DIE_OP_COMPLETE (R258): A die operation completes with its status, and its completion goes to its submitter. -/
  | dieOpComplete (die : Fin 512) (failed : Bool) (value : Nat) (bytes : List Byte)
  /-- OP_SUSPEND (R263): A running program or erase is suspended for an eligible read. -/
  | opSuspend (die : Fin 512)
  /-- OP_RESUME (R263): The suspended operation resumes when no further read can start. -/
  | opResume (die : Fin 512)
  /-- DIE_HUNG (R267): An operation busy past twice its TMAX plus suspended time makes the sequencer issue Reset LUN. -/
  | dieHung (die : Fin 512)
  /-- DIE_LOST (R268): A die not ready 10 ms after Reset LUN, or with a third TIMEOUT in 60 s, is declared LOST. -/
  | dieLost (die : Fin 512) (burst : Bool)
  /-- FCH_WORK_TAIL_WRITE (R274): A write of FCH_WR_TAIL lets the sequencer fetch firmware operations up to it. -/
  | fchWorkTailWrite (who : Who) (c : Fin 32) (v : Word)
  /-- FCH_DIE_RETIRE_WRITE (R268): A write of FCH_DIE_CTL.RETIRE retires a die for later operations. -/
  | fchDieRetireWrite (who : Who) (c : Fin 32) (d : Fin 16) (v : Word)
  /-- FCH_UC_DATA_WRITE (R276): A write of FCH_UC_DATA stores a microcode word while ENABLE is 0. -/
  | fchUcDataWrite (who : Who) (c : Fin 32) (v : Word)
  /-- CODEWORD_DECODE_DONE (R278): A decoder finishes a codeword, and LDC accepts the payload or treats the step as failed. -/
  | codewordDecodeDone (id : Nat) (zeroSyndrome : Bool) (bits : Nat)
  /-- STRIPE_REBUILD_DONE (R287): PAR's XOR of the survivors ends and is checked, and the winning path cancels the other. -/
  | stripeRebuildDone (id : Nat)
  /-- BUSY_HINT_RECEIVED (R286): LDC receives a busy hint and launches a rebuild-first rebuild. -/
  | busyHintReceived (id : Nat)
  /-- RECOVERY_TIME_LIMIT (R289): A command's recovery time reaches TLER, and it completes with Unrecovered Read Error. -/
  | recoveryTimeLimit (c : CmdId)
  /-- BG_RECOVERY_LIMIT (R293): A recovery entry without a payload ends LIMIT_S seconds after the error completion. -/
  | bgRecoveryLimit (pua : Nat)
  /-- WEAK_BLOCK_EXPIRE (R282): A weak-block cache entry expires after HOLD_S seconds. -/
  | weakBlockExpire (die : Fin 512) (block : Fin 4096)
  /-- TRACKED_THRESHOLD_UPDATE (R283): After MIN_EVENTS soft decodes in an age class, LDC moves that class's tracked threshold entry. -/
  | trackedThresholdUpdate (c : Fin 32) (cls up dn : Fin 16)
  /-- MEMRD (R326): A CXL.mem MemRd is decoded and served by the window engine under the snoop filter. -/
  | memrd (port : Fin 8) (hpa : Nat) (m : Meta) (tag : Nat)
  /-- MEMINV (R326): A MemInv invalidates other holders and grants the line to the requester. -/
  | meminv (port : Fin 8) (hpa tag : Nat)
  /-- MEMRDDATA (R326): A MemRdData is served in state S. -/
  | memrddata (port : Fin 8) (hpa tag : Nat)
  /-- MEMWR (R326): A full-line MemWr is admitted, performed to DRAM and answered with Cmp. -/
  | memwr (port : Fin 8) (hpa : Nat) (m : Meta) (tag : Nat) (data : List Byte) (poison : Bool)
  /-- MEMWRPTL (R326): A partial MemWrPtl is admitted and merged. -/
  | memwrptl (port : Fin 8) (hpa : Nat) (m : Meta) (tag : Nat) (data : List Byte) (mask : Nat) (poison : Bool)
  /-- MEMCLNEVCT (R326): A MemClnEvct removes the requester from the entry. -/
  | memclnevct (port : Fin 8) (hpa tag : Nat)
  /-- MEMSPECRD (R326): A MemSpecRd is dropped. -/
  | memspecrd (port : Fin 8) (hpa tag : Nat)
  /-- BIRSP (R331): A host's BIRsp answers a pending BISnp. -/
  | birsp (port : Fin 8) (line : Nat) (rsp : Meta)
  /-- BICONFLICT (R330): A BIConflict is answered with BIConflictAck behind the responses already served. -/
  | biconflict (port : Fin 8) (line : Nat)
  /-- BISNP_TIMEOUT (R332): An unanswered BISnp times out and is treated as BIRspI. -/
  | bisnpTimeout (port : Fin 8) (line : Nat)
  /-- HELD_WRITE_ADMIT (R319): A held window write is admitted once the dirty count falls below the cap. -/
  | heldWriteAdmit
  /-- GROVE_RECALL (R328): A recall on the snoop channel makes a grove write back or drop its line. -/
  | groveRecall (grove : Fin 16) (line : Nat)
  /-- HDM_DECODER_COMMIT (R306): A decoder Commit sets Committed or reports Error Not Committed, and the first commit latches the port's layout. -/
  | hdmDecoderCommit (port : Fin 8) (dec : Fin 8) (ways gran base size skip : Nat)
  /-- TRICKLE_START (R314): The trickle snapshots a Dirty granule into a buffer and places its copy in a BACKING RU. -/
  | trickleStart
  /-- TRICKLE_COMPLETE (R314): A granule copy closes on NAND, the backing directory takes it, and the granule becomes Clean or Dirty. -/
  | trickleComplete (granule : Nat)
  /-- RETRICKLE_START (R316): With fewer than 2 free BACKING RUs, the live copies of the emptiest RU are marked for re-trickle. -/
  | retrickleStart
  /-- WINDOW_RESTORE_DONE (R322): The window restore ends, STATE becomes Armed or Not armed, and held requests proceed. -/
  | windowRestoreDone (bad : List Nat)
  /-- GPF_PHASE2 (R335): GPF Phase 2 completes every accepted window request within 10 µs. -/
  | gpfPhase2 (port : Fin 8)
  /-- GET_EVENT_RECORDS (R339): The CXL mailbox command Get Event Records returns event records. -/
  | getEventRecords (port : Fin 8) (log : Fin 4)
  /-- CLEAR_EVENT_RECORDS (R339): Clear Event Records clears event records. -/
  | clearEventRecords (port : Fin 8) (log : Fin 4) (all : Bool) (handles : List Nat)
  /-- GET_EVENT_INTERRUPT_POLICY (R339): Get Event Interrupt Policy returns the policy. -/
  | getEventInterruptPolicy (port : Fin 8)
  /-- SET_EVENT_INTERRUPT_POLICY (R339): Set Event Interrupt Policy sets the policy. -/
  | setEventInterruptPolicy (port : Fin 8) (policy : Nat)
  /-- GET_TIMESTAMP (R339): Get Timestamp returns the timestamp. -/
  | getTimestamp (port : Fin 8)
  /-- SET_TIMESTAMP (R339): Set Timestamp sets the timestamp. -/
  | setTimestamp (port : Fin 8) (ns : Nat)
  /-- GET_SUPPORTED_LOGS (R339): Get Supported Logs lists the Command Effects Log. -/
  | getSupportedLogs (port : Fin 8)
  /-- GET_LOG (R339): Get Log returns the Command Effects Log. -/
  | getLog (port : Fin 8) (log : List Byte)
  /-- IDENTIFY_MEMORY_DEVICE (R304): Identify Memory Device reports the latched partition capacities. -/
  | identifyMemoryDevice (port : Fin 8)
  /-- GET_PARTITION_INFO (R303): Get Partition Info reports the active and next capacities. -/
  | getPartitionInfo (port : Fin 8)
  /-- SET_PARTITION_INFO (R304): Set Partition Info completes with Unsupported. -/
  | setPartitionInfo (port : Fin 8)
  /-- GET_HEALTH_INFO (R339): Get Health Info returns life used, temperature and the Dirty Shutdown Count. -/
  | getHealthInfo (port : Fin 8)
  /-- GET_SHUTDOWN_STATE (R339): Get Shutdown State returns the per-port shutdown state. -/
  | getShutdownState (port : Fin 8)
  /-- SET_SHUTDOWN_STATE (R339): Set Shutdown State stores the per-port shutdown state. -/
  | setShutdownState (port : Fin 8) (v : Fin 256)
  /-- GET_POISON_LIST (R324): Get Poison List returns the poisoned lines of the port's DPA space. -/
  | getPoisonList (port : Fin 8) (dpa len : Nat)
  /-- INJECT_POISON (R324): Inject Poison poisons a line. -/
  | injectPoison (port : Fin 8) (dpa : Nat)
  /-- CLEAR_POISON (R324): Clear Poison clears a line's poison. -/
  | clearPoison (port : Fin 8) (dpa : Nat)
  /-- WIN_SLICE_WRITE (R302): A write of WIN_SLICE changes PERSIST or KEY only for an unmapped tenant-0 slice, and resets its granules. -/
  | winSliceWrite (who : Who) (slice : Fin 512) (v : Word)
  /-- WIN_TEN_WRITE (R327): A write of WIN_TEN is stored only if the sum of SF_MIN stays within bound. -/
  | winTenWrite (who : Who) (tenant : Fin 512) (word : Fin 3) (v : Word)
  /-- DMC_TRAIN_DONE (R350): DRAM training ends: the map forms and DMC becomes READY, or it ends FAILED. -/
  | dmcTrainDone (fails : List TrainFail)
  /-- DRAM_READ (R356): A DRAM read is decoded and ends clean, corrected, poisoned or uncorrectable. -/
  | dramRead (a : Acc) (errs : List SymErr) (bitmapErr : Bool)
  /-- DRAM_WRITE (R367): A full-line DRAM write stores a codeword and clears poison, in arrival order for its line. -/
  | dramWrite (a : Acc) (poison : Bool)
  /-- GRANULE_FILL_DONE (R361): The fill ends, the valid bit sets, and the waiting requests are served. -/
  | granuleFillDone (granule : Nat)
  /-- DRAM_NARROW_WRITE (R359): A write narrower than a line is performed by read-modify-write. -/
  | dramNarrowWrite (a : Acc) (errs : List SymErr)
  /-- DMC_MARK_WRITE (R358): A write of DMC_MARK sets or clears a chip mark. -/
  | dmcMarkWrite (who : Who) (sub : Fin 8) (rank : Fin 2) (v : Word)
  /-- DMC_INVALIDATE (R362): A write of DMC_INVAL_CNT clears the valid bits of a granule range. -/
  | dmcInvalidate (who : Who) (v : Word)
  /-- DMC_FLIP_ARM (R369): A write of DMC_FLIP_CTL arms or withdraws a one-time error injection. -/
  | dmcFlipArm (who : Who) (v : Word)
  /-- SCRUB_ACCESS (R365): The patrol scrub reads a line of a valid granule and corrects or poisons it. -/
  | scrubAccess (errs : List SymErr) (superseded : Bool)
  /-- DRAM_REFRESH (R364): A same-bank refresh is issued at its interval. -/
  | dramRefresh (sub : Fin 8) (rank : Fin 2) (bank : Fin 4)
  /-- ENGINE_MEMORY_ACCESS (R376): An engine load, store or AMO outside its tile passes PMP and the tenant gate. -/
  | engineMemoryAccess (eng : Fin 256) (kind : EAcc) (addr size data : Nat)
  /-- WS_OPEN (R391): ws.open copies a stream descriptor and opens the stream or returns an error. -/
  | wsOpen (eng : Fin 256) (rd rs1 rs2 : Fin 32)
  /-- WS_AVAIL (R386): ws.avail returns the available bytes or free ring space. -/
  | wsAvail (eng : Fin 256) (rd rs1 : Fin 32)
  /-- WS_WAIT (R386): ws.wait waits until enough bytes, end of stream or an error. -/
  | wsWait (eng : Fin 256) (rd rs1 rs2 : Fin 32)
  /-- WS_POP (R386): ws.pop consumes input bytes. -/
  | wsPop (eng : Fin 256) (rd rs1 rs2 : Fin 32)
  /-- WS_PUSH (R386): ws.push commits output bytes. -/
  | wsPush (eng : Fin 256) (rd rs1 rs2 : Fin 32)
  /-- WS_PTR (R386): ws.ptr returns the read or write position. -/
  | wsPtr (eng : Fin 256) (rd rs1 : Fin 32)
  /-- WS_CLOSE (R393): ws.close closes a stream, waiting for its output to be issued. -/
  | wsClose (eng : Fin 256) (rd rs1 : Fin 32)
  /-- WS_STAT (R388): ws.stat returns the stream status word. -/
  | wsStat (eng : Fin 256) (rd rs1 : Fin 32)
  /-- WS_JOB (R395): ws.job submits a codec or hash job and returns a ticket. -/
  | wsJob (eng : Fin 256) (rd rs1 rs2 : Fin 32)
  /-- WS_JWAIT (R396): ws.jwait waits for a ticket and returns its result. -/
  | wsJwait (eng : Fin 256) (rd rs1 : Fin 32)
  /-- WS_VPOP (R389): ws.vpop loads vector elements from an input stream. -/
  | wsVpop (eng : Fin 256) (vd rs1 : Fin 32)
  /-- WS_VPUSH (R389): ws.vpush appends active vector elements to an output stream. -/
  | wsVpush (eng : Fin 256) (rd vs2 rs1 : Fin 32) (vm : Bool)
  /-- WS_WSYNC (R398): ws.wsync writes back the engine's dirty window lines and waits for their Cmp. -/
  | wsWsync (eng : Fin 256) (rd : Fin 32)
  /-- WAISET_WAIT_END (R385): A waiting Waiset instruction's condition is met, and the instruction completes. -/
  | waisetWaitEnd (eng : Fin 256)
  /-- STREAM_MU_DELIVERED (R392): A stream MU read completes and is copied into the ring in order, or stops the stream. -/
  | streamMuDelivered (eng : Fin 256) (stream : Fin 8) (limit : Bool)
  /-- JOB_COMPLETE (R396): A codec or hash job ends with bytes written or an error. -/
  | jobComplete (grove : Fin 16) (unit : Fin 2)
  /-- ECALL_EXIT (R402): ecall with a7 = 0 ends the program with an exit value. -/
  | ecallExit (eng : Fin 256)
  /-- ECALL_LOG (R402): ecall with a7 = 1 records PROGRAM_LOG in Rings. -/
  | ecallLog (eng : Fin 256)
  /-- U_MODE_EXCEPTION (R402): A U-mode exception or unknown ecall ends the program with END 1. -/
  | uModeException (eng : Fin 256) (cause : Nat) (interrupt : Bool)
  /-- M_MODE_EXCEPTION (R384): An M-mode exception halts the engine and records GROVE_RUNTIME_FAULT. -/
  | mModeException (eng : Fin 256) (cause mepc : Nat)
  /-- CSR_WSNOTIFY_WRITE (R380): A write of WSNOTIFY stores the value and sets INT_STS.NOTE. -/
  | csrWsnotifyWrite (eng : Fin 256) (v : Nat)
  /-- CSR_WSULIM_WRITE (R380): A write of WSULIM sets the U-mode cycle limit. -/
  | csrWsulimWrite (eng : Fin 256) (v : Nat)
  /-- CSR_WSIPC_WRITE (R380): A write of WSIPC clears mip bits 16 to 18. -/
  | csrWsipcWrite (eng : Fin 256) (v : Nat)
  /-- U_CYCLE_LIMIT (R381): U-mode cycles reach WSULIM, setting mip bit 18. -/
  | uCycleLimit (eng : Fin 256)
  /-- RUNTIME_END_TIMEOUT (R381): A program still running 1 ms after mip bit 17 or 18 is killed. -/
  | runtimeEndTimeout (eng : Fin 256)
  /-- GRV_DOORBELL (R411): A write of GRV_ENG_CTL.DOORBELL sets mip bit 16. -/
  | grvDoorbell (who : Who) (eng : Fin 256)
  /-- GRV_KILL (R382): A write of GRV_ENG_CTL.KILL scrubs the engine and returns it to Assigned. -/
  | grvKill (who : Who) (eng : Fin 256)
  /-- GRV_RETIRE (R382): A write of GRV_ENG_CTL.RETIRE makes the engine Retired. -/
  | grvRetire (who : Who) (eng : Fin 256)
  /-- GRV_ENG_ASSIGN_WRITE (R403): A write of GRV_ENG_ASSIGN assigns an engine under the rules of OP 0Ah. -/
  | grvEngAssignWrite (who : Who) (eng : Fin 256) (v : Word)
  /-- ENGINE_SCRUB_DONE (R383): A scrub ends with the engine re-initialised and Free or Assigned. -/
  | engineScrubDone (eng : Fin 256)
  /-- GRV_SLM_TAG_WRITE (R412): A write of GRV_SLM_TAG tags SLM blocks with tenants. -/
  | grvSlmTagWrite (who : Who) (grove : Fin 16) (k : Fin 4096) (v : Word)
  /-- LOAD_PROGRAM (R403): Load Program stores a Cesan image in a slot. -/
  | loadProgram (c : CmdId)
  /-- PROGRAM_ACTIVATION_MANAGEMENT (R403): Program Activation Management activates or deactivates a slot. -/
  | programActivationManagement (c : CmdId)
  /-- EXECUTE_PROGRAM (R404): Execute Program waits for an Assigned engine of its set. -/
  | executeProgram (c : CmdId) (params : List Byte)
  /-- PROGRAM_DISPATCH (R404): An engine becomes available, and the runtime loads and enters the program. -/
  | programDispatch (c : CmdId)
  /-- MEMORY_RANGE_SET_MANAGEMENT (R405): Memory Range Set Management defines ranges in memory namespaces. -/
  | memoryRangeSetManagement (c : CmdId)
  /-- MEMORY_COPY (R405): Memory Copy reads NVM namespace data into a memory namespace. -/
  | memoryCopy (c : CmdId)
  /-- SLM_READ (R405): A Read of a memory namespace returns SLM data. -/
  | slmRead (c : CmdId)
  /-- SLM_WRITE (R405): A Write of a memory namespace stores SLM data. -/
  | slmWrite (c : CmdId)
  /-- SEC_DATA_REQUEST (R417): An XTS request from the data path is queued in an instance and served by class, or waits. -/
  | secDataRequest (tenant : Nat) (enc : Bool) (slot : Fin 4096) (cls : Fin 4) (tweak : Nat) (data : List Byte)
  /-- KOP_GEN (R426): SEC_KOP GEN loads a slot with a key from the DRBG. -/
  | kopGen (who : Who) (v : Word)
  /-- KOP_LOAD_CLEAR (R426): SEC_KOP LOAD_CLEAR loads a key from Crown SRAM. -/
  | kopLoadClear (who : Who) (v : Word)
  /-- KOP_UNWRAP (R426): SEC_KOP UNWRAP loads a key from a wrapped blob. -/
  | kopUnwrap (who : Who) (v : Word)
  /-- KOP_IMPORT_GCM (R426): SEC_KOP IMPORT_GCM GCM-decrypts a key into a slot of the same tenant. -/
  | kopImportGcm (who : Who) (v : Word)
  /-- KOP_WRAP (R426): SEC_KOP WRAP wraps a slot under a KEK. -/
  | kopWrap (who : Who) (v : Word)
  /-- KOP_ZERO (R426): SEC_KOP ZERO zeroes an unbound slot. -/
  | kopZero (who : Who) (v : Word)
  /-- KOP_BIND_NS (R426): SEC_KOP BIND_NS binds or unbinds a namespace to an XTS slot. -/
  | kopBindNs (who : Who) (v : Word)
  /-- KOP_REKEY (R422): SEC_KOP REKEY pauses placement, waits for encryptions, and moves CUR to PREV. -/
  | kopRekey (who : Who) (v : Word)
  /-- KOP_RESUME (R422): SEC_KOP RESUME clears PAUSED, and allocation or trickle resumes. -/
  | kopResume (who : Who) (v : Word)
  /-- KOP_RELEASE (R423): SEC_KOP RELEASE zeroes PREV once no RU of the old epoch remains. -/
  | kopRelease (who : Who) (v : Word)
  /-- KOP_RESTORE (R426): SEC_KOP RESTORE reloads an XTS slot's state from a record under KEK 0. -/
  | kopRestore (who : Who) (v : Word)
  /-- KOP_COMPLETE (R426): A SEC_KOP operation ends with its status and sets KOP_DONE. -/
  | kopComplete
  /-- PREV_DRAINED (R423): In GSEQ mode, no granule copy below REF remains, so PREV is released. -/
  | prevDrained (slot : Fin 4096)
  /-- SEC_WORK_TAIL_WRITE (R427): A write of SEC_WR_TAIL lets SEC fetch ring entries up to it, and a malformed entry puts the device in Fault. -/
  | secWorkTailWrite (who : Who) (v : Word)
  /-- GCM_ENC (R424): A ring GCM_ENC forms the IV from the slot and encrypts. -/
  | gcmEnc
  /-- GCM_DEC (R425): A ring GCM_DEC verifies the tag before it writes plaintext. -/
  | gcmDec
  /-- XTS_ENC (R416): A ring XTS_ENC encrypts data units with the DUN tweak. -/
  | xtsEnc
  /-- XTS_DEC (R416): A ring XTS_DEC decrypts data units. -/
  | xtsDec
  /-- ENTROPY_HEALTH_FAIL (R433): A repetition-count or adaptive-proportion test fails, and DRBG_OK clears. -/
  | entropyHealthFail (apt : Bool)
  /-- MASK_RESEED (R417): Every 1 ms the DRBG reseeds the hardening mask generator. -/
  | maskReseed
  /-- DRBG_RESEED (R434): After 2^20 generate requests the DRBG reseeds. -/
  | drbgReseed
  /-- SEC_RNG_RESEED_WRITE (R434): A write of SEC_RNG_RESEED reseeds the DRBG. -/
  | secRngReseedWrite (who : Who) (v : Word)
  /-- SEC_RNG_DATA_READ (R434): A read of SEC_RNG_DATA returns 32 bits of DRBG output, or zero. -/
  | secRngDataRead (who : Who)
  /-- PKE_SIGN (R429): PKE SIGN signs a digest. -/
  | pkeSign (who : Who) (v : Word)
  /-- PKE_VERIFY (R429): PKE VERIFY checks a signature. -/
  | pkeVerify (who : Who) (v : Word)
  /-- PKE_ECDH (R429): PKE ECDH computes a shared x-coordinate. -/
  | pkeEcdh (who : Who) (v : Word)
  /-- PKE_KEYGEN (R429): PKE KEYGEN generates a key into slot 2 to 7. -/
  | pkeKeygen (who : Who) (v : Word)
  /-- PKE_PUBGEN (R429): PKE PUBGEN computes a public key. -/
  | pkePubgen (who : Who) (v : Word)
  /-- PKE_VALIDATE (R429): PKE VALIDATE checks a public point. -/
  | pkeValidate (who : Who) (v : Word)
  /-- PKE_OP_DONE (R431): A PKE operation ends at its fixed time with its status. -/
  | pkeOpDone
  /-- PKE_KEY_ZERO_WRITE (R432): A write of PKE_KEY_ZERO zeroes PKE slots 2 to 7. -/
  | pkeKeyZeroWrite (who : Who) (v : Word)
  /-- SPDM_REQUEST (R435): An SPDM request through DOE or MCTP is served by the one responder. -/
  | spdmRequest (via : Option (Fin 8)) (r : SpdmReq)
  /-- GET_MEASUREMENTS (R436): GET_MEASUREMENTS returns the SHA-384 measurements. -/
  | getMeasurements (via : Option (Fin 8)) (index : Fin 256) (signed : Bool)
  /-- SPDM_HEARTBEAT_EXPIRY (R435): A session's 60 s heartbeat period expires. -/
  | spdmHeartbeatExpiry (session : Nat)
  /-- SPDM_CLEAR_RINGS (R564): The SPDM vendor request from an operator session clears Rings up to UPTO. -/
  | spdmClearRings (via : Option (Fin 8)) (session : Nat) (upto : Nat)
  /-- VIN_START (R442): VIN held at or above 8.8 V for 10 ms moves Cambium from Off to Soft-start. -/
  | vinStart (vin : Nat)
  /-- SOFT_START_DONE (R444): Every rail is in tolerance, PWR_GOOD asserts, and Cambium enters Charging. -/
  | softStartDone (straps : Fin 128)
  /-- VIN_POWER_FAIL (R442): VIN stays below FAIL_MV for DEGLITCH_US and raises the power-loss signal. -/
  | vinPowerFail (vin : Nat)
  /-- VIN_OVER_VOLTAGE (R442): VIN above 62 V for 10 µs opens the input switch and raises the power-loss signal. -/
  | vinOverVoltage (vin : Nat)
  /-- FLUSH_COMPLETE (R457): The flush writes its trailer and the rails fall, and Cambium enters Bleed or restarts. -/
  | flushComplete (index : Bool) (written : Nat) (trailer : Bool) (vhold dur : Nat) (vin : Bool)
  /-- VIN_RETURN_BLEED (R459): VIN meets the start condition during Bleed and causes a restart. -/
  | vinReturnBleed (vin : Nat)
  /-- BLEED_END (R462): VHOLD falls below 5 V, and Cambium becomes Off. -/
  | bleedEnd
  /-- RAIL_FAULT (R445): A rail outside ±5 % for 50 µs is in fault, with the outcome for that rail. -/
  | railFault (rail : Fin 16)
  /-- BANK_CHARGED (R446): VHOLD reaches VSET_MV, and Cambium enters Protected. -/
  | bankCharged (vhold : Nat)
  /-- VHOLD_SAG (R446): VHOLD below VSET_MV − 2 V for 1 s returns Cambium to Charging. -/
  | vholdSag (vhold : Nat)
  /-- CHARGER_FAULT (R448): Over-voltage or a slow charge stops the charger and invalidates the ledger with cause 9. -/
  | chargerFault
  /-- PWR_MEASURE_WRITE (R449): A write of PWR_CMD.MEASURE in Protected starts a bank measurement. -/
  | pwrMeasureWrite (who : Who)
  /-- BANK_MEASURE_PERIODIC (R449): A measurement starts at the first Protected entry, every PERIOD_H, or 10 min after a failure. -/
  | bankMeasurePeriodic
  /-- BANK_MEASURE_DONE (R449): The discharge timing ends, and C and ESR are recorded or the measurement fails. -/
  | bankMeasureDone (drop dt : Nat)
  /-- APST_TRANSITION (R463): An idle period expires, and the controller's request moves autonomously to PS3 or PS4. -/
  | apstTransition (mid : Nat)
  /-- SEED_SAMPLE (R469): Every 60 s the Seed domain samples temperature and VBAT. -/
  | seedSample (temp vbat : Nat)
  /-- TAMPER_ALARM (R472): A tamper input at its active level for 1 ms raises an alarm and may zeroize. -/
  | tamperAlarm (input : Fin 2)
  /-- VBAT_SWITCHOVER (R466): The Seed domain moves to the cell or back, raising VIN_LOSS or VIN_RETURN. -/
  | vbatSwitchover (toCell : Bool) (vin : Nat)
  /-- AON_RTC_SET_WRITE (R468): A write of AON_RTC_SET_HI sets the RTC and RTC_VALID. -/
  | aonRtcSetWrite (who : Who) (v : Word)
  /-- AON_OPSEC_SET_WRITE (R468): A write of AON_OPSEC_SET_HI restores the operating seconds while CNT_VALID is 0. -/
  | aonOpsecSetWrite (who : Who) (v : Word)
  /-- AON_PWRCYC_SET_WRITE (R468): A write of AON_PWRCYC_SET restores the power-cycle count and sets CNT_VALID. -/
  | aonPwrcycSetWrite (who : Who) (v : Word)
  /-- AON_RING_CLR_WRITE (R471): A write of AON_RING_CLR empties the cell ring. -/
  | aonRingClrWrite (who : Who)
  /-- DEV_RST_N_ASSERT (R478): DEV_RST_N held low for 10 µs starts a reset flush and a device reset. -/
  | devRstNAssert
  /-- DEV_RST_N_DEASSERT (R480): DEV_RST_N high with PWR_GOOD sets t0, latches the straps and starts the power-up timeline. -/
  | devRstNDeassert (straps : Fin 128)
  /-- TOP_DEV_RST_WRITE (R478): A write of TOP_RST_CTL.DEV_RST starts a reset flush and a device reset. -/
  | topDevRstWrite (who : Who)
  /-- POWER_UP_BIST_DONE (R494): Power-up BIST ends, and a failure holds the device in reset. -/
  | powerUpBistDone (fails : List (Fin 128 × Fin 4 × Fin 256)) (ms : Nat)
  /-- FUSE_SENSE_START (R487): FUS senses the array at power-up, every 24 h, on a 40 °C change or on SENSE_NOW. -/
  | fuseSenseStart (now : Option Who)
  /-- FUSE_SENSE_DONE (R485): A sensing ends, and every word is resolved by class. -/
  | fuseSenseDone (l : List FuseWord)
  /-- FUSE_PROGRAM_WORD (R489): FUS_PROG_CTL OP 1 blows a word's bits and verifies it. -/
  | fuseProgramWord (who : Who)
  /-- FUSE_GENERATE_SECRET (R489): FUS_PROG_CTL OP 2 fills DEVICE_SECRET from the DRBG. -/
  | fuseGenerateSecret (who : Who)
  /-- FUSE_PROGRAM_DONE (R489): A fuse program operation ends with its RESULT. -/
  | fuseProgramDone (ok : Bool) (k : Fin 8) (b0 b1 : Word)
  /-- DEBUG_UNLOCK (R491): A signed debug unlock opens Crown debug, or scan as well. -/
  | debugUnlock (level : Fin 4) (key : Fin 5) (ok : Bool)
  /-- JTAG_SCAN_ENABLE (R492): A JTAG scan enable clears every secret store and puts the device in Fault. -/
  | jtagScanEnable
  /-- JTAG_STATUS (R492): The JTAG STATUS instruction returns status registers only. -/
  | jtagStatus
  /-- JTAG_TRST (R478): TRST_N resets the test access port. -/
  | jtagTrst
  /-- BIST_SLICE_START (R495): An in-service slice isolates a resource, clears its secrets and tests it. -/
  | bistSliceStart (kind : Fin 6) (rgn : Fin 128) (unit : Fin 256)
  /-- BIST_SLICE_DONE (R496): A slice ends, re-initialising the resource or retiring it on failure. -/
  | bistSliceDone (kind : Fin 6) (fail mem : Bool)
  /-- BIST_SLICE_ABANDON (R493): A broken precondition abandons the slice without counting a failure. -/
  | bistSliceAbandon
  /-- CHECKER_FAILURE (R496): An uncorrectable continuous-checker event retires its block, or puts the device in Fault. -/
  | checkerFailure (rgn : Fin 128)
  /-- CRN_RUN_WRITE (R502): A write of CRN_RUN releases a Crown core at CRN_START. -/
  | crnRunWrite (who : Who) (v : Word)
  /-- CWD_ENABLE (R503): A write of CWD_CTL.EN enables a core's watchdog until device reset. -/
  | cwdEnable (who : Who) (core : Fin 4) (v : Word)
  /-- CWD_KICK (R503): A write of 0x5EED to CWD_KICK restarts stage 1, and any other value records KICK. -/
  | cwdKick (who : Who) (core : Fin 4) (v : Word)
  /-- WATCHDOG_STAGE1 (R503): T1 expires, and the core receives a non-maskable interrupt. -/
  | watchdogStage1 (core : Fin 4)
  /-- WATCHDOG_STAGE2 (R503): T2 expires, and the other cores are interrupted and CROWN_WDT is recorded. -/
  | watchdogStage2 (core : Fin 4)
  /-- WATCHDOG_STAGE3 (R503): T3 expires, and a reset flush and device reset with cause 4 follow. -/
  | watchdogStage3 (core : Fin 4)
  /-- TAP_SEQUENCE_WRITE (R507): A write of TAP_KEY, TAP_ADDR or TAP_DATA advances the program or erase sequence, or breaks it. -/
  | tapSequenceWrite (who : Who) (reg : Fin 4) (v : Word) (late : Bool)
  /-- TAP_PROGRAM (R507): A completed sequence with OP PROGRAM programs and verifies a page. -/
  | tapProgram (who : Who) (v : Word)
  /-- TAP_ERASE (R507): A completed sequence with OP ERASE erases and verifies a sector. -/
  | tapErase (who : Who)
  /-- TAP_MARGIN (R507): A completed sequence with OP MARGIN reads a page at both margin references. -/
  | tapMargin (who : Who)
  /-- TAP_OP_COMPLETE (R508): A Taproot operation ends with TAP_RESULT.CODE and invalidates the cached lines. -/
  | tapOpComplete (fail l h : Bool)
  /-- TAP_BANK_READ (R509): A read of the bank under program or erase suspends the operation, or waits. -/
  | tapBankRead (a : Acc) (ecc : Fin 3) (waits : Bool)
  /-- TAP_OP_RESUME (R509): With no read of the bank for 1 µs, the suspended operation resumes. -/
  | tapOpResume
  /-- MAILBOX_POST (R515): A TAG write posts a notice, sets FULL and rings the receiver's doorbell, or overruns. -/
  | mailboxPost (who : Option Who) (m : Fin 32) (slot : Fin 2) (tag : Word)
  /-- MAILBOX_ACK (R515): An ACK write clears FULL and raises the sender's empty-interrupt. -/
  | mailboxAck (who : Option Who) (m : Fin 32) (slot : Fin 2)
  /-- HUHILD_HELLO (R518): A HELLO starts a Huhild session and offers the supported versions. -/
  | huhildHello (m : Fin 32) (slot : Fin 2) (pairs : List (Fin 256 × Fin 256))
  /-- HUHILD_HELLO_ACK (R518): HELLO_ACK names the common version. -/
  | huhildHelloAck (m : Fin 32) (slot : Fin 2) (pairs : List (Fin 256 × Fin 256))
  /-- HUHILD_MESSAGE (R517): Any other Huhild message is served, or answered NOT_READY before HELLO_ACK. -/
  | huhildMessage (m : Fin 32) (slot : Fin 2) (typ : Fin 65536)
  /-- XMV_CH_TAIL_WRITE (R519): A write of XMV_CH_TAIL lets the channel fetch descriptors up to it. -/
  | xmvChTailWrite (who : Who) (ch : Fin 64) (v : Word)
  /-- XMV_DESCRIPTOR_ARRIVAL (R521): A fetched descriptor is checked and its transfer starts, or it is written back MALFORMED. -/
  | xmvDescriptorArrival (ch : Fin 64)
  /-- XMV_RESPONSE (R524): A read or write response arrives, advancing DONE or stopping the channel with an error. -/
  | xmvResponse (ch : Fin 64)
  /-- XMV_STOP (R526): A write of CTL.STOP finishes the current descriptor and stops the channel. -/
  | xmvStop (who : Who) (ch : Fin 64)
  /-- XMV_ABORT (R526): A write of CTL.ABORT stops issuing and writes back ABORTED. -/
  | xmvAbort (who : Who) (ch : Fin 64)
  /-- XMV_EN_WRITE (R526): A write of CTL.EN makes a stopped channel IDLE, or resumes it from HEAD. -/
  | xmvEnWrite (who : Who) (ch : Fin 64) (v : Word)
  /-- XMV_STEP_WRITE (R522): A write of XMV_CH_STEP adds software-paced credits. -/
  | xmvStepWrite (who : Who) (ch : Fin 64) (v : Word)
  /-- XMV_REQUEST_LINE_EDGE (R522): A rising edge on a request line adds one credit. -/
  | xmvRequestLineEdge (line : Fin 16)
  /-- XMV_SWREQ_WRITE (R522): A write of XMV_SWREQ pulses software request lines. -/
  | xmvSwreqWrite (who : Who) (v : Word)
  /-- FIRMWARE_IMAGE_DOWNLOAD (R540): Firmware Image Download programs the next piece of the inactive slot. -/
  | firmwareImageDownload (c : CmdId) (fail : Bool)
  /-- FIRMWARE_COMMIT (R541): Firmware Commit copies INHERIT parts, checks the image and writes a COMMIT ticket. -/
  | firmwareCommit (c : CmdId) (secret : Bool)
  /-- COMMIT_GRAFT_CONFIRM (R548): Commit Graft action 0 confirms a trial image. -/
  | commitGraftConfirm (c : CmdId)
  /-- COMMIT_GRAFT_REJECT (R548): Commit Graft action 1 writes a REJECT ticket. -/
  | commitGraftReject (c : CmdId)
  /-- TRIAL_CONFIRM_TIMEOUT (R547): Operating seconds reach TRIAL_OPSEC + 7,200 without a fault, and the trial is confirmed. -/
  | trialConfirmTimeout
  /-- CLEAR_RINGS_GET_NONCE (R564): Clear Rings action 0 returns a fresh nonce. -/
  | clearRingsGetNonce (c : CmdId)
  /-- CLEAR_RINGS_CLEAR (R565): Clear Rings action 1 verifies a token and raises the clear floor. -/
  | clearRingsClear (c : CmdId) (sig : Bool)
  /-- NONCE_EXPIRE (R564): A Clear Rings nonce expires after 600 s. -/
  | nonceExpire
  /-- EVENT_ARRIVAL (R555): An event reaches EVR and is stamped and admitted to a new record, folded, or dropped. -/
  | eventArrival
  /-- RECORD_CLOSE_TIMEOUT (R556): An open record closes 1 s after its first event and takes its SEQ. -/
  | recordCloseTimeout
  /-- PAGE_SEAL_TIMEOUT (R559): A partial page is sealed BATCH_MS after its first record closed. -/
  | pageSealTimeout
  /-- SEAL_ALL (R559): A write of EVR_CMD.SEAL_ALL closes every open record and seals the partial page. -/
  | sealAll (who : Who)
  /-- EVR_POST_GO (R569): A write of EVR_POST_GO posts a firmware event. -/
  | evrPostGo (who : Who) (core : Fin 4)
  /-- EVR_DRAIN_ACK (R560): A write of EVR_DRAIN_ACK frees the oldest sealed page's slots. -/
  | evrDrainAck (who : Who)
  /-- EVR_ENABLE (R558): Setting EVR_CFG.EN closes RESET first and then the early records. -/
  | evrEnable (who : Who) (v : Word)
  /-- TEMP_SENSOR_SAMPLE (R618): TOP_TEMP is sampled every 1 ms, applying warning or critical pacing and THERM_ALERT_N. -/
  | tempSensorSample (top conv : Nat)
  /-- THERMAL_TRIP (R620): TOP_TEMP at 115 °C for 1 ms raises the power-loss signal and holds the module off until it cools. -/
  | thermalTrip
  /-- ASPM_L1_REQUEST (R60): The partner requests entry to ASPM L1, which the port accepts in PCIe mode while L1_EN is 1 and refuses in CXL mode. -/
  | aspmL1Request (p : Fin 8)
  /-- FCH_DETECT_DONE (R250): Every die of a channel has reported ready and returned the signature, so DETECT ends and the channel enters IDENT. -/
  | fchDetectDone (c : Fin 32) (answered : List (Fin 16))
  /-- SEC_REQUEST_DONE (R417): An AES instance finishes a queued XTS or GCM request and returns its result to the requester. -/
  | secRequestDone (queue : Fin 12)
  /-- DMC_INVALIDATE_DONE (R362): An invalidate clears its last valid bit, and DMC_INVAL_STS.BUSY returns to 0. -/
  | dmcInvalidateDone
  /-- ENTROPY_STARTUP_DONE (R433): The start-up health tests over 1,024 samples pass, and DRBG_OK and SEC_RNG_STS.READY read 1. -/
  | entropyStartupDone
  /-- PWR_MEAS_AGE_EXPIRY (R454): The age of the last successful bank measurement passes PERIOD_H + 2 h, and the ledger becomes invalid with cause 2. -/
  | pwrMeasAgeExpiry
  /-- BIST_PRECONDITION_TIMEOUT (R493): At power-up, PLL lock and rails in tolerance are not met within 100 ms, so PRECOND_FAIL is set and the device is held in reset. -/
  | bistPreconditionTimeout
  /-- SEED_DOMAIN_POWER_UP (R446): The Seed domain gains power after it had none, Cambium enters Off, and AON_STS.RTC_VALID and CNT_VALID read 0 where the cell had fallen below 2.0 V. -/
  | seedDomainPowerUp (cellLost : Bool)
  /-- NVME_MI_REQUEST (R576): An NVMe-MI message over MCTP arrives on the management bus and is served, including log reads and reset requests in Fault. -/
  | nvmeMiRequest (r : MiReq)
  deriving DecidableEq, Repr

end Sys2Proof
end

