-- ==== Sys2Proof/Config.lean ====
section
/-! DEFINITION. What an implementation fixes and what the spec leaves open: constants without a body. A value the
spec leaves free is one of these functions applied to the counter `freeCtr` of the state, or to the
operands it depends on; nothing can evaluate it. -/

namespace Sys2Proof

/-- A free number: the n-th value that the spec does not state. -/
opaque Config.freeNat : Nat → Nat

/-- A free bit. -/
opaque Config.freeBit : Nat → Bool

/-- The bytes of the boot ROM, whose contents the spec does not give (R19). -/
opaque Config.romByte : Nat → Byte

/-- Output of the DRBG (R434). -/
opaque Config.drbg : Nat → Word

/-- The snoop-filter set of a window line under a boot key (R325). -/
opaque Config.sfHash : Nat → Nat → Nat

/-- Key derivation from the device secret (R414, R482): purpose, secret, context and the byte's place. The spec names no function. -/
opaque Config.kdf : Nat → List Byte → List Byte → Nat → Byte

/-- The boot ROM's safe default of a TRIM word (R485). -/
opaque Config.trimDefault : Nat → Word

/-- The codecs of the groves (R396): operation, level and source give a free number that selects the outcome, and the output bytes. The
formats are those of RFC 8878 and RFC 1951, which the spec names and does not restate. -/
opaque Config.codec : Nat → Nat → List Byte → Nat × List Byte

end Sys2Proof
end

