-- ==== Sys2Proof/Machine/RegMap.lean ====
section
/-! DEFINITION. The register map: one descriptor for every register of every block (R30, R31, R35 and the
register tables of the chapters), with its access kinds (R8), its reset value and its reserved encodings
(R9). The common header of page 0 is not listed here: RegView and RegWrite form it. -/

namespace Sys2Proof.Machine

/-- The block kinds of R31. -/
inductive Blk where
  | top
  | trk
  | pwr
  | aon
  | fus
  | bst
  | evr
  | mbx
  | tap
  | xmv
  | sec
  | pke
  | bpm
  | hqe
  | ftl
  | cpc
  | prt
  | win
  | par
  | ldc
  | dmc
  | fch
  | grv
  deriving DecidableEq, Repr

/-- A field [hi:lo] whose encodings outside {min, min + step, …, max} are reserved (R9). -/
structure Enc where
  hi : Nat
  lo : Nat
  min : Nat
  max : Nat
  step : Nat
  deriving DecidableEq, Repr

/-- A register or a register array of one or two dimensions, with the bit mask of each access kind. -/
structure RegDesc where
  name : String
  off : Nat
  n : Nat := 1
  stride : Nat := 4
  n2 : Nat := 1
  stride2 : Nat := 4
  reset : BitVec 32 := 0
  rw : BitVec 32 := 0
  rwl : BitVec 32 := 0
  w1c : BitVec 32 := 0
  w1s : BitVec 32 := 0
  wo : BitVec 32 := 0
  rc : BitVec 32 := 0
  ro : BitVec 32 := 0
  enc : List Enc := []
  deriving DecidableEq, Repr

/-- Registers of TOP (R41, R498, R602). -/
def regsTop : List RegDesc := [
  { name := "TOP_DEV_STS", off := 0x100, ro := 0x7F0F07 },
  { name := "TOP_RST_CAUSE", off := 0x104, ro := 0x1F },
  { name := "TOP_RST_CTL", off := 0x108, w1s := 0x1 },
  { name := "TOP_BOOT_STS", off := 0x10C, ro := 0x10FF3 },
  { name := "TOP_STRAP", off := 0x110, ro := 0x7F },
  { name := "TOP_PLL_STS", off := 0x114, ro := 0x7FF },
  { name := "TOP_TEMP", off := 0x118, ro := 0xFFFF },
  { name := "TOP_BOOT_TIME", off := 0x11C, ro := 0xFFFF },
  { name := "TOP_GPIO_OUT", off := 0x120, rw := 0xFFFF },
  { name := "TOP_GPIO_OE", off := 0x124, rw := 0xFFFF },
  { name := "TOP_GPIO_OD", off := 0x128, rw := 0xFFFF },
  { name := "TOP_GPIO_IN", off := 0x12C, ro := 0xFFFF },
  { name := "TOP_GPIO_CLAIM", off := 0x130, ro := 0xFFFF },
  { name := "TOP_LED_CTL", off := 0x134, reset := 0x100, rw := 0x1FF },
  { name := "TOP_RGN_CTL", off := 0x1000, n := 128, ro := 0xFFFFFFFF },
  { name := "TOP_RGN_STS", off := 0x1200, n := 128, ro := 0xFFFFFFFF }]

/-- Registers of TRK (R49, R130, R153). -/
def regsTrk : List RegDesc := [
  { name := "TRK_TIMEOUT", off := 0x100, reset := 0x7D0, rw := 0x1FFFF, enc := [⟨16, 0, 1000, 100000, 1⟩] },
  { name := "TRK_LATE_CNT", off := 0x104, rc := 0xFFFFFFFF },
  { name := "BARK_SEL", off := 0x108, rw := 0x7F },
  { name := "BARK_TGT", off := 0x10C, ro := 0xFF },
  { name := "BARK_DENY_CNT", off := 0x110, rc := 0xFFFFFFFF },
  { name := "TRK_HOLD_CNT", off := 0x114, rc := 0xFFFFFFFF },
  { name := "BARK_ENTRY", off := 0x1000, n := 256, rw := 0xFFFFFFFF },
  { name := "TRK_FN_TENANT", off := 0x2000, n := 512, rw := 0x1FF },
  { name := "TRK_BCAST_SKIP_FCH", off := 0xF000, w1c := 0xFFFFFFFF },
  { name := "TRK_BCAST_SKIP_GRV", off := 0xF004, w1c := 0xFFFF },
  { name := "TRK_BCAST_SKIP_PRT", off := 0xF008, w1c := 0xFF },
  { name := "TRK_BCAST_LAST", off := 0xF00C, ro := 0x3FFF7F }]

/-- Registers of PWR (R476). -/
def regsPwr : List RegDesc := [
  { name := "PWR_STS", off := 0x100, ro := 0x1FFF },
  { name := "PWR_VIN", off := 0x104, ro := 0xFFFF },
  { name := "PWR_VHOLD", off := 0x108, ro := 0xFFFF },
  { name := "PWR_IN_P", off := 0x10C, ro := 0x3FF },
  { name := "PWR_RAIL_STS", off := 0x110, ro := 0xFFF0FFF },
  { name := "PWR_VIN_CFG", off := 0x114, reset := 0xA2134, rwl := 0xFFFFFF, enc := [⟨15, 0, 8000, 45000, 1⟩, ⟨23, 16, 1, 100, 1⟩] },
  { name := "PWR_BANK_CFG", off := 0x118, reset := 0x2EE0DAC0, rwl := 0xFFFFFFFF, enc := [⟨15, 0, 20000, 58000, 1⟩, ⟨31, 16, 8000, 20000, 1⟩] },
  { name := "PWR_BANK_LIM", off := 0x11C, reset := 0x640014, rwl := 0x3FF03FF, enc := [⟨9, 0, 10, 400, 1⟩, ⟨25, 16, 10, 500, 1⟩] },
  { name := "PWR_CHG", off := 0x120, reset := 0x28, rw := 0x3F, enc := [⟨5, 0, 5, 40, 1⟩] },
  { name := "PWR_MEAS_CFG", off := 0x124, reset := 0x18, rw := 0x3F, enc := [⟨5, 0, 1, 48, 1⟩] },
  { name := "PWR_CMD", off := 0x128, w1s := 0x1 },
  { name := "PWR_C_MEAS", off := 0x12C, ro := 0xFFFFF },
  { name := "PWR_ESR_MEAS", off := 0x130, ro := 0xFFFF },
  { name := "PWR_MEAS_AGE", off := 0x134, reset := 0xFFFFFF, ro := 0xFFFFFF },
  { name := "PWR_FLUSH_COST", off := 0x138, reset := 0xA283A98, rwl := 0xFFFFFFFF, enc := [⟨15, 0, 1000, 65535, 1⟩, ⟨31, 16, 100, 65535, 1⟩] },
  { name := "PWR_FLUSH_P", off := 0x13C, reset := 0x90, rwl := 0x3FF, enc := [⟨9, 0, 50, 320, 1⟩] },
  { name := "PWR_E_USE", off := 0x140, ro := 0xFFFFF },
  { name := "PWR_GRANT", off := 0x144, ro := 0xFFFFF },
  { name := "PWR_GRANT_MAX", off := 0x148, rwl := 0xFFFFF },
  { name := "PWR_WB_REQ", off := 0x14C, reset := 0x4000, rw := 0xFFFFF },
  { name := "PWR_WIN_MIN", off := 0x150, reset := 0x400, rw := 0xFFFFF },
  { name := "PWR_WB_SHARE", off := 0x154, ro := 0xFFFFF },
  { name := "PWR_WIN_SHARE", off := 0x158, ro := 0xFFFFF },
  { name := "PWR_WB_USED", off := 0x15C, ro := 0xFFFFF },
  { name := "PWR_COMMIT", off := 0x160, ro := 0xFFFFF },
  { name := "PWR_PS_CAP", off := 0x164, rw := 0x7, enc := [⟨2, 0, 0, 4, 1⟩] },
  { name := "PWR_FLUSH_CNT", off := 0x168, rc := 0xFFFFFFFF },
  { name := "PWR_MEAS_CNT", off := 0x16C, rc := 0xFFFFFFFF }]

/-- Registers of AON (R477). -/
def regsAon : List RegDesc := [
  { name := "AON_STS", off := 0x100, ro := 0x7FFF3F },
  { name := "AON_VBAT", off := 0x104, ro := 0xFFFF },
  { name := "AON_RTC_LO", off := 0x108, ro := 0xFFFFFFFF },
  { name := "AON_RTC_HI", off := 0x10C, ro := 0xFF },
  { name := "AON_RTC_SET_LO", off := 0x110, wo := 0xFFFFFFFF },
  { name := "AON_RTC_SET_HI", off := 0x114, wo := 0xFF },
  { name := "AON_OPSEC_LO", off := 0x118, ro := 0xFFFFFFFF },
  { name := "AON_OPSEC_HI", off := 0x11C, ro := 0xFF },
  { name := "AON_PWRCYC", off := 0x120, ro := 0xFFFFFFFF },
  { name := "AON_OPSEC_SET_LO", off := 0x124, wo := 0xFFFFFFFF },
  { name := "AON_OPSEC_SET_HI", off := 0x128, wo := 0xFF },
  { name := "AON_PWRCYC_SET", off := 0x12C, wo := 0xFFFFFFFF },
  { name := "AON_TEMP_CFG", off := 0x130, reset := 0x5D855, rw := 0x1FFFFF, enc := [⟨20, 16, 1, 20, 1⟩] },
  { name := "AON_TEMP", off := 0x134, ro := 0xFFFF },
  { name := "AON_TAMPER_CFG", off := 0x138, rwl := 0x1F },
  { name := "AON_ALARM_EN", off := 0x13C, reset := 0x7F, rw := 0x7F },
  { name := "AON_RING_CLR", off := 0x140, w1s := 0x1 },
  { name := "AON_RING_POS", off := 0x144, ro := 0xFF },
  { name := "AON_RING", off := 0x200, n := 512, ro := 0xFFFFFFFF }]

/-- Registers of FUS (R499). -/
def regsFus : List RegDesc := [
  { name := "FUS_STS", off := 0x100, ro := 0x1F0F },
  { name := "FUS_LIFECYCLE", off := 0x104, ro := 0x707 },
  { name := "FUS_DEBUG", off := 0x108, ro := 0xF0F },
  { name := "FUS_SVN", off := 0x10C, ro := 0xFFFF },
  { name := "FUS_REVOKE", off := 0x110, ro := 0x1F },
  { name := "FUS_CLASS_CNT", off := 0x114, ro := 0x7FF07FF },
  { name := "FUS_SENSE_CTL", off := 0x118, w1s := 0x1 },
  { name := "FUS_SENSE_TEMP", off := 0x11C, ro := 0xFFFF },
  { name := "FUS_DRIFT_CNT", off := 0x120, rc := 0xFFFFFFFF },
  { name := "FUS_PROG_ADDR", off := 0x124, rw := 0x3FF },
  { name := "FUS_PROG_DATA", off := 0x128, rw := 0xFFFFFFFF },
  { name := "FUS_PROG_CTL", off := 0x12C, wo := 0x3 },
  { name := "FUS_PROG_STS", off := 0x130, ro := 0xF1 },
  { name := "FUS_CLASS", off := 0x200, n := 64, ro := 0xFFFFFFFF },
  { name := "FUS_WORD", off := 0x1000, n := 1024, ro := 0xFFFFFFFF }]

/-- Registers of BST (R500). -/
def regsBst : List RegDesc := [
  { name := "BST_STS", off := 0x100, ro := 0xF },
  { name := "BST_PU_FAIL", off := 0x104, n := 4, ro := 0xFFFFFFFF },
  { name := "BST_FAIL_INFO", off := 0x114, ro := 0xFF0F7F, w1c := 0x80000000 },
  { name := "BST_SLICE_CFG", off := 0x118, reset := 0x180201, rw := 0xFFFF01, enc := [⟨15, 8, 1, 10, 1⟩, ⟨23, 16, 1, 168, 1⟩] },
  { name := "BST_SLICE_POS", off := 0x11C, ro := 0x8000FF7F },
  { name := "BST_SLICE_CNT", off := 0x120, rc := 0xFFFFFFFF },
  { name := "BST_SLICE_FAIL_CNT", off := 0x124, rc := 0xFFFFFFFF },
  { name := "BST_ABORT_CNT", off := 0x128, rc := 0xFFFFFFFF },
  { name := "BST_PU_TIME", off := 0x12C, ro := 0xFFFF }]

/-- Registers of EVR (R568, R569, R570). -/
def regsEvr : List RegDesc := [
  { name := "EVR_CFG", off := 0x100, reset := 0xA0002, rw := 0xFF0003, enc := [⟨23, 16, 1, 100, 1⟩] },
  { name := "EVR_STS", off := 0x104, ro := 0x3FF1FFF },
  { name := "EVR_PAGES", off := 0x108, ro := 0x3FF },
  { name := "EVR_SEQ_NEXT_LO", off := 0x10C, rw := 0xFFFFFFFF },
  { name := "EVR_SEQ_NEXT_HI", off := 0x110, rw := 0xFFFFFFFF },
  { name := "EVR_FLOOR_LO", off := 0x114, rw := 0xFFFFFFFF },
  { name := "EVR_FLOOR_HI", off := 0x118, rw := 0xFFFFFFFF },
  { name := "EVR_CMD", off := 0x11C, w1s := 0x1 },
  { name := "EVR_DROP_CNT", off := 0x120, n := 5, rc := 0xFFFFFFFF },
  { name := "EVR_COAL_CNT", off := 0x134, rc := 0xFFFFFFFF },
  { name := "EVR_CLOSE_CNT", off := 0x138, rc := 0xFFFFFFFF },
  { name := "EVR_POST_CODE", off := 0x1000, n := 4, stride := 64, rw := 0x1FFFFF },
  { name := "EVR_POST_SRC", off := 0x1004, n := 4, stride := 64, rw := 0x81FFFFFF },
  { name := "EVR_POST_DETAIL", off := 0x1008, n := 4, stride := 64, n2 := 6, rw := 0xFFFFFFFF },
  { name := "EVR_POST_GO", off := 0x1020, n := 4, stride := 64, wo := 0xFFFFFFFF },
  { name := "EVR_POST_STS", off := 0x1024, n := 4, stride := 64, ro := 0x3 },
  { name := "EVR_POST_RTC_LO", off := 0x1028, n := 4, stride := 64, rw := 0xFFFFFFFF },
  { name := "EVR_POST_RTC_HI", off := 0x102C, n := 4, stride := 64, rw := 0xFF },
  { name := "EVR_POST_PWRCYC", off := 0x1030, n := 4, stride := 64, rw := 0xFFFFFFFF },
  { name := "EVR_DRAIN_STS", off := 0x2000, ro := 0x1F },
  { name := "EVR_DRAIN_SEQ_LO", off := 0x2004, ro := 0xFFFFFFFF },
  { name := "EVR_DRAIN_SEQ_HI", off := 0x2008, ro := 0xFFFFFFFF },
  { name := "EVR_DRAIN_ACK", off := 0x200C, wo := 0xFFFFFFFF },
  { name := "EVR_DRAIN_PAGE", off := 0x2200, n := 128, ro := 0xFFFFFFFF }]

/-- Registers of MBX (R528, R529). -/
def regsMbx : List RegDesc := [
  { name := "MBX_DB0_STS", off := 0x100, w1c := 0xFFFFFFFF },
  { name := "MBX_DB1_STS", off := 0x104, w1c := 0xFFFFFFFF },
  { name := "MBX_EMPTY0_STS", off := 0x108, w1c := 0xFFFFFFFF },
  { name := "MBX_EMPTY1_STS", off := 0x10C, w1c := 0xFFFFFFFF },
  { name := "MBX_OVR_STS", off := 0x110, w1c := 0xFFFFFFFF },
  { name := "MBX_WDRAW_STS", off := 0x114, w1c := 0xFFFFFFFF },
  { name := "MBX_CORE_PEND", off := 0x120, n := 4, ro := 0xFFFFFFFF },
  { name := "MBX_CFG", off := 0x1000, n := 32, stride := 64, rwl := 0xF, ro := 0xF0 },
  { name := "MBX_STS", off := 0x1004, n := 32, stride := 64, ro := 0x1F },
  { name := "MBX_S0_PTR_LO", off := 0x1008, n := 32, stride := 64, rw := 0xFFFFFFFF },
  { name := "MBX_S0_PTR_HI", off := 0x100C, n := 32, stride := 64, rw := 0xFFFFFFFF },
  { name := "MBX_S0_LEN", off := 0x1010, n := 32, stride := 64, rw := 0xFFFFFFFF },
  { name := "MBX_S0_TAG", off := 0x1014, n := 32, stride := 64, rw := 0xFFFFFFFF },
  { name := "MBX_S0_ACK", off := 0x1018, n := 32, stride := 64, w1s := 0x1 },
  { name := "MBX_S1_PTR_LO", off := 0x1020, n := 32, stride := 64, rw := 0xFFFFFFFF },
  { name := "MBX_S1_PTR_HI", off := 0x1024, n := 32, stride := 64, rw := 0xFFFFFFFF },
  { name := "MBX_S1_LEN", off := 0x1028, n := 32, stride := 64, rw := 0xFFFFFFFF },
  { name := "MBX_S1_TAG", off := 0x102C, n := 32, stride := 64, rw := 0xFFFFFFFF },
  { name := "MBX_S1_ACK", off := 0x1030, n := 32, stride := 64, w1s := 0x1 }]

/-- Registers of TAP (R530, R531). -/
def regsTap : List RegDesc := [
  { name := "TAP_STS", off := 0x100, ro := 0x3F },
  { name := "TAP_KEY", off := 0x104, wo := 0xFFFFFFFF },
  { name := "TAP_CMD", off := 0x108, wo := 0xF },
  { name := "TAP_ADDR", off := 0x10C, wo := 0x1FFFFFFF },
  { name := "TAP_DATA", off := 0x110, wo := 0xFFFFFFFF },
  { name := "TAP_RESULT", off := 0x114, ro := 0x3F },
  { name := "TAP_RES_ADDR", off := 0x118, ro := 0x1FFFFFFF },
  { name := "TAP_CFG", off := 0x11C, reset := 0x301F4, rw := 0x3FFFF, enc := [⟨15, 0, 100, 2000, 1⟩] },
  { name := "TAP_WP_MAIN", off := 0x120, n := 4, rwl := 0xFFFFFFFF },
  { name := "TAP_WP_PARAM", off := 0x130, n := 2, rwl := 0xFFFFFFFF },
  { name := "TAP_ECC_CORR_CNT", off := 0x140, rc := 0xFFFFFFFF },
  { name := "TAP_ECC_UNC_CNT", off := 0x144, rc := 0xFFFFFFFF },
  { name := "TAP_SUSP_CNT", off := 0x148, rc := 0xFFFFFFFF },
  { name := "TAP_PF_HIT_CNT", off := 0x14C, rc := 0xFFFFFFFF },
  { name := "TAP_BTC_HIT_CNT", off := 0x150, rc := 0xFFFFFFFF },
  { name := "TAP_PROG_CNT", off := 0x154, rc := 0xFFFFFFFF },
  { name := "TAP_ERASE_CNT", off := 0x158, rc := 0xFFFFFFFF },
  { name := "CRN_RUN", off := 0x1000, reset := 0x1, w1s := 0xF },
  { name := "CRN_START_LO", off := 0x1004, reset := 0x40000000, rwl := 0xFFFFFFFF },
  { name := "CRN_START_HI", off := 0x1008, rwl := 0xFFFF },
  { name := "CRN_HALT_STS", off := 0x100C, ro := 0xF },
  { name := "CWD_CTL", off := 0x1100, n := 4, stride := 32, w1s := 0x1 },
  { name := "CWD_T1", off := 0x1104, n := 4, stride := 32, reset := 0x7D0, rwl := 0xFFFFF, enc := [⟨19, 0, 10, 1000000, 1⟩] },
  { name := "CWD_T23", off := 0x1108, n := 4, stride := 32, reset := 0x1F401F4, rwl := 0xFFFFFFFF, enc := [⟨15, 0, 10, 65535, 1⟩, ⟨31, 16, 10, 65535, 1⟩] },
  { name := "CWD_KICK", off := 0x110C, n := 4, stride := 32, wo := 0xFFFFFFFF },
  { name := "CWD_STS", off := 0x1110, n := 4, stride := 32, ro := 0xFFFFF003 }]

/-- Registers of XMV (R532, R533). -/
def regsXmv : List RegDesc := [
  { name := "XMV_STS", off := 0x100, ro := 0x7F07FF },
  { name := "XMV_SWREQ", off := 0x104, w1s := 0xFF },
  { name := "XMV_REQ_GPIO", off := 0x108, rw := 0xFFFF },
  { name := "XMV_CH_PEND0", off := 0x10C, ro := 0xFFFFFFFF },
  { name := "XMV_CH_PEND1", off := 0x110, ro := 0xFFFFFFFF },
  { name := "XMV_DESC_CNT", off := 0x114, rc := 0xFFFFFFFF },
  { name := "XMV_ERR_CNT", off := 0x118, rc := 0xFFFFFFFF },
  { name := "XMV_CH_BASE_LO", off := 0x1000, n := 64, stride := 64, rw := 0xFFFFFFE0 },
  { name := "XMV_CH_BASE_HI", off := 0x1004, n := 64, stride := 64, rw := 0xFFFF },
  { name := "XMV_CH_SIZE", off := 0x1008, n := 64, stride := 64, reset := 0x4, rw := 0xF, enc := [⟨3, 0, 4, 12, 1⟩] },
  { name := "XMV_CH_TAIL", off := 0x100C, n := 64, stride := 64, rw := 0xFFF },
  { name := "XMV_CH_HEAD", off := 0x1010, n := 64, stride := 64, rw := 0xFFF },
  { name := "XMV_CH_CTL", off := 0x1014, n := 64, stride := 64, rw := 0xF1, w1s := 0x6 },
  { name := "XMV_CH_STS", off := 0x1018, n := 64, stride := 64, ro := 0xFFFF },
  { name := "XMV_CH_STEP", off := 0x101C, n := 64, stride := 64, wo := 0xFF },
  { name := "XMV_CH_CREDIT", off := 0x1020, n := 64, stride := 64, ro := 0x1FF },
  { name := "XMV_CH_DONE", off := 0x1024, n := 64, stride := 64, ro := 0x1FFFFFF },
  { name := "XMV_CH_INT", off := 0x1028, n := 64, stride := 64, w1c := 0xF },
  { name := "XMV_CH_INT_EN", off := 0x102C, n := 64, stride := 64, rw := 0xF },
  { name := "XMV_CH_OUT", off := 0x1030, n := 64, stride := 64, ro := 0x3F }]

/-- Registers of SEC (R427, R439, R440). -/
def regsSec : List RegDesc := [
  { name := "SEC_CFG", off := 0x100, reset := 0x1, rwl := 0x1 },
  { name := "SEC_STS", off := 0x104, ro := 0x7 },
  { name := "SEC_RUEP_BASE_LO", off := 0x108, rw := 0xFFFFFFC0 },
  { name := "SEC_RUEP_BASE_HI", off := 0x10C, rw := 0xFFFF },
  { name := "SEC_XTS_ENC_CNT", off := 0x110, rc := 0xFFFFFFFF },
  { name := "SEC_XTS_DEC_CNT", off := 0x114, rc := 0xFFFFFFFF },
  { name := "SEC_GCM_CNT", off := 0x118, rc := 0xFFFFFFFF },
  { name := "SEC_KEYACC_CNT", off := 0x11C, rc := 0xFFFFFFFF },
  { name := "SEC_AUTH_FAIL_CNT", off := 0x120, rc := 0xFFFFFFFF },
  { name := "SEC_WR_BASE_LO", off := 0x1000, rwl := 0xFFFFFFC0 },
  { name := "SEC_WR_BASE_HI", off := 0x1004, rwl := 0xFFFF },
  { name := "SEC_WR_SIZE", off := 0x1008, reset := 0x4, rwl := 0xF, enc := [⟨3, 0, 4, 12, 1⟩] },
  { name := "SEC_WR_TAIL", off := 0x100C, rw := 0xFFF },
  { name := "SEC_WR_HEAD", off := 0x1010, ro := 0xFFF },
  { name := "SEC_WC_BASE_LO", off := 0x1014, rwl := 0xFFFFFFC0 },
  { name := "SEC_WC_BASE_HI", off := 0x1018, rwl := 0xFFFF },
  { name := "SEC_WC_TAIL", off := 0x101C, ro := 0xFFF },
  { name := "SEC_WC_HEAD", off := 0x1020, rw := 0xFFF },
  { name := "SEC_WR_FAULT", off := 0x1024, ro := 0x8000FFFF },
  { name := "SEC_KOP_CTL", off := 0x2000, wo := 0x3FFFFFFF },
  { name := "SEC_KOP_SRC_LO", off := 0x2004, rw := 0xFFFFFFF8 },
  { name := "SEC_KOP_SRC_HI", off := 0x2008, rw := 0xFFFF },
  { name := "SEC_KOP_DST_LO", off := 0x200C, rw := 0xFFFFFFF8 },
  { name := "SEC_KOP_DST_HI", off := 0x2010, rw := 0xFFFF },
  { name := "SEC_KOP_ARG_LO", off := 0x2014, rw := 0xFFFFFFFF },
  { name := "SEC_KOP_ARG_HI", off := 0x2018, rw := 0xFFFFFFFF },
  { name := "SEC_KOP_STS", off := 0x201C, ro := 0xFF01 },
  { name := "SEC_SLOT_SEL", off := 0x2020, rw := 0x3FFF },
  { name := "SEC_SLOT_STS", off := 0x2024, ro := 0x1FFFF },
  { name := "SEC_SLOT_CNT_LO", off := 0x2028, ro := 0xFFFFFFFF },
  { name := "SEC_SLOT_CNT_HI", off := 0x202C, ro := 0xFFFFFFFF },
  { name := "SEC_SLOT_REF_LO", off := 0x2030, ro := 0xFFFFFFFF },
  { name := "SEC_SLOT_REF_HI", off := 0x2034, ro := 0xFFFFFFFF },
  { name := "SEC_SLOT_FIXED", off := 0x2038, ro := 0xFFFFFFFF },
  { name := "SEC_NS_SEL", off := 0x2040, rw := 0xFFF },
  { name := "SEC_NS_KEY", off := 0x2044, ro := 0x8FFF },
  { name := "SEC_TEN_SEL", off := 0x2048, rw := 0x1FF },
  { name := "SEC_TEN_EPOCH", off := 0x204C, rw := 0xFFFF },
  { name := "SEC_RNG_DATA", off := 0x2060, rc := 0xFFFFFFFF },
  { name := "SEC_RNG_STS", off := 0x2064, ro := 0xF },
  { name := "SEC_RNG_RESEED", off := 0x2068, w1s := 0x1 }]

/-- Registers of PKE (R441). -/
def regsPke : List RegDesc := [
  { name := "PKE_CMD", off := 0x100, wo := 0x1FF },
  { name := "PKE_STS", off := 0x104, ro := 0xFF01 },
  { name := "PKE_KEY_STS", off := 0x108, ro := 0xFFFF },
  { name := "PKE_KEY_ZERO", off := 0x10C, w1s := 0xFC },
  { name := "PKE_OP_CNT", off := 0x110, rc := 0xFFFFFFFF },
  { name := "PKE_D", off := 0x1000, n := 12, wo := 0xFFFFFFFF },
  { name := "PKE_E", off := 0x1040, n := 12, rw := 0xFFFFFFFF },
  { name := "PKE_QX", off := 0x1080, n := 12, rw := 0xFFFFFFFF },
  { name := "PKE_QY", off := 0x10C0, n := 12, rw := 0xFFFFFFFF },
  { name := "PKE_R", off := 0x1100, n := 12, rw := 0xFFFFFFFF },
  { name := "PKE_S", off := 0x1140, n := 12, rw := 0xFFFFFFFF },
  { name := "PKE_OX", off := 0x1180, n := 12, ro := 0xFFFFFFFF },
  { name := "PKE_OY", off := 0x11C0, n := 12, ro := 0xFFFFFFFF }]

/-- Registers of BPM (R151, R152). -/
def regsBpm : List RegDesc := [
  { name := "BPM_AREA_BASE_LO", off := 0x100, rwl := 0xFFFC0000 },
  { name := "BPM_AREA_BASE_HI", off := 0x104, rwl := 0xFFFF },
  { name := "BPM_AREA_LIMIT_LO", off := 0x108, rwl := 0xFFFC0000 },
  { name := "BPM_AREA_LIMIT_HI", off := 0x10C, rwl := 0xFFFF },
  { name := "BPM_CHUNKS_TOTAL", off := 0x110, ro := 0x3FFFFF },
  { name := "BPM_CHUNKS_FREE", off := 0x114, ro := 0x3FFFFF },
  { name := "BPM_CHUNKS_RSV", off := 0x118, ro := 0x3FFFFF },
  { name := "BPM_CLASS", off := 0x120, n := 8, rwl := 0x31F },
  { name := "BPM_MIN", off := 0x1000, n := 64, stride := 128, n2 := 8, stride2 := 16, rw := 0xFFFFFFF },
  { name := "BPM_CAP", off := 0x1004, n := 64, stride := 128, n2 := 8, stride2 := 16, reset := 0xFFFFFFF, rw := 0xFFFFFFF },
  { name := "BPM_USED", off := 0x1008, n := 64, stride := 128, n2 := 8, stride2 := 16, ro := 0xFFFFFFF },
  { name := "BPM_HELD", off := 0x100C, n := 64, stride := 128, n2 := 8, stride2 := 16, ro := 0x3FFFFF },
  { name := "BPM_OWN_IRSV", off := 0x3000, n := 64, stride := 16, reset := 0x10, rw := 0x3FFFFF },
  { name := "BPM_OWN_IUSED", off := 0x3004, n := 64, stride := 16, ro := 0x3FFFFF },
  { name := "BPM_OWN_WAIT", off := 0x3008, n := 64, stride := 16, ro := 0x1FF },
  { name := "BPM_TEN_OWNER", off := 0x3400, n := 512, rw := 0x3F },
  { name := "BPM_FW_ALLOC", off := 0x4000, n := 4, stride := 32, wo := 0x13F07 },
  { name := "BPM_FW_RESULT_LO", off := 0x4004, n := 4, stride := 32, ro := 0xFFFFFE03 },
  { name := "BPM_FW_RESULT_HI", off := 0x4008, n := 4, stride := 32, ro := 0xFFFF },
  { name := "BPM_FW_REF_LO", off := 0x400C, n := 4, stride := 32, wo := 0xFFFFFE01 },
  { name := "BPM_FW_REF_HI", off := 0x4010, n := 4, stride := 32, wo := 0xFFFF },
  { name := "BPM_FW_REF_STS", off := 0x4014, n := 4, stride := 32, ro := 0x3FF }]

/-- Registers of HQE (R126, R127, R128). -/
def regsHqe : List RegDesc := [
  { name := "HQE_STS", off := 0x100, reset := 0x1, ro := 0x3 },
  { name := "HQE_CTX_USED", off := 0x104, ro := 0x1FFFF },
  { name := "HQE_SHARED_FREE", off := 0x108, reset := 0xC000, ro := 0xFFFF },
  { name := "HQE_Q_USED", off := 0x10C, ro := 0x7FFF7FFF },
  { name := "HQE_ERRQ_CNT", off := 0x110, ro := 0x7FFF },
  { name := "HQE_ERRQ_ID", off := 0x114, ro := 0xFFFF01FF },
  { name := "HQE_ERRQ_INFO", off := 0x118, ro := 0xFFFFF, w1c := 0x80000000 },
  { name := "HQE_DEMOTE_CNT", off := 0x11C, rc := 0xFFFFFFFF },
  { name := "HQE_FETCH_CFG", off := 0x120, reset := 0x8, rwl := 0xF, enc := [⟨3, 0, 1, 8, 1⟩] },
  { name := "HQE_CTX_LOW_THR", off := 0x124, reset := 0x1000, rw := 0xFFFF },
  { name := "HQE_PORT_WT", off := 0x1000, n := 8, stride := 16, reset := 0x1, rw := 0xFF, enc := [⟨7, 0, 1, 255, 1⟩] },
  { name := "HQE_PORT_CTX", off := 0x1004, n := 8, stride := 16, ro := 0xFFFF0FFF },
  { name := "HQE_PORT_GRANTS", off := 0x1008, n := 8, stride := 16, rc := 0xFFFFFFFF },
  { name := "HQE_PORT_STALL", off := 0x100C, n := 8, stride := 16, ro := 0x7 },
  { name := "HQE_FN_QALLOT", off := 0x1800, n := 512, reset := 0x10, rw := 0x1FFF, ro := 0x1FFF0000, enc := [⟨12, 0, 0, 4096, 1⟩] },
  { name := "HQE_TEN_MIN", off := 0x2000, n := 512, stride := 32, rw := 0xFFFF },
  { name := "HQE_TEN_CAP", off := 0x2004, n := 512, stride := 32, reset := 0x4000, rw := 0x1FFFF, enc := [⟨16, 0, 1, 65536, 1⟩] },
  { name := "HQE_TEN_URG", off := 0x2008, n := 512, stride := 32, reset := 0x2000C350, rw := 0xFFFFFFFF, enc := [⟨31, 24, 1, 255, 1⟩] },
  { name := "HQE_TEN_USED", off := 0x200C, n := 512, stride := 32, ro := 0x1FFFF },
  { name := "HQE_TEN_DEMOTED", off := 0x2010, n := 512, stride := 32, ro := 0xFFFFFFFF }]

/-- Registers of FTL (R166, R198, R199). -/
def regsFtl : List RegDesc := [
  { name := "FTL_CFG", off := 0x100, reset := 0x104, rwl := 0x10F, enc := [⟨3, 0, 1, 10, 1⟩] },
  { name := "FTL_RD_BASE_LO", off := 0x104, rwl := 0xFFFFFFC0 },
  { name := "FTL_RD_BASE_HI", off := 0x108, rwl := 0xFFFF },
  { name := "FTL_RD_ENTRIES", off := 0x10C, rwl := 0x1FFFFFF, enc := [⟨24, 0, 0, 16777216, 1⟩] },
  { name := "FTL_FRM_BASE_LO", off := 0x110, rwl := 0xFFFFFFC0 },
  { name := "FTL_FRM_BASE_HI", off := 0x114, rwl := 0xFFFF },
  { name := "FTL_FRAMES", off := 0x118, rwl := 0x1FFFFFF },
  { name := "FTL_NST_BASE_LO", off := 0x11C, rwl := 0xFFFFFFC0 },
  { name := "FTL_NST_BASE_HI", off := 0x120, rwl := 0xFFFF },
  { name := "FTL_PWT_BASE_LO", off := 0x124, rwl := 0xFFFFFFC0 },
  { name := "FTL_PWT_BASE_HI", off := 0x128, rwl := 0xFFFF },
  { name := "FTL_PWT_ENTRIES", off := 0x12C, rwl := 0xFFFFFFF },
  { name := "FTL_HMBD_BASE_LO", off := 0x130, rwl := 0xFFFFFFC0 },
  { name := "FTL_HMBD_BASE_HI", off := 0x134, rwl := 0xFFFF },
  { name := "FTL_HMBD_COUNT", off := 0x138, rwl := 0x1FFFFFF },
  { name := "FTL_CANOPY_GRAN", off := 0x13C, reset := 0x2000000, rw := 0x7FFFFFF, enc := [⟨26, 0, 8388608, 67108864, 1⟩] },
  { name := "FTL_FREE_LOW", off := 0x140, reset := 0x10000, rw := 0x7FFFFFF },
  { name := "FTL_DIRTY_HI", off := 0x144, reset := 0x800000, rw := 0x7FFFFFF },
  { name := "FTL_HMB_CTL", off := 0x148, reset := 0x3200, rw := 0xFFFF01, enc := [⟨23, 8, 10, 1000, 1⟩] },
  { name := "FTL_CKPT_LEAVES", off := 0x14C, reset := 0x199999, rw := 0x1FFFFFF },
  { name := "FTL_JRNL_MAX", off := 0x150, reset := 0x2000000, rw := 0x7FFFFFF, enc := [⟨26, 0, 0, 33554432, 1⟩] },
  { name := "FTL_JRNL_USED", off := 0x154, ro := 0x7FFFFFF },
  { name := "FTL_DIRTY_LEAVES", off := 0x158, ro := 0x1FFFFFF },
  { name := "FTL_RES_GRAN", off := 0x15C, ro := 0x7FFFFFF },
  { name := "FTL_DIRTY_GRAN", off := 0x160, ro := 0x7FFFFFF },
  { name := "FTL_PWT_USED", off := 0x164, ro := 0xFFFFFFF },
  { name := "FTL_JSEQ_LO", off := 0x168, ro := 0xFFFFFFFF },
  { name := "FTL_JSEQ_HI", off := 0x16C, ro := 0xFFFFFFFF },
  { name := "FTL_WSEQ_LO", off := 0x170, ro := 0xFFFFFFFF },
  { name := "FTL_WSEQ_HI", off := 0x174, ro := 0xFFFFFFFF },
  { name := "FTL_HIT_CNT", off := 0x180, rc := 0xFFFFFFFF },
  { name := "FTL_HMB_HIT_CNT", off := 0x184, rc := 0xFFFFFFFF },
  { name := "FTL_FLASH_MISS_CNT", off := 0x188, rc := 0xFFFFFFFF },
  { name := "FTL_EVICT_CNT", off := 0x18C, rc := 0xFFFFFFFF },
  { name := "FTL_WB_CNT", off := 0x190, rc := 0xFFFFFFFF },
  { name := "FTL_HMB_DROP_CNT", off := 0x194, rc := 0xFFFFFFFF },
  { name := "FTL_WAIT_CNT", off := 0x198, rc := 0xFFFFFFFF },
  { name := "FTL_WR_BASE_LO", off := 0x1000, rwl := 0xFFFFFFC0 },
  { name := "FTL_WR_BASE_HI", off := 0x1004, rwl := 0xFFFF },
  { name := "FTL_WR_SIZE", off := 0x1008, reset := 0x4, rwl := 0xF, enc := [⟨3, 0, 4, 12, 1⟩] },
  { name := "FTL_WR_TAIL", off := 0x100C, rw := 0xFFF },
  { name := "FTL_WR_HEAD", off := 0x1010, ro := 0xFFF },
  { name := "FTL_WC_BASE_LO", off := 0x1014, rwl := 0xFFFFFFC0 },
  { name := "FTL_WC_BASE_HI", off := 0x1018, rwl := 0xFFFF },
  { name := "FTL_WC_TAIL", off := 0x101C, ro := 0xFFF },
  { name := "FTL_WC_HEAD", off := 0x1020, rw := 0xFFF },
  { name := "FTL_WR_FAULT", off := 0x1024, ro := 0x8000FFFF }]

/-- Registers of CPC (R238, R240, R242). -/
def regsCpc : List RegDesc := [
  { name := "CPC_CFG", off := 0x100, reset := 0x220, rwl := 0xFF7F, enc := [⟨6, 0, 8, 64, 1⟩, ⟨15, 8, 1, 10, 1⟩] },
  { name := "CPC_GEOM", off := 0x104, rwl := 0x1FFFFF, enc := [⟨2, 0, 4, 6, 2⟩, ⟨6, 3, 3, 4, 1⟩, ⟨20, 8, 1, 4096, 1⟩] },
  { name := "CPC_GEOM2", off := 0x108, rwl := 0xFFFF1FFF, enc := [⟨12, 0, 1, 4096, 1⟩] },
  { name := "CPC_RUT_BASE_LO", off := 0x10C, rwl := 0xFFFFFFC0 },
  { name := "CPC_RUT_BASE_HI", off := 0x110, rwl := 0xFFFF },
  { name := "CPC_RU_COUNT", off := 0x114, rwl := 0x3FFFF },
  { name := "CPC_DST_BASE_LO", off := 0x118, rwl := 0xFFFFFFC0 },
  { name := "CPC_DST_BASE_HI", off := 0x11C, rwl := 0xFFFF },
  { name := "CPC_DSET_COUNT", off := 0x120, rwl := 0x7F, enc := [⟨6, 0, 1, 64, 1⟩] },
  { name := "CPC_VBM_BASE_LO", off := 0x124, rwl := 0xFFFFFFC0 },
  { name := "CPC_VBM_BASE_HI", off := 0x128, rwl := 0xFFFF },
  { name := "CPC_VBM_STRIDE", off := 0x12C, rwl := 0xFFFFF, enc := [⟨19, 0, 0, 1048512, 64⟩] },
  { name := "CPC_CLOSE_IDLE", off := 0x130, reset := 0xC350, rw := 0xFFFFF, enc := [⟨19, 0, 1000, 1000000, 1⟩] },
  { name := "CPC_WL_DELTA", off := 0x134, reset := 0x100, rw := 0xFFFF },
  { name := "CPC_BG", off := 0x138, reset := 0x190A, rw := 0x7F7F, enc := [⟨6, 0, 1, 50, 1⟩, ⟨14, 8, 5, 90, 1⟩] },
  { name := "CPC_PATROL", off := 0x13C, reset := 0x3C00A8, rw := 0xFFFFFF, enc := [⟨15, 0, 24, 2160, 1⟩, ⟨23, 16, 10, 95, 1⟩] },
  { name := "CPC_RETAIN", off := 0x140, reset := 0x78, rw := 0xFFFF, enc := [⟨15, 0, 7, 3650, 1⟩] },
  { name := "CPC_RD_LIMIT", off := 0x144, reset := 0x186A0, rw := 0xFFFFFF },
  { name := "CPC_RO_SPARE", off := 0x148, reset := 0xA01, rw := 0xFFFF, enc := [⟨7, 0, 0, 20, 1⟩, ⟨15, 8, 1, 50, 1⟩] },
  { name := "CPC_STS", off := 0x14C, ro := 0xFFFF1F },
  { name := "CPC_FREE_RU", off := 0x150, ro := 0x3FFFF },
  { name := "CPC_UNRSV_RU", off := 0x154, ro := 0x3FFFF },
  { name := "CPC_REBUILD_LEFT", off := 0x158, ro := 0xFFFFFFFF },
  { name := "CPC_RELOC_CNT", off := 0x160, rc := 0xFFFFFFFF },
  { name := "CPC_PAD_CNT", off := 0x164, rc := 0xFFFFFFFF },
  { name := "CPC_PFAIL_CNT", off := 0x168, rc := 0xFFFFFFFF },
  { name := "CPC_EFAIL_CNT", off := 0x16C, rc := 0xFFFFFFFF },
  { name := "CPC_FUA_CLOSE_CNT", off := 0x170, rc := 0xFFFFFFFF },
  { name := "CPC_WR_BASE_LO", off := 0x1000, rwl := 0xFFFFFFC0 },
  { name := "CPC_WR_BASE_HI", off := 0x1004, rwl := 0xFFFF },
  { name := "CPC_WR_SIZE", off := 0x1008, reset := 0x4, rwl := 0xF, enc := [⟨3, 0, 4, 12, 1⟩] },
  { name := "CPC_WR_TAIL", off := 0x100C, rw := 0xFFF },
  { name := "CPC_WR_HEAD", off := 0x1010, ro := 0xFFF },
  { name := "CPC_WC_BASE_LO", off := 0x1014, rwl := 0xFFFFFFC0 },
  { name := "CPC_WC_BASE_HI", off := 0x1018, rwl := 0xFFFF },
  { name := "CPC_WC_TAIL", off := 0x101C, ro := 0xFFF },
  { name := "CPC_WC_HEAD", off := 0x1020, rw := 0xFFF },
  { name := "CPC_WR_FAULT", off := 0x1024, ro := 0x8000FFFF },
  { name := "CPC_TEN_RSV", off := 0x2000, n := 512, stride := 16, rw := 0x3FFFF },
  { name := "CPC_TEN_MAX", off := 0x2004, n := 512, stride := 16, reset := 0x3FFFF, rw := 0x3FFFF },
  { name := "CPC_TEN_CTL", off := 0x2008, n := 512, stride := 16, reset := 0x402, rw := 0xFFFFFFFF },
  { name := "CPC_TEN_STS", off := 0x200C, n := 512, stride := 16, ro := 0x1FFFFF }]

/-- Registers of PRT (R83, R84, R85). -/
def regsPrt : List RegDesc := [
  { name := "PRT_LINK_CTL", off := 0x100, reset := 0x1A1, rw := 0x3FFD, w1s := 0x2, enc := [⟨3, 2, 0, 1, 1⟩, ⟨7, 5, 0, 5, 1⟩] },
  { name := "PRT_LINK_STS", off := 0x104, reset := 0x20000, ro := 0x3FFFF },
  { name := "PRT_TRAIN_CNT", off := 0x108, rc := 0xFFFFFFFF },
  { name := "PRT_REPLAY_CNT", off := 0x10C, rc := 0xFFFFFFFF },
  { name := "PRT_CONTAIN", off := 0x110, wo := 0x2, ro := 0x7FD },
  { name := "PRT_CONTAIN_HDR", off := 0x114, n := 4, ro := 0xFFFFFFFF },
  { name := "PRT_CTO_VAL", off := 0x124, reset := 0x9C40, ro := 0xFFFFFFFF },
  { name := "PRT_NP_OUT", off := 0x128, ro := 0x1FFF },
  { name := "PRT_CXL_OUT", off := 0x12C, ro := 0xFFF },
  { name := "PRT_HELD", off := 0x130, ro := 0x1FFFF },
  { name := "PRT_MGMT_ERR", off := 0x134, w1c := 0x1, ro := 0xE },
  { name := "PRT_MGMT_ERR_ADDR", off := 0x138, ro := 0x7FFFFF },
  { name := "PRT_FN_STS", off := 0x1000, n := 64, ro := 0x3FFF }]

/-- Registers of WIN (R344, R345, R346, R347). -/
def regsWin : List RegDesc := [
  { name := "WIN_CFG", off := 0x100, rwl := 0x3FF, enc := [⟨9, 0, 0, 512, 1⟩] },
  { name := "WIN_DRAM_BASE_LO", off := 0x104, rwl := 0xFFFFFFC0 },
  { name := "WIN_DRAM_BASE_HI", off := 0x108, rwl := 0xFFFF },
  { name := "WIN_BDIR_BASE_LO", off := 0x10C, rwl := 0xFFFFFFC0 },
  { name := "WIN_BDIR_BASE_HI", off := 0x110, rwl := 0xFFFF },
  { name := "WIN_PBM_BASE_LO", off := 0x114, rwl := 0xFFFFFFC0 },
  { name := "WIN_PBM_BASE_HI", off := 0x118, rwl := 0xFFFF },
  { name := "WIN_DIRTY_CAP", off := 0x11C, rw := 0x3FFFFF },
  { name := "WIN_DIRTY_CNT", off := 0x120, ro := 0x3FFFFF },
  { name := "WIN_TRICKLING", off := 0x124, ro := 0x3FFFFF },
  { name := "WIN_TRICKLE", off := 0x128, reset := 0x4B07D0, rw := 0xFFFFFF, enc := [⟨15, 0, 1, 65535, 1⟩, ⟨23, 16, 50, 95, 1⟩] },
  { name := "WIN_STS", off := 0x12C, ro := 0x3FFFFF0F },
  { name := "WIN_BISNP_TMO", off := 0x130, reset := 0x2710, rw := 0xFFFF, enc := [⟨15, 0, 1000, 60000, 1⟩] },
  { name := "WIN_BISNP_OUT", off := 0x134, ro := 0x7FF },
  { name := "WIN_SF_USED", off := 0x138, ro := 0x1FFFFFF },
  { name := "WIN_POISON_LINES", off := 0x13C, ro := 0xFFFFFFFF },
  { name := "WIN_DSC", off := 0x140, ro := 0xFFFFFFFF },
  { name := "WIN_PROTO_INFO", off := 0x144, ro := 0xF7 },
  { name := "WIN_HOLD_CNT", off := 0x150, rc := 0xFFFFFFFF },
  { name := "WIN_SF_FORCED_CNT", off := 0x154, rc := 0xFFFFFFFF },
  { name := "WIN_BISNP_TMO_CNT", off := 0x158, rc := 0xFFFFFFFF },
  { name := "WIN_CONFLICT_CNT", off := 0x15C, rc := 0xFFFFFFFF },
  { name := "WIN_TRICKLE_CNT", off := 0x160, rc := 0xFFFFFFFF },
  { name := "WIN_SLICE", off := 0x1000, n := 512, stride := 8, rw := 0xFFFFFF },
  { name := "WIN_SLICE_DIRTY", off := 0x1004, n := 512, stride := 8, ro := 0x1FFF },
  { name := "WIN_TEN_SF_MIN", off := 0x2000, n := 512, stride := 32, rw := 0x1FFFFFF },
  { name := "WIN_TEN_SF_MAX", off := 0x2004, n := 512, stride := 32, reset := 0x1000000, rw := 0x1FFFFFF },
  { name := "WIN_TEN_DIRTY_MIN", off := 0x2008, n := 512, stride := 32, rw := 0x3FFFFF },
  { name := "WIN_TEN_SF_USED", off := 0x200C, n := 512, stride := 32, ro := 0x1FFFFFF },
  { name := "WIN_TEN_DIRTY", off := 0x2010, n := 512, stride := 32, ro := 0x3FFFFF },
  { name := "WIN_DEC", off := 0x6000, n := 8, stride := 128, n2 := 8, stride2 := 16, ro := 0x7FF },
  { name := "WIN_DEC_SKIP", off := 0x6004, n := 8, stride := 128, n2 := 8, stride2 := 16, ro := 0x3FF },
  { name := "WIN_DEC_BASE", off := 0x6008, n := 8, stride := 128, n2 := 8, stride2 := 16, ro := 0x3FF },
  { name := "WIN_LAYOUT", off := 0x6400, n := 8, stride := 8, ro := 0x3FF03FF },
  { name := "WIN_LAYOUT_STS", off := 0x6404, n := 8, stride := 8, ro := 0x1 }]

/-- Registers of PAR (R243). -/
def regsPar : List RegDesc := [
  { name := "PAR_CFG", off := 0x100, reset := 0x20, rwl := 0xFF, enc := [⟨7, 0, 8, 128, 1⟩] },
  { name := "PAR_ACC_USED", off := 0x104, ro := 0x1FF },
  { name := "PAR_OPEN_ROWS", off := 0x108, ro := 0x3FFFF },
  { name := "PAR_FOLD_CNT", off := 0x10C, rc := 0xFFFFFFFF },
  { name := "PAR_EMIT_CNT", off := 0x110, rc := 0xFFFFFFFF },
  { name := "PAR_REBUILD_CNT", off := 0x114, rc := 0xFFFFFFFF },
  { name := "PAR_REBUILD_FAIL_CNT", off := 0x118, rc := 0xFFFFFFFF },
  { name := "PAR_SPILL_CNT", off := 0x11C, rc := 0xFFFFFFFF },
  { name := "PAR_FILL_CNT", off := 0x120, rc := 0xFFFFFFFF }]

/-- Registers of LDC (R299, R300). -/
def regsLdc : List RegDesc := [
  { name := "LDC_CFG", off := 0x100, reset := 0x12010, rwl := 0x13F1F, enc := [⟨4, 0, 4, 16, 1⟩, ⟨13, 8, 8, 32, 1⟩] },
  { name := "LDC_TRACK", off := 0x104, reset := 0x4041, rw := 0xFFFFF1, enc := [⟨23, 8, 1, 65535, 1⟩] },
  { name := "LDC_DEEP", off := 0x108, reset := 0x20, rw := 0x3F, enc := [⟨5, 0, 0, 32, 1⟩] },
  { name := "LDC_RBF", off := 0x10C, reset := 0x10, rw := 0x3F, enc := [⟨5, 0, 1, 32, 1⟩] },
  { name := "LDC_PRED", off := 0x110, reset := 0x10258, rw := 0x1FFFF, enc := [⟨15, 0, 1, 65535, 1⟩] },
  { name := "LDC_BG", off := 0x114, reset := 0x11E, rw := 0x1FF, enc := [⟨7, 0, 1, 120, 1⟩] },
  { name := "LDC_STS", off := 0x118, ro := 0xFFBF1F7F },
  { name := "LDC_MAXCORR", off := 0x11C, rc := 0x1FF },
  { name := "LDC_HARD_FAIL_CNT", off := 0x120, rc := 0xFFFFFFFF },
  { name := "LDC_TRACK_OK_CNT", off := 0x124, rc := 0xFFFFFFFF },
  { name := "LDC_SOFT_OK_CNT", off := 0x128, rc := 0xFFFFFFFF },
  { name := "LDC_RB_OK_CNT", off := 0x12C, rc := 0xFFFFFFFF },
  { name := "LDC_DEEP_OK_CNT", off := 0x130, rc := 0xFFFFFFFF },
  { name := "LDC_UNREC_CNT", off := 0x134, rc := 0xFFFFFFFF },
  { name := "LDC_LIMIT_CNT", off := 0x138, rc := 0xFFFFFFFF },
  { name := "LDC_ABORT_CNT", off := 0x13C, rc := 0xFFFFFFFF },
  { name := "LDC_RBF_CNT", off := 0x140, rc := 0xFFFFFFFF },
  { name := "LDC_RBF_WIN_CNT", off := 0x144, rc := 0xFFFFFFFF },
  { name := "LDC_RBF_SKIP_CNT", off := 0x148, rc := 0xFFFFFFFF },
  { name := "LDC_BG_OK_CNT", off := 0x14C, rc := 0xFFFFFFFF },
  { name := "LDC_BG_FAIL_CNT", off := 0x150, rc := 0xFFFFFFFF },
  { name := "LDC_VERIFY_FAIL_CNT", off := 0x154, rc := 0xFFFFFFFF },
  { name := "LDC_TLER", off := 0x1000, n := 4096, rw := 0xFFFF }]

/-- Registers of DMC (R371, R372). -/
def regsDmc : List RegDesc := [
  { name := "DMC_CFG", off := 0x100, reset := 0x1F02, rwl := 0x1F7F, enc := [⟨2, 0, 0, 2, 1⟩, ⟨5, 4, 0, 2, 1⟩, ⟨11, 8, 3, 15, 12⟩] },
  { name := "DMC_CAP", off := 0x104, ro := 0xFFF3FF },
  { name := "DMC_STS", off := 0x108, ro := 0x1FF07 },
  { name := "DMC_TRAIN_INFO", off := 0x10C, ro := 0x80000FFF },
  { name := "DMC_SCRUB", off := 0x110, reset := 0x10018, rw := 0x1FFFF, enc := [⟨15, 0, 1, 168, 1⟩] },
  { name := "DMC_SCRUB_POS", off := 0x114, ro := 0xFFFFFF },
  { name := "DMC_MARK_CFG", off := 0x118, reset := 0x10E1010, rw := 0x1FFFFFF, enc := [⟨7, 0, 1, 255, 1⟩, ⟨23, 8, 60, 65535, 1⟩] },
  { name := "DMC_CE_THR", off := 0x11C, reset := 0x3E8, rw := 0xFFFF },
  { name := "DMC_CE_CNT", off := 0x120, rc := 0xFFFFFFFF },
  { name := "DMC_UE_CNT", off := 0x124, rc := 0xFFFFFFFF },
  { name := "DMC_POISON_RD_CNT", off := 0x128, rc := 0xFFFFFFFF },
  { name := "DMC_RMW_CNT", off := 0x12C, rc := 0xFFFFFFFF },
  { name := "DMC_FILL_CNT", off := 0x130, rc := 0xFFFFFFFF },
  { name := "DMC_VALID_CNT", off := 0x134, ro := 0xFFFFFF },
  { name := "DMC_INVAL_BASE_LO", off := 0x140, rw := 0xFFFF0000 },
  { name := "DMC_INVAL_BASE_HI", off := 0x144, rw := 0xFFFF },
  { name := "DMC_INVAL_CNT", off := 0x148, wo := 0xFFFFFF, enc := [⟨23, 0, 1, 8388608, 1⟩] },
  { name := "DMC_INVAL_STS", off := 0x14C, ro := 0x1 },
  { name := "DMC_FLIP_ADDR_LO", off := 0x160, rw := 0xFFFFFFC0 },
  { name := "DMC_FLIP_ADDR_HI", off := 0x164, rw := 0xFFFF },
  { name := "DMC_FLIP_SYM0", off := 0x168, rw := 0xFFFFFFFF },
  { name := "DMC_FLIP_SYM1", off := 0x16C, rw := 0xFFFFFFFF },
  { name := "DMC_FLIP_SYM2", off := 0x170, rw := 0xFFFF },
  { name := "DMC_FLIP_CTL", off := 0x174, rw := 0x800001FF },
  { name := "DMC_FLIP_RES", off := 0x178, ro := 0xF7F7 },
  { name := "DMC_DEV", off := 0x1000, n := 16, stride := 64, n2 := 10, ro := 0x1FFFFFF },
  { name := "DMC_MARK", off := 0x1400, n := 16, rw := 0x1F, ro := 0x20, enc := [⟨3, 0, 0, 9, 1⟩] }]

/-- Registers of FCH (R273, R274, R275, R276). -/
def regsFch : List RegDesc := [
  { name := "FCH_CTL", off := 0x100, reset := 0x9, rwl := 0xF, enc := [⟨3, 0, 1, 9, 1⟩] },
  { name := "FCH_CMD", off := 0x104, w1s := 0x1 },
  { name := "FCH_STS", off := 0x108, ro := 0xFFFF7F },
  { name := "FCH_DIE_EXCL", off := 0x10C, ro := 0xFFFFFFFF },
  { name := "FCH_GRP", off := 0x110, rw := 0x3, ro := 0x30 },
  { name := "FCH_SUSP_P", off := 0x114, reset := 0x864258, rw := 0xFFFFFF },
  { name := "FCH_SUSP_E", off := 0x118, reset := 0x40FA0BB8, rw := 0x7FFFFFFF },
  { name := "FCH_SUSP_CFG", off := 0x11C, reset := 0x941E, rw := 0xFFFF, enc := [⟨11, 8, 1, 15, 1⟩] },
  { name := "FCH_AGE", off := 0x120, reset := 0x3E81388, rw := 0xFFFFFFFF, enc := [⟨15, 0, 1, 65535, 1⟩, ⟨31, 16, 1, 65535, 1⟩] },
  { name := "FCH_TMAX_R", off := 0x124, reset := 0xD20783C, rw := 0x3FFFFFFF },
  { name := "FCH_TMAX_P", off := 0x128, reset := 0xBB80960, rw := 0xFFFFFFFF },
  { name := "FCH_TMAX_F", off := 0x12C, reset := 0x1900FA0, rw := 0xFFFFFFFF },
  { name := "FCH_TMAX_E", off := 0x130, reset := 0x190F2EE0, rw := 0xFFFFFFFF },
  { name := "FCH_TIM0", off := 0x134, rw := 0xFFFFFFFF },
  { name := "FCH_TIM1", off := 0x138, rw := 0xFFFFFFFF },
  { name := "FCH_MAINT", off := 0x13C, reset := 0x181403E8, rw := 0xFFFF03FF },
  { name := "FCH_SUSP_CNT", off := 0x140, rc := 0xFFFFFFFF },
  { name := "FCH_HINT_CNT", off := 0x144, rc := 0xFFFFFFFF },
  { name := "FCH_TMO_CNT", off := 0x148, rc := 0xFFFFFFFF },
  { name := "FCH_RESTART_CNT", off := 0x14C, rc := 0xFFFFFFFF },
  { name := "FCH_WITHDRAW_CNT", off := 0x150, rc := 0xFFFFFFFF },
  { name := "FCH_TRAIN_CNT", off := 0x154, rc := 0xFFFFFFFF },
  { name := "FCH_QUEUED", off := 0x158, ro := 0xFF },
  { name := "FCH_WR_BASE_LO", off := 0x1000, rwl := 0xFFFFFFC0 },
  { name := "FCH_WR_BASE_HI", off := 0x1004, rwl := 0xFFFF },
  { name := "FCH_WR_SIZE", off := 0x1008, reset := 0x4, rwl := 0xF, enc := [⟨3, 0, 4, 12, 1⟩] },
  { name := "FCH_WR_TAIL", off := 0x100C, rw := 0xFFF },
  { name := "FCH_WR_HEAD", off := 0x1010, ro := 0xFFF },
  { name := "FCH_WC_BASE_LO", off := 0x1014, rwl := 0xFFFFFFC0 },
  { name := "FCH_WC_BASE_HI", off := 0x1018, rwl := 0xFFFF },
  { name := "FCH_WC_TAIL", off := 0x101C, ro := 0xFFF },
  { name := "FCH_WC_HEAD", off := 0x1020, rw := 0xFFF },
  { name := "FCH_WR_FAULT", off := 0x1024, ro := 0x8000FFFF },
  { name := "FCH_DIE_STS", off := 0x2000, n := 16, stride := 16, ro := 0xFFFF },
  { name := "FCH_DIE_ID", off := 0x2004, n := 16, stride := 16, ro := 0xFFFFFFFF },
  { name := "FCH_DIE_TMO", off := 0x2008, n := 16, stride := 16, ro := 0xFFFFFF },
  { name := "FCH_DIE_CTL", off := 0x200C, n := 16, stride := 16, w1s := 0x1 },
  { name := "FCH_THR0", off := 0x3000, n := 64, stride := 16, rw := 0xFFFF },
  { name := "FCH_THR1", off := 0x3004, n := 64, stride := 16, rw := 0xFFFFFFFF },
  { name := "FCH_THR2", off := 0x3008, n := 64, stride := 16, rw := 0xFFFFFFFF },
  { name := "FCH_THR3", off := 0x300C, n := 64, stride := 16, rw := 0xFFFFFF },
  { name := "FCH_UC_ADDR", off := 0x3400, rw := 0x3FFF },
  { name := "FCH_UC_DATA", off := 0x3404, wo := 0xFFFFFFFF },
  { name := "FCH_UC_CRC", off := 0x3408, ro := 0xFFFFFFFF },
  { name := "FCH_UC_VER", off := 0x340C, rwl := 0xFFFFFFFF }]

/-- Registers of GRV (R410, R411, R412). -/
def regsGrv : List RegDesc := [
  { name := "GRV_RT_BASE_LO", off := 0x100, rwl := 0xFFFF0000 },
  { name := "GRV_RT_BASE_HI", off := 0x104, rwl := 0xFFFF },
  { name := "GRV_RT_SIZE", off := 0x108, rwl := 0x1FFFF, enc := [⟨16, 0, 4096, 65536, 4096⟩] },
  { name := "GRV_RT_ABI", off := 0x10C, rwl := 0xFFFFFFFF },
  { name := "GRV_WDIRTY_MAX", off := 0x110, reset := 0x400, rw := 0x7FF, enc := [⟨10, 0, 1, 1024, 1⟩] },
  { name := "GRV_STS", off := 0x114, reset := 0x10, ro := 0x1F1F1F },
  { name := "GRV_STREAM_INFL", off := 0x118, ro := 0xFFF },
  { name := "GRV_CACHE_DIRTY", off := 0x11C, ro := 0x7FF },
  { name := "GRV_STREAM_MU_CNT", off := 0x120, rc := 0xFFFFFFFF },
  { name := "GRV_CODEC_JOB_CNT", off := 0x124, rc := 0xFFFFFFFF },
  { name := "GRV_HASH_JOB_CNT", off := 0x128, rc := 0xFFFFFFFF },
  { name := "GRV_GATE_DENY_CNT", off := 0x12C, rc := 0xFFFFFFFF },
  { name := "GRV_SCRUB_CNT", off := 0x130, rc := 0xFFFFFFFF },
  { name := "GRV_ENG_STS", off := 0x1000, n := 16, stride := 64, ro := 0xFFFFFF },
  { name := "GRV_ENG_CTL", off := 0x1004, n := 16, stride := 64, w1s := 0x7 },
  { name := "GRV_ENG_ASSIGN", off := 0x1008, n := 16, stride := 64, rw := 0x81FF },
  { name := "GRV_ENG_NOTE", off := 0x100C, n := 16, stride := 64, ro := 0xFFFFFFFF },
  { name := "GRV_ENG_FAULT", off := 0x1010, n := 16, stride := 64, ro := 0x1FF, w1c := 0x80000000 },
  { name := "GRV_ENG_FAULT_PC", off := 0x1014, n := 16, stride := 64, ro := 0xFFFFFFFF },
  { name := "GRV_ENG_UCYC_LO", off := 0x1018, n := 16, stride := 64, ro := 0xFFFFFFFF },
  { name := "GRV_ENG_UCYC_HI", off := 0x101C, n := 16, stride := 64, ro := 0xFFFFFFFF },
  { name := "GRV_ENG_ULIM_LO", off := 0x1020, n := 16, stride := 64, ro := 0xFFFFFFFF },
  { name := "GRV_ENG_ULIM_HI", off := 0x1024, n := 16, stride := 64, ro := 0xFFFFFFFF },
  { name := "GRV_ENG_PROG", off := 0x1028, n := 16, stride := 64, ro := 0x803F0FFF },
  { name := "GRV_SLM_BASE_LO", off := 0x2000, rwl := 0xFF000000 },
  { name := "GRV_SLM_BASE_HI", off := 0x2004, rwl := 0xFFFF },
  { name := "GRV_SLM_BLOCKS", off := 0x2008, rwl := 0x3FFF, enc := [⟨13, 0, 0, 8192, 1⟩] },
  { name := "GRV_SLM_TAG", off := 0x3000, n := 4096, rw := 0x81FF81FF }]

/-- The register list of a block kind. -/
def regsOf : Blk → List RegDesc
  | .top => regsTop
  | .trk => regsTrk
  | .pwr => regsPwr
  | .aon => regsAon
  | .fus => regsFus
  | .bst => regsBst
  | .evr => regsEvr
  | .mbx => regsMbx
  | .tap => regsTap
  | .xmv => regsXmv
  | .sec => regsSec
  | .pke => regsPke
  | .bpm => regsBpm
  | .hqe => regsHqe
  | .ftl => regsFtl
  | .cpc => regsCpc
  | .prt => regsPrt
  | .win => regsWin
  | .par => regsPar
  | .ldc => regsLdc
  | .dmc => regsDmc
  | .fch => regsFch
  | .grv => regsGrv

/-- BLK_CAP.PAGES, the number of implemented pages (R37). -/
def pagesOf : Blk → Nat
  | .top => 2
  | .trk => 16
  | .pwr => 1
  | .aon => 1
  | .fus => 2
  | .bst => 1
  | .evr => 3
  | .mbx => 2
  | .tap => 2
  | .xmv => 2
  | .sec => 3
  | .pke => 2
  | .bpm => 5
  | .hqe => 6
  | .ftl => 2
  | .cpc => 4
  | .prt => 2
  | .win => 7
  | .par => 1
  | .ldc => 5
  | .dmc => 2
  | .fch => 4
  | .grv => 7

/-- BLK_CAP.INT_BITS (R37, R43). -/
def intBitsOf : Blk → Nat
  | .top => 3
  | .trk => 2
  | .pwr => 7
  | .aon => 5
  | .fus => 4
  | .bst => 3
  | .evr => 4
  | .mbx => 4
  | .tap => 4
  | .xmv => 2
  | .sec => 7
  | .pke => 2
  | .bpm => 3
  | .hqe => 5
  | .ftl => 6
  | .cpc => 7
  | .prt => 8
  | .win => 7
  | .par => 1
  | .ldc => 5
  | .dmc => 7
  | .fch => 6
  | .grv => 6

/-- BLK_CAP.BCAST: membership of a broadcast aperture (R37). -/
def bcastOf : Blk → Bool
  | .prt | .fch | .grv => true
  | .top | .trk | .pwr | .aon | .fus | .bst | .evr | .mbx | .tap | .xmv | .sec | .pke | .bpm | .hqe | .ftl | .cpc | .win | .par | .ldc | .dmc => false

/-- BLK_CAP.GATEABLE: the block can be isolated and powered down (R37). -/
def gateableOf : Blk → Bool
  | .prt | .fch | .grv => true
  | .top | .trk | .pwr | .aon | .fus | .bst | .evr | .mbx | .tap | .xmv | .sec | .pke | .bpm | .hqe | .ftl | .cpc | .win | .par | .ldc | .dmc => false

end Sys2Proof.Machine
end

