-- ==== Sys2Proof/Machine/Tbl.lean ====
section
/-! DEFINITION. Sparse tables keyed by a number: lists of pairs with strictly rising keys. Registers,
buffers, queues and map structures that the part indexes by number are kept so. -/

namespace Sys2Proof.Machine

/-- A table: pairs of a key and a value. -/
abbrev Tbl (α : Type) := List (Nat × α)

/-- The value listed under a key. -/
def Tbl.find {α : Type} : Tbl α → Nat → Option α
  | [], _ => none
  | (k', v) :: t, k => if k' = k then some v else Tbl.find t k

/-- The value listed under a key, or the table's default. -/
def Tbl.getD {α : Type} (t : Tbl α) (k : Nat) (d : α) : α := (Tbl.find t k).getD d

/-- List a value under a key, in place of the one listed there before. -/
def Tbl.put {α : Type} : Tbl α → Nat → α → Tbl α
  | [], k, v => [(k, v)]
  | (k', v') :: t, k, v =>
    if k < k' then (k, v) :: (k', v') :: t
    else if k' = k then (k, v) :: t
    else (k', v') :: Tbl.put t k v

/-- Unlist a key. -/
def Tbl.del {α : Type} : Tbl α → Nat → Tbl α
  | [], _ => []
  | (k', v') :: t, k => if k' = k then Tbl.del t k else (k', v') :: Tbl.del t k

/-- Change the value listed under a key, if there is one. -/
def Tbl.adj {α : Type} (t : Tbl α) (k : Nat) (f : α → α) : Tbl α :=
  t.map fun p => if p.1 = k then (p.1, f p.2) else p

/-- Put a value, or unlist the key when the value is the table's default. -/
def Tbl.putC {α : Type} [DecidableEq α] (d : α) (t : Tbl α) (k : Nat) (v : α) : Tbl α :=
  if v = d then Tbl.del t k else Tbl.put t k v

/-- The keys rise strictly. -/
def Tbl.sorted {α : Type} : Tbl α → Bool
  | [] => true
  | [_] => true
  | (k, _) :: (k', v') :: t => decide (k < k') && Tbl.sorted ((k', v') :: t)

/-- The n-th element of a list replaced. -/
def setNth {α : Type} : List α → Nat → α → List α
  | [], _, _ => []
  | _ :: t, 0, v => v :: t
  | x :: t, n + 1, v => x :: setNth t n v

/-- The first element that satisfies a test, and the list without it. -/
def takeFirst {α : Type} (p : α → Bool) : List α → Option (α × List α)
  | [] => none
  | x :: t =>
    if p x then some (x, t)
    else match takeFirst p t with
      | some (y, r) => some (y, x :: r)
      | none => none

/-- The sum of a function over a list. -/
def sumOf {α : Type} (f : α → Nat) (l : List α) : Nat := (l.map f).sum

/-- How many elements satisfy a test. -/
def countOf {α : Type} (p : α → Bool) (l : List α) : Nat := (l.filter p).length

/-- Division rounded up. -/
def ceilDiv (a b : Nat) : Nat := (a + b - 1) / b

/-- Bytes to a number, the first byte least significant. -/
def leNat : List (BitVec 8) → Nat
  | [] => 0
  | b :: t => b.toNat + 256 * leNat t

/-- A number as n bytes, the first byte least significant. -/
def leBytes : Nat → Nat → List (BitVec 8)
  | 0, _ => []
  | n + 1, v => BitVec.ofNat 8 v :: leBytes n (v / 256)

end Sys2Proof.Machine
end

