-- ==== Sys2Proof/Machine/StateCore.lean ====
section
/-! DEFINITION. State shared by every block: block status (R38, R40), Trunk requests and Bark tables
(R13 to R15, R138), events on their way to Rings, and the answer a command returns. -/

namespace Sys2Proof.Machine

/-- BLK_STS.STATE (R40). -/
inductive BState where
  | reset | init | ready | draining | isolated | off | testing | retired
  deriving DecidableEq, Repr

/-- Why a block drains: what happens when the drain ends (R39, R623, R624). -/
inductive DrainWhy where
  | isolate | softReset | disable
  deriving DecidableEq, Repr

/-- One block's control and status (R38, R40) and the requests it has accepted and not completed. -/
structure BlkSt where
  enable : Bool := false
  isolate : Bool := false
  powerReq : Bool := true
  lock : Bool := false
  st : BState := .reset
  busy : Bool := false
  why : DrainWhy := .isolate
  accepted : Nat := 0
  lostPower : Bool := false
  deriving DecidableEq, Repr

/-- TMODE of a Bark entry (R138). -/
structure BarkEntry where
  w0 : Word := 0
  w1 : Word := 0
  w2 : Word := 0
  w3 : Word := 0
  deriving DecidableEq, Repr

/-- A Trunk request that has reached its target and has no response yet (R13, R14). -/
structure TrkReq where
  id : Nat
  acc : Acc
  restarts : Nat := 0
  deriving DecidableEq, Repr

/-- The Trunk: requests in flight, requests that timed out and whose late response may still come, the
Bark tables and the staging set of R139. -/
structure Trunk where
  reqs : List TrkReq := []
  late : List TrkReq := []
  nextId : Nat := 0
  bark : Tbl BarkEntry := []
  stage0 : Word := 0
  stage1 : Word := 0
  stage2 : Word := 0
  deny : Tbl Nat := []
  deriving DecidableEq, Repr

/-- An event on its way to EVR (R553, R555). -/
structure Ev where
  code : Nat
  sev : Nat
  block : Nat
  inst : Nat
  tenant : Option Nat
  detail : List Byte
  fw : Bool := false
  deriving DecidableEq, Repr

/-- What a posted write of a port carries (R69): data of a command, a completion queue entry, or the message of an MSI-X vector. -/
inductive TlpKind where
  | data | cqe
  | msix (vec : Nat)
  deriving DecidableEq, Repr

/-- A posted write that a port issues, with its attributes (R69): Relaxed Ordering and ID-Based Ordering; No Snoop is 0 in each. -/
structure Tlp where
  mid : Nat
  kind : TlpKind
  ro : Bool := false
  ido : Bool := false
  noSnoop : Bool := false
  deriving DecidableEq, Repr

/-- A completion that a port returns to a host read: the status (0 SC, 1 UR, 2 RRS, 4 CA), the data and EP (R65, R70, R79). -/
structure HostAns where
  cpl : Nat
  data : Nat := 0
  ep : Bool := false
  deriving DecidableEq, Repr

/-- What the latest command answered: a Trunk response code with its data (R13), the bytes returned, and to a host request the PCIe completion status (0 SC,
1 UR, 2 RRS, 4 CA) and EP (R65, R79); `more`: completions of later reads that leave behind it (R70); `tlps`: the posted writes that left, in order (R69). -/
structure Resp where
  code : TCode := .ok
  data : Nat := 0
  bytes : List Byte := []
  cpl : Nat := 0
  ep : Bool := false
  more : List HostAns := []
  tlps : List Tlp := []
  deriving DecidableEq, Repr

end Sys2Proof.Machine
end

