-- ==== Sys2Proof/Machine/StateHost.lean ====
section
/-! DEFINITION. State of the host side: ports and their functions (R58, R63, R72 to R85), queues, contexts and
controllers (R86 to R128), tenants and namespaces (R129 to R136). -/

namespace Sys2Proof.Machine

/-- PRT_LINK_STS.PSTATE (R58, R84). -/
inductive PState where
  | down | training | up | contained
  deriving DecidableEq, Repr

/-- PRT_LINK_STS.LTSSM (R84). -/
inductive Ltssm where
  | detect | polling | configuration | l0 | recovery | l0p | l1 | disabled | hotReset | loopback
  deriving DecidableEq, Repr

/-- One function of a port: the configuration state this part's rules act on (R63 to R66, R71, R74, R80). `cfg`
holds the remaining writable bits of the configuration space by the offset of their dword. The AER fields from `aerUnc` on are sticky: `aerFirst` is the First Error
Pointer and `aerHdr` the header log of its error. `devSta` holds the error bits of Device Status, `msixTab` the dwords of the MSI-X table, each vector masked
until it is written, and `pba` the vectors that pend (R64). -/
structure FnSt where
  bme : Bool := false
  d3hot : Bool := false
  flrPend : Bool := false
  ready : Bool := false
  msixEn : Bool := false
  msixMask : Bool := false
  mps : Nat := 0
  mrrs : Nat := 2
  aerUnc : Nat := 0
  aerCor : Nat := 0
  aerMask : Word := 0x400000
  aerSev : Word := 0x460030
  aerCorMask : Word := 0xA000
  aerFirst : Nat := 0
  aerHdr : Nat := 0
  devSta : Nat := 0
  msixTab : Tbl Word := []
  pba : List Nat := []
  cfg : Tbl Word := []
  deriving DecidableEq, Repr

/-- From where a context was drawn (R98). -/
inductive CtxSrc where
  | tenantMin | reserve | shared
  deriving DecidableEq, Repr

/-- Command class (R101, R259): the urgency a command keeps for its life. -/
inductive Cls where
  | urgent | high | medium | low | background
  deriving DecidableEq, Repr

/-- What a device-issued non-posted read fetches (R68, R91, R94, R109): submission entries, with the class and the source of each
entry's context; a piece of a fragment table of a command, and a piece of a command's data, each with its offset, address and length. -/
inductive NpFor where
  | entries (mid sqid idx : Nat) (draws : List (Cls × CtxSrc))
  | table (c : CmdId) (off addr len : Nat)
  | data (c : CmdId) (off addr len : Nat)
  deriving DecidableEq, Repr

/-- A non-posted request of the port whose completion has not returned (R68), with its attributes (R69). -/
structure NpReq where
  tag : Nat
  mid : Nat
  purpose : NpFor
  discard : Bool := false
  ro : Bool := false
  ido : Bool := false
  deriving DecidableEq, Repr

/-- A BAR2 read the port has issued on the Trunk (R62, R65); `ans`: its completion, while that of an earlier read has not left (R70). -/
structure Bar2 where
  id : Nat
  off : Nat
  size : Nat
  timedOut : Bool := false
  ans : Option HostAns := none
  deriving DecidableEq, Repr

/-- A DOE mailbox (R81): the data object that the host writes, its response data object while one waits to be read, and the interrupt's enable and status. -/
structure Doe where
  busy : Bool := false
  error : Bool := false
  response : List Byte := []
  request : List Byte := []
  intEn : Bool := false
  intSts : Bool := false
  deriving DecidableEq, Repr

/-- Receive credits that a port advertises on VC0 (R67): header and data credits of posted and non-posted requests; none is a number without end. -/
structure Credits where
  postedHdr : Option Nat
  postedData : Option Nat
  npHdr : Option Nat
  npData : Option Nat
  cplHdr : Option Nat
  cplData : Option Nat
  deriving DecidableEq, Repr

/-- One host port. `link` holds the link-control fields in effect since the last entry to Detect (R55), `detActive` whether a port without a partner
stands in Detect.Active (R59), `trained` the width of the last training (R53, R60), `replays` the replays of one flit in a row (R61), `credits` the receive
credits advertised while the data link layer is up (R67). -/
structure Port where
  pstate : PState := .down
  ltssm : Ltssm := .detect
  rate : Nat := 0
  width : Nat := 0
  flit : Bool := false
  cxl : Bool := false
  dlActive : Bool := false
  perst : Bool := true
  quiet : Bool := true
  link : Word := 0x1A1
  detActive : Bool := false
  cause : Nat := 0
  causeFn : Nat := 0
  replays : Nat := 0
  trained : Nat := 0
  ctoEnc : Nat := 0
  ctoOff : Bool := false
  numVfs : Nat := 0
  vfEn : Bool := false
  fns : Tbl FnSt := []
  np : List NpReq := []
  nextTag : Nat := 0
  bar2 : List Bar2 := []
  doe : Doe := {}
  credits : Option Credits := none
  ras : Nat := 0
  deriving DecidableEq, Repr

/-- The status of a completion: status code type, status code, do-not-retry is left to the host (R95 and others). -/
structure Status where
  sct : Nat
  sc : Nat
  deriving DecidableEq, Repr

/-- The state of a submission queue (R96, R115). -/
inductive SqState where
  | active | errored | frozen
  deriving DecidableEq, Repr

/-- A submission queue. The fields from `reason` on are the C2h latch (R123, R124). -/
structure Sq where
  size : Nat
  head : Nat := 0
  tail : Nat := 0
  prio : Nat := 3
  cq : Nat := 0
  base : Nat := 0
  ordered : Bool := false
  st : SqState := .active
  reason : Nat := 0
  latch : Nat := 0
  doorbell : Nat := 0
  cidFault : Nat := 0xFFFF
  stFault : Nat := 0
  aborted : Nat := 0
  frag : Nat := 0
  opsec : Nat := 0
  resume : Option (CmdId × Nat) := none
  deriving DecidableEq, Repr

/-- A completion queue entry as posted (R93, R115). -/
structure Cqe where
  sqid : Nat
  sqhd : Nat
  cid : Nat
  status : Status
  dw0 : Nat
  dw1 : Nat
  phase : Bool
  deriving DecidableEq, Repr

/-- A completion queue: `entries` are the entries posted and not yet freed by the head doorbell. -/
structure Cq where
  size : Nat
  head : Nat := 0
  tail : Nat := 0
  phase : Bool := true
  vector : Nat := 0
  ien : Bool := true
  base : Nat := 0
  entries : List Cqe := []
  deriving DecidableEq, Repr

/-- One NVMe controller: register state of BAR0 and the features this part keeps per controller. `cc` holds the bits of CC that no other field holds. The Arbitration feature starts with a burst without limit and weights 0 (DESIGN CHOICE, entry 113). -/
structure Ctrl where
  en : Bool := false
  rdy : Bool := false
  cc : Word := 0
  ams : Bool := false
  mps : Nat := 0
  shn : Nat := 0
  shst : Nat := 0
  aqa : Word := 0
  asq : Nat := 0
  acq : Nat := 0
  aers : List Nat := []
  arb : Word := 7
  psReq : Nat := 0
  psOper : Nat := 0
  apst : List Nat := [0, 0, 0, 0, 0]
  autoPs : Bool := false
  tsOff : Nat := 0
  tsSet : Bool := false
  c2hGen : Nat := 0
  hmbOn : Bool := false
  aec : Word := 0
  hostId : Nat := 0
  overK : List Nat := [378, 378, 378, 378]
  underK : List Nat := [268, 268, 268, 268]
  psLast : Nat := 0
  deriving DecidableEq, Repr

/-- Where a command stands between its fetch and the posting of its completion (R107 to R117). -/
inductive Stage where
  | fetched | ready | waitBuf | dataIn | received | held | reading | transferring | waitClose | waiting | done
  deriving DecidableEq, Repr

/-- One mapping unit of a command: where its data stands. -/
inductive MuSt where
  | lookup | page | flash (pua : Nat) | data | failed (st : Status)
  deriving DecidableEq, Repr

/-- One mapping unit of a command: its global index, the place of its bytes in the transfer, its state and its data, and the
location of a codeword that was not recovered. -/
structure MuXfer where
  gmu : Nat
  st : MuSt := .lookup
  data : List Byte := []
  lostPua : Option Nat := none
  deriving DecidableEq, Repr

/-- A command context (R98): from the fetch of the entry until its completion entry is posted. `leader`: the read in flight whose buffers this one shares (R150). -/
structure Ctx where
  id : CmdId
  tenant : Nat
  idx : Nat
  cls : Cls
  src : CtxSrc
  admin : Bool := false
  sqe : Sqe
  stage : Stage := .fetched
  status : Option Status := none
  dw0 : Nat := 0
  dw1 : Nat := 0
  wseq : Nat := 0
  nsid : Nat := 0
  lba : Nat := 0
  nlb : Nat := 0
  bufs : List Nat := []
  need : Nat := 0
  xlen : Nat := 0
  frags : List (Nat × Nat × Bool) := []
  segs : List Nat := []
  seg : Option (Nat × Nat × Bool) := none
  twant : List (Nat × Nat × Nat) := []
  tgot : Tbl (List Byte) := []
  want : List (Nat × Nat × Nat) := []
  got : List (Nat × List Byte) := []
  data : List Byte := []
  mus : List MuXfer := []
  leader : Option CmdId := none
  moved : Bool := false
  cover : List Nat := []
  jmark : Option Nat := none
  deriving DecidableEq, Repr

/-- HQE: queues by MID × 65,536 + queue identifier, controllers by MID, contexts in order of fetch, the urgent
token buckets (R101) and the arbiters' positions (R100 to R103). -/
structure Hqe where
  sqs : Tbl Sq := []
  cqs : Tbl Cq := []
  ctrls : Tbl Ctrl := []
  ctxs : List Ctx := []
  tokens : Tbl Nat := []
  deficit : Tbl Int := []
  rr : Tbl Nat := []
  vwc : Bool := true
  unitsRead : Nat := 0
  unitsWritten : Nat := 0
  readCmds : Nat := 0
  writeCmds : Nat := 0
  mediaErrors : Nat := 0
  errLog : List (CmdId × Status × Nat) := []
  warmed : Bool := false
  lit : Bool := false
  deriving DecidableEq, Repr

/-- A reservation registrant (R136). -/
structure Registrant where
  hostId : Nat
  mid : Nat
  key : Nat
  deriving DecidableEq, Repr

/-- The command set of a namespace (R403, R405). -/
inductive NsKind where
  | nvm | memory | compute
  deriving DecidableEq, Repr

/-- A namespace (R134, R155, R156): its map range, owner, sharers, attachments and reservation. -/
structure Ns where
  kind : NsKind := .nvm
  lbas : Nat := 0
  lbaf : Nat := 0
  leafBase : Nat := 0
  leafCount : Nat := 0
  owner : Nat := 0
  sharers : List Nat := []
  attached : List Nat := []
  notReady : Bool := false
  deleting : Option CmdId := none
  regs : List Registrant := []
  rtype : Nat := 0
  holder : Option Nat := none
  rgen : Nat := 0
  ptpl : Bool := false
  blocks : List Nat := []
  deriving DecidableEq, Repr

/-- What the settings schema keeps of tenant configuration (R131, R132), and the Subsystem Vendor ID and Subsystem ID (R1). -/
structure TenSettings where
  subsys : Word := 0x09601F3D
  fnTenant : Tbl Nat := []
  regs : Tbl Word := []
  nsOwner : Tbl Nat := []
  nsShare : Tbl (List Nat) := []
  keySlots : Tbl (List Nat) := []
  engines : Tbl (List Nat) := []
  slices : Tbl Nat := []
  deriving DecidableEq, Repr

/-- Tenancy: namespaces by NSID, and slot and engine and slice ownership not held in registers (R132). -/
structure Tenancy where
  nss : Tbl Ns := []
  keySlots : Tbl (List Nat) := []
  saved : TenSettings := {}
  savedTler : Tbl Word := []
  applied : Bool := false
  fdp : Tbl Bool := []
  deriving DecidableEq, Repr

end Sys2Proof.Machine
end

