-- ==== Sys2Proof/Machine/StateMedia.lean ====
section
/-! DEFINITION. State of the buffer pools (R143 to R152). -/

namespace Sys2Proof.Machine

/-- A chunk given to an owner (R143): its tag and its live buffers as slot and reference count (R148). -/
structure Chunk where
  owner : Nat
  cls : Nat
  internal : Bool
  live : Tbl Nat := []
  deriving DecidableEq, Repr

/-- Whom a waiting allocation is for: a command, a firmware core, or internal work named by a number. -/
inductive AllocFor where
  | cmd (c : CmdId)
  | fw (core : Nat)
  | work (n : Nat)
  | read (id : Nat)
  deriving DecidableEq, Repr

/-- A waiting allocation (R145), oldest first in the list that holds it. -/
structure Waiter where
  owner : Nat
  cls : Nat
  internal : Bool
  purpose : AllocFor
  deriving DecidableEq, Repr

/-- The Leaf pools: chunks held by an owner, the previous owner of each 256 KiB of DRAM that was a chunk, by address (R147), waiting allocations, and
the address given to each internal work item. -/
structure Bpm where
  chunks : Tbl Chunk := []
  prev : Tbl Nat := []
  waiters : List Waiter := []
  given : Tbl Nat := []
  deriving DecidableEq, Repr

/-- A request that waits for the fill of its granule (R361). -/
structure DramReq where
  acc : Acc
  poison : Bool
  deriving DecidableEq, Repr

/-- DMC beyond its registers: the training state (R350), the valid bits (R360), granules whose valid bit a bitmap
error set, with their lines written since (R363), fills and the requests that wait for them (R361), an invalidate in progress as first granule
and count (R362), poisoned lines (R357), symbol errors stored by a MODE 1 flip (R369), the scrub's next line (R365)
and the corrected lines of the running minute (R370). Lines are named by their address divided by 64. -/
structure Dmc where
  tstate : Nat := 0
  valid : Tbl Bool := []
  uninit : Tbl (List Nat) := []
  fills : Tbl (List DramReq) := []
  inval : Option (Nat × Nat) := none
  poison : Tbl Bool := []
  stored : Tbl (List SymErr) := []
  scrubLine : Nat := 0
  ceMinute : Nat := 0
  winSec : Nat := 0
  deriving DecidableEq, Repr

end Sys2Proof.Machine
end

