-- ==== Sys2Proof/Machine/StateFlash.lean ====
section
/-! DEFINITION. State of the media side: flash contents and reclaim units (R200 to R243), the map, the pending-write table
and the journal (R154 to R199), the sequencers (R244 to R276), read recovery (R277 to R300) and the key slots of SEC and
PKE (R413 to R441). -/

namespace Sys2Proof.Machine

/-! ### Map and journal -/

/-- A journal record (R183) by its fields; `payload` is one of the records that follow an NSMETA record, 93 bits of it in `mu` and `a`. -/
inductive JType where
  | pad | mapRec | trim | uncorr | reloc | leafwb | dead | nsmeta
  | payload
  deriving DecidableEq, Repr

structure JRec where
  jseq : Nat
  typ : JType
  mu : Nat
  a : Nat := 0
  b : Nat := 0
  c : Nat := 0
  deriving DecidableEq, Repr

/-- What a codeword slot of flash holds (R164, R184, R190, R277). User data is held as stored: ciphertext where the
namespace is encrypted, with the CRC of the plaintext in its header. What takes several slots says which of them this is, from 0. `raw` is a 4,160-byte
payload that firmware programmed through its ring (R256); `parity` is a parity codeword, whose XOR `Flash.cover` holds (R206). -/
inductive Content where
  | pad
  | user (nsid mu tenant lost wseq crc : Nat) (data : List Byte)
  | mapLeaf (root lseq : Nat) (raw : Bool) (entries : Tbl Nat) (part : Nat := 0)
  | journal (recs : List JRec) (part : Nat := 0)
  | snapshot (number first : Nat) (words : Tbl Nat) (part : Nat := 0)
  | summary (valid : List (Nat × List Nat)) (bad : List (Nat × Nat)) (part : Nat := 0)
  | backing (granule sub gseq tenant poison crc : Nat) (data : List Byte)
  | flush (trailer : Bool) (body : List Byte)
  | raw (payload : List Byte)
  | parity
  deriving DecidableEq, Repr

/-- TIER of a root entry with its location (R165): the flash location word, a frame, an HMB descriptor, or a malformed entry's 64 bits. -/
inductive Tier where
  | flash (loc : Nat)
  | canopy (frame : Nat)
  | hmb (desc : Nat)
  | bad (word : Nat)
  deriving DecidableEq, Repr

/-- A root entry (R165). -/
structure Root where
  tier : Tier := .flash 0
  busy : Bool := false
  dirty : Bool := false
  deriving DecidableEq, Repr

/-- A frame (R167): the leaf's entries by offset (an unlisted one is UNMAPPED), the leaf-pool buffer of each granule that is present (GRAN), and the flash
location word. -/
structure Frame where
  leaf : Nat
  loc : Nat := 0
  raw : Bool := false
  ref : Bool := true
  wb : Bool := false
  lseq : Nat := 0
  owner : Nat := 0
  entries : Tbl Nat := []
  grans : Tbl Nat := []
  deriving DecidableEq, Repr

/-- An HMB descriptor (R174). -/
structure HmbDesc where
  leaf : Nat
  loc : Nat
  granule : Nat
  ngran : Nat
  raw : Bool
  lseq : Nat
  entries : Tbl Nat
  deriving DecidableEq, Repr

/-- A pending-write entry (R177). `mask` marks the LBAs an LBAF1 write covered, `merged` that the rest has been merged in (R181); `dead`: a later write or TRIM of the MU stands (R179, R182); `cmdSeq`: the sequence of the
command, the lowest of those that the entry stands for (R110, R176). -/
structure Pwt where
  gmu : Nat
  wseq : Nat
  nsid : Nat
  mu : Nat
  tenant : Nat
  cmd : CmdId
  data : List Byte
  lost : Nat := 0
  mask : Nat := 255
  merged : Bool := true
  held : Bool := false
  dead : Bool := false
  fua : Bool := false
  handle : Nat := 0
  group : Option Nat := none
  closed : Bool := false
  pua : Option Nat := none
  queued : Bool := false
  buf : Nat := 0
  cmdSeq : Nat := 0
  deriving DecidableEq, Repr

/-- Who waits for a leaf (R168, R169). -/
inductive LookFor where
  | read (c : CmdId) (gmu : Nat)
  | inner (id : Nat)
  | merge (wseq gmu : Nat)
  | apply (r : JRec)
  | uncorr (gmu pua : Nat)
  | writeback
  deriving DecidableEq, Repr

/-- Where a leaf that takes a frame or granules comes from: flash (R169), nowhere (R632), the HMB tier (R174), a rebuild (R191), or the resident copy
that grows (R632). -/
inductive PgSrc where
  | flash (loc : Nat)
  | fresh
  | hmb (desc : Nat)
  | rebuilt (lseq : Nat) (raw : Bool) (entries : Tbl Nat)
  | grow
  deriving DecidableEq, Repr

/-- A leaf on its way into the Canopy (R169): its source, class, frame, the granules it needs with the buffers they have so far, whether the reads have been
issued, codewords still to come, whether one failed, and the codewords that came by slot. -/
structure PageIn where
  src : PgSrc
  cls : Nat := 2
  frame : Option Nat := none
  granules : List Nat := []
  bufs : Tbl Nat := []
  issued : Bool := false
  left : Nat := 0
  failed : Bool := false
  parts : Tbl Content := []
  deriving DecidableEq, Repr

/-- A checkpoint that has committed (R186, R188): its directory, the RUs that were not FREE and the tenant epochs
(R421), the pages that hold it on flash, and the anchor image, which both anchor areas hold. -/
structure Ckpt where
  number : Nat
  start : Nat
  words : Tbl Nat
  used : List Nat := []
  epochs : Tbl Nat := []
  pages : List Nat := []
  image : List Byte := []
  deriving DecidableEq, Repr

/-- A checkpoint between CKPT_BEGIN and CKPT_COMMIT (R186): its leaves still to be written with the LSEQ they had, the leaves written, the entry of
CKPT_BEGIN until it completes, and the directory and pages of its snapshot. -/
structure CkptRun where
  number : Nat
  start : Nat
  left : Tbl Nat := []
  total : Nat := 0
  ent : Option (List Byte) := none
  snap : Tbl Nat := []
  pages : List Nat := []
  deriving DecidableEq, Repr

/-- A DIR_SNAPSHOT that runs (R186): its entry, how many pages it writes, the PUAs of those placed by page. -/
structure SnapRun where
  ent : List Byte
  pages : Nat
  placed : Tbl Nat := []
  deriving DecidableEq, Repr

/-- A LEAF_REBUILD that runs (R191, R194): its entry, the leaves still to be installed, whether the scan has ended, the MUs set to UNCORR. -/
structure RebuildRun where
  ent : List Byte
  left : List Nat
  scanned : Bool := false
  lost : Nat := 0
  deriving DecidableEq, Repr

/-- A write or TRIM that stands in the map while writes fetched before it may still arrive (R176, R179): global MU, count, sequence, LBAs of each MU. -/
structure Stood where
  gmu : Nat
  count : Nat := 1
  wseq : Nat
  mask : Nat := 255
  deriving DecidableEq, Repr

/-- A work ring between its doorbell and its completions (R193, R240, R274, R427): entries fetched and not begun, by index,
completions not yet posted, and whether the engine has stopped. -/
structure Ring where
  fetched : List (Nat × List Byte) := []
  done : List (List Byte) := []
  stopped : Bool := false
  deriving DecidableEq, Repr

/-- FTL beyond its registers: the map, its Canopy, HMB tier, pending writes, journal and checkpoints. `wbQueue`: leaves whose writeback is due; `wbEnts`: leaves
that a LEAF_WB waits for, with its entry and the leaves written for it; `evicts`: EVICT_OWNER entries that wait; `replayDue`: replay has not ended (R189);
`replayRun`: a REPLAY entry whose records still wait for leaves, with the sequences of the records applied. -/
structure Ftl where
  root : Tbl Root := []
  frames : Tbl Frame := []
  hand : Nat := 0
  hmb : Tbl HmbDesc := []
  hmbMem : List (Nat × Nat) := []
  hmbOrder : List Nat := []
  hmbDropping : Bool := false
  moving : Tbl Nat := []
  pwt : List Pwt := []
  waits : List (Nat × LookFor) := []
  pageIns : Tbl PageIn := []
  wbQueue : List Nat := []
  wbDone : Tbl Nat := []
  pwtWait : List Pwt := []
  stood : List Stood := []
  jseq : Nat := 1
  wseq : Nat := 1
  jbuf : List JRec := []
  jpages : List (List JRec) := []
  jpending : List JRec := []
  stalled : List JRec := []
  dirtySince : Tbl Nat := []
  jstart : Nat := 1
  ckpt : Option CkptRun := none
  snapRun : Option SnapRun := none
  ckpts : List Ckpt := []
  rebuilding : List Nat := []
  rebuilds : List RebuildRun := []
  rebuildAll : Bool := false
  leavesRebuilt : Nat := 0
  wbEnts : List (Nat × List Byte × Nat) := []
  evicts : List (List Byte) := []
  replayDue : Bool := false
  replayRun : Option (List Byte × List Nat) := none
  ring : Ring := {}
  deriving DecidableEq, Repr

/-! ### Reclaim units -/

/-- RU states (R202); a descriptor can hold a STATE above 5, which breaks R203. -/
inductive RuSt where
  | free | erasing | opened | closed | victim | retired
  | bad (v : Nat)
  deriving DecidableEq, Repr

/-- MEMBER of an RU descriptor (R203). -/
structure RuMember where
  die : Nat
  block : Nat
  skip : Bool := false
  deriving DecidableEq, Repr

/-- Where a data slot's content came from: what its placement must record (R179, R180, R171, R184, R314). -/
inductive ItemSrc where
  | host (gmu wseq : Nat)
  | reloc (gmu old : Nat)
  | leaf (root : Nat)
  | jpage (last : Nat)
  | snapPage (k : Nat)
  | sumPage (k : Nat)
  | backing (granule sub : Nat)
  | other
  | padSlot
  deriving DecidableEq, Repr

/-- A slot's worth of data that waits for assignment or is assigned to a slot of a row (R216). -/
structure Item where
  tenant : Nat
  ruh : Nat
  group : Option Nat := none
  src : ItemSrc
  content : Content
  slots : Nat := 1
  force : Bool := false
  buf : Nat := 0
  pua : Nat := 0
  deriving DecidableEq, Repr

/-- The state of one member's program unit in a row: not issued, foggy issued, foggy done, issued, done, failed. -/
inductive UnitSt where
  | idle | foggy | foggyDone | issued | done | failed
  deriving DecidableEq, Repr

/-- An open row (R205 to R210): data slots taken so far, items assigned, unit states, parity emitted, full or padded. -/
structure Row where
  fill : Nat := 0
  sent : Bool := false
  items : List Item := []
  since : Nat := 0
  units : Tbl UnitSt := []
  full : Bool := false
  emitted : Bool := false
  parityDone : Bool := false
  forced : Bool := false
  parityBuf : Nat := 0
  deriving DecidableEq, Repr

/-- An RU descriptor (R203) with its rows in flight, its validity bits by PUA, its epoch (R421), and the relocations of a
victim: PUAs still to read, reads and placements under way, RELOC records not yet applied and flushed; `rotated`: a write that names no reclaim group was
placed in it (R216). -/
structure Ru where
  st : RuSt := .free
  slc : Bool := false
  degraded : Bool := false
  short : Bool := false
  refresh : Bool := false
  nosum : Bool := false
  tenant : Nat := 0
  ruh : Nat := 0
  dset : Nat := 0
  members : List RuMember := []
  eraseCnt : Nat := 0
  valid : List Nat := []
  nextRow : Nat := 0
  rows : Nat := 0
  progTime : Nat := 0
  readMax : Nat := 0
  reads : Tbl Nat := []
  open_ : Tbl Row := []
  skipRows : List (Nat × Nat) := []
  closing : Bool := false
  epoch : Nat := 0
  moving : List Nat := []
  relocs : List Nat := []
  erased : List Nat := []
  rebuilt : Tbl Nat := []
  wear : Bool := false
  lastPatrol : Nat := 0
  patrolRow : Nat := 0
  rotated : Bool := false
  deriving DecidableEq, Repr

/-- A die set (R200, R201): die numbers with RETIRED and ABSENT marks, and its first RU. -/
structure DieSet where
  members : List (Nat × Bool × Bool) := []
  firstRu : Nat := 0
  rus : Nat := 0
  deriving DecidableEq, Repr

/-- A SUMMARY_WRITE that runs (R240): its entry, the number of RUs, how many pages it writes, the PUAs of those placed by page. -/
structure SumRun where
  ent : List Byte
  count : Nat
  pages : Nat
  placed : Tbl Nat := []
  deriving DecidableEq, Repr

/-- What an endurance group reports of its own (R215, R221, R234): host bytes and commands read and written, media MUs written, MUs of erased RUs. -/
structure EgStat where
  rd : Nat := 0
  wr : Nat := 0
  rdCmds : Nat := 0
  wrCmds : Nat := 0
  media : Nat := 0
  erased : Nat := 0
  errors : Nat := 0
  deriving DecidableEq, Repr

/-- CPC and PAR beyond their registers; `moveWait`: relocations that wait for a buffer, as RU and PUA; `sumPages`: the pages of the newest validity summary; `accs`: the page positions that PAR's accumulators hold, as RU, row
and position, and `spilled` those of open rows that stand in parity buffers (R207); `spareLow`: Available Spare is below its threshold (R237); `eg`: endurance groups by
tenant. -/
structure Cpc where
  dsets : Tbl DieSet := []
  rus : Tbl Ru := []
  bad : List (Nat × Nat) := []
  grown : List (Nat × Nat) := []
  spareUsed : Tbl Nat := []
  spareInit : Nat := 0
  opens : Tbl Nat := []
  rot : Tbl Nat := []
  queue : List Item := []
  waits : List Nat := []
  stopAlloc : List Nat := []
  readOnly : Nat := 0
  retiredDies : List Nat := []
  rebuild : List Nat := []
  uncorrSet : Nat := 0
  lost : Bool := false
  quietFua : Bool := false
  fcount : Tbl Nat := []
  hostMus : Nat := 0
  cwProg : Nat := 0
  relocMus : Nat := 0
  padSlots : Nat := 0
  refreshed : Nat := 0
  flushMus : Nat := 0
  tempHist : Tbl Nat := []
  hourIdx : Nat := 0
  hourly : Tbl (Nat × Nat) := []
  budget : Tbl Nat := []
  nextVictim : List Nat := []
  pace : Tbl Nat := []
  sysDone : List (ItemSrc × Nat) := []
  moveWait : List (Nat × Nat) := []
  sumPages : List Nat := []
  sumRun : Option SumRun := none
  accs : List (Nat × Nat × Nat) := []
  spilled : List (Nat × Nat × Nat) := []
  spareLow : Bool := false
  eg : Tbl EgStat := []
  fdpEvents : List (Nat × Nat) := []
  allocs : List (Nat × Nat × Nat) := []
  ring : Ring := {}
  deriving DecidableEq, Repr

/-! ### Flash channels -/

/-- What a flash operation is for. -/
inductive FFor where
  | none
  | fw
  | prog (ru row member : Nat)
  | erase (ru member : Nat)
  | cw (id : Nat)
  deriving DecidableEq, Repr

/-- A flash operation (R255). -/
structure FOp where
  id : Nat := 0
  opc : Nat
  cls : Nat := 2
  slc : Bool := false
  tag : Nat := 0
  tenant : Nat := 0
  pmask : Nat := 0
  smask : Nat := 0
  addr : Nat := 0
  buf : Nat := 0
  rtry : Nat := 0
  arg : Nat := 0
  rsvd : Bool := false
  sub : Submitter
  purpose : FFor := .none
  age : Nat := 0
  deriving DecidableEq, Repr

/-- FCH_DIE_STS.STATE (R275). -/
inductive DieSt where
  | absent | present | ready | failedTrain | incompat | lost | retired
  deriving DecidableEq, Repr

/-- What a die is doing: RUN of FCH_DIE_STS (R275). -/
inductive RunPhase where
  | array | dataIn
  deriving DecidableEq, Repr

/-- A die: state, queue in order of acceptance, the running operation, the operation suspended under it; `pausedIn` says that it is a program
whose data-in stopped for an URGENT read (R264); `suspP`, `suspE`, `suspCfg`: FCH_SUSP_P, _E and _CFG as the operation took them when it started (R273). -/
structure Die where
  st : DieSt := .absent
  maxRate : Nat := 0
  idWord : Word := 0
  tmo : Nat := 0
  tmoAt : List Nat := []
  q : List FOp := []
  run : Option FOp := none
  phase : RunPhase := .array
  susp : Option FOp := none
  suspCnt : Nat := 0
  suspReads : Nat := 0
  pausedIn : Bool := false
  restarts : Nat := 0
  hint : Bool := false
  resetting : Bool := false
  bursts : Nat := 0
  feat : Tbl Nat := []
  suspP : Word := 0
  suspE : Word := 0
  suspCfg : Word := 0
  deriving DecidableEq, Repr

/-- A channel: TSTATE (R250), the channel rate, microcode words, when its dies were lost, bursts granted ahead of a pending CLOSE burst (R261), the parameter pages' least bus
timing and the timing in use (R273), its ring. -/
structure Chan where
  tstate : Nat := 0
  rate : Nat := 0
  uc : Tbl Word := []
  lostAt : List Nat := []
  held : List FOp := []
  others : Nat := 0
  timMin : Word × Word := (0, 0)
  tim : Word × Word := (0, 0)
  ring : Ring := {}
  deriving DecidableEq, Repr

/-- The flash side: codeword slots by PUA, what each parity codeword covers as data slot and content (R206), dies by device die number, channels, and completions on their way to their submitters
as operation, status and value. -/
structure Flash where
  cells : Tbl Content := []
  cover : Tbl (List (Nat × Content)) := []
  dies : Tbl Die := []
  chans : Tbl Chan := []
  nextOp : Nat := 0
  withdraw : Bool := false
  comps : List (FOp × Nat × Nat) := []
  deriving DecidableEq, Repr

/-! ### Read recovery -/

/-- For whom LDC reads a codeword. -/
inductive CwFor where
  | cmd (c : CmdId) (gmu : Nat)
  | inner (id : Nat)
  | merge (wseq gmu : Nat)
  | leaf (root : Nat)
  | reloc (ru gmu : Nat)
  | survivor (parent : Nat)
  | recovery
  | backing (granule : Nat)
  deriving DecidableEq, Repr

/-- What R278 expects of a payload; of a map leaf: the root index in `mu`, its location word and the slot of the stored leaf. -/
structure Expect where
  kind : Nat
  nsid : Nat := 0
  mu : Nat := 0
  tenant : Nat := 0
  slot : Nat := 0
  loc : Nat := 0
  deriving DecidableEq, Repr

/-- A rebuild of a codeword (R284): survivors not yet decoded, whether it waits for an accumulator, whether it failed. -/
structure Rebuild where
  left : Nat := 0
  waiting : Bool := false
  failed : Bool := false
  deriving DecidableEq, Repr

/-- A codeword in the ladder (R281): `served` says that it holds a decoder (R280), `buf` is the buffer that its payload goes to, `rbSkip` says that it found the rebuild-first cap reached (R286), `ext` that its rebuild is the extended one of
background recovery (R293). -/
structure Cw where
  id : Nat
  pua : Nat
  cls : Nat
  expect : Expect
  purpose : CwFor
  step : Nat := 0
  op : Option Nat := none
  decoding : Bool := false
  served : Bool := false
  buf : Nat := 0
  again : Bool := false
  deep : Nat := 0
  used : Bool := false
  rebuild : Option Rebuild := none
  rbFirst : Bool := false
  rbDead : Bool := false
  ladderDead : Bool := false
  rbSkip : Bool := false
  ext : Bool := false
  deriving DecidableEq, Repr

/-- A background recovery entry (R292 to R294): `held` is a recovered payload that waits for its buffer; `readers` and `inner` are the
host commands and the reads of R392 that wait for it. -/
structure BgEntry where
  pua : Nat
  gmu : Nat
  expect : Expect
  step : Nat
  deadline : Nat
  payload : Option Content := none
  held : Option Content := none
  buf : Nat := 0
  cw : Option Nat := none
  readers : List CmdId := []
  inner : List Nat := []
  deriving DecidableEq, Repr

/-- LDC beyond its registers: codewords in the ladder, the weak-block cache as (die × 4096 + block, step, expiry), soft decodes counted
by channel and age class, recovery entries, and outcomes on their way to their readers. -/
structure Ldc where
  cws : List Cw := []
  nextCw : Nat := 0
  weak : List (Nat × Nat × Nat) := []
  tracked : Tbl Nat := []
  bg : List BgEntry := []
  results : List (Cw × Option Content) := []
  deriving DecidableEq, Repr

/-! ### SEC and PKE -/

/-- An XTS slot (R413, R419, R421, R422). An empty key is a slot not loaded. -/
structure XtsSlot where
  cur : List Byte := []
  prev : List Byte := []
  cnt : Nat := 0
  ref : Nat := 0
  gseq : Bool := false
  exportable : Bool := false
  paused : Bool := false
  limit : Bool := false
  deriving DecidableEq, Repr

/-- A GCM slot (R413, R424, R425). -/
structure GcmSlot where
  key : List Byte := []
  fixed : List Byte := []
  mask : Nat := 0
  ctr : Nat := 0
  cnt : Nat := 0
  exportable : Bool := false
  deriving DecidableEq, Repr

/-- A KEK slot. -/
structure KekSlot where
  key : List Byte := []
  exportable : Bool := false
  deriving DecidableEq, Repr

/-- An XTS request accepted into a queue (R417): its key is the one its slot held on acceptance (R428). -/
structure SecReq where
  id : Nat
  enc : Bool
  slot : Nat
  cls : Nat
  tweak : Nat
  data : List Byte
  key : List Byte
  deriving DecidableEq, Repr

/-- A SEC_KOP operation that runs (R426): the operation, the word that started it with SRC, DST and ARG as they stood then, and a status
that already ends it (0: none). -/
structure Kop where
  op : Nat
  word : Nat
  src : Nat := 0
  dst : Nat := 0
  arg : Nat := 0
  status : Nat := 0
  deriving DecidableEq, Repr

/-- A PKE operation that runs (R429): its operation, curve, status, and the two values and the key it will leave. -/
structure PkeOp where
  op : Nat
  curve : Bool
  status : Nat
  x : Nat := 0
  y : Nat := 0
  slot : Nat := 0
  d : Nat := 0
  deriving DecidableEq, Repr

/-- An SPDM session (R435, R437). -/
structure SpdmSession where
  id : Nat
  operator : Bool := false
  alive : Bool := true
  gcm : List Nat := []
  deriving DecidableEq, Repr

/-- SEC and PKE beyond their registers: key slots, bindings NSID - 1 to XTS slot, queued requests by queue (0 to 5
encrypt, 6 to 11 decrypt), requests that wait, the running key operation, DRBG condition (generate requests since the last reseed, reseeds, the
DRBG output that seeded the mask generator), tenant epochs, PKE keys as curve and scalar, the SPDM responder. -/
structure Sec where
  xts : Tbl XtsSlot := []
  gcm : Tbl GcmSlot := []
  kek : Tbl KekSlot := []
  bind : Tbl Nat := []
  queues : Tbl (List SecReq) := []
  waits : List SecReq := []
  nextReq : Nat := 0
  kop : Option Kop := none
  drbgOk : Bool := false
  gens : Nat := 0
  reseeds : Nat := 0
  maskSeed : Nat := 0
  epochs : Tbl Nat := []
  ring : Ring := {}
  pke : Tbl (Bool × Nat) := []
  pkeOp : Option PkeOp := none
  sessions : List SpdmSession := []
  measNonce : Nat := 0
  deriving DecidableEq, Repr

end Sys2Proof.Machine
end

