-- ==== Sys2Proof/Machine/StateWin.lean ====
section
/-! DEFINITION. State of the Heartwood window (R301 to R347) and of the groves (R373 to R412). -/

namespace Sys2Proof.Machine

/-! ### The window -/

/-- STATE of a granule-table entry (R310). -/
inductive GranSt where
  | unwritten | clean | dirty | trickling
  deriving DecidableEq, Repr

/-- A granule-table entry (R310), whether it is marked for re-trickle (R316), and when it became Dirty (R315). -/
structure Granule where
  st : GranSt := .unwritten
  redirty : Bool := false
  poisoned : Bool := false
  retrickle : Bool := false
  since : Nat := 0
  deriving DecidableEq, Repr

/-- An entry of the backing directory (R313): the PUAs of the live copy by SUB, and its GSEQ. -/
structure BackCopy where
  puas : List Nat
  gseq : Nat
  deriving DecidableEq, Repr

/-- A snapshot on its way to flash (R314): the buffer that holds it, its GSEQ, and the codewords placed so far by SUB. -/
structure Snap where
  buf : Nat
  gseq : Nat
  placed : Tbl Nat := []
  deriving DecidableEq, Repr

/-- A snoop-filter entry (R325): state A or S, the holders (0 to 7 ports, 8 to 23 groves), those that have announced that they leave
(R331), the tenant, and the time of the last use. -/
structure SfEntry where
  a : Bool
  holders : List Nat
  leaving : List Nat := []
  tenant : Nat
  used : Nat := 0
  deriving DecidableEq, Repr

/-- The kinds of a window request (R326). -/
inductive WKind where
  | rd | inv | rdData | wr | wrPtl | evict
  deriving DecidableEq, Repr

/-- A window request: who sent it, its line in the window, its kind, MetaValue, data and byte mask. `holder` is the port or grove as a
holder; `gone`: its port went down, and no answer is sent (R78); `retry`: its snoops have been answered; `held`: the dirty cap holds it (R319);
`cross`: it crossed a snoop of its line (R331). -/
structure WReq where
  id : Nat
  holder : Nat
  mid : Nat
  tenant : Nat
  tag : Nat := 0
  line : Nat
  kind : WKind
  meta_ : Meta
  data : List Byte := []
  mask : Nat := 2 ^ 64 - 1
  poison : Bool := false
  noHolder : Bool := false
  gone : Bool := false
  retry : Bool := false
  held : Bool := false
  cross : Bool := false
  on_ : Option Nat := none
  deriving DecidableEq, Repr

/-- The snoops (R326). -/
inductive Snoop where
  | inv | data | cur
  deriving DecidableEq, Repr

/-- A pending transaction of a line (R329): holders not yet answered, holders that answered, whether it recalls a victim (R327), and whether the
dirty cap holds what a grove writes back (R319). -/
structure Pend where
  line : Nat
  snoop : Snoop
  left : List Nat
  answered : List Nat := []
  victim : Bool := false
  late : Bool := false
  deriving DecidableEq, Repr

/-- A response the window engine sends (R326, R330): to a holder, for a tag. -/
inductive WAns where
  | data (poison : Bool) (bytes : List Byte) (exclusive : Bool)
  | cmpE | cmpS | cmp
  | conflictAck
  | fault
  deriving DecidableEq, Repr

structure WOut where
  holder : Nat
  tag : Nat
  line : Nat
  ans : WAns
  deriving DecidableEq, Repr

/-- An HDM decoder (R305, R306): sizes and DPA in units of 256 MiB, IGL as log2 of the granularity less 8. -/
structure HdmDec where
  committed : Bool := false
  iwl : Nat := 0
  igl : Nat := 0
  err : Nat := 0
  base : Nat := 0
  dpaBase : Nat := 0
  size : Nat := 0
  deriving DecidableEq, Repr

/-- A port's latched layout (R303): the slices of its two partitions. -/
structure Layout where
  vol : List Nat
  per : List Nat
  deriving DecidableEq, Repr

/-- CXL device state of a port (R339): the four event logs as handle and data, the event interrupt policy, the timestamp, the
shutdown state. -/
structure CxlDev where
  logs : Tbl (List (Nat × List Byte)) := []
  nextHandle : Nat := 1
  policy : Nat := 0
  tsBase : Nat := 0
  tsClock : Nat := 0
  shutdown : Nat := 0
  deriving DecidableEq, Repr

/-- The window engine beyond its registers. `state` is R320's, `rate` the granules the trickle may still take this second (R315), `rrTen` the tenant
it served last, `floor` the GSEQ below which every copy of a slice is dead (R302), `saidI` the lines and ports that answered a snoop with I and have not
asked for the line since (R331), `queue` the requests that wait in arrival order, `out` what the latest
command made it send, `lit` that a response left within the time that LED_N[1] shows it (R599), `owed` the answers to requests of ports whose link is down after a return to Detect that the port forced (R629). -/
structure Win where
  gseq : Nat := 1
  state : Nat := 0
  memActive : Bool := false
  grans : Tbl Granule := []
  bdir : Tbl BackCopy := []
  snaps : Tbl Snap := []
  poison : Tbl Bool := []
  sf : Tbl SfEntry := []
  bootKey : Nat := 0
  pends : List Pend := []
  queue : List WReq := []
  nextId : Nat := 0
  stamp : Nat := 0
  out : List WOut := []
  lit : Bool := false
  owed : List WOut := []
  decs : Tbl HdmDec := []
  layouts : Tbl Layout := []
  devs : Tbl CxlDev := []
  floor : Tbl Nat := []
  saidI : List (Nat × Nat) := []
  rate : Nat := 0
  rrTen : Nat := 0
  dsc : Nat := 0
  dirtyLost : Bool := false
  holds : Nat := 0
  forced : Nat := 0
  tmos : Nat := 0
  trickled : Nat := 0
  deriving DecidableEq, Repr

/-! ### The groves -/

/-- GRV_ENG_STS.STATE (R382, R411). -/
inductive EngSt where
  | free | assigned | running | scrubbing | testing | retired
  deriving DecidableEq, Repr

/-- TYPE of a stream descriptor (R390). -/
inductive StrType where
  | lbaIn | slmIn | winIn | hostOut | slmOut | winOut
  deriving DecidableEq, Repr

/-- An open stream (R390 to R393): its descriptor, the bytes delivered to or issued from its ring, the bytes popped or pushed, those
that its reads have asked for, and its condition. -/
structure Stream where
  typ : StrType
  cls : Nat
  nsid : Nat
  start : Nat
  len : Nat
  ring : Nat
  ringLog : Nat
  desc : Nat
  delivered : Nat := 0
  used : Nat := 0
  asked : Nat := 0
  code : Nat := 0
  stopped : Bool := false
  errPos : Nat := 0
  deriving DecidableEq, Repr

/-- A job (R395, R396): its descriptor fields and, once it has ended, its result. -/
structure Job where
  unit : Nat
  op : Nat
  level : Nat
  flags : Nat
  src : Nat
  srcLen : Nat
  dst : Nat
  dstCap : Nat
  result : Option Nat := none
  deriving DecidableEq, Repr

/-- A Waiset instruction that waits (R385). -/
inductive Waiting where
  | wait (rd stream n : Nat)
  | close (rd stream : Nat)
  | jwait (rd ticket : Nat)
  | vpop (vd stream : Nat)
  | vpush (rd vs2 stream : Nat) (vm : Bool)
  | wsync (rd : Nat)
  deriving DecidableEq, Repr

/-- A PMP entry as the runtime grants it (R402): base, length and permissions. -/
structure PmpEnt where
  base : Nat
  len : Nat
  r : Bool
  w : Bool
  x : Bool
  deriving DecidableEq, Repr

/-- A Grove engine. `target` says what a scrub leads to: the tenant it then serves, or none for Free; `prog` the compute NSID, slot and command
that runs, `retiring` that the engine is Retired once its program has ended (R382), `ending` the END, DW0 and mcause of a program whose ws.wsync at its end still waits. -/
structure Eng where
  st : EngSt := .free
  tenant : Nat := 0
  target : Option Nat := none
  leaving : Bool := false
  prior : EngSt := .free
  umode : Bool := false
  halted : Bool := false
  x : Tbl Nat := []
  f : Tbl Nat := []
  v : Tbl (List Byte) := []
  vl : Nat := 0
  vsew : Nat := 0
  vill : Bool := true
  pc : Nat := 0x70000
  mepc : Nat := 0
  mcause : Nat := 0
  mip : Nat := 0
  ulim : Nat := 0
  ucyc : Nat := 0
  pmp : List PmpEnt := []
  streams : Tbl Stream := []
  jobs : Tbl Job := []
  wait : Option Waiting := none
  prog : Option (Nat × Nat × CmdId) := none
  aborting : Bool := false
  retiring : Bool := false
  ending : Option (Nat × Nat × Nat) := none
  deriving DecidableEq, Repr

/-- A program slot of a compute namespace (R403): the image, the leaf-pool buffers that hold it, and whether it is active. -/
structure ProgSlot where
  image : List Byte
  bufs : List Nat := []
  active : Bool := false
  deriving DecidableEq, Repr

/-- A memory range set (R405): ranges as NSID, offset and length. -/
structure RangeSet where
  ranges : List (Nat × Nat × Nat)
  deriving DecidableEq, Repr

/-- A write of a program's output to host memory (R393): its place in the host's buffer, its bytes and its attributes (R69). -/
structure HostWr where
  off : Nat
  data : List Byte
  ro : Bool
  ido : Bool
  deriving DecidableEq, Repr

/-- An Execute Program that waits for an engine or runs (R404): the compute namespace, slot, parameters, range set, host buffer length, and the
host-buffer writes that its streams have issued. -/
structure ExecCmd where
  cmd : CmdId
  nsid : Nat
  slot : Nat
  params : List Byte
  rset : Nat
  outLen : Nat
  engine : Option Nat := none
  host : List HostWr := []
  deriving DecidableEq, Repr

/-- Whose a read of R392 is: a stream's, by engine and stream number, or a Memory Copy's (R405). -/
inductive ReadFor where
  | stream (e k : Nat)
  | copy (c : CmdId)
  deriving DecidableEq, Repr

/-- A read of one MU for a stream or a Memory Copy (R392, R405): the bytes of the MU that it wants, its class and its class-1 buffer (0 while it waits for one).
`leader`: the read whose buffer it shares (R150); `dead`: nothing waits for its data any more (R383). -/
structure InnerRead where
  id : Nat
  who : ReadFor
  tenant : Nat
  nsid : Nat
  gmu : Nat
  off : Nat
  len : Nat
  cls : Nat
  buf : Nat := 0
  st : MuSt := .lookup
  data : List Byte := []
  leader : Option Nat := none
  dead : Bool := false
  deriving DecidableEq, Repr

/-- A Memory Copy that runs (R405): the parts of MUs it has still to ask for, as NSID, global MU, offset and length; the next byte of its destination; and the whole
destination, as first byte and length. -/
structure CopyRun where
  cmd : CmdId
  todo : List (Nat × Nat × Nat × Nat)
  dst : Nat
  all : Nat × Nat
  deriving DecidableEq, Repr

/-- The groves: engines by grove × 16 + engine, dirty window lines of each grove's cache as (grove, line, engines that stored to it as a mask), in order, with the
cache's bytes of a line by grove × 2^32 + line, program slots by NSID × 64 + slot, Execute Program commands in order, the position of
each round robin, LR reservations as engine and line address, and hash messages in progress by engine × 2^40 + DST, each after the 256 bytes of state that stand for it (R396); the reads of streams and Memory Copies in order, and
the stream of each grove that each direction of its stream unit served last, as engine × 8 + stream (R394). -/
structure Grv where
  eng : Tbl Eng := []
  dirty : List (Nat × Nat × Nat) := []
  lines : Tbl (List Byte) := []
  lineTen : Tbl Nat := []
  progs : Tbl ProgSlot := []
  rsets : Tbl RangeSet := []
  execs : List ExecCmd := []
  rr : Tbl Nat := []
  rsv : List (Nat × Nat) := []
  hash : Tbl (List Byte) := []
  reads : List InnerRead := []
  nextRead : Nat := 0
  copies : List CopyRun := []
  inTurn : Tbl Nat := []
  outTurn : Tbl Nat := []
  deriving DecidableEq, Repr

end Sys2Proof.Machine
end

