-- ==== Sys2Proof/Machine/StateSys.lean ====
section
/-! DEFINITION. State of the power unit and the Seed domain (R442 to R477). -/

namespace Sys2Proof.Machine

/-- PWR_STS.CSTATE (R446). -/
inductive CState where
  | off | softStart | charging | protected_ | flush | bleed
  deriving DecidableEq, Repr

/-- A flush in progress or ended (R457, R474, R479): whether it is a reset flush and the cause of the reset that follows, whether DRAM is lost (R445), whether
it left its index and its trailer, the MUs (as global index and write sequence) and granules of its index (once it has ended, those it did not write), its figures, the groups it excludes,
whether nothing is written since DMC was not READY (R460), and the times in its trailer. -/
structure FlushRec where
  started : Nat := 0
  reset : Bool := false
  cause : Nat := 0
  dramLost : Bool := false
  index : Bool := false
  trailer : Bool := false
  mus : List (Nat × Nat) := []
  grans : List Nat := []
  musDone : Nat := 0
  gransDone : Nat := 0
  dur : Nat := 0
  vhold : Nat := 0
  excluded : List Nat := []
  void : Bool := false
  rtc : Nat := 0
  opsec : Nat := 0
  deriving DecidableEq, Repr

/-- Cambium beyond its registers: state, the power-loss signal and its cause (0 none, 1 VIN_LOW, 2 VIN_HIGH, 3 a rail, 4 the thermal
trip), measured bank, with the last success ever and whether one succeeded since power-up (R454), ledger cause (R454) and shares, charger fault, rails, PS_EFF, the channels that PS4 has taken away and whether they come back, the groves that PS3 isolated and the journal sequence at
the last checkpoint (R463, R465), when the last measurement was tried, whether a flush ran since the last checkpoint, what log page C4h keeps, and the temperature of the converter stage
in kelvin (R617). -/
structure Pwr where
  cstate : CState := .off
  pl : Bool := false
  plWhy : Nat := 0
  switchOpen : Bool := false
  vin : Nat := 0
  vhold : Nat := 0
  inPower : Nat := 0
  measAct : Bool := false
  c : Nat := 0
  esr : Nat := 0
  measured : Option Nat := none
  measOk : Bool := false
  measFails : Nat := 0
  measTry : Nat := 0
  flushSince : Bool := false
  firstProtected : Bool := false
  cause : Nat := 1
  wbShare : Nat := 0
  winShare : Nat := 0
  chgFault : Bool := false
  rails : Nat := 0
  railFault : Nat := 0
  psEff : Nat := 3
  psGate : List Nat := []
  psBack : Bool := false
  psGroves : List Nat := []
  ckptSeq : Option Nat := none
  flush : Option FlushRec := none
  lastFlush : Nat := 0
  last : FlushRec := {}
  lastUncorr : Nat := 0
  lastGransLost : Nat := 0
  meas : Nat := 0
  flushes : Nat := 0
  lastMeasRtc : Nat := 0
  history : List (Nat × Nat × Nat) := []
  trip : Bool := false
  conv : Nat := 0
  thermWarn : Bool := false
  thermCrit : Bool := false
  deriving DecidableEq, Repr

/-- A cell-ring entry (R470): 16 bytes. -/
abbrev CellEntry := List Byte

/-- The Seed domain beyond its registers (R466 to R472): the counters are in `Dev`; the cell ring by slot, the next slot, whether it has
wrapped, the entry sequence, whether the supply fell below 2.0 V on the cell, and which of the alarms of types 3, 4 and 5 wait for their release. -/
structure Aon where
  rtcValid : Bool := false
  cntValid : Bool := false
  onCell : Bool := true
  lost : Bool := false
  tamper0 : Bool := false
  tamper1 : Bool := false
  vbat : Nat := 0
  temp : Nat := 0
  pwrcyc : Nat := 0
  ring : Tbl CellEntry := []
  pos : Nat := 0
  wrapped : Bool := false
  seq : Nat := 0
  latched : List Nat := []
  deriving DecidableEq, Repr

end Sys2Proof.Machine
end

