-- ==== Sys2Proof/Machine/StateMgmt.lean ====
section
/-! DEFINITION. State of the management side: fuses and self-test (R484 to R500), Crown cores, the Taproot store, mailboxes and movers
(R501 to R533), Graft (R534 to R551) and Rings (R552 to R570). -/

namespace Sys2Proof.Machine

/-! ### Fuses and self-test -/

/-- A fuse programming operation that runs (R489). -/
structure FuseProg where
  op : Nat
  word : Nat
  data : List Word
  result : Nat
  deriving DecidableEq, Repr

/-- FUS: the bits blown in each word, the resolved values in effect and at the last sensing, the classes of the last sensing, key hashes usable, whether a
sensing runs or waits, the running program operation, and what a debug unlock has opened (R484 to R492). `sensedAt` is the operating time of the
last sensing. -/
structure Fus where
  blown : Tbl Word := []
  eff : Tbl Word := []
  last : Tbl Word := []
  cls : Tbl Nat := []
  sensed : Bool := false
  sensing : Bool := false
  again : Bool := false
  sensedAt : Nat := 0
  usable : List Nat := []
  secretOk : Bool := false
  prog : Option FuseProg := none
  unlock : Nat := 0
  deriving DecidableEq, Repr

/-- A resource of R495 under test: kind, region and unit. -/
structure Slice where
  kind : Nat
  rgn : Nat
  unit : Nat
  deriving DecidableEq, Repr

/-- BST: the slices that run, newest first, one of each kind at a time (R495), and the resources visited in the current period. -/
structure Bst where
  slices : List Slice := []
  visited : List Nat := []
  deriving DecidableEq, Repr

/-! ### Crown cores, Taproot, mailboxes, movers -/

/-- A Crown core (R502, R503): where it started, the interrupts its watchdog or another core's has sent it, its watchdog's stage, and when that stage
began. Whether it runs is CRN_RUN, whether its watchdog is on is CWD_CTL. -/
structure Core where
  start : Nat := 0
  nmi : Bool := false
  esc : Bool := false
  stage : Nat := 0
  since : Nat := 0
  deriving DecidableEq, Repr

/-- A Taproot operation that runs (R507): OP, address, page words, and whether it is suspended. -/
structure TapOp where
  op : Nat
  addr : Nat
  data : List Word := []
  suspended : Bool := false
  deriving DecidableEq, Repr

/-- TAP beyond its registers: the sequence under way (the step it stands at, the core, the words so far) and the operation that runs, the read units in the
prefetch buffer and in the branch target cache, newest first, the read unit that each core fetched last (R506), and the reads that wait for SUSP_MIN_US with
their ECC outcomes (R509). -/
structure Tap where
  step : Nat := 0
  core : Nat := 0
  op : Nat := 0
  addr : Nat := 0
  words : List Word := []
  run : Option TapOp := none
  pf : List Nat := []
  btc : List Nat := []
  last : Tbl Nat := []
  waits : List (Acc × Nat) := []
  deriving DecidableEq, Repr

/-- A mailbox beyond its registers: its FULL flags (R515), and its Huhild session (R518): the versions each side's HELLO offered (slot 0 for side A), and
the version that HELLO_ACK named for each. -/
structure Mbx where
  full0 : Bool := false
  full1 : Bool := false
  offer0 : Option (List (Nat × Nat)) := none
  offer1 : Option (List (Nat × Nat)) := none
  ver0 : Option (Nat × Nat) := none
  ver1 : Option (Nat × Nat) := none
  deriving DecidableEq, Repr

/-- XMV_CH_STS.STATE (R533). -/
inductive XmvSt where
  | idle | run | waitPace | stopping | stopped | error
  deriving DecidableEq, Repr

/-- A descriptor in execution (R520). -/
structure XmvDesc where
  src : Nat
  dst : Nat
  len : Nat
  ctrl : Nat
  deriving DecidableEq, Repr

/-- A request that a channel has outstanding (R523, R525): a read of an aligned block of which the descriptor takes n bytes from `lo`, or a write of its data. -/
structure XmvReq where
  write : Bool
  addr : Nat
  size : Nat
  lo : Nat := 0
  n : Nat
  data : List Byte := []
  deriving DecidableEq, Repr

/-- A channel of XMV beyond its registers: state, reason and Trunk code of XMV_CH_STS, credits with their overrun flag, the descriptor in execution, the bytes
done (R524), how far its reads and writes have been issued and how far the credits taken reach (R522), the source bytes in the funnel from offset `base` on, the
requests outstanding in order, the STATUS and response that end the descriptor once they are back (R526), and whether a write has failed. -/
structure XmvCh where
  st : XmvSt := .idle
  reason : Nat := 0
  tcode : Nat := 0
  credits : Nat := 0
  ovr : Bool := false
  desc : Option XmvDesc := none
  done : Nat := 0
  rpos : Nat := 0
  wpos : Nat := 0
  limit : Nat := 0
  got : List Byte := []
  base : Nat := 0
  out : List XmvReq := []
  ending : Option (Nat × Nat) := none
  broken : Bool := false
  deriving DecidableEq, Repr

/-! ### Graft -/

/-- A ticket (R544). `rom` says that the boot ROM wrote it in Dormant. -/
structure Ticket where
  typ : Nat
  gen : Nat
  digest : List Byte
  boot : Nat
  opsec : Nat
  rom : Bool := false
  deriving DecidableEq, Repr

/-- The slot record (R543). -/
structure SlotRec where
  gen : Nat := 0
  pref : Nat := 0
  trial : Bool := false
  fallback : Option Nat := none
  misses : Nat := 0
  boot : Nat := 0
  trialOpsec : Nat := 0
  digest : List Byte := []
  deriving DecidableEq, Repr

/-- A settings copy (R546): its schema version, its GEN and what it keeps. -/
structure SettingsCopy where
  schema : Nat
  gen : Nat
  data : TenSettings
  deriving DecidableEq, Repr

/-- A staging session (R540): its controller, the next offset, and a piece whose pages are still to be programmed. -/
structure Session where
  mid : Nat
  next : Nat
  deriving DecidableEq, Repr

/-- Graft: the running slot, whether it runs in trial, the slot record, tickets by slot, the staging session, the settings copies with the one in use, and
whether a revert lost settings (R546). -/
structure Graft where
  running : Nat := 0
  trial : Bool := false
  srec : SlotRec := {}
  tickets : Tbl (List Ticket) := []
  session : Option Session := none
  settings : Tbl SettingsCopy := []
  copyUsed : Option Nat := none
  settingsLost : Bool := false
  deriving DecidableEq, Repr

/-! ### Rings -/

/-- A record (R552). `at_` is when its first event arrived; `close` that it takes no fold. -/
structure Rec where
  seq : Nat := 0
  code : Nat
  sev : Nat
  seed : Bool := false
  fw : Bool := false
  block : Nat
  inst : Nat
  rtcValid : Bool := false
  early : Bool := false
  tenant : Option Nat := none
  opsec : Nat := 0
  pwrcyc : Nat := 0
  rtc : Nat := 0
  delta : Nat := 0
  count : Nat := 1
  detail : List Byte := []
  at_ : Nat := 0
  single : Bool := false
  deriving DecidableEq, Repr

/-- A clear that waits for the clear slot (R565): for a command, or for a request through the DOE mailbox of a port. -/
structure ClearReq where
  upto : Nat
  route : Nat
  cmd : Option CmdId
  port : Option Nat := none
  deriving DecidableEq, Repr

/-- Rings: whether EN has been set since device reset, open records in arrival order, closed records of the partial page and when the first closed, sealed
pages, the next page of the record store, whether the clear slot is used, clears that wait for it, the drops since the last DROPPED record with the first drop's
stamps, the drops since device reset, snapshots by controller, the nonce with its expiry, staging that the newest flush saved with its EVR_SEQ_NEXT (R559),
and the last value written to EVR_SEQ_NEXT (R558). -/
structure Rings where
  started : Bool := false
  opened : List Rec := []
  part : List Rec := []
  partAt : Nat := 0
  pages : List (List Rec) := []
  next : Nat := 0
  clearUsed : Bool := false
  waitClear : List ClearReq := []
  drops : List Nat := [0, 0, 0, 0, 0]
  dropRec : Option Rec := none
  dropTotal : Nat := 0
  snaps : Tbl (Nat × Nat) := []
  nonce : Option (List Byte × Nat) := none
  saved : List Rec := []
  savedNext : Option Nat := none
  lastNext : Option Nat := none
  deriving DecidableEq, Repr

end Sys2Proof.Machine
end

