-- ==== Sys2Proof/Machine/State.lean ====
section
/-! DEFINITION. The whole state, the reasons a command can stop, and the state after reset. -/

namespace Sys2Proof.Machine

/-- The reasons a command stops the model. -/
inductive Fault where
  /-- A request carries a master ID outside R17's table. MIDs outside the table are never issued: the command
  describes no event of the part. Raised by TRUNK_REQUEST. Safe. -/
  | noSuchMaster
  deriving DecidableEq, Repr

/-- The reasons a command has no meaning in the model. -/
inductive Refusal where
  /-- The row has no meaning yet. Raised by `exec` alone. Safe. -/
  | notModelled (mnemonic : String)
  deriving DecidableEq, Repr

/-- Device-wide condition: Fault (R575), Dormant (R483), retirements (R496), the reported state (R571, R573), the power-up timeline
(R480: whether t0 has passed, whether step 4 has, whether Crown firmware runs, the level of DEV_RST_N), straps and pins, and the clocks of R467. -/
structure Dev where
  fault : Bool := false
  faultRgn : Nat := 0
  dormant : Bool := false
  dormantWhy : Nat := 0
  shown : Nat := 0
  retired : List Nat := []
  step4 : Bool := false
  heldInReset : Bool := true
  started : Bool := false
  rstn : Bool := true
  t0 : Nat := 0
  crown : Bool := false
  ready : Bool := false
  straps : Nat := 0
  pins : Nat := 0
  rtc : Nat := 0
  opsec : Nat := 0
  warnMin : Nat := 0
  critMin : Nat := 0
  deriving DecidableEq, Repr

/-- The whole state of the block. -/
structure State where
  pending : List Instr := []
  freeCtr : Nat := 0
  clock : Nat := 0
  resp : Resp := {}
  regs : Tbl Word := []
  latch : Tbl Word := []
  blk : Tbl BlkSt := []
  trunk : Trunk := {}
  evq : List Ev := []
  mem : List Host.Cell := []
  dev : Dev := {}
  ports : Tbl Port := []
  hqe : Hqe := {}
  ten : Tenancy := {}
  bpm : Bpm := {}
  dmc : Dmc := {}
  ftl : Ftl := {}
  cpc : Cpc := {}
  flash : Flash := {}
  ldc : Ldc := {}
  sec : Sec := {}
  win : Win := {}
  grv : Grv := {}
  pwr : Pwr := {}
  aon : Aon := {}
  fus : Fus := {}
  bst : Bst := {}
  cores : Tbl Core := []
  tap : Tap := {}
  mbx : Tbl Mbx := []
  xmv : Tbl XmvCh := []
  xmvTurn : Tbl Nat := []
  graft : Graft := {}
  rings : Rings := {}
  deriving DecidableEq, Repr

/-- The machine right after reset. -/
def State.reset : State := {}

end Sys2Proof.Machine
end

