-- ==== Sys2Proof/Machine/Ops.lean ====
section
/-! DEFINITION. The named operations every family uses: the register file (R30 to R37), memory, interrupts
(R43), error capture (R44), events to Rings (R553, R554), block status and free values. -/

namespace Sys2Proof.Machine

/-- The outcome of a command. -/
abbrev Out := Host.Outcome State Fault Refusal

/-! ### Regions and registers -/

/-- The block kind and instance of a region (R31); none for reserved and broadcast regions. -/
def blkOf (rgn : Nat) : Option (Blk × Nat) :=
  if rgn < 0x10 then
    [Blk.top, .trk, .pwr, .aon, .fus, .bst, .evr, .mbx, .tap, .xmv, .sec, .pke, .bpm, .hqe, .ftl, .cpc][rgn]?.map
      fun b => (b, 0)
  else if rgn < 0x18 then some (.prt, rgn - 0x10)
  else if rgn < 0x1C then [Blk.win, .par, .ldc, .dmc][rgn - 0x18]?.map fun b => (b, 0)
  else if 0x20 ≤ rgn ∧ rgn < 0x40 then some (.fch, rgn - 0x20)
  else if 0x40 ≤ rgn ∧ rgn < 0x50 then some (.grv, rgn - 0x40)
  else none

/-- The first region of a block kind: BLK_ID.TYPE (R36). -/
def rgnOf : Blk → Nat
  | .top => 0 | .trk => 1 | .pwr => 2 | .aon => 3 | .fus => 4 | .bst => 5 | .evr => 6 | .mbx => 7 | .tap => 8
  | .xmv => 9 | .sec => 0xA | .pke => 0xB | .bpm => 0xC | .hqe => 0xD | .ftl => 0xE | .cpc => 0xF | .prt => 0x10
  | .win => 0x18 | .par => 0x19 | .ldc => 0x1A | .dmc => 0x1B | .fch => 0x20 | .grv => 0x40

/-- The region is a broadcast aperture (R31, R45). -/
def isBcast (rgn : Nat) : Bool := (0x60 ≤ rgn ∧ rgn ≤ 0x64) ∨ rgn = 0x68 ∨ rgn = 0x70

/-- The offset lies on a register of the descriptor. -/
def RegDesc.has (d : RegDesc) (off : Nat) : Bool :=
  d.off ≤ off &&
    (let r := off - d.off
     r / d.stride < d.n && r % d.stride % d.stride2 = 0 && r % d.stride / d.stride2 < d.n2)

/-- The first index of the register at an offset of a register array. -/
def RegDesc.idx (d : RegDesc) (off : Nat) : Nat := (off - d.off) / d.stride

/-- The second index. -/
def RegDesc.idx2 (d : RegDesc) (off : Nat) : Nat := (off - d.off) % d.stride / d.stride2

/-- The descriptor of the register at an offset, if a register stands there (R33). -/
def descOf (b : Blk) (off : Nat) : Option RegDesc := (regsOf b).find? fun d => d.has off

/-- Reset values that differ between the members of an array or between instances. -/
def resetSpecial (b : Blk) (inst off : Nat) : Option Word :=
  match b with
  | .hqe =>
    if 0x1800 ≤ off ∧ off < 0x2000 then some (if (off - 0x1800) / 4 % 64 = 0 then 128 else 16) else none
  | .bpm => if 0x120 ≤ off ∧ off < 0x140 then
      [(0x209 : Word), 0x20C, 0x20E, 0x210, 0x212, 0x30A, 0, 0][(off - 0x120) / 4]? else none
  | .fch => if off = 0x110 then some (w32 (inst / 8 + inst / 8 * 16)) else none
  | _ => none

/-- The reset value of a register (R35 and the register tables); zero where no register stands. -/
def resetAt (rgn off : Nat) : Word :=
  match blkOf rgn with
  | none => 0
  | some (b, inst) =>
    match resetSpecial b inst off with
    | some w => w
    | none => match descOf b off with
      | some d => d.reset
      | none => 0

/-- The key of a register in the register file. -/
def regKey (rgn off : Nat) : Nat := rgn * 65536 + off

/-- The stored value of a register: the listed value, or its reset value. -/
def rd (s : State) (rgn off : Nat) : Word :=
  match Tbl.find s.regs (regKey rgn off) with
  | some w => w
  | none => resetAt rgn off

/-- Store a value in a register. A register that holds its reset value is not listed. -/
def wr (s : State) (rgn off : Nat) (v : Word) : State :=
  { s with regs := Tbl.putC (resetAt rgn off) s.regs (regKey rgn off) v }

/-- A field of a stored register. -/
def rdF (s : State) (rgn off hi lo : Nat) : Nat := Word.fld (rd s rgn off) hi lo

/-- Store a field of a register. -/
def wrF (s : State) (rgn off hi lo v : Nat) : State := wr s rgn off (Word.setFld (rd s rgn off) hi lo v)

/-- Add to a counter register, which stops at its maximum (R84, R153 and others). -/
def bump (s : State) (rgn off n : Nat) : State :=
  wr s rgn off (w32 (min ((rd s rgn off).toNat + n) 0xFFFFFFFF))

/-- Add to a counter field, which stops at its maximum. -/
def bumpF (s : State) (rgn off hi lo n : Nat) : State :=
  wrF s rgn off hi lo (min (rdF s rgn off hi lo + n) (2 ^ (hi + 1 - lo) - 1))

/-- A 64-bit register pair: low word, then high word. -/
def rd64 (s : State) (rgn off : Nat) : Nat := (rd s rgn off).toNat + (rd s rgn (off + 4)).toNat * 2 ^ 32

/-- Store a 64-bit register pair. -/
def wr64 (s : State) (rgn off v : Nat) : State :=
  wr (wr s rgn off (w32 v)) rgn (off + 4) (w32 (v / 2 ^ 32))

/-! ### Block status -/

/-- The status of a block. -/
def blkSt (s : State) (rgn : Nat) : BlkSt := Tbl.getD s.blk rgn {}

/-- Change the status of a block. -/
def setBlk (s : State) (rgn : Nat) (b : BlkSt) : State := { s with blk := Tbl.putC {} s.blk rgn b }

/-- The block kind can be gated (R37). -/
def gateable (rgn : Nat) : Bool := match blkOf rgn with
  | some (b, _) => gateableOf b
  | none => false

/-- The block accepts work: STATE Ready (R40). -/
def isReady (s : State) (rgn : Nat) : Bool := (blkSt s rgn).st = .ready

/-- BLK_CTL.ENABLE of a region. -/
def isEnabled (s : State) (rgn : Nat) : Bool := (blkSt s rgn).enable

/-- A data request to the block receives DOMAIN_OFF: not enabled, fenced, gated or under test (R27, R623, R624). -/
def refusesData (s : State) (rgn : Nat) : Bool :=
  match (blkSt s rgn).st with
  | .init | .ready => false
  | _ => true

/-- A register access to the block receives DOMAIN_OFF (R33, R41). -/
def refusesRegs (s : State) (rgn : Nat) : Bool :=
  match (blkSt s rgn).st with
  | .isolated | .off | .testing => true
  | _ => false

/-- The value of BLK_STS.STATE (R40). -/
def BState.code : BState → Nat
  | .reset => 0 | .init => 1 | .ready => 2 | .draining => 3 | .isolated => 4 | .off => 5 | .testing => 6 | .retired => 7

/-- BLK_CTL as read (R38). -/
def blkCtlWord (b : BlkSt) : Word :=
  w32 (b.enable.toNat + b.isolate.toNat * 4 + b.powerReq.toNat * 8 + b.lock.toNat * 2 ^ 31)

/-- BLK_STS as read (R40). -/
def blkStsWord (b : BlkSt) : Word :=
  w32 ((b.st == .ready).toNat + b.busy.toNat * 2 + (b.st == .isolated || b.st == .off).toNat * 4
    + (b.st != .off).toNat * 8 + b.st.code * 16)

/-! ### Events, interrupts, errors -/

/-- The severity values of R552. -/
def sevCritical : Nat := 0
def sevError : Nat := 1
def sevWarning : Nat := 2
def sevNotice : Nat := 3
def sevInfo : Nat := 4

/-- BLOCK_TYPE and instance of an event's source (R552). -/
def evWho (rgn : Nat) : Nat × Nat := match blkOf rgn with
  | some (k, i) => (rgnOf k, i)
  | none => (0xFF, 0)

/-- Send an event to EVR (R553): it arrives with EVENT_ARRIVAL. -/
def emit (s : State) (code sev rgn : Nat) (tenant : Option Nat) (detail : List Byte) : State :=
  { s with evq := s.evq ++ [{ code := code, sev := sev, block := (evWho rgn).1, inst := (evWho rgn).2, tenant := tenant, detail := detail }] }

/-- Set a bit of INT_STS (R43). -/
def raiseInt (s : State) (rgn bit : Nat) : State := wr s rgn 0x18 (Word.setBit (rd s rgn 0x18) bit true)

/-- An error in the AER registers of a function (R80): the status bit, the header of the first error that is not masked, Advisory Non-Fatal for one that is
answered or discarded and is not fatal, Header Log Overflow where the log holds another header, and the bits of Device Status. -/
def aerLog (mask sev : Word) (f : FnSt) (bit hdr : Nat) (advisory : Bool) : FnSt :=
  let masked := Word.bit mask bit
  let held := f.aerUnc.testBit f.aerFirst
  let adv := advisory && !Word.bit sev bit
  { f with
    aerUnc := f.aerUnc ||| 2 ^ bit
    aerFirst := if held || masked then f.aerFirst else bit
    aerHdr := if held || masked then f.aerHdr else hdr
    aerCor := f.aerCor ||| (if adv then 2 ^ 13 else 0) ||| (if held && !masked then 2 ^ 15 else 0)
    devSta := f.devSta ||| (if adv then 1 else if Word.bit sev bit then 4 else 2) ||| (if bit = 20 then 8 else 0) }

/-- The block asserts its interrupt (R43). -/
def blkIrq (s : State) (rgn : Nat) : Bool := (rd s rgn 0x18 &&& rd s rgn 0x1C) ≠ 0

/-- The interrupts that a Crown core receives, as priority and region (R43): those of the blocks that assert theirs and whose INT_MAP names the core. -/
def coreIrqs (s : State) (core : Nat) : List (Nat × Nat) :=
  ((List.range 128).filter fun r => (blkOf r).isSome && blkIrq s r && rdF s r 0x24 1 0 = core).map fun r => (rdF s r 0x24 4 2, r)

/-- Load the capture registers (R44). -/
def loadErr (s : State) (rgn bit : Nat) (write : Bool) (size barkIdx blkInfo addr : Nat) (who : Who) : State :=
  wr (wr (wr (wr (wr s
    rgn 0x28 (Word.setBit 0 bit true))
    rgn 0x2C (w32 (write.toNat + Nat.log2 size * 2 + barkIdx * 256 + blkInfo % 65536 * 65536)))
    rgn 0x30 (w32 addr))
    rgn 0x34 (w32 (addr / 2 ^ 32 % 65536)))
    rgn 0x38 (w32 (who.mid % 4096 + who.tenant % 512 * 65536))

/-- Capture an error, or record it in Rings alone while an error is held (R44). -/
def captureErr (s : State) (rgn bit : Nat) (write : Bool) (size barkIdx blkInfo addr : Nat) (who : Who) : State :=
  if rd s rgn 0x28 = 0 then raiseInt (loadErr s rgn bit write size barkIdx blkInfo addr who) rgn 0
  else emit s 0x4004 sevError rgn none []

/-- Record a block-specific error that no access of a master caused. -/
def blockErr (s : State) (rgn bit blkInfo : Nat) : State := captureErr s rgn bit false 1 0 blkInfo 0 ⟨0, 0⟩

/-- Take the next free value: the state counts how many were taken. -/
def takeFree (s : State) : Nat × State := (Config.freeNat s.freeCtr, { s with freeCtr := s.freeCtr + 1 })

/-- Free bytes: what a memory holds where the spec leaves it undefined. -/
def freeBytes (s : State) (n : Nat) : List Byte × State :=
  ((List.range n).map fun i => BitVec.ofNat 8 (Config.freeNat (s.freeCtr + i)), { s with freeCtr := s.freeCtr + n })

/-- A free choice between two. -/
def takeBit (s : State) : Bool × State := (Config.freeBit s.freeCtr, { s with freeCtr := s.freeCtr + 1 })

/-- Answer a Trunk response. -/
def answer (s : State) (c : TCode) (data : Nat := 0) : State := { s with resp := { code := c, data := data } }

/-- Return bytes to whoever issued the command. -/
def answerBytes (s : State) (b : List Byte) : State := { s with resp := { code := .ok, data := 0, bytes := b } }

/-! ### Resources under self-test -/

/-- The entry of the retirement list for a resource of R495 (kinds: 0 engine, 1 section, 2 codec or hash unit, 3 decoder, 4 SEC instance, 5 PAR
accumulator) or a block (kind 6). -/
def retKey (kind rgn unit : Nat) : Nat := kind * 65536 + rgn * 256 + unit

/-- The resource is on the retirement list (R494, R496). -/
def resRetired (s : State) (kind rgn unit : Nat) : Bool := s.dev.retired.contains (retKey kind rgn unit)

/-- The resource is retired, or a slice tests it (R495). -/
def resOut (s : State) (kind rgn unit : Nat) : Bool := resRetired s kind rgn unit || s.bst.slices.contains ⟨kind, rgn, unit⟩

/-- The block is Retired (R496, R578). -/
def blkRetired (s : State) (rgn : Nat) : Bool := (blkSt s rgn).st = .retired

/-! ### Memory -/

/-- What a byte that no write has listed reads as: erased Taproot store reads ones, the boot ROM its fixed
contents, every other memory zero. -/
def memDefault (a : Nat) : Byte :=
  if a < 0x20000000 then 0xFF
  else if 0x40000000 ≤ a ∧ a < 0x40040000 then Config.romByte (a - 0x40000000)
  else 0

/-- One byte of memory. -/
def memRead (s : State) (a : Nat) : Byte :=
  match Tbl.find s.mem a with
  | some b => b
  | none => memDefault a

/-- Store one byte; a byte that reads as unlisted memory does is not listed. -/
def memWrite (s : State) (a : Nat) (b : Byte) : State :=
  { s with mem := Tbl.putC (memDefault a) s.mem a b }

/-- A run of bytes of memory. -/
def memReadN (s : State) (a : Nat) : Nat → List Byte
  | 0 => []
  | n + 1 => memRead s a :: memReadN s (a + 1) n

/-- Store a run of bytes. -/
def memWriteN (s : State) (a : Nat) : List Byte → State
  | [] => s
  | b :: t => memWriteN (memWrite s a b) (a + 1) t

/-- The canonical form of memory: rising addresses, and no byte listed that reads as unlisted memory does. -/
def Memory.wf (m : List Host.Cell) : Bool :=
  Tbl.sorted m && m.all fun c => decide (c.2 ≠ memDefault c.1)

/-- The canonical form of the register file. -/
def Regs.wf (t : Tbl Word) : Bool :=
  Tbl.sorted t && t.all fun c => decide (c.2 ≠ resetAt (c.1 / 65536) (c.1 % 65536))

end Sys2Proof.Machine
end

