-- ==== Sys2Proof/Machine/Operands.lean ====
section
/-! DEFINITION. How a request reaches its target: the address map (R19 to R21), master classes (R17), the Bark
check (R15, R138 to R143, R625) and the outcome of a register access (R32, R33). -/

namespace Sys2Proof.Machine

/-- The MID class of R17; none for a MID outside the table. -/
def midClass (m : Nat) : Option Nat :=
  if m ≤ 0x1FF then some 0
  else if m ≤ 0x2FF then some 1
  else if 0x300 ≤ m ∧ m ≤ 0x303 then some 2
  else if 0x310 ≤ m ∧ m ≤ 0x34F then some 3
  else if 0x380 ≤ m ∧ m ≤ 0x39F then some 4
  else if m = 0x3A0 then some 5
  else if m = 0x3A1 then some 6
  else if m = 0x3A2 then some 7
  else if m = 0x3A3 then some 8
  else if m = 0x3A4 then some 11
  else if m = 0x3A5 then some 12
  else if m = 0x3A6 then some 13
  else if m = 0x3B0 then some 9
  else if m = 0x3F0 then some 10
  else none

/-- The tenant that a master's request carries (R18): bound to a function, assigned to an engine in use, 0 for the masters that serve no tenant; the
other masters carry the tenant they serve. -/
def carriedTenant (s : State) (w : Who) : Nat :=
  if w.mid < 0x200 then rdF s 0x01 (0x2000 + 4 * w.mid) 8 0
  else match midClass w.mid with
    | some 1 => match Tbl.find s.grv.eng (w.mid - 0x200) with
      | some e => if e.st = .assigned || e.st = .running then e.tenant else 0
      | none => 0
    | some 2 | some 3 | some 9 | some 10 | some 13 => 0
    | _ => w.tenant

/-- A request as the Trunk carries it: no master sets its own tenant (R18). -/
def carriedAcc (s : State) (a : Acc) : Acc := { a with who := ⟨a.who.mid, carriedTenant s a.who⟩ }

/-- Internal address of a register (R30). -/
def regAddr (rgn off : Nat) : Nat := 0x100000000 + rgn * 65536 + off

/-- Installed DRAM capacity in bytes, as DMC_CAP reports it in GiB (R21, R371). -/
def dramSize (s : State) : Nat := rdF s 0x1B 0x104 9 0 * 2 ^ 30

/-- The start of DRAM (R19). -/
def dramBase : Nat := 0x8000000000

/-- The ranges of the internal address map (R19 to R21). -/
inductive Place where
  | reg (rgn off : Nat)
  | taproot
  | rom
  | sram
  | grove (g : Nat)
  | dram
  | nowhere
  deriving DecidableEq, Repr

/-- Where an address lies (R19). -/
def placeOf (s : State) (a : Nat) : Place :=
  if a < 0x20000000 then .taproot
  else if 0x40000000 ≤ a ∧ a < 0x40040000 then .rom
  else if 0x50000000 ≤ a ∧ a < 0x50800000 then .sram
  else if 0x100000000 ≤ a ∧ a < 0x100800000 then .reg ((a - 0x100000000) / 65536) ((a - 0x100000000) % 65536)
  else if 0x2000000000 ≤ a ∧ a < 0x2010000000 then .grove ((a - 0x2000000000) / 0x1000000)
  else if dramBase ≤ a ∧ a < dramBase + dramSize s then .dram
  else .nowhere

/-- The region whose Bark table checks a request to a place (R137 and the table before R138). -/
def tableOf : Place → Option Nat
  | .reg rgn _ => if (blkOf rgn).isSome then some rgn else none
  | .taproot => some 0x08
  | .rom | .sram => some 0x00
  | .grove g => some (0x40 + g)
  | .dram => some 0x1B
  | .nowhere => none

/-- The entries of R140 at device reset: entry 0 admits classes 2, 9 and 10 everywhere, entries 1 to 63 read zero. -/
def barkReset (entry : Nat) : BarkEntry :=
  if entry = 0 then ⟨0, 0x06040000, 0xFFFFFFC0, 0xB800FFFF⟩ else {}

/-- An entry of a table. -/
def barkEntry (s : State) (rgn entry : Nat) : BarkEntry := Tbl.getD s.trunk.bark (rgn * 64 + entry) (barkReset entry)

/-- Store an entry. -/
def setBark (s : State) (rgn entry : Nat) (e : BarkEntry) : State :=
  { s with trunk := { s.trunk with bark := Tbl.putC (barkReset entry) s.trunk.bark (rgn * 64 + entry) e } }

/-- Fields of an entry (R138). -/
def BarkEntry.base (e : BarkEntry) : Nat := Word.fld e.w0 31 6 * 64 + Word.fld e.w1 15 0 * 2 ^ 32
def BarkEntry.limit (e : BarkEntry) : Nat := Word.fld e.w2 31 6 * 64 + 63 + Word.fld e.w3 15 0 * 2 ^ 32
def BarkEntry.midmask (e : BarkEntry) : Nat := Word.fld e.w1 29 16
def BarkEntry.tenant (e : BarkEntry) : Nat := Word.fld e.w3 24 16
def BarkEntry.tmode (e : BarkEntry) : Nat := Word.fld e.w3 26 25
def BarkEntry.en (e : BarkEntry) : Bool := Word.bit e.w3 31
def BarkEntry.locked (e : BarkEntry) : Bool := Word.bit e.w3 30

/-- The access type is permitted (R138). -/
def BarkEntry.permits (e : BarkEntry) : AccKind → Bool
  | .read => Word.bit e.w3 27
  | .write => Word.bit e.w3 28
  | .fetch => Word.bit e.w3 29

/-- BPM_AREA_BASE and the byte after BPM_AREA_LIMIT (R151). -/
def areaBase (s : State) : Nat := Word.fld (rd s 0xC 0x100) 31 18 * 2 ^ 18 + rdF s 0xC 0x104 15 0 * 2 ^ 32
def areaEnd (s : State) : Nat := (Word.fld (rd s 0xC 0x108) 31 18 + 1) * 2 ^ 18 + rdF s 0xC 0x10C 15 0 * 2 ^ 32

/-- The pool area lies wholly within installed DRAM (R151). -/
def areaValid (s : State) : Bool :=
  areaBase s < areaEnd s && dramBase ≤ areaBase s && areaEnd s ≤ dramBase + dramSize s

/-- The Leaf-pool owner of a tenant (BPM_TEN_OWNER, R152). -/
def ownerOf (s : State) (tenant : Nat) : Nat := rdF s 0xC (0x3400 + 4 * tenant) 5 0

/-- TMODE OWNER (R138, R143): the request lies in one chunk whose tag is valid and names the tenant's owner. -/
def ownerPass (s : State) (a : Acc) : Bool :=
  areaValid s && areaBase s ≤ a.addr && a.addr + a.size ≤ areaEnd s &&
    (let c := (a.addr - areaBase s) / 2 ^ 18
     (a.addr + a.size - 1 - areaBase s) / 2 ^ 18 = c &&
       match Tbl.find s.bpm.chunks c with
       | some k => k.owner = ownerOf s a.who.tenant
       | none => false)

/-- The tenant test of an entry (R138). -/
def tenantPass (s : State) (rgn : Nat) (e : BarkEntry) (a : Acc) : Bool :=
  match e.tmode with
  | 0 => true
  | 1 => e.tenant = a.who.tenant
  | 2 => rgn = 0x1B && ownerPass s a
  | _ => false

/-- The lowest-index enabled region of a table that contains every byte of a request (R15). -/
def barkFind (s : State) (rgn : Nat) (a : Acc) : Option Nat :=
  (List.range 64).find? fun i =>
    let e := barkEntry s rgn i
    e.en && e.base ≤ a.addr && a.addr + a.size - 1 ≤ e.limit

/-- The Bark check (R15): the region consulted, 0x40 where none contains the request, and whether it passes. -/
def barkCheck (s : State) (rgn : Nat) (a : Acc) : Nat × Bool :=
  let a := carriedAcc s a
  match barkFind s rgn a with
  | none => (0x40, false)
  | some i =>
    let e := barkEntry s rgn i
    (i, (match midClass a.who.mid with
          | some c => e.midmask.testBit c
          | none => false) && tenantPass s rgn e a && e.permits a.kind)

/-- Record a refusal (R15, R44, R142): captured at the target, counted for its table and sent to Rings. -/
def recordDenied (s : State) (rgn idx : Nat) (a : Acc) : State :=
  let a := carriedAcc s a
  let s := captureErr s rgn 0 (a.kind = .write) a.size idx 0 a.addr a.who
  let s := { s with trunk := { s.trunk with
    deny := Tbl.put s.trunk.deny rgn (min (Tbl.getD s.trunk.deny rgn 0 + 1) 0xFFFFFFFF) } }
  emit s 0x4001 sevError rgn (some a.who.tenant) []

/-- Check a register access as R33 orders its conditions. `none`: the access is performed. Otherwise the
response, and the state with what R33 records. -/
def regAdmit (s : State) (rgn off : Nat) (a : Acc) : Option (TCode × State) :=
  match blkOf rgn with
  | none => some (.decode, s)
  | some (b, _) =>
    let a := carriedAcc s a
    let (idx, pass) := barkCheck s rgn a
    if !pass then some (.denied, recordDenied s rgn idx a)
    else if refusesRegs s rgn then some (.domainOff, s)
    else if pagesOf b ≤ off / 4096 then
      some (.decode, captureErr s rgn 1 (a.kind = .write) a.size idx 0 a.addr a.who)
    else if !((a.size = 4 && off % 4 = 0) || (a.size = 8 && off % 8 = 0)) then
      some (.decode, captureErr s rgn 2 (a.kind = .write) a.size idx 0 a.addr a.who)
    else none

/-- A 4-byte write of `v` to a register, as an access of `who`. -/
def wrAcc (who : Who) (rgn off : Nat) (v : Word) : Acc := ⟨who, regAddr rgn off, 4, .write, v.toNat⟩

/-- A 4-byte read of a register, as an access of `who`. -/
def rdAcc (who : Who) (rgn off : Nat) : Acc := ⟨who, regAddr rgn off, 4, .read, 0⟩

/-- A block-specific error that a register write led to is captured with that access (R44). -/
def attrib (s t : State) (rgn : Nat) (a : Acc) : State :=
  if rd s rgn 0x28 = 0 && 65536 ≤ (rd t rgn 0x28).toNat && rd t rgn 0x30 = 0 && rd t rgn 0x34 = 0 && rd t rgn 0x38 = 0 then
    let a := carriedAcc s a
    wr (wr (wr (wr t
      rgn 0x2C (Word.mix (rd t rgn 0x2C) 0xFFFF (w32 ((decide (a.kind = .write)).toNat + Nat.log2 a.size * 2 + (barkCheck s rgn a).1 * 256))))
      rgn 0x30 (w32 a.addr))
      rgn 0x34 (w32 (a.addr / 2 ^ 32 % 65536)))
      rgn 0x38 (w32 (a.who.mid % 4096 + a.who.tenant % 512 * 65536))
  else t

/-- Perform the effect of a register write if R33 admits the access, and answer. -/
def onWrite (s : State) (who : Who) (rgn off : Nat) (v : Word) (eff : State → State) : State :=
  match regAdmit s rgn off (wrAcc who rgn off v) with
  | some (c, s') => answer s' c
  | none => answer (attrib s (eff s) rgn (wrAcc who rgn off v)) .ok

end Sys2Proof.Machine
end

