-- ==== Sys2Proof/Machine/Tables.lean ====
section
/-! DEFINITION. What the map walker and Coppice keep in DRAM and on flash, as bytes: physical unit addresses and map entries (R157, R158), leaves (R159 to
R164), root entries, frames, HMB descriptors and namespace entries (R156, R165, R167, R174), journal records and pages (R183, R184), RU descriptors,
die sets and validity bitmaps (R203, R239), and the payload of a codeword (R164, R184, R190). -/

namespace Sys2Proof.Machine

/-! ### The ports -/

/-- The lanes that BIF_CFG gives a port; 0 where it is absent (R50). -/
def portWidthOf (cfg p : Nat) : Nat :=
  match cfg / 4 ^ (p / 4) % 4, p % 4 with
  | 0, 0 => 16
  | 0, _ => 0
  | 1, 0 => 8
  | 1, 2 => 8
  | 1, _ => 0
  | 2, 0 => 8
  | 2, 1 => 0
  | 2, _ => 4
  | _, _ => 4

/-- A port is present under the straps (R50). -/
def portPresent (s : State) (p : Nat) : Bool := p < 8 && portWidthOf (s.dev.straps % 16) p ≠ 0

/-- The management port (R52). -/
def mgmtPort (s : State) : Nat :=
  let p := s.dev.straps / 16 % 8
  if portPresent s p then p else 4 * (p / 4)

/-! ### Physical unit addresses -/

/-- Fields of a PUA (R158). -/
def puaDie (p : Nat) : Nat := p / 2 ^ 29 % 512
def puaChan (p : Nat) : Nat := p / 2 ^ 33 % 32
def puaPlane (p : Nat) : Nat := p / 2 ^ 26 % 8
def puaBlock (p : Nat) : Nat := p / 2 ^ 14 % 4096
def puaPage (p : Nat) : Nat := p / 4 % 4096
def puaSlot (p : Nat) : Nat := p % 4

/-- A PUA from its fields. -/
def puaMk (die plane block page slot : Nat) : Nat :=
  die * 2 ^ 29 + plane * 2 ^ 26 + block * 2 ^ 14 + page * 4 + slot

/-- The successor of R161. -/
def puaSucc (p : Nat) : Nat := if puaSlot p < 3 then p + 1 else p - 3 + 2 ^ 26

/-- CPC_GEOM fields (R238). -/
def geomPlanes (s : State) : Nat := rdF s 0x0F 0x104 2 0
def geomPpw (s : State) : Nat := rdF s 0x0F 0x104 6 3
def geomTwoPass (s : State) : Bool := Word.bit (rd s 0x0F 0x104) 7
def geomPages (s : State) : Nat := rdF s 0x0F 0x104 20 8
def geomBlocks (s : State) : Nat := rdF s 0x0F 0x108 12 0

/-- A map entry of 40 bits (R157): flags 0 UNMAPPED, 1 MAPPED, 2 UNCORR. -/
def entMapped (pua : Nat) : Nat := pua + 2 ^ 38
def entUncorr : Nat := 2 ^ 39
def entFlags (e : Nat) : Nat := e / 2 ^ 38 % 4
def entPua (e : Nat) : Nat := e % 2 ^ 38

/-- An entry is malformed (R158). -/
def entMalformed (s : State) (e : Nat) : Bool :=
  entFlags e = 3 || (entFlags e ≠ 1 && entPua e ≠ 0)
    || (entFlags e = 1 && (geomPlanes s ≤ puaPlane (entPua e)
        || !s.cpc.dsets.any fun d => d.2.members.any fun m => m.1 = puaDie (entPua e)))

/-! ### Byte strings -/

/-- Fields in order, each as its length in bytes and its value. -/
def fieldBytes : List (Nat × Nat) → List Byte
  | [] => []
  | (n, v) :: t => leBytes n v ++ fieldBytes t

/-- A byte string made n bytes long. -/
def padTo (n : Nat) (b : List Byte) : List Byte := (b ++ List.replicate n 0).take n

/-- A little-endian field of n bytes. -/
def leAt (m : List Byte) (off n : Nat) : Nat := leNat ((m.drop off).take n)

/-- A field of a byte string. -/
def byteFld (b : List Byte) (lo n : Nat) : Nat := leNat ((b.drop lo).take n)

/-- CRC32C of bytes (R190). -/
def crcBit (c : Nat) : Nat → Nat
  | 0 => c
  | n + 1 => crcBit (if c % 2 = 1 then c / 2 ^^^ 0x82F63B78 else c / 2) n
def crc32c (l : List Byte) : Nat := (l.foldl (fun c b => crcBit (c ^^^ b.toNat) 8) 0xFFFFFFFF) ^^^ 0xFFFFFFFF

/-! ### Leaves -/

/-- Whether an entry continues a run of entries that ends with another: a MAPPED one by succ on an existing plane, up to 32 MUs, another by equality
(R160, R161). -/
def runGrows (planes prev len e : Nat) : Bool :=
  if entFlags e = 1 then entFlags prev = 1 && e = entMapped (puaSucc (entPua prev)) && puaPlane (entPua e) < planes && len < 32
  else e = prev

/-- One entry more: runs as first entry, last entry and length, the newest first. -/
def runStep (planes : Nat) (l : List (Nat × Nat × Nat)) (e : Nat) : List (Nat × Nat × Nat) := match l with
  | (a, p, n) :: t => if runGrows planes p n e then (a, e, n + 1) :: t else (e, e, 1) :: (a, p, n) :: t
  | [] => [(e, e, 1)]

/-- The records of the extent form of a leaf, as first entry and count (R160, R161). -/
def extRuns (planes : Nat) (ents : Tbl Nat) : List (Nat × Nat) :=
  (((List.range 2048).foldl (fun l i => runStep planes l (Tbl.getD ents i 0)) []).reverse).map fun r => (r.1, r.2.2)

/-- A record of 48 bits (R160). -/
def extRec (r : Nat × Nat) : Nat :=
  if entFlags r.1 = 1 then entPua r.1 + (r.2 - 1) * 2 ^ 38 + 2 ^ 43 else (r.2 - 1) + entFlags r.1 * 2 ^ 43

/-- A leaf in extent form, before its padding (R160). -/
def extLeafBytes (planes : Nat) (ents : Tbl Nat) : List Byte :=
  let l := extRuns planes ents
  leBytes 2 l.length ++ [1] ++ leBytes 5 0 ++ (l.map fun r => leBytes 6 (extRec r)).flatten

/-- A leaf in raw form (R159): entry i in bytes 5i to 5i + 4. -/
def rawLeafBytes (ents : Tbl Nat) : List Byte := ((List.range 2048).map fun i => leBytes 5 (Tbl.getD ents i 0)).flatten

/-- Granules of the extent form. -/
def extGranules (planes : Nat) (ents : Tbl Nat) : Nat := ceilDiv (8 + 6 * (extRuns planes ents).length) 1024

/-- Granules of a leaf copy. -/
def leafGranules (planes : Nat) (raw : Bool) (ents : Tbl Nat) : Nat := if raw then 10 else extGranules planes ents

/-- A leaf copy as its granules hold it. -/
def leafBytes (planes : Nat) (raw : Bool) (ents : Tbl Nat) : List Byte :=
  if raw then rawLeafBytes ents else padTo (1024 * extGranules planes ents) (extLeafBytes planes ents)

/-- The entries that a MAPPED record names: each MU on an existing plane, else nothing (R161). -/
def runPuas (planes : Nat) : Nat → Nat → Option (List Nat)
  | _, 0 => some []
  | p, n + 1 => if puaPlane p < planes then (runPuas planes (puaSucc p) n).map (p :: ·) else none

/-- The entries of one record. -/
def recEntries (planes r : Nat) : Option (List Nat) :=
  if r / 2 ^ 43 % 4 = 1 then (runPuas planes (r % 2 ^ 38) (r / 2 ^ 38 % 32 + 1)).map fun l => l.map entMapped
  else some (List.replicate (r % 2 ^ 11 + 1) (r / 2 ^ 43 % 4 * 2 ^ 38))

/-- The entries of n records that follow one another. -/
def recsEntries (planes : Nat) : Nat → List Byte → Option (List Nat)
  | 0, _ => some []
  | n + 1, b => match recEntries planes (leNat (b.take 6)), recsEntries planes n (b.drop 6) with
    | some x, some y => some (x ++ y)
    | _, _ => none

/-- A list of entries as a table: UNMAPPED ones are unlisted. -/
def entTable (o : Nat) : List Nat → Tbl Nat
  | [] => []
  | e :: t => if e = 0 then entTable (o + 1) t else (o, e) :: entTable (o + 1) t

/-- An extent leaf decoded: nothing where NREC is 0, a MAPPED record leaves the planes, or the counts do not sum to 2,048 (R161). -/
def extDecode (planes : Nat) (b : List Byte) : Option (Tbl Nat) :=
  if byteFld b 0 2 = 0 then none
  else match recsEntries planes (byteFld b 0 2) (b.drop 8) with
    | some l => if l.length = 2048 then some (entTable 0 l) else none
    | none => none

/-- n raw entries. -/
def rawEntries : Nat → List Byte → List Nat
  | 0, _ => []
  | n + 1, b => leNat (b.take 5) :: rawEntries n (b.drop 5)

/-- A raw leaf decoded (R159). -/
def rawDecode (b : List Byte) : Tbl Nat := entTable 0 (rawEntries 2048 b)

/-- Granules of a raw leaf that hold an entry (R159). -/
def entGranules (off : Nat) : List Nat := [5 * off / 1024, (5 * off + 4) / 1024].eraseDups

/-- The tag of granule g of a leaf in a codeword (R164). -/
def leafTag (root g : Nat) (raw : Bool) (lseq : Nat) (b : List Byte) : List Byte :=
  fieldBytes [(3, root), (1, g + (!raw).toNat * 16), (7, lseq), (4, crc32c b)]

/-- The tag of an unused granule. -/
def freeTagBytes : List Byte := fieldBytes [(3, 0), (1, 0xF), (7, 0), (4, 0)]

/-- The payload of the j-th slot of a stored leaf that starts at granule 0 of its first slot (R163, R164). -/
def leafSlotBytes (planes root lseq : Nat) (raw : Bool) (ents : Tbl Nat) (j : Nat) : List Byte :=
  let b := leafBytes planes raw ents
  let n := leafGranules planes raw ents
  let gran (k : Nat) : List Byte := padTo 1024 (b.drop (1024 * (4 * j + k)))
  padTo 4096 (b.drop (4096 * j)) ++ [2, 1, 0, 0]
    ++ ((List.range 4).map fun k => if 4 * j + k < n then leafTag root (4 * j + k) raw lseq (gran k) else freeTagBytes).flatten

/-- The granule that lies at place k of a codeword, if its tag names this leaf, this granule and this form and its CRC holds, with its LSEQ (R164). -/
def takeGran (p : List Byte) (k root g : Nat) (raw : Bool) : Option (List Byte × Nat) :=
  let t := (p.drop (4096 + 4 + 15 * k)).take 15
  let b := (p.drop (1024 * k)).take 1024
  if byteFld p 4096 2 = 0x0102 && byteFld t 0 3 = root && byteFld t 3 1 % 32 = g + (!raw).toNat * 16 && byteFld t 11 4 = crc32c b then some (b, byteFld t 4 7)
  else none

/-! ### Structures in DRAM -/

/-- A flash location word (R165): PUA, GOFF, GLEN, FORM. -/
def locPua (l : Nat) : Nat := l % 2 ^ 38
def locGoff (l : Nat) : Nat := l / 2 ^ 38 % 4
def locGlen (l : Nat) : Nat := l / 2 ^ 40 % 16
def locExt (l : Nat) : Bool := l / 2 ^ 44 % 2 = 1
def locMk (pua goff glen : Nat) (ext : Bool) : Nat := pua + goff * 2 ^ 38 + glen * 2 ^ 40 + ext.toNat * 2 ^ 44

/-- A root entry; one never written is TIER FLASH with GLEN 0. -/
def rootOf (s : State) (r : Nat) : Root := Tbl.getD s.ftl.root r {}
def setRoot (s : State) (r : Nat) (e : Root) : State := { s with ftl := { s.ftl with root := Tbl.putC {} s.ftl.root r e } }

/-- Root directory entries (R166). -/
def rdEntries (s : State) : Nat := rdF s 0x0E 0x10C 24 0

/-- A root entry as a 64-bit value (R165), and the entry that a value is. -/
def rootWord (e : Root) : Nat :=
  match e.tier with
  | .flash l => l % 2 ^ 45 + e.busy.toNat * 2 ^ 47 + e.dirty.toNat * 2 ^ 48
  | .canopy f => f % 2 ^ 26 + 2 ^ 45 + e.busy.toNat * 2 ^ 47 + e.dirty.toNat * 2 ^ 48
  | .hmb d => d % 2 ^ 26 + 2 * 2 ^ 45 + e.busy.toNat * 2 ^ 47 + e.dirty.toNat * 2 ^ 48
  | .bad w => w
def rootParse (w : Nat) : Root :=
  match w / 2 ^ 45 % 4 with
  | 0 => { tier := .flash (w % 2 ^ 45), busy := w / 2 ^ 47 % 2 = 1, dirty := w / 2 ^ 48 % 2 = 1 }
  | 1 => { tier := .canopy (w % 2 ^ 26), busy := w / 2 ^ 47 % 2 = 1, dirty := w / 2 ^ 48 % 2 = 1 }
  | 2 => { tier := .hmb (w % 2 ^ 26), busy := w / 2 ^ 47 % 2 = 1, dirty := w / 2 ^ 48 % 2 = 1 }
  | _ => { tier := .bad w }

/-- Lookups and updates of a leaf in progress (PIN, R167). -/
def leafPins (s : State) (root : Nat) : Nat := countOf (fun w => w.1 = root) s.ftl.waits

/-- A frame as 64 bytes (R167). -/
def frameBytes (s : State) (f : Frame) : List Byte :=
  fieldBytes [(8, f.loc), (4, f.leaf + (!f.raw).toNat * 2 ^ 24 + (if f.raw then 10 else f.grans.length) * 2 ^ 25), (2, f.ref.toNat + f.wb.toNat * 2), (2, leafPins s f.leaf)]
    ++ ((List.range 10).map fun g => leBytes 4 (match Tbl.find f.grans g with
      | some a => (a - areaBase s) / 1024
      | none => 0xFFFFFFFF)).flatten ++ leBytes 8 f.lseq

/-- An HMB descriptor as 32 bytes (R174). -/
def hmbBytes (planes : Nat) (h : HmbDesc) : List Byte :=
  fieldBytes [(8, h.loc), (4, h.granule + h.ngran * 2 ^ 26 + (!h.raw).toNat * 2 ^ 30 + 2 ^ 31), (4, h.leaf), (4, crc32c (leafBytes planes h.raw h.entries)), (8, h.lseq), (4, 0)]

/-- A namespace table entry as 16 bytes (R156). -/
def nstBytes (n : Ns) : List Byte :=
  fieldBytes [(4, n.leafBase), (4, n.leafCount), (2, n.owner), (1, n.lbaf % 2 + 2 + n.notReady.toNat * 4), (5, 0)]

/-- The die set an RU index belongs to. -/
def dsetOf (s : State) (idx : Nat) : Option (Nat × DieSet) :=
  s.cpc.dsets.find? fun d => d.2.firstRu ≤ idx && idx < d.2.firstRu + d.2.rus

/-- An RU as RU_INIT forms it (R204): block b on each member. -/
def freshRu (s : State) (idx : Nat) : Ru :=
  match dsetOf s idx with
  | none => { st := .retired }
  | some (k, d) =>
    { dset := k, members := d.members.map fun m => { die := m.1, block := idx - d.firstRu, skip := m.2.1 || m.2.2 } }

/-- The descriptor of an RU. -/
def ruAt (s : State) (idx : Nat) : Ru :=
  match Tbl.find s.cpc.rus idx with
  | some r => r
  | none => freshRu s idx

/-- Change a descriptor. -/
def setRu (s : State) (idx : Nat) (r : Ru) : State := { s with cpc := { s.cpc with rus := Tbl.put s.cpc.rus idx r } }

/-- Members of an RU that hold a block (R203 WIDTH). -/
def ruWidth (r : Ru) : Nat := countOf (fun m => !m.skip) r.members

/-- Pages of a row in one unit: pages per word line, one in SLC mode (R205). -/
def ruPpw (s : State) (r : Ru) : Nat := if r.slc then 1 else geomPpw s

/-- Data slots of a program unit. -/
def unitSlots (s : State) (r : Ru) : Nat := geomPlanes s * ruPpw s r * 4

/-- The values of STATE (R202). -/
def RuSt.code : RuSt → Nat
  | .free => 0 | .erasing => 1 | .opened => 2 | .closed => 3 | .victim => 4 | .retired => 5 | .bad v => v
def RuSt.ofCode (v : Nat) : RuSt := match v with
  | 0 => .free | 1 => .erasing | 2 => .opened | 3 => .closed | 4 => .victim | 5 => .retired | v => .bad v

/-- An RU descriptor as 160 bytes (R203). -/
def ruBytes (r : Ru) : List Byte :=
  fieldBytes [(1, r.st.code), (1, r.slc.toNat + r.degraded.toNat * 2 + r.short.toNat * 4 + r.refresh.toNat * 8 + r.nosum.toNat * 16), (2, r.tenant), (1, r.ruh),
    (1, r.dset), (1, ruWidth r), (1, 0), (4, r.eraseCnt), (4, r.valid.length), (2, r.nextRow), (2, r.rows), (8, r.progTime), (4, r.readMax)]
    ++ padTo 128 (r.members.map fun m => leBytes 2 (m.block + m.skip.toNat * 4096)).flatten

/-- An RU with the fields of a descriptor that was written (R203): WIDTH and VALID_MU follow from the members and the bitmap. -/
def ruParse (r : Ru) (b : List Byte) : Ru :=
  let f := byteFld b 1 1
  { r with
    st := RuSt.ofCode (byteFld b 0 1), slc := f % 2 = 1, degraded := f / 2 % 2 = 1, short := f / 4 % 2 = 1, refresh := f / 8 % 2 = 1, nosum := f / 16 % 2 = 1
    tenant := byteFld b 2 2 % 512, ruh := byteFld b 4 1, dset := byteFld b 5 1, eraseCnt := byteFld b 8 4, nextRow := byteFld b 16 2, rows := byteFld b 18 2
    progTime := byteFld b 20 8, readMax := byteFld b 28 4
    members := (List.range r.members.length).map fun m =>
      { die := match r.members[m]? with
          | some x => x.die
          | none => 0
        block := byteFld b (32 + 2 * m) 2 % 4096, skip := byteFld b (32 + 2 * m) 2 / 4096 % 2 = 1 } }

/-- A die-set table entry as 256 bytes (R239). -/
def dsetBytes (width : Nat) (d : DieSet) : List Byte :=
  let n := countOf (fun m => !m.2.1 && !m.2.2) d.members
  padTo 128 (fieldBytes [(1, n), (1, 1 + (decide (n < width)).toNat * 2), (2, 0), (4, d.firstRu), (4, d.rus)])
    ++ padTo 128 (d.members.map fun m => leBytes 2 (m.1 + m.2.1.toNat * 512 + m.2.2.toNat * 1024)).flatten

/-- The die set that an entry of the table names: members up to the last that is not zero, at least those of `least`. -/
def dsetParse (least : Nat) (b : List Byte) : DieSet :=
  let w (m : Nat) : Nat := byteFld b (128 + 2 * m) 2
  { members := (List.range (min 64 (max (byteFld b 0 1) least))).map fun m => (w m % 512, (w m).testBit 9, (w m).testBit 10)
    firstRu := byteFld b 4 4, rus := byteFld b 8 4 }

/-- Members that hold a block, by their place in the list. -/
def liveMembers (r : Ru) : List Nat :=
  (List.range r.members.length).filter fun i => match r.members[i]? with
    | some m => !m.skip
    | none => false

/-- The PUA of bit i of an RU's validity bitmap (R239): row, then member, then slot in the unit (members counted as R206 counts them, DEDUCED, entry 120). -/
def bitPua (s : State) (r : Ru) (i : Nat) : Option Nat :=
  let u := max 1 (unitSlots s r)
  let w := max 1 (ruWidth r)
  match (liveMembers r)[i / u % w]? with
  | none => none
  | some k => match r.members[k]? with
    | none => none
    | some m =>
      let x := i % u
      some (puaMk m.die (x / 4 % geomPlanes s) m.block (i / (w * u) * ruPpw s r + x / (4 * geomPlanes s)) (x % 4))

/-- A byte of an RU's validity bitmap. -/
def bitmapByte (s : State) (r : Ru) (k : Nat) : Byte :=
  BitVec.ofNat 8 (sumOf (fun j => match bitPua s r (8 * k + j) with
    | some p => if r.valid.contains p then 2 ^ j else 0
    | none => 0) (List.range 8))

/-! ### The structures among the bytes of DRAM -/

/-- A base address in a register pair of R198. -/
def baseAt (s : State) (rgn off : Nat) : Nat := Word.fld (rd s rgn off) 31 6 * 64 + rdF s rgn (off + 4) 15 0 * 2 ^ 32

/-- The entry of a table that an address lies in, and the byte in it. -/
def slotAt (base size count a : Nat) : Option (Nat × Nat) :=
  if base ≤ a ∧ a < base + size * count then some ((a - base) / size, (a - base) % size) else none

/-- The byte of a Canopy granule (R167): the buffer of a resident leaf holds its copy. -/
def granByte (s : State) (a : Nat) : Option Byte :=
  s.ftl.frames.findSome? fun p => p.2.grans.findSome? fun g =>
    if g.2 ≤ a ∧ a < g.2 + 1024 then some ((leafBytes (geomPlanes s) p.2.raw p.2.entries).getD (1024 * g.1 + (a - g.2)) 0) else none

/-- The byte that the map walker's structures hold at an address (R156, R165, R167, R174). -/
def ftlByte (s : State) (a : Nat) : Option Byte :=
  match slotAt (baseAt s 0x0E 0x104) 8 (rdEntries s) a with
  | some (r, k) => some ((leBytes 8 (rootWord (rootOf s r))).getD k 0)
  | none => match slotAt (baseAt s 0x0E 0x110) 64 (rdF s 0x0E 0x118 24 0) a with
    | some (i, k) => (Tbl.find s.ftl.frames i).map fun f => (frameBytes s f).getD k 0
    | none => match slotAt (baseAt s 0x0E 0x11C) 16 4096 a with
      | some (i, k) => some (match Tbl.find s.ten.nss (i + 1) with
          | some n => (nstBytes n).getD k 0
          | none => 0)
      | none => match slotAt (baseAt s 0x0E 0x130) 32 (rdF s 0x0E 0x138 24 0) a with
        | some (i, k) => some (match Tbl.find s.ftl.hmb i with
            | some h => (hmbBytes (geomPlanes s) h).getD k 0
            | none => 0)
        | none => granByte s a

/-- The RU epoch table, which stands while SEC is enabled too (R421): its entry at an address, and the byte in it. -/
def epochAt (s : State) (a : Nat) : Option (Nat × Nat) :=
  if isEnabled s 0x0A then slotAt (baseAt s 0x0A 0x108) 2 (rdF s 0x0F 0x114 17 0) a else none

/-- The byte that Coppice's structures hold at an address (R203, R239, R421). -/
def cpcByte (s : State) (a : Nat) : Option Byte :=
  match slotAt (baseAt s 0x0F 0x10C) 160 (rdF s 0x0F 0x114 17 0) a with
  | some (i, k) => (dsetOf s i).map fun _ => (ruBytes (ruAt s i)).getD k 0
  | none => match slotAt (baseAt s 0x0F 0x118) 256 64 a with
    | some (i, k) => (Tbl.find s.cpc.dsets i).map fun d => (dsetBytes (rdF s 0x0F 0x100 6 0) d).getD k 0
    | none => match slotAt (baseAt s 0x0F 0x124) (rdF s 0x0F 0x12C 19 0) (rdF s 0x0F 0x114 17 0) a with
      | some (i, k) => (dsetOf s i).map fun _ => bitmapByte s (ruAt s i) k
      | none => match epochAt s a with
        | some (i, k) => (dsetOf s i).map fun _ => (leBytes 2 (ruAt s i).epoch).getD k 0
        | none => none

/-- The byte that the window's structures hold at an address: the backing directory (R313) and the poison bitmap (R324), one bit for each line of the
window, in ascending order. -/
def winByte (s : State) (a : Nat) : Option Byte :=
  let grans := rdF s 0x18 0x100 9 0 * 4096
  match slotAt (baseAt s 0x18 0x10C) 8 grans a with
  | some (g, k) => some ((leBytes 8 (match Tbl.find s.win.bdir g with
      | some b => b.puas.headD 0 + 2 ^ 38
      | none => 0)).getD k 0)
  | none => match slotAt (baseAt s 0x18 0x114) 1 (grans * 128) a with
    | some (i, _) => some (BitVec.ofNat 8 (sumOf (fun j => if Tbl.getD s.win.poison (8 * i + j) false then 2 ^ j else 0) (List.range 8)))
    | none => none

/-- No structure of these blocks stands in DRAM. -/
def tablesOff (s : State) : Bool := !isEnabled s 0x0E && !isEnabled s 0x0F && !isEnabled s 0x18

/-- The byte of a structure at an address of DRAM, where one lies there. -/
def tableByte (s : State) (a : Nat) : Option Byte :=
  match (if isEnabled s 0x0E then ftlByte s a else none) with
  | some b => some b
  | none => match (if isEnabled s 0x0F then cpcByte s a else none) with
    | some b => some b
    | none => if isEnabled s 0x18 then winByte s a else none

/-- Bytes that stand at an address with those of a write put over them. -/
def splice (base : Nat) (old : List Byte) (a : Nat) (d : List Byte) : List Byte :=
  (List.range old.length).map fun k => if a ≤ base + k ∧ base + k < a + d.length then d.getD (base + k - a) 0 else old.getD k 0

/-- The entries of a table that a write touches. -/
def touched (base size count a n : Nat) : List Nat := ((List.range n).filterMap fun i => (slotAt base size count (a + i)).map (·.1)).eraseDups

/-- A write reaches the root directory or the namespace table: the walker finds there what was written (R156, R165). A namespace that exists takes the
fields of its entry. -/
def ftlWritten (s : State) (a : Nat) (d : List Byte) : State :=
  let rb := baseAt s 0x0E 0x104
  let nb := baseAt s 0x0E 0x11C
  let s := (touched rb 8 (rdEntries s) a d.length).foldl (fun s r =>
    setRoot s r (rootParse (leNat (splice (rb + 8 * r) (leBytes 8 (rootWord (rootOf s r))) a d)))) s
  (touched nb 16 4096 a d.length).foldl (fun (s : State) (i : Nat) => match Tbl.find s.ten.nss (i + 1) with
    | none => s
    | some n =>
      let b := splice (nb + 16 * i) (nstBytes n) a d
      { s with ten := { s.ten with nss := Tbl.put s.ten.nss (i + 1) { n with
        leafBase := byteFld b 0 3, leafCount := byteFld b 4 4 % 2 ^ 25, owner := byteFld b 8 2 % 512, lbaf := byteFld b 10 1 % 2, notReady := byteFld b 10 1 / 4 % 2 = 1 } } }) s

/-- A write reaches the RU epoch table (R421). -/
def epochWritten (s : State) (a : Nat) (d : List Byte) : State :=
  (List.range d.length).foldl (fun (s : State) (j : Nat) => match epochAt s (a + j) with
    | none => s
    | some (i, k) => match dsetOf s i with
      | none => s
      | some _ => setRu s i { ruAt s i with epoch := leNat ((leBytes 2 (ruAt s i).epoch).set k (d.getD j 0)) }) s

/-- A write reaches the RU descriptors, the die-set table, a bitmap or the RU epoch table: Coppice finds there what was written (R203, R239, R421). -/
def cpcWritten (s : State) (a : Nat) (d : List Byte) : State :=
  let ub := baseAt s 0x0F 0x10C
  let db := baseAt s 0x0F 0x118
  let vb := baseAt s 0x0F 0x124
  let stride := rdF s 0x0F 0x12C 19 0
  let s := (touched ub 160 (rdF s 0x0F 0x114 17 0) a d.length).foldl (fun (s : State) (i : Nat) => match dsetOf s i with
    | none => s
    | some _ => setRu s i (ruParse (ruAt s i) (splice (ub + 160 * i) (ruBytes (ruAt s i)) a d))) s
  let s := (touched db 256 64 a d.length).foldl (fun (s : State) (i : Nat) => match Tbl.find s.cpc.dsets i with
    | none => s
    | some x =>
      let y := dsetParse x.members.length (splice (db + 256 * i) (dsetBytes (rdF s 0x0F 0x100 6 0) x) a d)
      { s with cpc := { s.cpc with dsets := Tbl.put s.cpc.dsets i y } }) s
  let s := epochWritten s a d
  (List.range d.length).foldl (fun (s : State) (j : Nat) => match slotAt vb stride (rdF s 0x0F 0x114 17 0) (a + j) with
    | none => s
    | some (i, k) => match dsetOf s i with
      | none => s
      | some _ =>
        let r := ruAt s i
        let puas := (List.range 8).filterMap fun b => (bitPua s r (8 * k + b)).map fun p => (p, (d.getD j 0).toNat.testBit b)
        setRu s i { r with valid := r.valid.filter (fun p => !(puas.any fun q => q.1 = p)) ++ (puas.filter (·.2)).map (·.1) }) s

/-- The structures after a write of bytes to DRAM. -/
def tableWrite (s : State) (a : Nat) (d : List Byte) : State :=
  if tablesOff s then s
  else
    let s := if isEnabled s 0x0E then ftlWritten s a d else s
    if isEnabled s 0x0F then cpcWritten s a d else s

/-- FTL is enabled: the root directory is what stands in memory at its base (R165, R198). -/
def ftlAdopt (s : State) : State :=
  let rb := baseAt s 0x0E 0x104
  let l := (s.mem.filterMap fun c => (slotAt rb 8 (rdEntries s) c.1).map (·.1)).eraseDups
  l.foldl (fun s r => setRoot s r (rootParse (leNat (memReadN s (rb + 8 * r) 8)))) s

/-! ### The journal -/

/-- A journal record as R183 lays it out. -/
def JType.code : JType → Nat
  | .pad => 0 | .mapRec => 1 | .trim => 2 | .uncorr => 3 | .reloc => 4 | .leafwb => 5 | .dead => 6 | .nsmeta => 7
  | .payload => 0
def recBytes (r : JRec) : List Byte :=
  if r.typ = .payload then leBytes 16 (r.mu + r.a * 2 ^ 35)
  else leBytes 16 (r.mu % 2 ^ 35 + r.typ.code * 2 ^ 35 + r.a % 2 ^ 38 * 2 ^ 38 + r.b % 2 ^ 38 * 2 ^ 76 + r.c % 2 ^ 14 * 2 ^ 114)

/-- A journal page (R184). -/
def pageBytes (recs : List JRec) : List Byte :=
  padTo 16384 (fieldBytes [(8, (recs.headD { jseq := 0, typ := .pad, mu := 0 }).jseq), (2, recs.length), (6, 0)] ++ (recs.map recBytes).flatten)

/-- A record that breaks R183, or whose MU lies outside the root directory: malformed. -/
def recBad (s : State) (r : JRec) : Bool :=
  let lim := rdEntries s * 2048
  match r.typ with
  | .pad => r.mu ≠ 0 || r.a ≠ 0 || r.b ≠ 0 || r.c ≠ 0
  | .mapRec => lim < r.mu + r.c % 32 + 1 || r.b ≠ 0 || 32 ≤ r.c
  | .trim | .uncorr => lim < r.mu + r.a || r.b ≠ 0 || r.c ≠ 0
  | .reloc => lim ≤ r.mu || r.c ≠ 0
  | .leafwb => lim ≤ r.mu || r.mu % 2048 ≠ 0 || r.b ≠ 0 || 128 ≤ r.c
  | .dead => lim ≤ r.mu || r.b ≠ 0 || r.c ≠ 0
  | .nsmeta => r.mu = 0 || 4096 < r.mu || r.a ≠ 0 || r.b ≠ 0 || 4096 ≤ r.c
  | .payload => false

/-! ### Payloads -/

/-- The 64-byte header of user data (R190). -/
def userHeader (nsid mu tenant lost wseq crc : Nat) : List Byte :=
  [1, 1, 0, 0] ++ fieldBytes [(4, nsid), (8, mu), (2, tenant), (1, lost), (1, 0), (8, wseq), (4, crc)] ++ List.replicate 32 0

/-- The 64-byte header of a granule copy (R313). -/
def backHeader (g sub gseq tenant poison crc : Nat) : List Byte :=
  [5, 1, 0, 0] ++ fieldBytes [(4, g), (1, sub), (1, 0), (2, tenant), (8, gseq), (8, poison), (4, crc)] ++ List.replicate 32 0

/-- The 64-byte header of another kind: KIND and VERSION. -/
def plainHeader (kind : Byte) : List Byte := [kind, 1] ++ List.replicate 62 0

/-- The location words of a snapshot page, in root order (R186); the layout is the model's (DESIGN CHOICE, entry 121). -/
def snapBytes (first : Nat) (words : Tbl Nat) : List Byte := ((List.range 2048).map fun i => leBytes 8 (Tbl.getD words (first + i) 0)).flatten

/-- A validity summary (R186, R226, R240): each RU with the PUAs of its valid slots, then the bad blocks; the layout is the model's (DESIGN CHOICE, entry 121). -/
def sumBytes (v : List (Nat × List Nat)) (bad : List (Nat × Nat)) : List Byte :=
  fieldBytes [(4, v.length), (4, bad.length)] ++ (v.map fun r => fieldBytes [(4, r.1), (4, r.2.length)] ++ (r.2.map (leBytes 8)).flatten).flatten
    ++ (bad.map fun b => fieldBytes [(2, b.1), (2, b.2)]).flatten

/-- The 4,160 bytes of a slot's payload as LDC delivers them to a firmware read (R256, R277): data, then header. A slot that holds nothing gives a pad; what a
parity codeword holds is `slotBytes`. -/
def payloadBytes (planes : Nat) : Option Content → List Byte
  | some (.user nsid mu t lost ws crc d) => padTo 4096 d ++ userHeader nsid mu t lost ws crc
  | some (.raw p) => p
  | some (.journal recs j) => padTo 4096 ((pageBytes recs).drop (4096 * j)) ++ plainHeader 3
  | some (.mapLeaf root lseq raw ents j) => leafSlotBytes planes root lseq raw ents j
  | some (.backing g sub gs t po crc d) => padTo 4096 d ++ backHeader g sub gs t po crc
  | some (.snapshot _ first words j) => padTo 4096 ((snapBytes first words).drop (4096 * j)) ++ plainHeader 4
  | some (.summary v b j) => padTo 4096 ((sumBytes v b).drop (4096 * j)) ++ plainHeader 4
  | some (.flush _ b) => padTo 4096 b ++ plainHeader 4
  | some .pad | some .parity | none => List.replicate 4160 0

/-- Bytewise XOR of two payloads (R206). -/
def xorPayload (a b : List Byte) : List Byte := List.zipWith (· ^^^ ·) a b

/-- The payload of a codeword slot: a parity codeword holds the XOR of the payloads that it covers (R206). -/
def slotBytes (s : State) (p : Nat) : List Byte :=
  match Tbl.find s.flash.cells p with
  | some .parity => (Tbl.getD s.flash.cover p []).foldl (fun b q => xorPayload b (payloadBytes (geomPlanes s) (some q.2))) (List.replicate 4160 0)
  | c => payloadBytes (geomPlanes s) c

/-- User data in a payload that firmware programmed (R190, R256). -/
def parseUser (p : List Byte) : Content :=
  let h := p.drop 4096
  .user (byteFld h 4 4) (byteFld h 8 8) (byteFld h 16 2 % 512) (byteFld h 18 1) (byteFld h 20 8) (byteFld h 28 4) (p.take 4096)

end Sys2Proof.Machine
end

