-- ==== Sys2Proof/Machine/Dmc.lean ====
section
/-! DEFINITION. DRAM (R348 to R372): the address map, the chip-kill decoder by symbol errors, poison, lazy
initialisation, narrow writes, chip marks, the patrol scrub and the flip test. -/

namespace Sys2Proof.Machine

/-- The line of an address: addresses of one line share it. -/
def lineOf (a : Nat) : Nat := a / 64

/-- The granule of a line, counted from the start of DRAM (R360). -/
def granuleOf (line : Nat) : Nat := (line * 64 - dramBase) / 65536

/-- Enabled subchannels in ascending order: the slot list of R352. -/
def subSlots (s : State) : List Nat := (List.range 8).filter fun i => (rdF s 0x1B 0x104 23 16).testBit i

/-- Subchannel and rank that serve a line (R352). -/
def subRank (s : State) (line : Nat) : Nat × Nat :=
  let a := line * 64 - dramBase
  let n := (subSlots s).length
  let sub := (subSlots s).getD (a / 256 % n) 0
  let l := a / 256 / n * 256 + a % 256
  (sub, if Word.bit (rd s 0x1B 0x100) 6 then l / 2 ^ 18 % 2 else 0)

/-- Offset of DMC_MARK and DMC_DEV of a subchannel-rank (R372). -/
def markOff (sub rank : Nat) : Nat := 0x1400 + 4 * (2 * sub + rank)
def devOff (sub rank dev : Nat) : Nat := 0x1000 + 64 * (2 * sub + rank) + 4 * dev

/-- The device that holds a symbol (R353). -/
def symDev (sym : Nat) : Nat := sym / 8

/-- The devices in error, each once. -/
def errDevs (errs : List SymErr) : List Nat := (errs.map fun e => symDev e.sym).eraseDups

/-- The symbols in error in one device. -/
def errsIn (errs : List SymErr) (d : Nat) : Nat := countOf (fun e => symDev e.sym = d) errs

/-- The decode succeeds under R355 without a mark, or under R358 with a mark on device `m`: up to 4 symbols
outside the marked device, else all corrected symbols in one device, or at most 4 in all. -/
def decodes (mark : Option Nat) (errs : List SymErr) : Bool :=
  match mark with
  | some m => countOf (fun e => symDev e.sym ≠ m) errs ≤ 4
  | none => errs.length ≤ 4 || ((errDevs errs).length = 1 && errs.length ≤ 8)

/-- The chip mark of a subchannel-rank (R358). -/
def markOf (s : State) (sub rank : Nat) : Option Nat :=
  let w := rd s 0x1B (markOff sub rank)
  if Word.bit w 4 then some (Word.fld w 3 0) else none

/-- The errors a decode meets: those stored with the line and those of this access; equal symbols cancel when
their errors are equal. -/
def meetErrs (stored now : List SymErr) : List SymErr :=
  stored.filter (fun e => !(now.any fun f => f.sym = e.sym && f.err = e.err))
    ++ now.filter (fun e => e.err ≠ 0 && !(stored.any fun f => f.sym = e.sym))

/-- The outcome of a decode (R356): 0 clean, 1 corrected, 2 poison pattern, 3 uncorrectable. -/
def outcomeOf (mark : Option Nat) (poisoned : Bool) (errs : List SymErr) : Nat :=
  if poisoned then (if decodes mark errs then 2 else 3)
  else if errs = [] then 0
  else if decodes mark errs then 1
  else 3

/-- Mark a device whose heavy corrections reached THR (R358). -/
def chipMarkAuto (s : State) (sub rank dev : Nat) : State :=
  match markOf s sub rank with
  | none =>
    let s := wr s 0x1B (markOff sub rank) (w32 (dev + 16 + 32))
    emit (raiseInt s 0x1B 3) 0x9003 sevWarning 0x1B none (leBytes 4 (sub + rank * 16 + dev * 256))
  | some m =>
    if m = dev then s
    else emit (blockErr s 0x1B 19 (sub + rank * 16 + dev * 256)) 0x9004 sevError 0x1B none
      (leBytes 4 (sub + rank * 16 + dev * 256))

/-- Count a corrected device, and a heavy correction of it (R358, R372). -/
def countDev (errs : List SymErr) (sub rank : Nat) (s : State) (dev : Nat) : State :=
  let s := bumpF s 0x1B (devOff sub rank dev) 15 0 1
  if 3 ≤ errsIn errs dev then
    let s := bumpF s 0x1B (devOff sub rank dev) 23 16 1
    let n := rdF s 0x1B (devOff sub rank dev) 23 16
    let thr := rdF s 0x1B 0x118 7 0
    if Word.bit (rd s 0x1B 0x118) 24 && (n = thr || (thr ≤ n && (markOf s sub rank).isNone)) then chipMarkAuto s sub rank dev else s
  else s

/-- Record an outcome (R356). -/
def recordOutcome (s : State) (line : Nat) (oc : Nat) (errs : List SymErr) (who : Who) : State :=
  let (sub, rank) := subRank s line
  match oc with
  | 1 =>
    let s := bump s 0x1B 0x120 1
    let s := { s with dmc := { s.dmc with ceMinute := s.dmc.ceMinute + 1 } }
    let s := if s.dmc.ceMinute = rdF s 0x1B 0x11C 15 0 then raiseInt s 0x1B 1 else s
    emit ((errDevs errs).foldl (countDev errs sub rank) s) 0x9001 sevInfo 0x1B none (leBytes 8 (line * 64))
  | 2 => bump s 0x1B 0x128 1
  | 3 =>
    let s := bump s 0x1B 0x124 1
    let s := captureErr s 0x1B 17 false 64 0 0 (line * 64) who
    emit (raiseInt s 0x1B 2) 0x9002 sevError 0x1B none (leBytes 8 (line * 64))
  | _ => s

/-- The flip is armed for a line, in a mode (R369). -/
def flipArmed (s : State) (line mode : Nat) : Bool :=
  Word.bit (rd s 0x1B 0x174) 31 && rdF s 0x1B 0x174 8 8 = mode && lineOf (rd64 s 0x1B 0x160) = line

/-- The errors the flip injects: PAT into each selected symbol (R369); a PAT of 0 changes nothing. -/
def flipErrs (s : State) : List SymErr :=
  let m := (rd s 0x1B 0x168).toNat + (rd s 0x1B 0x16C).toNat * 2 ^ 32 + rdF s 0x1B 0x170 15 0 * 2 ^ 64
  if rdF s 0x1B 0x174 7 0 = 0 then [] else ((List.range 80).filter m.testBit).map fun i => ⟨i, rdF s 0x1B 0x174 7 0⟩

/-- Consume the flip: ARM clears, DMC_FLIP_RES is loaded, FLIP_DONE is set (R369). -/
def flipDone (s : State) (oc : Nat) (errs : List SymErr) : State :=
  let ds := errDevs errs
  let dev := if oc ≠ 1 then 0 else if ds.length = 1 then ds.headD 0 else 0xF
  let s := wrF s 0x1B 0x174 31 31 0
  let s := wr s 0x1B 0x178 (w32 (1 + oc * 2 + (if oc = 1 then errs.length else 0) * 16 + dev * 4096))
  raiseInt s 0x1B 6

/-- Consume a MODE 1 flip: R356 states outcomes of reads, so what DMC_FLIP_RES says beside DONE after a write is free. -/
def flipDoneWrite (s : State) : State :=
  let (f, s) := takeFree s
  let s := wrF s 0x1B 0x174 31 31 0
  raiseInt (wr s 0x1B 0x178 ((w32 f &&& 0xF7F6) ||| 1)) 0x1B 6

/-- A granule's valid bit (R360). -/
def granuleValid (s : State) (g : Nat) : Bool := Tbl.getD s.dmc.valid g false

/-- Set or clear a granule's valid bit. -/
def setGranule (s : State) (g : Nat) (v : Bool) : State :=
  { s with dmc := { s.dmc with valid := Tbl.putC false s.dmc.valid g v } }

/-- Forget the contents of an address range: its bytes read as memory that nothing has written. -/
def memForget (s : State) (a n : Nat) : State :=
  { s with mem := s.mem.filter fun c => c.1 < a || a + n ≤ c.1 }

/-- Drop the per-line marks of a granule. -/
def dropLines {α : Type} (t : Tbl α) (g : Nat) : Tbl α := t.filter fun p => granuleOf p.1 ≠ g

/-- Clear the valid bit of a granule: it reads zero from now on (R360, R362). -/
def unwriteGranule (s : State) (g : Nat) : State :=
  let s := memForget (setGranule s g false) (dramBase + g * 65536) 65536
  { s with dmc := { s.dmc with poison := dropLines s.dmc.poison g, stored := dropLines s.dmc.stored g, uninit := Tbl.del s.dmc.uninit g } }

/-- Clear the valid bits of a run of granules (R362). -/
def unwriteGranules (s : State) (g : Nat) : Nat → State
  | 0 => s
  | n + 1 => unwriteGranules (unwriteGranule s g) (g + 1) n

/-- A bitmap word found uncorrectable: all its 32 bits are set (R363). Granules never written then hold
uninitialised contents. -/
def bitmapWordError (s : State) (g : Nat) : State :=
  let g0 := g / 32 * 32
  let s := (List.range 32).foldl (fun s i =>
    if granuleValid s (g0 + i) then s
    else
      let s := setGranule s (g0 + i) true
      { s with dmc := { s.dmc with uninit := Tbl.put s.dmc.uninit (g0 + i) [] } }) s
  emit (blockErr s 0x1B 18 0) 0x9005 sevError 0x1B none (leBytes 4 g0)

/-- DRAM takes requests: TSTATE reads READY (R350). -/
def dramUp (s : State) : Bool := s.dmc.tstate = 3

/-- A line is poisoned. -/
def isPoisoned (s : State) (line : Nat) : Bool := Tbl.getD s.dmc.poison line false

/-- Store a codeword of a line: its poison and its symbol errors; the line has been written. -/
def setLine (s : State) (line : Nat) (poison : Bool) (errs : List SymErr) : State :=
  { s with dmc := { s.dmc with
      uninit := Tbl.adj s.dmc.uninit (granuleOf line) (line :: ·)
      poison := Tbl.putC false s.dmc.poison line poison
      stored := Tbl.putC [] s.dmc.stored line errs } }

/-- A line of a granule that a bitmap error made valid and that no codeword has been stored to since (R363). -/
def neverWritten (s : State) (line : Nat) : Bool :=
  match Tbl.find s.dmc.uninit (granuleOf line) with
  | some w => !w.contains line
  | none => false

/-- Decode one line (R356): the outcome, and the state with what it records. -/
def decodeLine (s : State) (line : Nat) (now : List SymErr) (who : Who) : Nat × State :=
  let g := granuleOf line
  if !granuleValid s g then (0, s)
  else
    let flip := flipArmed s line 0
    let stored := Tbl.getD s.dmc.stored line []
    let errs := meetErrs (if flip then meetErrs stored (flipErrs s) else stored) now
    let (sub, rank) := subRank s line
    let oc := if neverWritten s line then 3
      else outcomeOf (markOf s sub rank) (isPoisoned s line) errs
    let s := recordOutcome s line oc errs who
    (oc, if flip then flipDone s oc errs else s)

/-- Read one line on demand: the corrected line is written back while DEMAND_WB is 1 (R366). -/
def readLine (s : State) (line : Nat) (now : List SymErr) (who : Who) : Nat × State :=
  match decodeLine s line now who with
  | (oc, s) => (oc, if oc = 1 && Word.bit (rd s 0x1B 0x100) 12 then setLine s line (isPoisoned s line) [] else s)

/-- The bytes that memory itself gives a read: zeros while the granule's valid bit is 0 (R360). -/
def plainBytes (s : State) (a n : Nat) : List Byte := if granuleValid s (granuleOf (lineOf a)) then memReadN s a n else List.replicate n 0

/-- The bytes that a read returns: those of the structures that the walker, Coppice and the window keep in DRAM where one lies there, else memory's. -/
def dramBytes (s : State) (a n : Nat) : List Byte :=
  if tablesOff s then plainBytes s a n
  else (List.range n).map fun i => match tableByte s (a + i) with
    | some b => b
    | none => (plainBytes s a n).getD i 0

/-- A DRAM read of accepted bytes: the response code and data (R356, R360). -/
def dramRead (s : State) (a : Acc) (now : List SymErr) : State :=
  if !dramUp s then answer s .domainOff
  else match Tbl.find s.dmc.fills (granuleOf (lineOf a.addr)) with
  | some l => { s with dmc := { s.dmc with
      fills := Tbl.put s.dmc.fills (granuleOf (lineOf a.addr)) (l ++ [⟨a, false⟩]) } }
  | none =>
    let (oc, s) := readLine s (lineOf a.addr) now a.who
    let bytes := dramBytes s a.addr a.size
    if oc = 2 ∨ oc = 3 then { s with resp := { code := .poison, data := 0, bytes := [] } }
    else { s with resp := { code := .ok, data := leNat bytes, bytes := bytes } }

/-- Apply a full-line write to a valid granule (R357, R367, R369). -/
def applyLine (s : State) (a : Acc) (poison : Bool) : State :=
  let line := lineOf a.addr
  let flip := flipArmed s line 1
  let errs := if flip then flipErrs s else []
  let s := setLine (tableWrite (memWriteN s a.addr (leBytes a.size a.data)) a.addr (leBytes a.size a.data)) line poison errs
  if flip then flipDoneWrite s else s

/-- Apply a write narrower than a line: read-modify-write (R359); it is a write of the line to an armed MODE 1 flip (R369). -/
def applyNarrow (s : State) (a : Acc) (now : List SymErr) : State :=
  let line := lineOf a.addr
  let (oc, s) := readLine s line now a.who
  let s := tableWrite (memWriteN (bump s 0x1B 0x12C 1) a.addr (leBytes a.size a.data)) a.addr (leBytes a.size a.data)
  let flip := flipArmed s line 1
  let s := setLine s line (oc = 2 ∨ oc = 3) (if flip then flipErrs s else [])
  if flip then flipDoneWrite s else s

/-- Apply a request in its turn. -/
def applyReq (s : State) (r : DramReq) (now : List SymErr) : State :=
  match r.acc.kind with
  | .write => if r.acc.size = 64 then applyLine s r.acc r.poison else applyNarrow s r.acc now
  | _ => dramRead s r.acc now

/-- A DRAM write: at once in a valid granule, else after the granule's fill (R361). -/
def dramWrite (s : State) (r : DramReq) (now : List SymErr) : State :=
  let g := granuleOf (lineOf r.acc.addr)
  if !dramUp s then answer s .domainOff
  else match Tbl.find s.dmc.fills g with
  | some l => { s with dmc := { s.dmc with fills := Tbl.put s.dmc.fills g (l ++ [r]) } }
  | none =>
    if granuleValid s g then answer (applyReq s r now) .ok
    else { s with dmc := { s.dmc with fills := Tbl.put s.dmc.fills g [r] } }

/-- DMC_TRAIN_DONE (R349 to R352): failing subchannels are disabled, the map forms, and DMC is READY, or FAILED below
64 GiB. -/
def dmcTrainDone (s : State) (fails : List TrainFail) : State :=
  if s.dmc.tstate ≠ 1 ∧ s.dmc.tstate ≠ 2 then s
  else
    let cfg := rd s 0x1B 0x100
    let present (i : Nat) : Bool := (Word.fld cfg 11 8).testBit (i / 2)
    let bad (i : Nat) : Bool := fails.any fun f => f.sub = i || (f.step = 7 && f.sub / 2 = i / 2)
    let en := (List.range 8).filter fun i => present i && !bad i
    let failed := (List.range 8).filter fun i => present i && bad i
    let ranks := if Word.bit cfg 6 then 2 else 1
    let dens := 16 + 8 * Word.fld cfg 5 4
    let cap := en.length * ranks * dens
    let s := match fails with
      | [] => s
      | f :: _ => wr s 0x1B 0x10C (w32 (f.sub + f.rank * 8 + f.dev * 16 + f.step * 256 + 2 ^ 31))
    let s := fails.foldl (fun s f =>
      if f.step = 7 then s else wrF s 0x1B (devOff f.sub f.rank f.dev) 24 24 1) s
    let s := wrF s 0x1B 0x108 15 8 (sumOf (2 ^ ·) failed)
    if cap < 64 then
      { s with dmc := { s.dmc with tstate := 4 }, dev := { s.dev with heldInReset := true } }
    else
      let s := wr s 0x1B 0x104 (w32 (cap % 1024 + en.length * 4096 + sumOf (2 ^ ·) en * 65536))
      let s := raiseInt { s with dmc := { s.dmc with tstate := 3 } } 0x1B 5
      let b := blkSt s 0x1B
      let s := setBlk s 0x1B { b with st := .ready }
      if failed = [] then s
      else emit s 0x9006 sevWarning 0x1B none (leBytes 1 (sumOf (2 ^ ·) failed))

/-- GRANULE_FILL_DONE (R361): the granule holds zeros, its bit sets, and the waiting requests are served in order. -/
def granuleFillDone (s : State) (g : Nat) : State :=
  match Tbl.find s.dmc.fills g with
  | none => s
  | some l =>
    let s := setGranule (memForget s (dramBase + g * 65536) 65536) g true
    let s := bump { s with dmc := { s.dmc with fills := Tbl.del s.dmc.fills g } } 0x1B 0x130 1
    l.foldl (fun s r => if r.acc.kind = .write then answer (applyReq s r []) .ok else applyReq s r []) s

/-- The entries of a subchannel-rank stand for nothing (R372): once the map has formed or training has failed, those of a disabled subchannel; and those of
rank 1 without RANKS2. -/
def entryOff (s : State) (sub rank : Nat) : Bool :=
  (3 ≤ s.dmc.tstate && !(rdF s 0x1B 0x104 23 16).testBit sub) || (rank = 1 && !Word.bit (rd s 0x1B 0x100) 6)

/-- The write of DMC_MARK (R358, R372). A device 10 to 15 is a reserved encoding: the field keeps its value (R9). AUTO says
that DMC set the mark, so it stays only while a write leaves that mark as it is. -/
def markWrite (s : State) (sub rank : Nat) (v : Word) : State :=
  if entryOff s sub rank then s
  else
    let old := rd s 0x1B (markOff sub rank)
    let dev := if Word.fld v 3 0 ≤ 9 then Word.fld v 3 0 else Word.fld old 3 0
    let auto := Word.bit old 5 && Word.bit v 4 && dev = Word.fld old 3 0
    wr s 0x1B (markOff sub rank) (w32 (dev + (Word.bit v 4).toNat * 16 + auto.toNat * 32))

/-- The write of DMC_INVAL_CNT (R362, R371): starts an invalidate, or records CFG while one runs. A count of 0 or above
8,388,608 is a reserved encoding; granules below DRAM have no valid bit. -/
def invalWrite (s : State) (v : Word) : State :=
  let n := Word.fld v 23 0
  match s.dmc.inval with
  | some _ => blockErr s 0x1B 16 0
  | none =>
    if n = 0 ∨ 8388608 < n then s
    else
      let b := rd64 s 0x1B 0x140 / 65536
      let g := max b (dramBase / 65536) - dramBase / 65536
      let n := b + n - dramBase / 65536 - g
      let s := unwriteGranules s g n
      { s with dmc := { s.dmc with inval := some (g, n) } }

/-- DMC_INVALIDATE_DONE (R362): the last bit is cleared; a granule whose fill ran when the invalidate came is
cleared after its fill (R367). -/
def dmcInvalidateDone (s : State) : State :=
  match s.dmc.inval with
  | none => s
  | some (g, n) =>
    let s := { s with dmc := { s.dmc with inval := none } }
    let run := (s.dmc.fills.filter fun p => g ≤ p.1 && p.1 < g + n).map (·.1)
    run.foldl unwriteGranule s

/-- DMC_FLIP_ARM (R369): a write of DMC_FLIP_CTL arms the flip, or withdraws it with ARM 0. -/
def flipWrite (s : State) (v : Word) : State :=
  let s := wr s 0x1B 0x174 (v &&& 0x800001FF)
  if Word.bit v 31 then wr s 0x1B 0x178 0 else s

/-- The first line at or after a line that lies in a valid granule (R365). -/
def scrubNext (s : State) (line : Nat) : Option Nat :=
  (s.dmc.valid.map fun p => if line ≤ p.1 * 1024 then p.1 * 1024 else if line < (p.1 + 1) * 1024 then line else 0)
    |>.find? fun l => line ≤ l

/-- SCRUB_ACCESS (R365): read the next line of a valid granule, write a corrected line back unless a later write arrived,
store an uncorrectable line poisoned; at the end of a pass set SCRUB_DONE. -/
def scrubAccess (s : State) (errs : List SymErr) (superseded : Bool) : State :=
  if !Word.bit (rd s 0x1B 0x110) 16 || !dramUp s then s
  else match scrubNext s s.dmc.scrubLine with
  | none => raiseInt { s with dmc := { s.dmc with scrubLine := 0 } } 0x1B 4
  | some l =>
    let line := dramBase / 64 + l
    let (oc, s) := decodeLine s line errs ⟨0, 0⟩
    let s := if superseded then s
      else if oc = 1 then setLine s line (isPoisoned s line) []
      else if oc = 3 then setLine s line true []
      else s
    let s := { s with dmc := { s.dmc with scrubLine := l + 1 } }
    match scrubNext s (l + 1) with
    | none => raiseInt { s with dmc := { s.dmc with scrubLine := 0 } } 0x1B 4
    | some _ => s

end Sys2Proof.Machine
end

