-- ==== Sys2Proof/Machine/Bpm.lean ====
section
/-! DEFINITION. The Leaf pools (R143 to R152, R633): chunks, allocation, waiting, reference counts, firmware buffers and the
rules of the class, area and limit registers. -/

namespace Sys2Proof.Machine

/-- Pick one of several things the part may choose between: the choice is a free value. -/
def pick {α : Type} (s : State) : List α → Option α × State
  | [] => (none, s)
  | [x] => (some x, s)
  | l => (l[Config.freeNat s.freeCtr % l.length]?, { s with freeCtr := s.freeCtr + 1 })

/-- BPM_CLASS fields (R151). -/
def clsLog (s : State) (c : Nat) : Nat := rdF s 0xC (0x120 + 4 * c) 4 0
def clsEn (s : State) (c : Nat) : Bool := Word.bit (rd s 0xC (0x120 + 4 * c)) 9

/-- Buffers in a chunk of a class (R144). -/
def bpc (s : State) (c : Nat) : Nat := 2 ^ (18 - clsLog s c)

/-- Offsets of the owner tables (R152). -/
def minOff (o c : Nat) : Nat := 0x1000 + 128 * o + 16 * c
def irsvOff (o : Nat) : Nat := 0x3000 + 16 * o

/-- MIN, CAP and IRSV of an owner (R144). -/
def bpmMin (s : State) (o c : Nat) : Nat := if c < 6 then rdF s 0xC (minOff o c) 27 0 else 0
def bpmCap (s : State) (o c : Nat) : Nat := if c < 6 then rdF s 0xC (minOff o c + 4) 27 0 else 0
def bpmIrsv (s : State) (o : Nat) : Nat := rdF s 0xC (irsvOff o) 21 0

/-- Reserved chunks rc(o,c) (R144): none while the class is disabled. -/
def rsvChunks (s : State) (o c : Nat) : Nat := if clsEn s c then ceilDiv (bpmMin s o c) (bpc s c) else 0

/-- Chunks of the pool area; none while the area is invalid (R151). -/
def chunksTotal (s : State) : Nat := if areaValid s then (areaEnd s - areaBase s) / 2 ^ 18 else 0

/-- Data chunks of an owner and class. -/
def heldOf (s : State) (o c : Nat) : Nat :=
  countOf (fun p => p.2.owner = o && p.2.cls = c && !p.2.internal) s.bpm.chunks

/-- Live data buffers of an owner and class (BPM_USED). -/
def usedOf (s : State) (o c : Nat) : Nat :=
  sumOf (fun p => if p.2.owner = o && p.2.cls = c && !p.2.internal then p.2.live.length else 0) s.bpm.chunks

/-- Internal chunks of an owner (BPM_OWN_IUSED). -/
def iusedOf (s : State) (o : Nat) : Nat := countOf (fun p => p.2.owner = o && p.2.internal) s.bpm.chunks

/-- Chunks held by no owner (BPM_CHUNKS_FREE). -/
def chunksFree (s : State) : Nat := chunksTotal s - s.bpm.chunks.length

/-- Reserved chunks not yet held (BPM_CHUNKS_RSV). -/
def chunksRsv (s : State) : Nat :=
  sumOf (fun o => sumOf (fun c => rsvChunks s o c - heldOf s o c) (List.range 6) + (bpmIrsv s o - iusedOf s o)) (List.range 64)

/-- Free chunks that no reservation holds back. -/
def unreservedFree (s : State) : Nat := chunksFree s - chunksRsv s

/-- The reservation sum of R144. -/
def rsvSum (s : State) : Nat :=
  sumOf (fun o => sumOf (rsvChunks s o) (List.range 6) + bpmIrsv s o) (List.range 64)

/-- The reservation rule of R144 holds. -/
def rsvOk (s : State) : Bool := rsvSum s ≤ chunksTotal s

/-- Chunks with a free slot. -/
def slotChunks (s : State) (o c : Nat) (internal : Bool) : List Nat :=
  (s.bpm.chunks.filter fun p =>
    p.2.owner = o && p.2.cls = c && p.2.internal = internal && p.2.live.length < bpc s c).map (·.1)

/-- Address of a slot of a chunk. -/
def slotAddr (s : State) (k slot c : Nat) : Nat := areaBase s + k * 2 ^ 18 + slot * 2 ^ clsLog s c

/-- Take a free slot of a chunk: reference count 1 (R148). -/
def takeSlot (s : State) (k : Nat) : Option Nat × State :=
  match Tbl.find s.bpm.chunks k with
  | none => (none, s)
  | some ch =>
    let (r, s) := pick s ((List.range (bpc s ch.cls)).filter fun i => (Tbl.find ch.live i).isNone)
    match r with
    | none => (none, s)
    | some i =>
      (some (slotAddr s k i ch.cls),
        { s with bpm := { s.bpm with chunks := Tbl.put s.bpm.chunks k { ch with live := Tbl.put ch.live i 1 } } })

/-- EXHAUST is set when a change takes the unreserved free chunks to zero (R151). -/
def noteExhaust (before after : State) : State :=
  if 0 < unreservedFree before && unreservedFree after = 0 then raiseInt after 0xC 2 else after

/-- The 256 KiB of DRAM that a chunk occupies, by address: what R147 remembers outlives a change of the pool area. -/
def chunkKey (s : State) (k : Nat) : Nat := areaBase s / 2 ^ 18 + k

/-- Form a chunk for an owner and class, and take its first slot. A chunk that changes owner is marked unwritten
first (R147); the tag is set before the buffer is returned (R143). -/
def newChunk (s : State) (o c : Nat) (internal : Bool) : Option Nat × State :=
  let (r, s) := pick s ((List.range (chunksTotal s)).filter fun i => (Tbl.find s.bpm.chunks i).isNone)
  match r with
  | none => (none, s)
  | some k =>
    let g := (areaBase s + k * 2 ^ 18 - dramBase) / 65536
    let b := s
    let s := if Tbl.find s.bpm.prev (chunkKey s k) = some o then s else unwriteGranules s g 4
    let s := { s with bpm := { s.bpm with
      chunks := Tbl.put s.bpm.chunks k { owner := o, cls := c, internal := internal }
      prev := Tbl.put s.bpm.prev (chunkKey s k) o } }
    takeSlot (noteExhaust b s) k

/-- One attempt at an allocation (R145): the address, or none where it must wait. A disabled class serves nothing (DESIGN CHOICE, entry 116); its CAP
would limit nothing (R144). -/
def bpmTry (s : State) (o c : Nat) (internal : Bool) : Option Nat × State :=
  if !clsEn s c then (none, s) else
  let data (s : State) : Option Nat × State :=
    match slotChunks s o c false with
    | k :: l =>
      let (r, s) := pick s (k :: l)
      takeSlot s (r.getD k)
    | [] =>
      if heldOf s o c < rsvChunks s o c ∧ 0 < chunksFree s then newChunk s o c false
      else if 0 < unreservedFree s then newChunk s o c false
      else (none, s)
  if internal then
    match slotChunks s o c true with
    | k :: l =>
      let (r, s) := pick s (k :: l)
      takeSlot s (r.getD k)
    | [] => if iusedOf s o < bpmIrsv s o ∧ 0 < chunksFree s then newChunk s o c true else data s
  else if bpmCap s o c ≤ usedOf s o c then (none, s)
  else data s

/-- Give a waiter its buffer. -/
def giveTo (s : State) (w : Waiter) (addr : Nat) : State :=
  match w.purpose with
  | .cmd c =>
    { s with hqe := { s.hqe with ctxs := s.hqe.ctxs.map fun x =>
        if x.id = c then { x with bufs := x.bufs ++ [addr], need := x.need - 1, stage := if x.stage = .waitBuf && x.need ≤ 1 then .dataIn else x.stage } else x } }
  | .fw k =>
    let s := wr s 0xC (0x4004 + 32 * k) (w32 (addr % 2 ^ 32 / 512 * 512 + 1))
    wr s 0xC (0x4008 + 32 * k) (w32 (addr / 2 ^ 32 % 65536))
  | .work n => { s with bpm := { s.bpm with given := Tbl.put s.bpm.given n addr } }
  | .read i => { s with grv := { s.grv with reads := s.grv.reads.map fun r => if r.id = i then { r with buf := addr } else r } }

/-- Allocate for a purpose, or wait (R145). -/
def bpmAlloc (s : State) (w : Waiter) : State :=
  match bpmTry s w.owner w.cls w.internal with
  | (some a, s) => giveTo s w a
  | (none, s) => { s with bpm := { s.bpm with waiters := s.bpm.waiters ++ [w] } }

/-- Serve the oldest waiter that can be served, internal waiters first (R145): one pass. -/
def serveOne (s : State) : List Waiter → Option State
  | [] => none
  | w :: t =>
    match bpmTry s w.owner w.cls w.internal with
    | (some a, s') =>
      match takeFirst (fun x => x = w) s'.bpm.waiters with
      | some (_, r) =>
        let s' := giveTo { s' with bpm := { s'.bpm with waiters := r } } w a
        some (match w.purpose with
          | .fw _ => raiseInt s' 0xC 1
          | _ => s')
      | none => none
    | (none, _) => serveOne s t

/-- Serve waiters while one can be served, at most n of them. -/
def serveWaiters (s : State) : Nat → State
  | 0 => s
  | n + 1 =>
    match serveOne s (s.bpm.waiters.filter (·.internal) ++ s.bpm.waiters.filter (!·.internal)) with
    | some s' => serveWaiters s' n
    | none => s

/-- The chunk and slot of a live buffer that an address lies in. -/
def bufAt (s : State) (addr : Nat) : Option (Nat × Chunk × Nat × Nat) :=
  if areaBase s ≤ addr then
    let k := (addr - areaBase s) / 2 ^ 18
    match Tbl.find s.bpm.chunks k with
    | some ch =>
      let i := (addr - areaBase s) % 2 ^ 18 / 2 ^ clsLog s ch.cls
      match Tbl.find ch.live i with
      | some n => some (k, ch, i, n)
      | none => none
    | none => none
  else none

/-- Write a ticket into a slot (R544): it carries the record's GEN, the digest of that slot's manifest, BOOT and the operating seconds. -/
def addTicket (s : State) (slot typ : Nat) (digest : List Byte) : State :=
  { s with graft := { s.graft with
    tickets := Tbl.put s.graft.tickets slot (Tbl.getD s.graft.tickets slot [] ++ [{ typ := typ, gen := s.graft.srec.gen, digest := digest, boot := s.graft.srec.boot, opsec := s.dev.opsec, rom := s.dev.dormant }]) } }

/-- Enter Fault (R575): the cause's region stands until device reset, every PF logs Uncorrectable Internal Error (R80). A running trial gets its FAULT ticket (R544). What
Fault stops is read from `dev.fault`. -/
def enterFault (s : State) (rgn : Nat) : State :=
  if s.dev.fault then s
  else
    let s := { s with dev := { s.dev with fault := true, faultRgn := rgn } }
    let s := if s.graft.trial then addTicket s s.graft.running 3 s.graft.srec.digest else s
    { s with ports := s.ports.map fun p => (p.1, { p.2 with
        fns := Tbl.put p.2.fns 0 (aerLog (Tbl.getD p.2.fns 0 {}).aerMask (Tbl.getD p.2.fns 0 {}).aerSev (Tbl.getD p.2.fns 0 {}) 22 0 false)
        ras := if p.2.cxl then p.2.ras ||| 2 ^ 14 else p.2.ras }) }

/-- The results of a share or release (R148, R149). -/
inductive RefRes where
  | ok (count : Nat)
  | saturated
  | bad (count : Nat)
  deriving DecidableEq, Repr

/-- A refused reference (R149): BAD_REF is recorded and the device enters Fault. -/
def badReference (s : State) : State := enterFault (blockErr s 0xC 16 0) 0xC

/-- Share a buffer (R148, R149). -/
def bpmShare (s : State) (addr tenant : Nat) : RefRes × State :=
  match bufAt s addr with
  | none => (.bad 0, badReference s)
  | some (k, ch, i, n) =>
    if ch.owner ≠ ownerOf s tenant then (.bad n, badReference s)
    else if 255 ≤ n then (.saturated, s)
    else (.ok (n + 1), { s with bpm := { s.bpm with
      chunks := Tbl.put s.bpm.chunks k { ch with live := Tbl.put ch.live i (n + 1) } } })

/-- Take one reference from a live buffer (R147, R148): at count 0 the slot is freed, an emptied chunk returns to the free pool, and
waiters are served. -/
def dropRef (s : State) (k : Nat) (ch : Chunk) (i n : Nat) : State :=
  if 1 < n then { s with bpm := { s.bpm with chunks := Tbl.put s.bpm.chunks k { ch with live := Tbl.put ch.live i (n - 1) } } }
  else
    let live := Tbl.del ch.live i
    let chunks := if live = [] then Tbl.del s.bpm.chunks k else Tbl.put s.bpm.chunks k { ch with live := live }
    serveWaiters { s with bpm := { s.bpm with chunks := chunks } } s.bpm.waiters.length

/-- Release a buffer as a tenant (R148, R149). -/
def bpmRelease (s : State) (addr tenant : Nat) : RefRes × State :=
  match bufAt s addr with
  | none => (.bad 0, badReference s)
  | some (k, ch, i, n) => if ch.owner ≠ ownerOf s tenant then (.bad n, badReference s) else (.ok (n - 1), dropRef s k ch i n)

/-- An engine of the part gives back a buffer that it holds: the release carries the buffer's own owner. -/
def bpmFree (s : State) (addr : Nat) : State :=
  match bufAt s addr with
  | none => badReference s
  | some (k, ch, i, n) => dropRef s k ch i n

/-- The result of a share or release as BPM_FW_REF_STS shows it (R149, R152): a refusal leaves the count as it is. -/
def RefRes.word : RefRes → Nat
  | .ok n => n
  | .saturated => 255 + 256
  | .bad n => n + 512

/-- The class of a data request: the smallest enabled class among 0 to 4 that fits (R144). -/
def classFor (s : State) (size : Nat) : Option Nat :=
  (List.range 5).find? fun c => clsEn s c && size ≤ 2 ^ clsLog s c

/-- BUFFER_ALLOC (R145). -/
def bufferAlloc (s : State) (owner size : Nat) (map internal : Bool) (work : Nat) : State :=
  match if map then some 5 else classFor s size with
  | some c => bpmAlloc s ⟨owner, c, internal, .work work⟩
  | none => s

/-- The effect of a write of BPM_FW_ALLOC (R152): VALID clears, and the allocation is made or waits. A write while the
core's allocation waits records FW_BUSY (R151). Class 5 is the map walker's (R144), and classes 6 and 7 have no chunk: a write that names one allocates
nothing (DESIGN CHOICE, entry 116). -/
def fwAllocWrite (s : State) (core : Nat) (v : Word) : State :=
  if s.bpm.waiters.any fun w => w.purpose = .fw core then blockErr s 0xC 19 0
  else
    let w : Waiter := ⟨Word.fld v 13 8, Word.fld v 2 0, Word.bit v 16, .fw core⟩
    let s := wr s 0xC (0x4004 + 32 * core) 0
    let s := if 5 ≤ w.cls then s else bpmAlloc s w
    if s.bpm.waiters.any fun w => w.purpose = .fw core then wr s 0xC (0x4004 + 32 * core) 2 else s

/-- The effect of a write of BPM_FW_REF_HI (R152): the share or release that REF_LO and REF_HI name, for tenant 0, whose
requests Crown cores carry (R18). -/
def fwRefWrite (s : State) (core : Nat) (lo hi : Word) : State :=
  let addr := Word.fld lo 31 9 * 512 + Word.fld hi 15 0 * 2 ^ 32
  let r := if Word.bit lo 0 then bpmRelease s addr 0 else bpmShare s addr 0
  wr r.2 0xC (0x4014 + 32 * core) (w32 r.1.word)

/-- The class table after a write of one entry. -/
def classWord (s : State) (c : Nat) (v : Word) : Word :=
  let old := rd s 0xC (0x120 + 4 * c)
  let log := if 9 ≤ Word.fld v 4 0 ∧ Word.fld v 4 0 ≤ 18 then Word.fld v 4 0 else Word.fld old 4 0
  w32 (log + (v &&& 0x300).toNat)

/-- A changed limit or class: EXHAUST where it takes the last unreserved chunk (R151), and the waiters that it lets through (R145). -/
def limitsChanged (before after : State) : State :=
  serveWaiters (noteExhaust before after) after.bpm.waiters.length

/-- A write of BPM_CLASS (R144, R151): stored only for classes 0 to 5, with classes 0 to 4 enabled in strictly ascending size,
MAP not set outside class 5, no held chunk of a changed class and the sum rule kept; else CLASS_CFG. -/
def classWrite (s : State) (c : Nat) (v : Word) : State :=
  if 6 ≤ c then s
  else
    let w := classWord s c v
    let t := wr s 0xC (0x120 + 4 * c) w
    let shape := (List.range 5).all fun i => clsEn t i && (i = 4 || clsLog t i < clsLog t (i + 1))
    let ok := shape && (!Word.bit w 8 || c = 5)
      && (w = rd s 0xC (0x120 + 4 * c) || (!(s.bpm.chunks.any fun p => p.2.cls = c) && rsvOk t))
    if ok then limitsChanged s t else blockErr s 0xC 18 0

/-- A write of an area register (R144, R151): only while every chunk is free; a write that leaves the area invalid while ENABLE is
1 records CLASS_CFG. One that leaves a valid area too small for the reservations that held before it is not stored (DEDUCED, entry 117). -/
def areaWrite (s : State) (word : Nat) (v : Word) : State :=
  if s.bpm.chunks ≠ [] then blockErr s 0xC 18 0
  else
    let t := wr s 0xC (0x100 + 4 * word) (v &&& (if word % 2 = 0 then 0xFFFC0000 else 0xFFFF))
    if areaValid t && rsvOk s && !rsvOk t then blockErr s 0xC 17 0
    else
      let t := limitsChanged s t
      if isEnabled s 0xC && !areaValid t then blockErr t 0xC 18 0 else t

/-- A write of BPM_MIN, BPM_CAP or BPM_OWN_IRSV (R144, R146): stored only if the sum rule holds; else RSV_RANGE. Offsets of
classes 6 and 7 are not stored. A raised CAP can serve waiters. -/
def limitWrite (s : State) (off : Nat) (v : Word) : State :=
  if 0x1000 ≤ off ∧ off < 0x3000 then
    if 6 ≤ off % 128 / 16 ∨ 8 ≤ off % 16 then s
    else
      let t := wr s 0xC off (v &&& 0xFFFFFFF)
      if off % 16 = 0 ∧ !rsvOk t then blockErr s 0xC 17 0 else limitsChanged s t
  else if 0x3000 ≤ off ∧ off < 0x3400 ∧ off % 16 = 0 then
    let t := wr s 0xC off (v &&& 0x3FFFFF)
    if rsvOk t then limitsChanged s t else blockErr s 0xC 17 0
  else s

end Sys2Proof.Machine
end

