-- ==== Sys2Proof/Machine/HqeOps.lean ====
section
/-! DEFINITION. Shared operations on command contexts (R98), statuses and asynchronous events. -/

namespace Sys2Proof.Machine

/-- Statuses that several commands complete with. -/
def stOk : Status := ⟨0, 0⟩
def stInvalidOpcode : Status := ⟨0, 0x01⟩
def stInvalidField : Status := ⟨0, 0x02⟩
def stCidConflict : Status := ⟨0, 0x03⟩
def stTransferErr : Status := ⟨0, 0x04⟩
def stInternal : Status := ⟨0, 0x06⟩
def stAborted : Status := ⟨0, 0x07⟩
def stInvalidNs : Status := ⟨0, 0x0B⟩
def stSequence : Status := ⟨0, 0x0C⟩
def stNsWriteProt : Status := ⟨0, 0x20⟩
def stLbaRange : Status := ⟨0, 0x80⟩
def stNsNotReady : Status := ⟨0, 0x82⟩
def stResvConflict : Status := ⟨0, 0x83⟩
def stUnrecRead : Status := ⟨2, 0x81⟩
def stCompareFail : Status := ⟨2, 0x85⟩
def stAccessDenied : Status := ⟨2, 0x86⟩
def stQueueFrozen : Status := ⟨7, 0xC0⟩
def stMalformedEntry : Status := ⟨7, 0xC1⟩

/-- The context of a command. -/
def ctxOf (s : State) (c : CmdId) : Option Ctx := s.hqe.ctxs.find? fun x => x.id = c

/-- Change the context of a command. -/
def ctxUpd (s : State) (c : CmdId) (f : Ctx → Ctx) : State :=
  { s with hqe := { s.hqe with ctxs := s.hqe.ctxs.map fun x => if x.id = c then f x else x } }

/-- The command has its status and waits to be posted. -/
def ctxDone (x : Ctx) : Bool := x.stage = .done

/-- Give a command its status (R98): its completion entry is posted by CQ_POST. A command that has its status keeps it. -/
def complete (s : State) (c : CmdId) (st : Status) (dw0 : Nat := 0) (dw1 : Nat := 0) : State :=
  ctxUpd s c fun x => if x.stage = .done then x else { x with stage := .done, status := some st, dw0 := dw0, dw1 := dw1 }

/-- Give a command its status with data for the host (a log page, an Identify structure, a read's data). -/
def completeData (s : State) (c : CmdId) (d : List Byte) : State :=
  complete (ctxUpd s c fun x => { x with data := d, moved := true }) c stOk

/-- Complete the command with success if a condition holds, else with a status. -/
def completeIf (s : State) (c : CmdId) (ok : Bool) (st : Status) (t : State) : State :=
  if ok then complete t c stOk else complete s c st

/-- Run a command that HQE has dispatched (R98, R107): an admin or an I/O command with this opcode. There is no event for one that it has not. -/
def onCmd (s : State) (c : CmdId) (admin : Bool) (opc : Nat) (f : Ctx → State) : State :=
  match ctxOf s c with
  | some x => if x.stage = .ready && x.admin = admin && x.sqe.opc = opc then f x else s
  | none => s

/-! ### Ports and functions -/

def portOf (s : State) (p : Nat) : Port := Tbl.getD s.ports p {}
def setPort (s : State) (p : Nat) (x : Port) : State := { s with ports := Tbl.put s.ports p x }
def portRgn (p : Nat) : Nat := 0x10 + p
def fnOf (s : State) (mid : Nat) : FnSt := Tbl.getD (portOf s (mid / 64)).fns (mid % 64) {}
def setFn (s : State) (mid : Nat) (f : FnSt) : State :=
  setPort s (mid / 64) { portOf s (mid / 64) with fns := Tbl.put (portOf s (mid / 64)).fns (mid % 64) f }

/-- Reset values of the writable bits of a configuration dword (log entry 105). -/
def cfgReset (off : Nat) : Word := if off = 0x78 then 0x0810 else if off = 0xA0 then 6 else if off = 0x170 then 1 else 0

/-- The writable bits of a configuration dword that has no field of its own. -/
def cfgSt (f : FnSt) (off : Nat) : Word := Tbl.getD f.cfg off (cfgReset off)

/-- RO and IDO of a function's requests for data and tables, and of its data writes (R69): the enables of its Device Control registers. -/
def tlpAttr (s : State) (mid : Nat) : Bool × Bool := (Word.bit (cfgSt (fnOf s mid) 0x78) 4, Word.bit (cfgSt (fnOf s mid) 0x98) 8)

/-! ### Engines, namespaces and controllers -/

/-- An engine (R373). -/
def engOf (s : State) (e : Nat) : Eng := Tbl.getD s.grv.eng e {}
def setEng (s : State) (e : Nat) (x : Eng) : State := { s with grv := { s.grv with eng := Tbl.put s.grv.eng e x } }

/-- The bytes of an LBA (R154). -/
def lbaBytes (n : Ns) : Nat := if n.lbaf = 0 then 4096 else 512

/-- The controller of a MID. -/
def ctrlOf (s : State) (mid : Nat) : Ctrl := Tbl.getD s.hqe.ctrls mid {}

/-- Change a controller. -/
def setCtrl (s : State) (mid : Nat) (c : Ctrl) : State :=
  { s with hqe := { s.hqe with ctrls := Tbl.put s.hqe.ctrls mid c } }

/-- Raise an asynchronous event on one controller: it completes the oldest outstanding request, if there is one (R573). The
completion's dword 0 holds type, information and log page. -/
def raiseAer (s : State) (mid typ info page : Nat) : State :=
  match (ctrlOf s mid).aers with
  | [] => s
  | cid :: t =>
    let s := setCtrl s mid { ctrlOf s mid with aers := t }
    complete s ⟨mid, 0, cid⟩ stOk (typ + info * 256 + page * 65536)

/-- Raise an asynchronous event on every controller. -/
def raiseAerAll (s : State) (typ info page : Nat) : State :=
  s.hqe.ctrls.foldl (fun s p => raiseAer s p.1 typ info page) s

/-- A namespace, while it is in the namespace table. -/
def nsOf (s : State) (nsid : Nat) : Option Ns := Tbl.find s.ten.nss nsid

/-- Change a namespace. -/
def setNs (s : State) (nsid : Nat) (n : Ns) : State := { s with ten := { s.ten with nss := Tbl.put s.ten.nss nsid n } }

/-- The tenant of a function MID (R130): PF0 of the management port is bound to tenant 0. -/
def fnTenant (s : State) (mid : Nat) : Nat := rdF s 0x01 (0x2000 + 4 * mid) 8 0

/-- A 64-bit number from two command dwords. -/
def cdw64 (lo hi : Word) : Nat := lo.toNat + hi.toNat * 2 ^ 32

/-! ### Reservations -/

/-- A host is registered at a namespace. -/
def resvRegistered (n : Ns) (host : Nat) : Bool := n.regs.any (·.hostId = host)

/-- A host holds the reservation: the holder, or every registrant for the all-registrants types. -/
def resvHolds (n : Ns) (host : Nat) : Bool := if 5 ≤ n.rtype then resvRegistered n host else n.holder = some host

/-- An access conflicts with the reservation (R136): types 1 and 2 admit the holder alone, 3 to 6 every registrant; odd types admit reads of all. -/
def resvConflict (n : Ns) (host : Nat) (write : Bool) : Bool :=
  n.rtype ≠ 0 && (write || n.rtype % 2 = 0) && !resvHolds n host && !(3 ≤ n.rtype && resvRegistered n host)

end Sys2Proof.Machine
end

