-- ==== Sys2Proof/Machine/Ledger.lean ====
section
/-! DEFINITION. The hold-up ledger (R450 to R454), and what a change of its validity does: VWC (R111) and the state of the window
(R320). -/

namespace Sys2Proof.Machine

/-- PWR_BANK_CFG and PWR_FLUSH_COST fields (R476). -/
def vsetMv (s : State) : Nat := rdF s 0x02 0x118 15 0
def vstopMv (s : State) : Nat := rdF s 0x02 0x118 31 16
def flushFixed (s : State) : Nat := rdF s 0x02 0x138 15 0
def flushPerGib (s : State) : Nat := rdF s 0x02 0x138 31 16

/-- Usable energy in mJ (R450): exact in the register units, rounded down. -/
def eUse (s : State) : Nat :=
  let v2 := vstopMv s * vstopMv s
  let ve := v2 + 100 * s.pwr.esr * rdF s 0x02 0x13C 9 0
  45 * s.pwr.c * (vsetMv s * vsetMv s * v2 - ve * ve) / (v2 * 10 ^ 11)

/-- The grant in MiB (R452). -/
def grantMib (s : State) : Nat :=
  min (rdF s 0x02 0x148 19 0) ((10 * eUse s - 11 * flushFixed s) * 1024 / (11 * flushPerGib s))

/-- The write-buffer share and the window share in MiB (R452). -/
def wbShare (s : State) : Nat := min (grantMib s) (max 2048 (rdF s 0x02 0x14C 19 0))
def winShare (s : State) : Nat := grantMib s - wbShare s

/-- An OPEN pending write that is not closed on NAND (R177, R453). -/
def openWrite (p : Pwt) : Bool := !p.held && !p.dead && !p.closed

/-- Bytes of a parity buffer: the slots of a program unit. -/
def parityBytes (s : State) : Nat := rdF s 0x0F 0x104 2 0 * rdF s 0x0F 0x104 6 3 * 4 * 4096

/-- PWR_WB_USED in bytes (R453): OPEN entries, with the parity buffers of the rows that hold them. -/
def wbUsed (s : State) : Nat :=
  4096 * countOf openWrite s.ftl.pwt
    + parityBytes s * sumOf (fun p => countOf (fun w => w.2.items.any fun it => match it.src with
        | .host g q => s.ftl.pwt.any fun e => openWrite e && e.gmu = g && e.wseq = q
        | _ => false) p.2.open_) s.cpc.rus

/-- The dirty count (R310): granules in Dirty or Trickling. -/
def dirtyCount (s : State) : Nat := countOf (fun g => g.2.st = .dirty || g.2.st = .trickling) s.win.grans

/-- The committed energy in mJ (R453), rounded up. -/
def commitMj (s : State) : Nat :=
  flushFixed s + ceilDiv (flushPerGib s * (wbUsed s + 65536 * dirtyCount s)) (2 ^ 30)

/-- PWR_MEAS_AGE (R476). -/
def measAge (s : State) : Nat := match s.pwr.measured with
  | some t => min (s.clock - t) 0xFFFFFE
  | none => 0xFFFFFF

/-- The flush reserve is not ready (R214): FLUSH RUs wait for their adoption. -/
def reserveBusy (s : State) : Bool := s.cpc.rus.any fun p => p.2.ruh = 12 && (p.2.valid ≠ [] || p.2.st = .victim)

/-- PWR_STS.CAUSE (R454): the first cause that holds. -/
def ledgerCause (s : State) : Nat :=
  if s.pwr.cstate ≠ .protected_ then 1
  else if !s.pwr.measOk || s.pwr.measured.isNone || (rdF s 0x02 0x124 5 0 + 2) * 3600 < measAge s then 2
  else if 3 ≤ s.pwr.measFails then 3
  else if s.pwr.c < rdF s 0x02 0x11C 9 0 * 1000 then 4
  else if rdF s 0x02 0x11C 25 16 * 10 < s.pwr.esr then 5
  else if eUse s < commitMj s then 6
  else if grantMib s < 2048 + rdF s 0x02 0x150 19 0 then 7
  else if reserveBusy s then 8
  else if s.pwr.chgFault then 9
  else 0

/-- The ledger is valid, as last evaluated. -/
def ledgerValid (s : State) : Bool := s.pwr.cause = 0

/-- Post a CXL event record to every port's device (R320, R323). The log it enters is not stated: a free choice among the four. A full
log of 64 records takes none. -/
def cxlEvent (s : State) (d : List Byte) : State :=
  let (k, s) := takeFree s
  (List.range 8).foldl (fun s p =>
    let v := Tbl.getD s.win.devs p {}
    let l := Tbl.getD v.logs (k % 4) []
    if 64 ≤ l.length then s
    else { s with win := { s.win with devs := Tbl.put s.win.devs p { v with
      logs := Tbl.put v.logs (k % 4) (l ++ [(v.nextHandle, d)]), nextHandle := v.nextHandle + 1 } } }) s

/-- The window moves between Armed and Not armed (R320). -/
def winArm (s : State) (valid : Bool) : State :=
  let n := if valid then 1 else 2
  if s.win.state = 0 || s.win.state = n then s
  else cxlEvent (raiseInt { s with win := { s.win with state := n } } 0x18 2) [BitVec.ofNat 8 n]

/-- Raise a SMART / Health event on the controllers that enable it for a bit of Critical Warning (R111, R617). -/
def raiseSmart (s : State) (bit info : Nat) : State :=
  s.hqe.ctrls.foldl (fun s p => if Word.bit p.2.aec bit then raiseAer s p.1 1 info 2 else s) s

/-- VWC follows the ledger (R108, R111). -/
def vwcSettle (s : State) : State :=
  let v := s.pwr.cause ≠ 0 || s.pwr.wbShare < 2048
  if v = s.hqe.vwc then s
  else
    let s := raiseInt { s with hqe := { s.hqe with vwc := v } } 0x0D 4
    if v then raiseSmart s 4 0 else s

/-- Evaluate the ledger (R452, R454): a change of validity, cause or share is announced and takes effect. -/
def ledgerSettle (s : State) : State :=
  let c := ledgerCause s
  let wb := wbShare s
  let wi := winShare s
  if c = s.pwr.cause && wb = s.pwr.wbShare && wi = s.pwr.winShare then s
  else
    let was := s.pwr.cause
    let s := raiseInt { s with pwr := { s.pwr with cause := c, wbShare := wb, winShare := wi } } 0x02 2
    let s := if c ≠ 0 && c ≠ was then emit s 0x1002 sevError 0x02 none [BitVec.ofNat 8 c] else s
    winArm (vwcSettle s) (c = 0)

end Sys2Proof.Machine
end

