-- ==== Sys2Proof/Machine/Flags.lean ====
section
/-! DEFINITION. The flags the part computes from its condition: the device state and its causes (R571 to R573), the causes of
Degraded (R232, R572), and what a change of the device state does. -/

namespace Sys2Proof.Machine

/-- Members of a die set that are neither absent nor retired (R200). -/
def DieSet.present (d : DieSet) : Nat := countOf (fun m => !m.2.1 && !m.2.2) d.members

/-- CPC_CFG.WIDTH (R238). -/
def cpcWidth (s : State) : Nat := rdF s 0x0F 0x100 6 0

/-- Media management keeps the device in Degraded (R232). -/
def cpcDegraded (s : State) : Bool :=
  !s.cpc.retiredDies.isEmpty || s.cpc.dsets.any (fun d => d.2.present < cpcWidth s) || !s.cpc.rebuild.isEmpty || s.cpc.lost

/-- DMC_STS.MARKED: a chip mark is set (R358, R372). -/
def dmcMarked (s : State) : Bool := (List.range 16).any fun k => Word.bit (rd s 0x1B (0x1400 + 4 * k)) 4

/-- A cause of Degraded holds (R572). -/
def degraded (s : State) : Bool :=
  cpcDegraded s || rdF s 0x1B 0x108 15 8 != 0 || dmcMarked s || !s.dev.retired.isEmpty || s.ftl.rebuildAll

/-- DEV_STATE (R571): the highest value whose cause holds. -/
def devState (s : State) : Nat :=
  if s.dev.dormant then 4 else if s.dev.fault then 3 else if s.cpc.readOnly ≠ 0 then 2 else if degraded s then 1 else 0

/-- A change of the device state is recorded and signalled (R573). -/
def devSettle (s : State) : State :=
  let n := devState s
  if n = s.dev.shown then s
  else
    let s' := raiseInt { s with dev := { s.dev with shown := n } } 0x00 1
    let s' := emit s' 0xC002 (if n = 3 then sevCritical else sevWarning) 0x00 none
      (leBytes 1 s.dev.shown ++ leBytes 1 n ++ leBytes 1 s.dev.faultRgn ++ leBytes 1 s.dev.dormantWhy ++ List.replicate 20 0)
    raiseAerAll s' 7 0xC0 0xC0

/-- What follows from a change of condition: the ledger, then the device state. -/
def settle (s : State) : State := devSettle (ledgerSettle s)

/-- The outcome of a command: its effect, and what follows from it. -/
def fin (s : State) : Out := .next (settle s)

end Sys2Proof.Machine
end

