-- ==== Sys2Proof/Machine/Bus.lean ====
section
/-! DEFINITION. The part's own Trunk requests to memory (R15, R19, R27, R356, R361), in pieces of at most one line, and the
work rings (R193, R195, R199, R240, R274, R427). -/

namespace Sys2Proof.Machine

/-- Whether a piece of a request is served: decode, Bark and gating (R15, R27, R33, R350). -/
def busAdmit (s : State) (a : Acc) : TCode × State :=
  match placeOf s a.addr with
  | .nowhere => (.decode, s)
  | .reg _ _ => (.decode, s)
  | p =>
    match tableOf p with
    | none => (.decode, s)
    | some rgn =>
      let (idx, pass) := barkCheck s rgn a
      if !pass then (.denied, recordDenied s rgn idx a)
      else if refusesData s rgn || (p = .dram && !dramUp s) then (.domainOff, s)
      else (.ok, s)

/-- End the fill of the granule of a line, if one runs or the granule is not valid and will be written (R361). -/
def fillNow (s : State) (g : Nat) (forWrite : Bool) : State :=
  if (Tbl.find s.dmc.fills g).isSome then granuleFillDone s g
  else if forWrite && !granuleValid s g then
    granuleFillDone { s with dmc := { s.dmc with fills := Tbl.put s.dmc.fills g [] } } g
  else s

/-- The Bark check of an access that an engine of the part makes to DRAM for data that the model holds by its meaning: a refusal is recorded (R15, R142). -/
def dramMay (s : State) (who : Who) (a n : Nat) (kind : AccKind) : Bool × State :=
  let x : Acc := ⟨who, a, n, kind, 0⟩
  let (idx, pass) := barkCheck s 0x1B x
  if pass then (true, s) else (false, recordDenied s 0x1B idx x)

/-- The same for the first and the last line of several runs of bytes. -/
def dramMayAll (s : State) (who : Who) (kind : AccKind) : List (Nat × Nat) → Bool × State
  | [] => (true, s)
  | (a, n) :: t =>
    match dramMay s who a (min n 64) kind with
    | (false, s) => (false, s)
    | (true, s) => match dramMay s who (a + n - min n 64) (min n 64) kind with
      | (false, s) => (false, s)
      | (true, s) => dramMayAll s who kind t

/-- Read one admitted piece. -/
def takePiece (s : State) (who : Who) (a n : Nat) : TCode × List Byte × State :=
  if placeOf s a = .dram then
    let s := fillNow s (granuleOf (lineOf a)) false
    let (oc, s) := readLine s (lineOf a) [] who
    if oc = 2 ∨ oc = 3 then (.poison, [], s) else (.ok, dramBytes s a n, s)
  else (.ok, memReadN s a n, s)

/-- Write one admitted piece. The Taproot store and the boot ROM take no write. -/
def putPiece (s : State) (who : Who) (a : Nat) (d : List Byte) : State :=
  match placeOf s a with
  | .dram =>
    let s := fillNow s (granuleOf (lineOf a)) true
    applyReq s ⟨⟨who, a, d.length, .write, leNat d⟩, false⟩ []
  | .sram | .grove _ => memWriteN s a d
  | _ => s

/-- Read one piece. -/
def readPiece (s : State) (who : Who) (a n : Nat) : TCode × List Byte × State :=
  match busAdmit s ⟨who, a, n, .read, 0⟩ with
  | (.ok, s) => takePiece s who a n
  | (c, s) => (c, [], s)

/-- Write one piece. -/
def writePiece (s : State) (who : Who) (a : Nat) (d : List Byte) : TCode × State :=
  match busAdmit s ⟨who, a, d.length, .write, leNat d⟩ with
  | (.ok, s) => (.ok, putPiece s who a d)
  | (c, s) => (c, s)

/-- Read n bytes in pieces that stay within a line; the first response that is not OK ends the read. -/
def busReadAux (who : Who) (s : State) (a n : Nat) (acc : List Byte) : Nat → TCode × List Byte × State
  | 0 => (.ok, acc, s)
  | fuel + 1 =>
    if n = 0 then (.ok, acc, s)
    else
      let k := min n (64 - a % 64)
      match readPiece s who a k with
      | (.ok, d, s) => busReadAux who s (a + k) (n - k) (acc ++ d) fuel
      | (c, _, s) => (c, [], s)

/-- Read n bytes as a master. -/
def busRead (s : State) (who : Who) (a n : Nat) : TCode × List Byte × State := busReadAux who s a n [] (n / 64 + 2)

/-- Write bytes in pieces that stay within a line. -/
def busWriteAux (who : Who) (s : State) (a : Nat) (d : List Byte) : Nat → TCode × State
  | 0 => (.ok, s)
  | fuel + 1 =>
    if d = [] then (.ok, s)
    else
      let k := min d.length (64 - a % 64)
      match writePiece s who a (d.take k) with
      | (.ok, s) => busWriteAux who s (a + k) (d.drop k) fuel
      | (c, s) => (c, s)

/-- Write bytes as a master. -/
def busWrite (s : State) (who : Who) (a : Nat) (d : List Byte) : TCode × State := busWriteAux who s a d (d.length / 64 + 2)

/-- An address range lies in installed DRAM. -/
def inDram (s : State) (a n : Nat) : Bool := dramBase ≤ a && a + n ≤ dramBase + dramSize s

/-- An address range lies in Crown SRAM. -/
def inSram (a n : Nat) : Bool := 0x50000000 ≤ a && a + n ≤ 0x50800000

/-! ### Work rings -/

/-- Entries of a ring: the field of WR_SIZE (R199). -/
def ringSize (s : State) (rgn : Nat) : Nat := 2 ^ rdF s rgn 0x1008 3 0

/-- A malformed entry or tail (R196): the engine stops, the fault register and ERR_STS.RING are set, and the device enters Fault. -/
def ringFault (s : State) (rgn idx reason : Nat) : State :=
  let s := wr s rgn 0x1024 (w32 (idx % 4096 + reason * 4096 + 2 ^ 31))
  enterFault (blockErr s rgn 16 0) rgn

/-- Fetch entries from WR_HEAD to WR_TAIL: each is read, checked (0: well formed, else the reason of R199) and kept, or stops
the ring. A read that Bark refuses, or that finds poison, puts the device in Fault (R142). -/
def ringFetch (who : Who) (rgn esize : Nat) (bad : State → List Byte → Nat) (s : State) (ring : Ring) :
    Nat → State × Ring
  | 0 => (s, ring)
  | fuel + 1 =>
    let head := rdF s rgn 0x1010 11 0
    if ring.stopped || s.dev.fault || head = rdF s rgn 0x100C 11 0 then (s, ring)
    else
      match busRead s who (baseAt s rgn 0x1000 + head * esize) esize with
      | (.ok, d, s) =>
        let why := bad s d
        if why ≠ 0 then (ringFault s rgn head why, { ring with stopped := true })
        else
          let s := wr s rgn 0x1010 (w32 ((head + 1) % ringSize s rgn))
          ringFetch who rgn esize bad s { ring with fetched := ring.fetched ++ [(head, d)] } fuel
      | (_, _, s) => (enterFault s rgn, { ring with stopped := true })

/-- Take the oldest fetched entry, if it has a given first byte (R193): entries are processed in ring order, and none after a malformed one (R196). -/
def ringTake (ring : Ring) (opc : Nat) : Option (List Byte × Ring) :=
  match ring.fetched with
  | (_, d) :: t => if !ring.stopped && (d.headD 0).toNat = opc then some (d, { ring with fetched := t }) else none
  | [] => none

/-- Post the oldest completion if the completion ring has a free slot (R193, R195). -/
def ringPost (who : Who) (rgn csize wcBit : Nat) (s : State) (ring : Ring) : State × Ring :=
  match ring.done with
  | [] => (s, ring)
  | d :: t =>
    let tail := rdF s rgn 0x101C 11 0
    let n := ringSize s rgn
    if (tail + 1) % n = rdF s rgn 0x1020 11 0 then (s, ring)
    else
      match busWrite s who (baseAt s rgn 0x1014 + tail * csize) d with
      | (.ok, s) =>
        (raiseInt (wr s rgn 0x101C (w32 ((tail + 1) % n))) rgn wcBit, { ring with done := t })
      | (_, s) => (enterFault s rgn, { ring with stopped := true })

/-- Fields of an entry of R194. -/
def entTag (d : List Byte) : Nat := leNat ((d.drop 2).take 2)
def entArg0 (d : List Byte) : Nat := leNat ((d.drop 4).take 4)
def entArg1 (d : List Byte) : Nat := leNat ((d.drop 8).take 8)
def entArg2 (d : List Byte) : Nat := leNat ((d.drop 16).take 8)

/-- A completion of R195. -/
def ringCpl (d : List Byte) (status count jseq : Nat) : List Byte :=
  leBytes 2 (entTag d) ++ leBytes 2 status ++ leBytes 4 count ++ leBytes 8 jseq

/-- A run of bytes is zero. -/
def zeroBytes (d : List Byte) (lo n : Nat) : Bool := ((d.drop lo).take n).all (· == 0)

end Sys2Proof.Machine
end

