-- ==== Sys2Proof/Machine/Crypto.lean ====
section
/-! DEFINITION. The algorithms the cipher and public-key engines are named after: AES-256, XTS (R416), GCM (R424, R425), the
key wrap of RFC 3394 (R426), the two curves of R429 and SHA-384 (R436). The spec names the standards and gives no
formulas: these are the published ones (log entry 12). -/

namespace Sys2Proof.Machine

/-! ### AES-256 -/

/-- Multiplication by x in GF(2^8). -/
def xtime (b : Nat) : Nat := let d := b * 2; if 256 ≤ d then (d ^^^ 0x11B) % 256 else d

/-- The published S-box: byte a is the value for a. -/
def sboxTab : Nat :=
  0x16bb54b00f2d99416842e6bf0d89a18cdf2855cee9871e9b948ed9691198f8e19e1dc186b95735610ef6034866b53e708a8bbd4b1f74dde8c6b4a61c2e2578ba * 2 ^ 1536 ^^^
  0x08ae7a65eaf4566ca94ed58d6d37c8e779e4959162acd3c25c2406490a3a32e0db0b5ede14b8ee4688902a22dc4f816073195d643d7ea7c41744975fec130ccd * 2 ^ 1024 ^^^
  0xd2f3ff1021dab6bcf5389d928f40a351a89f3c507f02f94585334d43fbaaefd0cf584c4a39becb6a5bb1fc20ed00d153842fe329b3d63b52a05a6e1b1a2c8309 * 2 ^ 512 ^^^
  0x75b227ebe28012079a059618c323c7041531d871f1e5a534ccf73f362693fdb7c072a49cafa2d4adf04759fa7dc982ca76abd7fe2b670130c56f6bf27b777c63

/-- The published inverse S-box. -/
def invSboxTab : Nat :=
  0x7d0c2155631469e126d677ba7e042b17619953833cbbebc8b0f52aae4d3be0a0ef9cc9939f7ae52d0d4ab519a97f51605fec8027591012b131c7078833a8dd1f * 2 ^ 1536 ^^^
  0xf45acd78fec0db9a2079d2c64b3e56fc1bbe18aa0e62b76f89c5291d711af1476edf751ce837f9e28535ade72274ac9673e6b4f0cecff297eadc674f4111913a * 2 ^ 1024 ^^^
  0x6b8a130103bdafc1020f3fca8f1e2cd00645b3b80558e4f70ad3bc8c00abd890849d8da75746155edab9edfd5048706c92b6655dcc5ca4d41698688664f6f872 * 2 ^ 512 ^^^
  0x25d18b6d49a25b76b224d92866a12e084ec3fa420b954cee3d23c2a632947b54cbe9dec444438e3487ff2f9b8239e37cfbd7f3819ea340bf38a53630d56a0952

/-- The AES S-box and its inverse, their values for one byte. -/
def sboxOf (a : Nat) : Nat := sboxTab / 2 ^ (8 * a) % 256
def invSboxOf (b : Nat) : Nat := invSboxTab / 2 ^ (8 * b) % 256

/-- Byte-wise exclusive or. -/
def xorBytes (a b : List Nat) : List Nat := List.zipWith (· ^^^ ·) a b

/-- The words of the AES-256 key schedule, newest first, from the words so far. -/
def keyWords (ws : List (List Nat)) (i rcon : Nat) : Nat → List (List Nat)
  | 0 => ws
  | n + 1 =>
    let prev := ws.headD []
    let t :=
      if i % 8 = 0 then xorBytes ((prev.drop 1 ++ prev.take 1).map sboxOf) [rcon, 0, 0, 0]
      else if i % 8 = 4 then prev.map sboxOf
      else prev
    keyWords (xorBytes (ws.getD 7 []) t :: ws) (i + 1) (if i % 8 = 0 then xtime rcon else rcon) n

/-- Split a list into pieces of n elements. -/
def pieces {α : Type} (n : Nat) (l : List α) : Nat → List (List α)
  | 0 => []
  | k + 1 => if l = [] then [] else l.take n :: pieces n (l.drop n) k

/-- The round keys of AES-256: 15 of 16 bytes. -/
def roundKeys (key : List Nat) : List (List Nat) :=
  let ws := (keyWords (pieces 4 key 8).reverse 8 1 52).reverse
  (pieces 4 ws 15).map List.flatten

/-- ShiftRows, and its inverse: where each byte of the state comes from. -/
def shiftRows (st : List Nat) : List Nat := (List.range 16).map fun i => st.getD ((i + 4 * (i % 4)) % 16) 0
def invShiftRows (st : List Nat) : List Nat := (List.range 16).map fun i => st.getD ((i + 12 * (i % 4)) % 16) 0

/-- MixColumns on one column: byte k becomes 2 b(k) + 3 b(k+1) + b(k+2) + b(k+3), written with the sum of the column. -/
def mixCol (a b c d : Nat) : List Nat :=
  let t := a ^^^ b ^^^ c ^^^ d
  [a ^^^ t ^^^ xtime (a ^^^ b), b ^^^ t ^^^ xtime (b ^^^ c), c ^^^ t ^^^ xtime (c ^^^ d), d ^^^ t ^^^ xtime (d ^^^ a)]

/-- Its inverse: 4 (b(k) + b(k+2)) is added to each byte, and the column is then mixed. -/
def unmixCol (a b c d : Nat) : List Nat :=
  let u := xtime (xtime (a ^^^ c))
  let v := xtime (xtime (b ^^^ d))
  mixCol (a ^^^ u) (b ^^^ v) (c ^^^ u) (d ^^^ v)

/-- One of the two on every column of the state. -/
def mixWith (f : Nat → Nat → Nat → Nat → List Nat) : List Nat → List Nat
  | a :: b :: c :: d :: r => f a b c d ++ mixWith f r
  | _ => []

/-- The AES-256 forward cipher on one block. -/
def aesEncBlock (rks : List (List Nat)) (blk : List Nat) : List Nat :=
  let st := xorBytes blk (rks.headD [])
  let st := ((rks.drop 1).take 13).foldl (fun st k => xorBytes (mixWith mixCol (shiftRows (st.map sboxOf))) k) st
  xorBytes (shiftRows (st.map sboxOf)) (rks.getD 14 [])

/-- The AES-256 inverse cipher on one block. -/
def aesDecBlock (rks : List (List Nat)) (blk : List Nat) : List Nat :=
  let st := (invShiftRows (xorBytes blk (rks.getD 14 []))).map invSboxOf
  let st := (((rks.drop 1).take 13).reverse).foldl
    (fun st k => (invShiftRows (mixWith unmixCol (xorBytes st k))).map invSboxOf) st
  xorBytes st (rks.headD [])

/-- Bytes to numbers and back. -/
def natsOf (l : List Byte) : List Nat := l.map BitVec.toNat
def bytesOf (l : List Nat) : List Byte := l.map (BitVec.ofNat 8)

/-- AES-256 of one block under a 32-byte key. -/
def aesEnc (key blk : List Byte) : List Byte := bytesOf (aesEncBlock (roundKeys (natsOf key)) (natsOf blk))
def aesDec (key blk : List Byte) : List Byte := bytesOf (aesDecBlock (roundKeys (natsOf key)) (natsOf blk))

/-! ### XTS -/

/-- Multiply a tweak, a 128-bit little-endian value, by x. -/
def tweakNext (t : Nat) : Nat := (t * 2) % 2 ^ 128 ^^^ (if 2 ^ 127 ≤ t then 0x87 else 0)

/-- The blocks of a data unit, each between two additions of its tweak. -/
def xtsBlocks (f : List Nat → List Nat) (t : Nat) (l : List Nat) : Nat → List Nat
  | 0 => []
  | n + 1 =>
    let tb := natsOf (leBytes 16 t)
    xorBytes (f (xorBytes (l.take 16) tb)) tb ++ xtsBlocks f (tweakNext t) (l.drop 16) n

/-- XTS-AES-256 of one data unit of 4,096 bytes (R416): `key` holds the data key and then the tweak key. -/
def xtsUnit (enc : Bool) (key : List Byte) (tweak : Nat) (d : List Byte) : List Byte :=
  let k1 := roundKeys (natsOf (key.take 32))
  let k2 := roundKeys (natsOf (key.drop 32))
  let t := leNat (bytesOf (aesEncBlock k2 (natsOf (leBytes 16 tweak))))
  bytesOf (xtsBlocks (if enc then aesEncBlock k1 else aesDecBlock k1) t (natsOf d) 256)

/-- The tweak of the next data unit: its low 64 bits rise (R416). -/
def unitNext (t : Nat) : Nat := t / 2 ^ 64 * 2 ^ 64 + (t + 1) % 2 ^ 64

/-- A run of data units with rising tweaks. -/
def xtsUnits (enc : Bool) (key : List Byte) (tweak : Nat) (d : List Byte) : Nat → List Byte
  | 0 => []
  | n + 1 => xtsUnit enc key tweak (d.take 4096) ++ xtsUnits enc key (unitNext tweak) (d.drop 4096) n

/-! ### GCM -/

/-- A big-endian number, and its bytes. -/
def beNat (l : List Byte) : Nat := leNat l.reverse
def beBytes (n v : Nat) : List Byte := (leBytes n v).reverse

/-- The product of GHASH: bit 127 is the coefficient of x^0. -/
def ghMul (x v : Nat) : Nat → Nat
  | 0 => 0
  | n + 1 => (if x.testBit n then v else 0) ^^^ ghMul x (v / 2 ^^^ (if v % 2 = 1 then 0xE1 * 2 ^ 120 else 0)) n

/-- GHASH over 16-byte blocks, the last filled with zeros. -/
def ghash (h y : Nat) (l : List Byte) : Nat → Nat
  | 0 => y
  | n + 1 =>
    if l = [] then y
    else ghash h (ghMul (y ^^^ beNat ((l.take 16) ++ List.replicate (16 - (l.take 16).length) 0)) h 128) (l.drop 16) n

/-- The counter stream of GCM from a counter block. -/
def ctrStream (key iv : List Byte) (c : Nat) (l : List Byte) : Nat → List Byte
  | 0 => []
  | n + 1 =>
    if l = [] then []
    else bytesOf (xorBytes (natsOf (l.take 16)) (natsOf (aesEnc key (iv ++ beBytes 4 c))))
      ++ ctrStream key iv (c + 1) (l.drop 16) n

/-- The GCM tag of a ciphertext with its associated data. -/
def gcmTag (key iv aad ct : List Byte) : List Byte :=
  let h := beNat (aesEnc key (List.replicate 16 0))
  let y := ghash h (ghash h 0 aad (aad.length / 16 + 1)) ct (ct.length / 16 + 1)
  let y := ghMul (y ^^^ (aad.length * 8 * 2 ^ 64 + ct.length * 8)) h 128
  bytesOf (xorBytes (natsOf (beBytes 16 y)) (natsOf (aesEnc key (iv ++ beBytes 4 1))))

/-- GCM encryption: ciphertext, then the tag (R425). -/
def gcmEnc (key iv aad pt : List Byte) : List Byte × List Byte :=
  let ct := ctrStream key iv 2 pt (pt.length / 16 + 1)
  (ct, gcmTag key iv aad ct)

/-- GCM decryption: nothing where the tag does not match (R425). -/
def gcmDec (key iv aad ct tag : List Byte) : Option (List Byte) :=
  if gcmTag key iv aad ct = tag then some (ctrStream key iv 2 ct (ct.length / 16 + 1)) else none

/-! ### RFC 3394 key wrap -/

/-- One step of the wrap on the register A and the list R, and its reverse. -/
def wrapStep (kek : List Byte) (n : Nat) (st : List Byte × List (List Byte)) (t : Nat) : List Byte × List (List Byte) :=
  let i := (t - 1) % n
  let b := aesEnc kek (st.1 ++ st.2.getD i [])
  (beBytes 8 (beNat (b.take 8) ^^^ t), setNth st.2 i (b.drop 8))
def unwrapStep (kek : List Byte) (n : Nat) (st : List Byte × List (List Byte)) (t : Nat) : List Byte × List (List Byte) :=
  let i := (t - 1) % n
  let b := aesDec kek (beBytes 8 (beNat st.1 ^^^ t) ++ st.2.getD i [])
  (b.take 8, setNth st.2 i (b.drop 8))

/-- The default initial value. -/
def wrapIv : List Byte := List.replicate 8 0xA6

/-- Wrap a key: 8 bytes longer. -/
def keyWrap (kek key : List Byte) : List Byte :=
  let n := key.length / 8
  let r := (List.range (6 * n)).foldl (fun st t => wrapStep kek n st (t + 1)) (wrapIv, pieces 8 key n)
  r.1 ++ r.2.flatten

/-- Unwrap a blob; nothing where its integrity check fails. -/
def keyUnwrap (kek blob : List Byte) : Option (List Byte) :=
  let n := blob.length / 8 - 1
  let r := (List.range (6 * n)).reverse.foldl (fun st t => unwrapStep kek n st (t + 1))
    (blob.take 8, pieces 8 (blob.drop 8) n)
  if r.1 = wrapIv then some r.2.flatten else none

/-! ### Elliptic curves -/

/-- Power modulo m, over n bits of the exponent. -/
def powMod (m b e : Nat) : Nat → Nat
  | 0 => 1 % m
  | n + 1 => (let r := powMod m (b * b % m) (e / 2) n; if e % 2 = 1 then r * b % m else r)

/-- Inverse modulo a prime. -/
def invMod (m a : Nat) : Nat := powMod m (a % m) (m - 2) 384

/-- A short Weierstrass curve with a = -3. -/
structure Curve where
  p : Nat
  n : Nat
  b : Nat
  gx : Nat
  gy : Nat
  bits : Nat

def p256 : Curve where
  p := 0xffffffff00000001000000000000000000000000ffffffffffffffffffffffff
  n := 0xffffffff00000000ffffffffffffffffbce6faada7179e84f3b9cac2fc632551
  b := 0x5ac635d8aa3a93e7b3ebbd55769886bc651d06b0cc53b0f63bce3c3e27d2604b
  gx := 0x6b17d1f2e12c4247f8bce6e563a440f277037d812deb33a0f4a13945d898c296
  gy := 0x4fe342e2fe1a7f9b8ee7eb4a7c0f9e162bce33576b315ececbb6406837bf51f5
  bits := 256

def p384 : Curve where
  p := 2 ^ 384 - 2 ^ 128 - 2 ^ 96 + 2 ^ 32 - 1
  n := 0xffffffffffffffffffffffffffffffffffffffffffffffffc7634d81f4372ddf581a0db248b0a77aecec196accc52973
  b := 0xb3312fa7e23ee7e4988e056be3f82d19181d9c6efe8141120314088f5013875ac656398d8a2ed19d2a85c8edd3ec2aef
  gx := 0xaa87ca22be8b05378eb1c71ef320ad746e1d3b628ba79b9859f741e082542a385502f25dbf55296c3a545e3872760ab7
  gy := 0x3617de4a96262c6f5d9e98bf9292dc29f8f41dbd289a147ce9da3113b5f0b8c00a60b1ce1d7e819d7a431d7c90ea0e5f
  bits := 384

/-- A point: none is the identity. -/
abbrev EcPoint := Option (Nat × Nat)

/-- The point lies on the curve. -/
def Curve.on (c : Curve) (x y : Nat) : Bool :=
  y * y % c.p = (x * x % c.p * x + (c.p - 3) * x + c.b) % c.p

/-- Point addition. -/
def Curve.add (c : Curve) : EcPoint → EcPoint → EcPoint
  | none, q => q
  | q, none => q
  | some (x1, y1), some (x2, y2) =>
    let l :=
      if x1 ≠ x2 then some ((y2 + c.p - y1) * invMod c.p (x2 + c.p - x1) % c.p)
      else if y1 = y2 ∧ y1 ≠ 0 then some ((3 * x1 * x1 + c.p - 3) * invMod c.p (2 * y1) % c.p)
      else none
    match l with
    | none => none
    | some l =>
      let x := (l * l + 2 * c.p - x1 - x2) % c.p
      some (x, (l * (x1 + c.p - x) + c.p - y1) % c.p)

/-- Scalar multiplication over n bits of the scalar. -/
def Curve.mul (c : Curve) (k : Nat) (q : EcPoint) : Nat → EcPoint
  | 0 => none
  | n + 1 => c.add (if k % 2 = 1 then q else none) (c.mul (k / 2) (c.add q q) n)

/-- A multiple of the base point. -/
def Curve.base (c : Curve) (k : Nat) : EcPoint := c.mul k (some (c.gx, c.gy)) c.bits

/-! ### SHA-384 -/

/-- The floor of the cube root, by bits from above. -/
def cbrtAux (x r : Nat) : Nat → Nat
  | 0 => r
  | n + 1 => let t := r + 2 ^ n; cbrtAux x (if t * t * t ≤ x then t else r) n

/-- The floor of the square root, by bits from above. -/
def sqrtAux (x r : Nat) : Nat → Nat
  | 0 => r
  | n + 1 => let t := r + 2 ^ n; sqrtAux x (if t * t ≤ x then t else r) n

/-- The primes below n. -/
def primesTo (n : Nat) : List Nat :=
  (List.range n).filter fun p => 2 ≤ p && (List.range p).all fun d => d < 2 || p % d ≠ 0

/-- The round constants: the first 64 bits of the fractional parts of the cube roots of the first 80 primes. -/
def shaK : List Nat := (primesTo 410).map fun p => cbrtAux (p * 2 ^ 192) 0 67 % 2 ^ 64

/-- The first hash value of SHA-384: fractional parts of the square roots of the ninth to sixteenth primes. -/
def shaH : List Nat := ((primesTo 54).drop 8).map fun p => sqrtAux (p * 2 ^ 128) 0 67 % 2 ^ 64

/-- Rotate a 64-bit word right. -/
def rotr64 (x n : Nat) : Nat := x / 2 ^ n + x % 2 ^ n * 2 ^ (64 - n)

/-- The message schedule, newest word first. -/
def shaSched (w : List Nat) : Nat → List Nat
  | 0 => w
  | n + 1 =>
    let s0 (x : Nat) := rotr64 x 1 ^^^ rotr64 x 8 ^^^ x / 2 ^ 7
    let s1 (x : Nat) := rotr64 x 19 ^^^ rotr64 x 61 ^^^ x / 2 ^ 6
    shaSched (((s1 (w.getD 1 0) + w.getD 6 0 + s0 (w.getD 14 0) + w.getD 15 0) % 2 ^ 64) :: w) n

/-- One round. -/
def shaRound (v : List Nat) (kw : Nat) : List Nat :=
  match v with
  | [a, b, c, d, e, f, g, h] =>
    let t1 := h + (rotr64 e 14 ^^^ rotr64 e 18 ^^^ rotr64 e 41) + ((e &&& f) ^^^ ((2 ^ 64 - 1 - e) &&& g)) + kw
    let t2 := (rotr64 a 28 ^^^ rotr64 a 34 ^^^ rotr64 a 39) + ((a &&& b) ^^^ (a &&& c) ^^^ (b &&& c))
    [(t1 + t2) % 2 ^ 64, a, b, c, (d + t1) % 2 ^ 64, e, f, g]
  | v => v

/-- One block of 128 bytes. -/
def shaBlock (h : List Nat) (blk : List Byte) : List Nat :=
  let w := (shaSched ((pieces 8 blk 16).map beNat).reverse 64).reverse
  let v := (List.zipWith (· + ·) shaK w).foldl shaRound h
  List.zipWith (fun x y => (x + y) % 2 ^ 64) h v

/-- SHA-384. -/
def sha384 (m : List Byte) : List Byte :=
  let z := (128 + 112 - (m.length + 1) % 128) % 128
  let m' := m ++ (0x80 : Byte) :: List.replicate z 0 ++ beBytes 16 (m.length * 8)
  ((((pieces 128 m' (m'.length / 128)).foldl shaBlock shaH).take 6).map (beBytes 8)).flatten

end Sys2Proof.Machine
end

