-- ==== Sys2Proof/Machine/SecOps.lean ====
section
/-! DEFINITION. Key slots and the use of keys on the data path (R137, R413 to R423): slot tenants, access, the choice of CUR or
PREV, and the count of units. -/

namespace Sys2Proof.Machine

/-- The tenant of an XTS slot (R132, R414): the tenant whose range holds it, else tenant 0. -/
def xtsTenant (s : State) (slot : Nat) : Nat :=
  match s.ten.keySlots.find? fun p => p.2.getD 0 0 ≤ slot && slot < p.2.getD 0 0 + p.2.getD 1 0 with
  | some p => p.1
  | none => 0

/-- The tenant of a GCM slot. -/
def gcmTenant (s : State) (slot : Nat) : Nat :=
  match s.ten.keySlots.find? fun p => p.2.getD 2 0 ≤ slot && slot < p.2.getD 2 0 + p.2.getD 3 0 with
  | some p => p.1
  | none => 0

/-- An XTS slot; one never loaded is empty. -/
def xtsSlot (s : State) (slot : Nat) : XtsSlot := Tbl.getD s.sec.xts slot {}
def setXts (s : State) (slot : Nat) (x : XtsSlot) : State := { s with sec := { s.sec with xts := Tbl.putC {} s.sec.xts slot x } }

/-- A GCM slot and a KEK slot. -/
def gcmSlot (s : State) (slot : Nat) : GcmSlot := Tbl.getD s.sec.gcm slot {}
def setGcm (s : State) (slot : Nat) (x : GcmSlot) : State := { s with sec := { s.sec with gcm := Tbl.putC {} s.sec.gcm slot x } }
def kekSlot (s : State) (slot : Nat) : KekSlot := Tbl.getD s.sec.kek slot {}
def setKek (s : State) (slot : Nat) (x : KekSlot) : State := { s with sec := { s.sec with kek := Tbl.putC {} s.sec.kek slot x } }

/-- A request's tenant may use a slot (R137). -/
def keyAccess (s : State) (tenant slotTen : Nat) : Bool := tenant = slotTen || ownerOf s tenant = ownerOf s slotTen

/-- The status of a request that names an XTS slot (R415): 0, KEY_ACCESS or KEY_EMPTY. -/
def xtsStatus (s : State) (tenant slot : Nat) : Nat :=
  if !keyAccess s tenant (xtsTenant s slot) then 1 else if (xtsSlot s slot).cur = [] then 2 else 0

/-- The binding of a namespace (R418). -/
def nsKey (s : State) (nsid : Nat) : Option Nat := Tbl.find s.sec.bind (nsid - 1)

/-- What a host command on a namespace sees of its key (R415, R418, R428): none where the command may run. A slot that is not of
the owning tenant gives KEY_ACCESS. -/
def nsKeyStatus (s : State) (tenant nsid : Nat) : Option Status :=
  match nsKey s nsid with
  | none => none
  | some k =>
    let owner := match nsOf s nsid with
      | some n => n.owner
      | none => 0
    if xtsTenant s k ≠ owner then some stAccessDenied
    else match xtsStatus s tenant k with
      | 1 => some stAccessDenied
      | 2 => some stNsNotReady
      | _ => none

/-- The tweak of a namespace MU (R416). -/
def muTweak (nsid mu : Nat) : Nat := mu % 2 ^ 64 + nsid % 2 ^ 32 * 2 ^ 64

/-- The count limit (R419). -/
def xtsLimit : Nat := 2 ^ 36

/-- Account units to a slot (R419): none where the units would take the count past 2^36, with the slot marked. -/
def countUnits (s : State) (slot n : Nat) : Bool × State :=
  let x := xtsSlot s slot
  if xtsLimit < x.cnt + n then
    (false, if x.limit then s else raiseInt (setXts s slot { x with limit := true }) 0x0A 4)
  else
    let warn := x.cnt < 2 ^ 35 && 2 ^ 35 ≤ x.cnt + n
    let s := setXts s slot { x with cnt := x.cnt + n, limit := x.limit || x.cnt + n = xtsLimit }
    let s := if x.cnt + n = xtsLimit && !x.limit then raiseInt s 0x0A 4 else s
    let s := bump s 0x0A 0x110 n
    (true, if warn then emit (raiseInt s 0x0A 3) 0xB001 sevWarning 0x0A (some (xtsTenant s slot)) (leBytes 4 slot) else s)

/-- The tenant epoch (R421, SEC_TEN_EPOCH). -/
def tenEpoch (s : State) (t : Nat) : Nat := Tbl.getD s.sec.epochs t 0

/-- Epoch mode selects CUR for an RU epoch (R421). -/
def epochCur (x : XtsSlot) (epoch : Nat) : Bool := (epoch + 65536 - x.ref % 65536) % 65536 < 2 ^ 15

/-- The key that decrypts a copy: by the RU's epoch, or by the copy's GSEQ (R421). -/
def decKey (x : XtsSlot) (epoch gseq : Nat) : List Byte :=
  if x.gseq then (if x.ref ≤ gseq then x.cur else x.prev)
  else if epochCur x epoch then x.cur else x.prev

/-- Encrypt a namespace MU for its placement (R416, R418): none where the slot is at its limit or not loaded. While the slot is
paused only the flush encrypts, with PREV (R422). -/
def encMu (s : State) (nsid mu : Nat) (data : List Byte) (flush : Bool) : Option (List Byte × State) :=
  match nsKey s nsid with
  | none => some (data, s)
  | some k =>
    let x := xtsSlot s k
    let key := if x.paused && flush then x.prev else x.cur
    if key = [] then none
    else match countUnits s k 1 with
      | (true, s) => some (xtsUnit true key (muTweak nsid mu) data, s)
      | (false, _) => none

/-- Decrypt a namespace MU read from an RU of an epoch, or from a FLUSH RU (R421). -/
def decMu (s : State) (nsid mu : Nat) (epoch : Option Nat) (data : List Byte) : List Byte × State :=
  match nsKey s nsid with
  | none => (data, s)
  | some k =>
    let key := match epoch with
      | some e => decKey (xtsSlot s k) e 0
      | none => (xtsSlot s k).cur
    (xtsUnit false key (muTweak nsid mu) data, bump s 0x0A 0x114 1)

/-- A run of DRBG bytes: each 4 bytes are the next output. -/
def drbgBytes (s : State) : Nat → List Byte × State
  | 0 => ([], s)
  | n + 1 =>
    let w := Config.drbg s.freeCtr
    let r := drbgBytes { s with freeCtr := s.freeCtr + 1 } n
    (leBytes 4 w.toNat ++ r.1, r.2)

/-- A generate request: it is counted towards the next reseed (R434). -/
def drbgGen (s : State) (words : Nat) : List Byte × State :=
  drbgBytes { s with sec := { s.sec with gens := s.sec.gens + 1 } } words

/-- A reseed of the DRBG: the count of generate requests restarts (R434). -/
def reseed (s : State) : State := { s with sec := { s.sec with gens := 0, reseeds := s.sec.reseeds + 1 } }

end Sys2Proof.Machine
end

