-- ==== Sys2Proof/Machine/RuOps.lean ====
section
/-! DEFINITION. Geometry of the flash (R157, R158, R161, R205), reclaim units (R200 to R204), validity bits and spare
blocks. -/

namespace Sys2Proof.Machine

/-! ### Die sets -/

/-- Default die sets of R201: the positions of set k. -/
def defaultSet (w k : Nat) : List Nat :=
  let n := if (k + 1) * w ≤ 512 then w else if 8 ≤ 512 - k * w then 512 - k * w else 0
  (List.range n).map fun m => (k * w + m) % 32 * 16 + (k * w + m) / 32

/-- Rows of an RU: its word lines. -/
def ruRows (s : State) (_r : Ru) : Nat := geomPages s / max 1 (geomPpw s)

/-- The parity member of a row (R206): row mod WIDTH, counted over the members that are not SKIP. -/
def parityMember (r : Ru) (row : Nat) : Nat := (liveMembers r).getD (row % max 1 (liveMembers r).length) 0

/-- The data members of a row in member order (R205). -/
def dataMembers (r : Ru) (row : Nat) : List Nat :=
  (List.range r.members.length).filter fun i =>
    (match r.members[i]? with
      | some m => !m.skip
      | none => false) && i ≠ parityMember r row

/-- Data slots of a row. -/
def rowSlots (s : State) (r : Ru) (row : Nat) : Nat := (dataMembers r row).length * unitSlots s r

/-- Data capacity of an RU in MUs. -/
def ruCap (s : State) (r : Ru) : Nat := ruRows s r * ((ruWidth r - 1) * unitSlots s r)

/-- The PUA of slot w of a member's unit in a row: slot, then plane, then page in the word line (R205). -/
def unitPua (s : State) (r : Ru) (row : Nat) (m : RuMember) (w : Nat) : Nat :=
  puaMk m.die (w / 4 % geomPlanes s) m.block (row * ruPpw s r + w / (4 * geomPlanes s)) (w % 4)

/-- The member and PUA of the k-th data slot of a row. -/
def rowPua (s : State) (r : Ru) (row k : Nat) : Nat × Nat :=
  let u := unitSlots s r
  let i := (dataMembers r row).getD (k / u) 0
  match r.members[i]? with
  | some m => (i, unitPua s r row m (k % u))
  | none => (i, 0)

/-! ### Reclaim units -/

/-- The RU that a PUA lies in: the listed RU that holds the block on that die. -/
def ruOfPua (s : State) (p : Nat) : Option Nat :=
  match s.cpc.rus.find? fun x => x.2.st ≠ .free && x.2.members.any fun m => m.die = puaDie p && m.block = puaBlock p && !m.skip with
  | some x => some x.1
  | none => none

/-- The RU epoch of the RU a PUA lies in (R421); none for a FLUSH RU, which is decrypted with CUR. -/
def epochOf (s : State) (p : Nat) : Option Nat :=
  match ruOfPua s p with
  | some i => if (ruAt s i).ruh = 12 then none else some (ruAt s i).epoch
  | none => some 0

/-- Clear a slot's validity bit (R180, R182, R239). -/
def invalidate (s : State) (p : Nat) : State :=
  match ruOfPua s p with
  | some i => setRu s i { ruAt s i with valid := (ruAt s i).valid.filter (· ≠ p) }
  | none => s

/-- Set a slot's validity bit. -/
def validate (s : State) (p : Nat) : State :=
  match ruOfPua s p with
  | some i => if (ruAt s i).valid.contains p then s else setRu s i { ruAt s i with valid := p :: (ruAt s i).valid }
  | none => s

/-- The slot is valid. -/
def isValid (s : State) (p : Nat) : Bool :=
  match ruOfPua s p with
  | some i => (ruAt s i).valid.contains p
  | none => false

/-- RU indices of a die set. -/
def setRus (d : DieSet) : List Nat := (List.range d.rus).map (d.firstRu + ·)

/-- Every RU index. -/
def allRus (s : State) : List Nat := (s.cpc.dsets.map fun d => setRus d.2).flatten

/-- FREE RUs of a die set. -/
def freeRus (s : State) (d : DieSet) : List Nat := (setRus d).filter fun i => (ruAt s i).st = .free

/-- FREE RUs of the device (CPC_FREE_RU). -/
def freeCount (s : State) : Nat := sumOf (fun d => (freeRus s d.2).length) s.cpc.dsets

/-- RUs held by a tenant (CPC_TEN_STS.HELD). -/
def heldRus (s : State) (t : Nat) : Nat := countOf (fun p => p.2.st ≠ .free && p.2.st ≠ .retired && p.2.tenant = t) s.cpc.rus

/-- RU_RSV and RU_MAX of a tenant (R242). -/
def ruRsv (s : State) (t : Nat) : Nat := rdF s 0x0F (0x2000 + 16 * t) 17 0
def ruMax (s : State) (t : Nat) : Nat := rdF s 0x0F (0x2004 + 16 * t) 17 0
def freeLow (s : State) (t : Nat) : Nat := rdF s 0x0F (0x2008 + 16 * t) 7 0
def freeTgt (s : State) (t : Nat) : Nat := rdF s 0x0F (0x2008 + 16 * t) 15 8

/-- Free RUs owed to reservations (R217). -/
def rsvOwed (s : State) : Nat := sumOf (fun t => ruRsv s t - heldRus s t) (List.range 512)

/-- FREE RUs beyond all reservations (CPC_UNRSV_RU). -/
def unrsvRus (s : State) : Nat := freeCount s - rsvOwed s

/-- Headroom (R218): RU_RSV - HELD, plus the unreserved free RUs while HELD is below RU_MAX. -/
def headroom (s : State) (t : Nat) : Int :=
  (ruRsv s t : Int) - (heldRus s t : Int) + (if heldRus s t < ruMax s t then (unrsvRus s : Int) else 0)

/-- RU data in MUs at the configured width, the figure of R218's need. -/
def ruData (s : State) : Nat := ruCap s { members := List.replicate (cpcWidth s) ⟨0, 0, false⟩ }

/-- MUs of a namespace (R154). -/
def nsMus (n : Ns) : Nat := if n.lbaf = 0 then n.lbas else ceilDiv n.lbas 8

/-- Need (R218). -/
def needRus (s : State) (t : Nat) : Nat :=
  ceilDiv (sumOf (fun p => if p.2.owner = t && p.2.kind = .nvm then nsMus p.2 else 0) s.ten.nss) (max 1 (ruData s)) + freeLow s t + 2

/-! ### Codeword slots and what goes to them -/

/-- Empty codeword slots, with what their parity covered. -/
def dropCells (s : State) (gone : Nat → Bool) : State :=
  { s with flash := { s.flash with cells := s.flash.cells.filter (fun c => !gone c.1), cover := s.flash.cover.filter fun c => !gone c.1 } }

/-- The parity unit of a row is on flash (R206): each position covers what the data units of the row hold there. -/
def putParity (s : State) (idx row : Nat) : State :=
  let r := ruAt s idx
  match r.members[parityMember r row]? with
  | none => s
  | some mb => (List.range (unitSlots s r)).foldl (fun (s : State) (w : Nat) =>
      let l := (dataMembers r row).filterMap fun i => match r.members[i]? with
        | some m => (Tbl.find s.flash.cells (unitPua s r row m w)).map fun c => (unitPua s r row m w, c)
        | none => none
      let p := unitPua s r row mb w
      { s with flash := { s.flash with cells := Tbl.put s.flash.cells p .parity, cover := Tbl.put s.flash.cover p l } }) s

/-- Change what an endurance group reports, by its tenant. -/
def egUpd (s : State) (t : Nat) (f : EgStat → EgStat) : State := { s with cpc := { s.cpc with eg := Tbl.put s.cpc.eg t (f (Tbl.getD s.cpc.eg t {})) } }

/-- RUH values (R203). -/
def ruhGc : Nat := 8
def ruhMap : Nat := 9
def ruhJournal : Nat := 10
def ruhBacking : Nat := 11
def ruhFlush : Nat := 12

/-- Queue an item for placement. -/
def queueItem (s : State) (it : Item) : State := { s with cpc := { s.cpc with queue := s.cpc.queue ++ [it] } }

/-! ### Spare blocks -/

/-- Spare blocks of each die (R204): the top block numbers. -/
def spareCount (s : State) : Nat := geomBlocks s * rdF s 0x0F 0x100 15 8 / 100

/-- Block of a die is bad: listed at the factory or grown. -/
def isBad (s : State) (die block : Nat) : Bool := s.cpc.bad.contains (die, block) || s.cpc.grown.contains (die, block)

/-- Record a grown bad block (R226). -/
def growBad (s : State) (die block : Nat) : State :=
  if s.cpc.grown.contains (die, block) then s
  else { s with cpc := { s.cpc with grown := s.cpc.grown ++ [(die, block)] } }

/-- Spare blocks in use on a die: those that some RU holds. -/
def spareInUse (s : State) (die block : Nat) : Bool :=
  s.cpc.rus.any fun p => p.2.members.any fun m => m.die = die && m.block = block && !m.skip

/-- Unused spare blocks of a die. -/
def sparesLeft (s : State) (die : Nat) : List Nat :=
  ((List.range (spareCount s)).map fun i => geomBlocks s - spareCount s + i).filter fun b =>
    !isBad s die b && !spareInUse s die b

/-- Give an RU's member a spare block, or SKIP where the member has none left (R204, R228). -/
def replaceMember (s : State) (idx m : Nat) : State :=
  let r := ruAt s idx
  match r.members[m]? with
  | none => s
  | some mb =>
    let (b, s) := pick s (sparesLeft s mb.die)
    match b with
    | some b => setRu s idx { r with members := setNth r.members m { mb with block := b } }
    | none => setRu s idx { r with members := setNth r.members m { mb with skip := true } }

/-- Available Spare in percent (R234). -/
def spareLeft (s : State) : Nat :=
  sumOf (fun d => sumOf (fun m => if m.2.1 || m.2.2 then 0 else (sparesLeft s m.1).length) d.2.members) s.cpc.dsets
def availSpare (s : State) : Nat := if s.cpc.spareInit = 0 then 100 else 100 * spareLeft s / s.cpc.spareInit

/-- Erase counts over the RUs formed: minimum, average, maximum (R223, R235). -/
def ecList (s : State) : List Nat := (allRus s).map fun i => (ruAt s i).eraseCnt
def ecMax (s : State) : Nat := (ecList s).foldl max 0
def ecMin (s : State) : Nat := (ecList s).foldl min ((ecList s).headD 0)
def ecAvg (s : State) : Nat := (ecList s).sum / max 1 (ecList s).length

/-- Percentage Used (R223). -/
def pctUsed (s : State) : Nat := min 255 (100 * ecAvg s / max 1 (rdF s 0x0F 0x108 31 16))

/-- Enter Read-only (R233): the first cause stands. -/
def enterReadOnly (s : State) (cause : Nat) : State :=
  if s.cpc.readOnly ≠ 0 then s
  else raiseInt { s with cpc := { s.cpc with readOnly := cause } } 0x0F 2

/-- The tenant owns a namespace. -/
def ownsNs (s : State) (t : Nat) : Bool := s.ten.nss.any fun p => p.2.owner = t

/-- The system RUs (R204): MAP, BACKING, JOURNAL, FLUSH. -/
def systemRus (s : State) : Nat :=
  let d := max 1 (ruData s)
  let slc := max 1 (ruCap s { slc := true, members := List.replicate (cpcWidth s) ⟨0, 0, false⟩ })
  ceilDiv (5 * (rdF s 0x0E 0x10C 24 0) * 10240) (2 * d * 4096)
    + ceilDiv (2 * (countOf (fun k => Word.bit (rd s 0x18 (0x1000 + 8 * k)) 1) (List.range 512)) * 2 ^ 28) (d * 4096)
    + 8 + (ceilDiv (rdF s 0x02 0x148 19 0 * 2 ^ 20) (slc * 4096) + 2)

/-- RUs that are not RETIRED. -/
def usableRus (s : State) : Nat := countOf (fun i => (ruAt s i).st ≠ .retired) (allRus s)

/-- Cause 3 of Read-only (R233): the RUs left to the tenants fall below the system RUs plus what the tenants need,
once every configured die set is formed. -/
def roSpace (s : State) : Bool :=
  s.cpc.dsets ≠ [] && rdF s 0x0F 0x120 6 0 ≤ s.cpc.dsets.length &&
    usableRus s - systemRus s < systemRus s + sumOf (fun t => if ownsNs s t then needRus s t else 0) (List.range 512)

/-- CPC_TEN_STS.SHORT (R218): RU_RSV of a tenant that owns a namespace is below its need. -/
def tenShort (s : State) (t : Nat) : Bool := ownsNs s t && ruRsv s t < needRus s t

/-- INT_STS.TEN_SHORT when a tenant's SHORT became 1 (R237). -/
def noteShort (before after : State) (t : Nat) : State :=
  if !tenShort before t && tenShort after t then raiseInt after 0x0F 5 else after

/-- Evaluate the causes of Read-only (R233), and SPARE_LOW, which is set as Available Spare falls below its threshold (R237). -/
def checkReadOnly (s : State) : State :=
  if s.cpc.dsets = [] then s
  else
    let spare := availSpare s
    let low := spare < rdF s 0x0F 0x148 15 8 && s.cpc.spareInit ≠ 0
    let s : State := if low && !s.cpc.spareLow then raiseInt s 0x0F 4 else s
    let s : State := { s with cpc := { s.cpc with spareLow := low } }
    if spare < rdF s 0x0F 0x148 7 0 then enterReadOnly s 1
    else if s.cpc.dsets.any fun d => d.2.present < 8 && (setRus d.2).any fun i => (ruAt s i).valid ≠ [] then enterReadOnly s 2
    else if roSpace s then enterReadOnly s 3
    else s

end Sys2Proof.Machine
end

