-- ==== Sys2Proof/Machine/FchOps.lean ====
section
/-! DEFINITION. The sequencers' queues (R255 to R275): acceptance, malformed operations, what starts next, completion,
suspension, loss of a die and power loss. -/

namespace Sys2Proof.Machine

/-- A die by its device die number, a channel, and the channel's region. -/
def dieOf (s : State) (n : Nat) : Die := Tbl.getD s.flash.dies n {}
def setDie (s : State) (n : Nat) (d : Die) : State := { s with flash := { s.flash with dies := Tbl.put s.flash.dies n d } }
def chanOf (s : State) (c : Nat) : Chan := Tbl.getD s.flash.chans c {}
def setChan (s : State) (c : Nat) (x : Chan) : State := { s with flash := { s.flash with chans := Tbl.put s.flash.chans c x } }
def fchRgn (c : Nat) : Nat := 0x20 + c

/-- TSTATE values (R250). -/
def tsOff : Nat := 0
def tsPower : Nat := 1
def tsDetect : Nat := 2
def tsIdent : Nat := 3
def tsTrain : Nat := 4
def tsReady : Nat := 5
def tsEmpty : Nat := 6
def tsRetrain : Nat := 7

/-- A die that operations may run on: present, not excluded, neither LOST nor RETIRED. -/
def dieUsable (s : State) (n : Nat) : Bool := (dieOf s n).st = .ready || (dieOf s n).st = .present

/-- Operation kinds (R256). -/
def isRead (o : FOp) : Bool := o.opc = 1 || o.opc = 2
def isProg (o : FOp) : Bool := 3 ≤ o.opc && o.opc ≤ 5
def isErase (o : FOp) : Bool := o.opc = 6

/-- Put a completion on its way to its submitter (R258). -/
def completeOp (s : State) (o : FOp) (status value : Nat) : State :=
  { s with flash := { s.flash with comps := s.flash.comps ++ [(o, status, value)] } }

/-- The reason of a malformed operation (R257); 0 where it is well formed. An operation that a media engine of the model issues itself
names no buffer. -/
def opBad (s : State) (c : Nat) (o : FOp) : Nat :=
  let two := geomTwoPass s
  if o.opc = 0 || 0xB < o.opc || (o.slc && (o.opc = 4 || o.opc = 5)) || ((o.opc = 4 || o.opc = 5) && !two)
      || (o.opc = 3 && !o.slc && two) || (7 ≤ o.opc && o.opc ≤ 0xA && o.sub ≠ .fw) then 1
  else if o.rsvd then 2
  else if o.pmask = 0 || 2 ^ geomPlanes s ≤ o.pmask || (isRead o && o.smask = 0) || geomBlocks s ≤ puaBlock o.addr
      || geomPages s ≤ puaPage o.addr || 63 < o.rtry then 3
  else if puaChan o.addr ≠ c || ((o.opc ≤ 5 || o.opc = 8) && (o.purpose = .fw || o.purpose = .none) && !inDram s o.buf 1) then 4
  else 0

/-- Slots in use on a die that a class may take (R259): slot 7 for URGENT, slot 6 for URGENT or CLOSE. -/
def slotFits (d : Die) (cls : Nat) : Bool :=
  d.q.length < 8 && (cls = 0 || countOf (fun o => o.cls ≠ 0) d.q < 7) && (cls ≤ 1 || countOf (fun o => 1 < o.cls) d.q < 6)

/-- Suspensions a running operation may still take (R263 item 3). -/
def suspLeft (d : Die) (o : FOp) : Bool :=
  if isProg o then d.suspCnt < Word.fld d.suspP 23 20
  else isErase o && d.suspCnt < Word.fld d.suspE 30 26

/-- An URGENT read that cannot start at once gets a busy hint (R265): the running operation has used up its suspensions, or the die is in
data-in past its restart limit. -/
def hintDue (s : State) (n : Nat) (o : FOp) : Bool :=
  let d := dieOf s n
  o.cls = 0 && isRead o &&
    match d.run with
    | some x => if d.phase = .dataIn then isProg x && Word.fld d.suspCfg 15 14 ≤ d.restarts else (isProg x || isErase x) && !suspLeft d x
    | none => false

/-- A read that may be due a hint for the suspension time budget, which the model does not hold: a suspension has been made. -/
def budgetAsked (s : State) (n : Nat) (o : FOp) : Bool :=
  o.cls = 0 && isRead o && (dieOf s n).phase = .array && 0 < (dieOf s n).suspCnt && (dieOf s n).run.any fun x => isProg x || isErase x

/-- Put an operation into its die's queue. -/
def enqueue (s : State) (n : Nat) (o : FOp) : State :=
  let d := dieOf s n
  let (h, s) := if hintDue s n o then (true, s) else if budgetAsked s n o then takeBit s else (false, s)
  let s := setDie s n { d with q := d.q ++ [o], hint := d.hint || h }
  if h then bump s (fchRgn (n / 16)) 0x144 1 else s

/-- CANCEL removes a queued operation of the same submitter that has not started; of a running or suspended one it is refused:
it then completes OK with VALUE 1 (R256, R266); where no such operation is there, VALUE is free. Submitters other than the ring cancel by operation number. -/
def cancelOp (s : State) (c : Nat) (sub : Submitter) (hit : FOp → Bool) : Nat × State :=
  let mine (o : FOp) : Bool := o.sub = sub && hit o
  let dies := (List.range 16).map (c * 16 + ·)
  let none_ (s : State) : Nat × State :=
    if dies.any fun n => (dieOf s n).run.any mine || (dieOf s n).susp.any mine then (1, s)
    else
      let (b, s) := freeBytes s 4
      (leNat b, s)
  match dies.find? fun n => (dieOf s n).q.any mine with
  | some n =>
    match takeFirst mine (dieOf s n).q with
    | some (o, q) => (0, completeOp (setDie s n { dieOf s n with q := q }) o 7 0)
    | none => none_ s
  | none =>
    match takeFirst mine (chanOf s c).held with
    | some (o, h) => (0, completeOp (setChan s c { chanOf s c with held := h }) o 7 0)
    | none => none_ s

/-- Offer a well-formed operation to its channel: held at a fence or while no slot fits (R259, R270), WITHDRAWN after the
power-loss signal, after which those of the flush are CLOSE (R269), ABSENT where the die is not usable or the channel EMPTY (R250, R257). -/
def acceptOp (s : State) (c : Nat) (o : FOp) : State :=
  let n := puaDie o.addr
  let o := if s.flash.withdraw then { o with cls := min o.cls 1 } else o
  let st := (blkSt s (fchRgn c)).st
  let x := chanOf s c
  if s.flash.withdraw && o.sub ≠ .flush then bump (completeOp s o 6 0) (fchRgn c) 0x150 1
  else if st ≠ .init && st ≠ .ready then setChan s c { x with held := x.held ++ [o] }
  else if s.dev.fault && o.sub ≠ .flush then setChan s c { x with held := x.held ++ [o] }
  else if x.tstate = tsEmpty then completeOp s o 5 0
  else if o.opc = 0xB then
    let r := cancelOp s c o.sub fun y => y.tag = o.arg % 65536
    completeOp r.2 o 0 r.1
  else if 5 ≤ x.tstate && !dieUsable s n then completeOp s o 5 0
  else if x.held.any (fun y => puaDie y.addr = n && y.cls = o.cls) || !slotFits (dieOf s n) o.cls then
    setChan s c { x with held := x.held ++ [o] }
  else enqueue s n o

/-- The sequencer of a channel stops (R257). -/
def stopChan (s : State) (c : Nat) : State := setChan s c { chanOf s c with ring := { (chanOf s c).ring with stopped := true } }

/-- Submit an operation from an internal submitter. A malformed one is recorded and puts the device in Fault (R257). -/
def submitOp (s : State) (o : FOp) : Nat × State :=
  let id := s.flash.nextOp
  let o := { o with id := id, age := id }
  let s := { s with flash := { s.flash with nextOp := id + 1 } }
  let c := puaChan o.addr
  let why := opBad s c o
  if why ≠ 0 then (id, enterFault (blockErr (stopChan s c) (fchRgn c) 18 why) (fchRgn c)) else (id, acceptOp s c o)

/-- Offer a channel's held operations again, in order. -/
def offerHeld (s : State) (c : Nat) : State :=
  let h := (chanOf s c).held
  h.foldl (fun s o => acceptOp s c o) (setChan s c { chanOf s c with held := [] })

/-- Programs and erases of one block start in arrival order; an erase waits for earlier reads of its block (R260). -/
def sameBlock (a b : FOp) : Bool := puaDie a.addr = puaDie b.addr && puaBlock a.addr = puaBlock b.addr

/-- The operation that starts when one is chosen: the earliest program or erase of its block (R260 rule 1). -/
def leadOp (q : List FOp) (o : FOp) : FOp :=
  if isProg o || isErase o then (q.find? fun x => (isProg x || isErase x) && sameBlock x o).getD o else o

/-- An erase waits while a read of its block that was accepted before it is queued (R260 rule 2). -/
def erasureWaits (q : List FOp) (o : FOp) : Bool := isErase o && (q.takeWhile (· ≠ o)).any fun x => isRead x && sameBlock x o

/-- The operation of a queue that starts next (R260): the highest class, the oldest within it, of those that may start; an operation
that has waited START_US counts as CLOSE, which `aged` names. -/
def chooseOp (q : List FOp) (aged : List Nat) (ok : FOp → Bool) : Option FOp :=
  let cls (o : FOp) : Nat := if aged.contains o.id then min o.cls 1 else o.cls
  let best (k : Nat) : Option FOp := q.find? fun o => cls o = k && ok o && !erasureWaits q (leadOp q o)
  (((best 0).orElse fun _ => best 1).orElse fun _ => (best 2).orElse fun _ => best 3).map (leadOp q)

/-- A read may suspend the running program or erase (R263 item 1): its class. -/
def suspEligible (d : Die) (o : FOp) : Bool :=
  isRead o && (o.cls = 0 || (o.cls = 3 && Word.bit d.suspCfg 13) || ((o.cls = 1 || o.cls = 2) && Word.bit d.suspCfg 12))

/-- Remove an operation from a queue. -/
def dropOp (q : List FOp) (o : FOp) : List FOp := q.filter fun x => x.id ≠ o.id

/-- DIE_OP_START (R260): a die that is free starts its next operation; a suspended die starts the next eligible read. Programs
start with their data-in. A channel that stopped at a malformed operation starts only those of the flush (R257, R571). -/
def dieOpStart (s : State) (n : Nat) (aged : List Nat) : State :=
  let c := n / 16
  let d := dieOf s n
  if (chanOf s c).tstate ≠ tsReady || d.run.isSome || d.resetting || !(dieUsable s n || d.st = .retired) then s
  else
    let reads := Word.fld d.suspCfg 11 8
    let ok (o : FOp) : Bool :=
      if (chanOf s c).ring.stopped && o.sub ≠ .flush then false
      else if d.susp.isSome && d.pausedIn then isRead o && o.cls = 0
      else if d.susp.isSome then suspEligible d o && (o.cls = 0 || d.suspReads < reads)
      else true
    match chooseOp d.q aged ok with
    | none => s
    | some o =>
      offerHeld (setDie s n { d with
        q := dropOp d.q o, run := some o, phase := if isProg o then .dataIn else .array, bursts := 0
        suspCnt := if d.susp.isSome then d.suspCnt else 0
        restarts := if d.susp.isSome then d.restarts else 0
        suspP := if d.susp.isSome then d.suspP else rd s (fchRgn c) 0x114
        suspE := if d.susp.isSome then d.suspE else rd s (fchRgn c) 0x118
        suspCfg := if d.susp.isSome then d.suspCfg else rd s (fchRgn c) 0x11C
        hint := d.hint && (dropOp d.q o).any fun x => x.cls = 0
        suspReads := if d.susp.isSome then d.suspReads + 1 else 0 }) c

/-- Pages of a program (R255): one page per plane of PMASK in SLC mode, else PAGES_PER_WL. -/
def progBursts (s : State) (o : FOp) : Nat :=
  countOf (fun i => o.pmask.testBit i) (List.range 6) * (if o.slc then 1 else geomPpw s)

/-- Class of a die's pending burst: one that has waited BURST_US, which `aged` names, is granted as CLOSE (R261). -/
def burstCls (s : State) (aged : List Nat) (n : Nat) : Nat := match (dieOf s n).run with
  | some o => if aged.contains n then min o.cls 1 else o.cls
  | none => 4

/-- The data-in burst that the arbiter of a channel grants next (R261): the highest class, the oldest within it; with a CLOSE burst pending, no second other one ahead
of it. -/
def burstNext (s : State) (c : Nat) (aged : List Nat) : Option Nat :=
  let l := ((List.range 16).map (c * 16 + ·)).filter fun n => (dieOf s n).run.isSome && (dieOf s n).phase = .dataIn
  let age (n : Nat) : Nat := match (dieOf s n).run with
    | some o => o.age
    | none => 0
  let oldest (l : List Nat) : Option Nat := l.foldl (fun b n => match b with
    | none => some n
    | some m => if age n < age m then some n else some m) none
  let best (k : Nat) : Option Nat := oldest (l.filter fun n => burstCls s aged n = k)
  let first := (((best 0).orElse fun _ => best 1).orElse fun _ => best 2).orElse fun _ => best 3
  if (best 1).isSome && 0 < (chanOf s c).others then best 1 else first

/-- The arbiter counts the bursts that go ahead of a pending CLOSE burst. -/
def noteBurst (s : State) (c : Nat) (aged : List Nat) (n : Nat) : State :=
  let waits := ((List.range 16).map (c * 16 + ·)).any fun m => m ≠ n && (dieOf s m).phase = .dataIn && burstCls s aged m = 1
  setChan s c { chanOf s c with others := if burstCls s aged n ≠ 1 && waits then (chanOf s c).others + 1 else 0 }

/-- BUS_BURST_GRANT (R261, R264): one page of a program's data-in moves, if it is that burst's turn, and the last ends the data-in; an URGENT read that
waits stops the data-in, which restarts from its first page, at most DATAIN_RESTART times. -/
def burstGrant (s : State) (n : Nat) (aged : List Nat) : State :=
  let d := dieOf s n
  let c := n / 16
  match d.run with
  | none => s
  | some o =>
    if d.phase = .array then s
    else if d.q.any (fun x => isRead x && x.cls = 0) && d.restarts < Word.fld d.suspCfg 15 14 then
      bump (setDie s n { d with run := none, susp := some o, pausedIn := true, restarts := d.restarts + 1, bursts := 0 }) (fchRgn c) 0x14C 1
    else if burstNext s c aged ≠ some n then s
    else if progBursts s o ≤ d.bursts + 1 then setDie (noteBurst s c aged n) n { d with phase := .array, bursts := 0 }
    else setDie (noteBurst s c aged n) n { d with bursts := d.bursts + 1 }

/-- OP_SUSPEND (R263): a running program or erase is suspended for an eligible read. -/
def opSuspend (s : State) (n : Nat) : State :=
  let d := dieOf s n
  let c := n / 16
  match d.run with
  | none => s
  | some o =>
    if d.phase = .array && d.susp.isNone && suspLeft d o && d.q.any (suspEligible d) then
      bump (setDie s n { d with run := none, susp := some o, suspCnt := d.suspCnt + 1, suspReads := 0 }) (fchRgn c) 0x140 1
    else s

/-- OP_RESUME (R263, R264): the suspended operation resumes when no further read can start, which the time budgets decide too; a stopped
data-in restarts from the first page of the unit. -/
def opResume (s : State) (n : Nat) : State :=
  let d := dieOf s n
  match d.susp with
  | none => s
  | some o => if d.run.isSome then s else setDie s n { d with run := some o, susp := none, pausedIn := false, phase := if d.pausedIn then .dataIn else .array }

/-- A die is declared LOST (R268): its running and queued operations complete with DIE_LOST in order. `burst` says that every
present die of the channel was declared LOST within 100 ms. -/
def declareLost (s : State) (n : Nat) (burst : Bool) : State :=
  let d := dieOf s n
  let c := n / 16
  let ops := d.run.toList ++ d.susp.toList ++ d.q
  let s := setDie s n { d with st := .lost, run := none, susp := none, pausedIn := false, q := [], resetting := false, hint := false }
  let s := ops.foldl (fun s o => completeOp s o 4 0) s
  let s := emit (raiseInt s (fchRgn c) 3) 0x6004 sevError (fchRgn c) none (leBytes 2 n)
  let x := chanOf s c
  let s := setChan s c { x with lostAt := x.lostAt ++ [s.clock] }
  let dies := (List.range 16).map (c * 16 + ·)
  let s := if burst && !(dies.any (dieUsable s)) then
      emit (raiseInt (setChan s c { chanOf s c with tstate := tsEmpty }) (fchRgn c) 1) 0x6005 sevCritical (fchRgn c) none []
    else s
  offerHeld s c

/-- A hung die recovers after Reset LUN (R266 to R268): its operation ends with TIMEOUT, and a suspended one with its failure; the third
TIMEOUT within 60 s loses the die. Whether the losses of a whole channel fell within 100 ms is free where they fell in one second. -/
def hungRecovered (s : State) (n : Nat) : State :=
  let d := dieOf s n
  let c := n / 16
  match d.run with
  | none => s
  | some o =>
    let recent := (d.tmoAt.filter fun t => s.clock < t + 60) ++ [s.clock]
    let s := setDie s n { d with run := none, susp := if d.pausedIn then d.susp else none, resetting := false, tmo := min (d.tmo + 1) 0xFFFF, tmoAt := recent }
    let s := raiseInt (bump s (fchRgn c) 0x148 1) (fchRgn c) 4
    let s := completeOp s o 3 0
    let s := match d.susp with
      | some x => if d.pausedIn then s else completeOp s x (if isProg x then 1 else 2) d.suspCnt
      | none => s
    if 3 ≤ recent.length then
      (let (b, s) := if (chanOf s c).lostAt.all (· = s.clock) then takeBit s else (false, s)
      declareLost s n b)
    else s

/-- The power-loss signal at the sequencers (R269). -/
def fchPowerLoss (s : State) : State :=
  let s := { s with flash := { s.flash with withdraw := true } }
  let s := s.flash.dies.foldl (fun (s : State) (p : Nat × Die) =>
    let d := p.2
    let c := p.1 / 16
    let gone := d.q.filter fun o => o.sub ≠ Submitter.flush
    let d := { d with q := d.q.filter fun o => o.sub = Submitter.flush }
    let d := match d.run, d.susp with
      | none, some o => if isProg o then { d with run := some o, susp := none, pausedIn := false, phase := if d.pausedIn then .dataIn else .array } else d
      | _, _ => d
    let erase := (d.run.toList ++ d.susp.toList).filter isErase
    let d := { d with
      run := d.run.filter fun o => !isErase o, susp := d.susp.filter fun o => !isErase o,
      resetting := d.resetting || (!erase.isEmpty && d.run.all isErase) }
    let s := setDie s p.1 d
    let s := gone.foldl (fun s o => bump (completeOp s o 6 0) (fchRgn c) 0x150 1) s
    erase.foldl (fun s o => completeOp s o 6 1) s) s
  s.flash.chans.foldl (fun (s : State) (p : Nat × Chan) =>
    let gone := p.2.held.filter fun o => o.sub ≠ Submitter.flush
    let s := setChan s p.1 { chanOf s p.1 with held := p.2.held.filter fun o => o.sub = Submitter.flush }
    gone.foldl (fun s o => bump (completeOp s o 6 0) (fchRgn p.1) 0x150 1) s) s

/-- Operations in the die queues of a channel (FCH_QUEUED). -/
def chanQueued (s : State) (c : Nat) : Nat := sumOf (fun i => (dieOf s (c * 16 + i)).q.length) (List.range 16)

/-- FCH_STS as read (R273). -/
def fchStsWord (s : State) (c : Nat) : Word :=
  let x := chanOf s c
  w32 (x.tstate + x.rate * 8 + sumOf (fun i => if dieUsable s (c * 16 + i) then 2 ^ (8 + i) else 0) (List.range 16))

/-- FCH_DIE_EXCL as read. -/
def fchExclWord (s : State) (c : Nat) : Word :=
  w32 (sumOf (fun i => match (dieOf s (c * 16 + i)).st with
    | .failedTrain | .incompat => 2 ^ i
    | .lost => 2 ^ (16 + i)
    | _ => 0) (List.range 16))

/-- Codes of FCH_DIE_STS.STATE (R275). -/
def DieSt.code : DieSt → Nat
  | .absent => 0 | .present => 1 | .ready => 2 | .failedTrain => 3 | .incompat => 4 | .lost => 5 | .retired => 6

/-- FCH_DIE_STS as read (R275). -/
def fchDieStsWord (d : Die) : Word :=
  let run := match d.run, d.susp with
    | some o, none => if isRead o then 1 else if d.phase = .dataIn then 6 else if isProg o then 2 else if isErase o then 3 else 0
    | r, some o => if d.pausedIn then (if r.isSome then 1 else 6) else if isProg o then 4 else 5
    | none, none => 0
  w32 (d.st.code + d.maxRate * 16 + d.q.length * 256 + run * 4096 + d.hint.toNat * 2 ^ 15)

end Sys2Proof.Machine
end

