-- ==== Sys2Proof/Machine/LdcOps.lean ====
section
/-! DEFINITION. The recovery ladder (R278 to R287): entry, steps, payload checks, stripe rebuild and rebuild-first. -/

namespace Sys2Proof.Machine

/-- A codeword in the ladder, its change and its removal with the reads of its survivors. -/
def cwOf (s : State) (id : Nat) : Option Cw := s.ldc.cws.find? fun x => x.id = id
def cwUpd (s : State) (id : Nat) (f : Cw → Cw) : State :=
  { s with ldc := { s.ldc with cws := s.ldc.cws.map fun x => if x.id = id then f x else x } }
def cwDel (s : State) (id : Nat) : State :=
  { s with ldc := { s.ldc with cws := s.ldc.cws.filter fun x => x.id ≠ id } }

/-- Cancel the queued flash operation of a codeword (R287, R291). -/
def cancelCw (s : State) (x : Cw) : State :=
  (cancelOp s (puaChan x.pua) .ldc fun o => o.purpose = .cw x.id).2

/-- The codewords that read survivors for a codeword. -/
def survivorsOf (s : State) (id : Nat) : List Cw := s.ldc.cws.filter fun x => x.purpose = .survivor id

/-- End the rebuild reads of a codeword: those not started are cancelled, the results of the others discarded (R287). -/
def dropSurvivors (s : State) (id : Nat) : State :=
  (survivorsOf s id).foldl (fun s x => cwDel (cancelCw s x) x.id) s

/-- LDC_CFG and related fields (R299). -/
def ldcRbfEn (s : State) : Bool := Word.bit (rd s 0x1A 0x100) 16
def ldcTrackEn (s : State) : Bool := Word.bit (rd s 0x1A 0x104) 0
def ldcWeakEn (s : State) : Bool := Word.bit (rd s 0x1A 0x110) 16

/-- The age class of a codeword (R283): hours of RTC time since its RU's PROG_TIME. -/
def ageClass (s : State) (pua : Nat) : Nat :=
  match ruOfPua s pua with
  | some i => 1 + min 15 (Nat.log2 ((s.dev.rtc - (ruAt s i).progTime) / 3600 + 1))
  | none => 1

/-- The key of a block in the weak-block cache, and its live entry (R282). -/
def weakKey (pua : Nat) : Nat := puaDie pua * 4096 + puaBlock pua
def weakStep (s : State) (pua : Nat) : Option Nat :=
  if !ldcWeakEn s then none
  else match s.ldc.weak.find? fun e => e.1 = weakKey pua && s.clock < e.2.2 with
    | some e => some e.2.1
    | none => none

/-- Record the step that recovered a codeword (R282): the oldest of 1,024 entries gives way. -/
def weakPut (s : State) (pua step : Nat) : State :=
  if !ldcWeakEn s || step = 0 then s
  else
    let l := (s.ldc.weak.filter fun e => e.1 ≠ weakKey pua) ++ [(weakKey pua, step, s.clock + rdF s 0x1A 0x110 15 0)]
    { s with ldc := { s.ldc with weak := if 1024 < l.length then l.drop 1 else l } }

/-- An erase removes the block's entry. -/
def weakErase (s : State) (die block : Nat) : State :=
  { s with ldc := { s.ldc with weak := s.ldc.weak.filter fun e => e.1 ≠ die * 4096 + block } }

/-- Step 0 uses the tracked entry (R283). -/
def step0Tracked (s : State) (pua : Nat) : Bool :=
  let f := rdF s 0x1A 0x104 7 4
  ldcTrackEn s && f ≠ 0 && f ≤ ageClass s pua

/-- The threshold entry of a step (R281). -/
def stepRtry (s : State) (x : Cw) : Nat :=
  match x.step with
  | 0 => if x.used then ageClass s x.pua else 0
  | 1 => if x.used then 0 else ageClass s x.pua
  | 2 => ageClass s x.pua
  | _ => 32 + x.deep

/-- Issue the read of a codeword's step. -/
def issueRead (s : State) (x : Cw) : State :=
  let soft := x.step = 2 || x.step = 4
  let r := submitOp s {
    opc := if soft then 2 else 1, cls := x.cls, tenant := x.expect.tenant,
    slc := match ruOfPua s x.pua with
      | some i => (ruAt s i).slc
      | none => false,
    pmask := 2 ^ puaPlane x.pua, smask := 2 ^ puaSlot x.pua, addr := x.pua, rtry := stepRtry s x, sub := .ldc, buf := x.buf, purpose := .cw x.id }
  cwUpd r.2 x.id fun y => { y with op := some r.1, decoding := false, served := false }

/-- Decoders of a pool that serve (R279, R495): 64 hard ones, units 0 to 63 of LDC, and 16 soft ones after them. -/
def decoders (s : State) (soft : Bool) : Nat :=
  countOf (fun u => !resOut s 3 0x1A u) (if soft then (List.range 16).map (64 + ·) else List.range 64)

/-- A codeword's decode is a soft one (R281). -/
def Cw.soft (x : Cw) : Bool := x.step = 2 || x.step = 4

/-- Codewords that hold a decoder of a pool. -/
def decBusy (s : State) (soft : Bool) : Nat := countOf (fun x => x.decoding && x.served && x.soft = soft) s.ldc.cws

/-- The codeword that a pool serves next (R280): the highest class, the oldest within it. -/
def decNext (s : State) (soft : Bool) : Option Cw :=
  let l := s.ldc.cws.filter fun x => x.decoding && !x.served && x.soft = soft
  (((l.find? (·.cls = 0)).orElse fun _ => l.find? (·.cls = 1)).orElse fun _ => l.find? (·.cls = 2)).orElse fun _ => l.head?

/-- A pool serves waiting codewords while it has a decoder free. -/
def servePool (soft : Bool) : Nat → State → State
  | 0, s => s
  | n + 1, s =>
    if decoders s soft ≤ decBusy s soft then s
    else match decNext s soft with
      | some x => servePool soft n (cwUpd s x.id fun y => { y with served := true })
      | none => s

/-- Both pools (R280). -/
def serveDecoders (s : State) : State := servePool true 16 (servePool false 64 s)

/-- The KIND of a stored payload (R190); a parity codeword and one without a VERSION that is known have none. -/
def Content.kind : Content → Nat
  | .pad => 0
  | .user _ _ _ _ _ _ _ => 1
  | .mapLeaf _ _ _ _ _ => 2
  | .journal _ _ => 3
  | .snapshot _ _ _ _ | .summary _ _ _ | .flush _ _ => 4
  | .backing _ _ _ _ _ _ _ => 5
  | .raw p => if byteFld p 4097 1 = 1 then byteFld p 4096 1 else 0x100
  | .parity => 0x100

/-- A payload as its reader takes it: one that firmware programmed with a header of user data is user data. -/
def Content.asRead (c : Content) : Content := match c with
  | .raw p => if c.kind = 1 then parseUser p else c
  | c => c

/-- The granule tags and CRCs of a slot of a stored leaf hold (R164). -/
def leafSlotOk (e : Expect) : Content → Bool
  | .mapLeaf root _ raw _ part => root = e.mu && part = e.slot && raw = !locExt e.loc
  | .raw p => (List.range 4).all fun k =>
      4 * e.slot + k < locGoff e.loc || locGoff e.loc + locGlen e.loc ≤ 4 * e.slot + k
        || (takeGran p k e.mu (4 * e.slot + k - locGoff e.loc) (!locExt e.loc)).isSome
  | _ => false

/-- A mis-correction (R278). -/
def misread (s : State) : State := raiseInt (bump s 0x1A 0x154 1) 0x1A 4

/-- The plaintext payload of a stored content, with the checks of R278 items 2 to 4; a wrong kind or identity is a
mis-correction. -/
def checkPayload (s : State) (x : Cw) (c : Content) : Option Content × State :=
  if c.asRead.kind ≠ x.expect.kind then (none, misread s)
  else match c.asRead with
  | .user nsid mu tenant lost wseq crc data =>
    if nsid ≠ x.expect.nsid || mu ≠ x.expect.mu || tenant ≠ x.expect.tenant then (none, misread s)
    else
      let (d, s) := decMu s nsid mu (epochOf s x.pua) data
      if crc32c d = crc then (some (.user nsid mu tenant lost wseq crc d), s) else (none, s)
  | c => if x.expect.kind = 2 && !leafSlotOk x.expect c then (none, misread s) else (some c, s)

/-- Hand a codeword's outcome to its reader and forget the codeword. -/
def finishCw (s : State) (x : Cw) (p : Option Content) : State :=
  let s := cwDel (cancelCw (dropSurvivors s x.id) x) x.id
  { s with ldc := { s.ldc with results := s.ldc.results ++ [(x, p)] } }

/-- A codeword reaches step 5 (R285). -/
def unrecovered (s : State) (x : Cw) : State :=
  let s := raiseInt (bump s 0x1A 0x134 1) 0x1A 1
  finishCw (emit s 0x7001 sevError 0x1A (some x.expect.tenant) (leBytes 8 x.pua)) { x with step := 5 } none

/-- A codeword has no step left: it is unrecovered, and one whose extended rebuild failed (R293) was so before. -/
def ladderEnds (s : State) (x : Cw) : State := if x.ext then finishCw s { x with step := 5 } none else unrecovered s x

/-- A member's die is lost or retired. -/
def memberLost (s : State) (m : RuMember) : Bool := (dieOf s m.die).st = .lost || (dieOf s m.die).st = .retired || s.cpc.retiredDies.contains m.die

/-- A stripe has lost two units (R230): on dies lost or retired, or SKIP for the row alone (R284). -/
def stripeLost (s : State) (r : Ru) (row : Nat) : Bool :=
  2 ≤ countOf (fun k => match r.members[k]? with
    | some m => !m.skip && (memberLost s m || r.skipRows.contains (row, k))
    | none => false) (List.range r.members.length)

/-- The stripe of a PUA: its RU, row, the member that holds it, and the survivors' PUAs (R284). Nothing where the stripe cannot
be rebuilt: no RU holds the PUA, or another unit of the row is known lost. -/
def survivorPuas (s : State) (pua : Nat) : Option (List Nat) :=
  match ruOfPua s pua with
  | none => none
  | some i =>
    let r := ruAt s i
    let row := puaPage pua / max 1 (ruPpw s r)
    let others := r.members.filter fun m => !m.skip && m.die ≠ puaDie pua
    let idx := (List.range r.members.length).filter fun k => r.skipRows.contains (row, k)
    if others.any (memberLost s) || idx ≠ [] then none
    else some (others.map fun m => puaMk m.die (puaPlane pua) m.block (puaPage pua) (puaSlot pua))

/-- Rebuilds that hold an accumulator. -/
def rebuildsActive (s : State) : Nat := countOf (fun x => match x.rebuild with
  | some r => !r.waiting && !r.failed
  | none => false) s.ldc.cws

/-- Issue the survivors' reads. -/
def launchSurvivors (s : State) (x : Cw) (l : List Nat) : State :=
  let s := cwUpd s x.id fun y => { y with rebuild := some { left := l.length } }
  l.foldl (fun s p =>
    let id := s.ldc.nextCw
    let c : Cw := {
      id := id, pua := p, cls := x.cls, expect := { kind := 0, tenant := x.expect.tenant }, purpose := .survivor x.id }
    issueRead { s with ldc := { s.ldc with nextCw := id + 1, cws := s.ldc.cws ++ [c] } } c) s

/-- Start a rebuild (R284): none where a unit is lost; it waits where every accumulator is busy (R243). -/
def startRebuild (s : State) (x : Cw) : Bool × State :=
  match survivorPuas s x.pua with
  | none => (false, bump s 0x19 0x118 1)
  | some l =>
    if rdF s 0x19 0x100 7 0 ≤ rebuildsActive s then
      (true, cwUpd s x.id fun y => { y with rebuild := some { left := l.length, waiting := true } })
    else (true, launchSurvivors s x l)

/-- Rebuild-first rebuilds that run (R286). -/
def rbfActive (s : State) : Nat := countOf (fun x => x.rbFirst && (match x.rebuild with
  | some r => !r.failed
  | none => false)) s.ldc.cws

/-- Launch a rebuild-first rebuild where R286 permits it. -/
def tryRbf (s : State) (id : Nat) : State :=
  match cwOf s id with
  | none => s
  | some x =>
    if x.cls ≠ 0 || !ldcRbfEn s || x.rebuild.isSome || x.rbDead || x.rbSkip then s
    else if rdF s 0x1A 0x10C 5 0 ≤ rbfActive s then
      cwUpd (raiseInt (bump s 0x1A 0x148 1) 0x1A 3) id fun y => { y with rbSkip := true }
    else
      let s := cwUpd s id fun y => { y with rbFirst := true }
      match startRebuild s { x with rbFirst := true } with
      | (true, s) => bump s 0x1A 0x140 1
      | (false, s) => cwUpd s id fun y => { y with rbDead := true, rbFirst := false }

/-- Put a codeword at a step, and do what the step does. -/
def goStep (s : State) (x : Cw) (step : Nat) : State :=
  let x := { x with step := step, again := false }
  let s := cwUpd s x.id fun y => { y with step := step, again := false, deep := x.deep, ladderDead := x.ladderDead }
  match step with
  | 0 | 1 | 2 => issueRead s x
  | 3 =>
    match startRebuild s x with
    | (true, s) => s
    | (false, s) =>
      let s := cwUpd s x.id fun y => { y with rbDead := true }
      if x.ladderDead || x.ext then ladderEnds s x
      else if 0 < rdF s 0x1A 0x108 5 0 then
        issueRead (cwUpd s x.id fun y => { y with step := 4, deep := 0 }) { x with step := 4, deep := 0 }
      else ladderEnds s x
  | 4 => if x.deep < rdF s 0x1A 0x108 5 0 then issueRead s x else ladderEnds s x
  | _ => ladderEnds s x

/-- A survivor has failed: the rebuild fails, and the codeword goes on where its own ladder stands (R284, R287). -/
def rebuildFailed (s : State) (id : Nat) : State :=
  match cwOf s id with
  | none => s
  | some x =>
    let s := dropSurvivors (bump s 0x19 0x118 1) id
    let s := cwUpd s id fun y => { y with rebuild := some { left := 0, failed := true }, rbDead := true, rbFirst := false }
    let x := { x with rbDead := true, rbFirst := false }
    if x.ladderDead || x.ext then ladderEnds s x
    else if x.step = 3 then goStep s { x with deep := 0 } 4
    else s

/-- The step of a codeword has failed (R281, R286). A survivor goes no further than step 1, but in an extended rebuild (R293). -/
def stepFailed (s : State) (x : Cw) : State :=
  match x.purpose with
  | .survivor p =>
    let ext := (cwOf s p).any (·.ext)
    if x.step = 0 then goStep s x 1
    else if ext && x.step = 1 then goStep s x 2
    else if ext && x.step = 2 && 0 < rdF s 0x1A 0x108 5 0 then goStep s { x with deep := 0 } 4
    else if ext && x.step = 4 && x.deep + 1 < rdF s 0x1A 0x108 5 0 then goStep s { x with deep := x.deep + 1 } 4
    else rebuildFailed (cwDel s x.id) p
  | _ =>
    match x.step with
    | 0 =>
      let s := tryRbf s x.id
      match cwOf s x.id with
      | some x => goStep s x 1
      | none => s
    | 1 => goStep s x 2
    | 2 =>
      if x.rbFirst then cwUpd s x.id fun y => { y with step := 3, op := none, decoding := false }
      else if x.rbDead then goStep s { x with deep := 0 } 4
      else goStep s x 3
    | 4 => goStep s { x with deep := x.deep + 1 } 4
    | _ => s

/-- Enter the ladder (R282). -/
def startCw (s : State) (pua cls : Nat) (e : Expect) (f : CwFor) (buf : Nat := 0) : State :=
  let id := s.ldc.nextCw
  let used := step0Tracked s pua
  let x : Cw := { id := id, pua := pua, cls := cls, expect := e, purpose := f, used := used, buf := buf }
  let s := { s with ldc := { s.ldc with nextCw := id + 1, cws := s.ldc.cws ++ [x] } }
  if !dieUsable s (puaDie pua) then goStep s { x with ladderDead := true } 3
  else
    let weak := weakStep s pua
    let step := if cls = 0 then 0 else match weak with
      | some 1 => 1
      | some _ => 2
      | none => 0
    let s := goStep s x step
    let pred := (match ruOfPua s pua with
        | some i => (ruAt s i).degraded || (ruAt s i).refresh
        | none => false) || (match weak with
        | some k => 2 ≤ k
        | none => false)
    if cls = 0 && step = 0 && pred then tryRbf s id else s

/-- A flash operation of a codeword has completed (R258, R281). -/
def cwOpDone (s : State) (id op status : Nat) : State :=
  match cwOf s id with
  | none => s
  | some x =>
    if x.op ≠ some op then s
    else match status with
    | 0 => cwUpd s id fun y => { y with op := none, decoding := true }
    | 3 =>
      if x.again then stepFailed (cwUpd s id fun y => { y with op := none }) { x with op := none }
      else issueRead (cwUpd s id fun y => { y with again := true }) { x with again := true }
    | 6 => cwDel s id
    | 7 => cwUpd s id fun y => { y with op := none }
    | _ =>
      match x.purpose with
      | .survivor p => rebuildFailed (cwDel s id) p
      | _ =>
        let x := { x with ladderDead := true, op := none }
        let s := cwUpd s id fun y => { y with ladderDead := true, op := none }
        if x.rbDead || x.step = 4 then unrecovered s x
        else if x.rebuild.isSome then s
        else if x.cls = 0 then
          let s := tryRbf s id
          match cwOf s id with
          | some y => if y.rebuild.isSome then s else goStep s y 3
          | none => s
        else goStep s x 3

/-- A survivor has decoded: the rebuild needs one fewer (R284). -/
def survivorOk (s : State) (x : Cw) (parent : Nat) : State :=
  cwUpd (cwDel s x.id) parent fun y => { y with rebuild := y.rebuild.map fun r => { r with left := r.left - 1 } }

/-- Count for log page C0h (R235): 0 program failures, 1 erase failures, 2 failed hard decodes, 3 soft decodes, 4 stripe rebuilds. -/
def countC0 (s : State) (k : Nat) : State := { s with cpc := { s.cpc with fcount := Tbl.put s.cpc.fcount k (Tbl.getD s.cpc.fcount k 0 + 1) } }

/-- A soft decode has succeeded: it counts for its channel and age class (R283). -/
def noteSoft (s : State) (pua : Nat) : State :=
  let k := puaChan pua * 32 + ageClass s pua
  { s with ldc := { s.ldc with tracked := Tbl.put s.ldc.tracked k (Tbl.getD s.ldc.tracked k 0 + 1) } }

/-- Count a recovery at a step (R299), and record it in the weak-block cache. -/
def countRecovery (s : State) (x : Cw) : State :=
  let s := weakPut s x.pua x.step
  match x.step with
  | 1 => bump s 0x1A 0x124 1
  | 2 =>
    noteSoft (countC0 (bump s 0x1A 0x128 1) 3) x.pua
  | 4 => noteSoft (bump s 0x1A 0x130 1) x.pua
  | _ => s

/-- Record the highest corrected-bit count of a hard decode (LDC_MAXCORR). -/
def noteCorr (s : State) (bits : Nat) : State :=
  if rdF s 0x1A 0x11C 8 0 < bits then wr s 0x1A 0x11C (w32 (min bits 511)) else s

/-- R284 accepts a survivor's payload: one of the kinds 0x00 to 0x05, and user data only of the RU's tenant; the parity codeword carries none (R206). -/
def survivorAccepted (s : State) (pua : Nat) : Bool :=
  match (Tbl.find s.flash.cells pua).map Content.asRead, ruOfPua s pua with
  | some (.user _ _ t _ _ _ _), some i => t = (ruAt s i).tenant
  | some .parity, _ => true
  | some c, _ => c.kind ≤ 5
  | none, _ => true

/-- What the XOR of a stripe's survivors gives for a slot (R206, R284): the content that the stripe's parity covers there, where every other slot that it
covers still holds what it covers. -/
def xorOf (s : State) (pua : Nat) : Option Content :=
  match ruOfPua s pua with
  | none => none
  | some i =>
    let r := ruAt s i
    match r.members[parityMember r (puaPage pua / max 1 (ruPpw s r))]? with
    | none => none
    | some m =>
      match Tbl.find s.flash.cover (puaMk m.die (puaPlane pua) m.block (puaPage pua) (puaSlot pua)) with
      | none => none
      | some l => if l.all fun q => q.1 = pua || Tbl.find s.flash.cells q.1 = some q.2 then some (((l.find? fun q => q.1 = pua).map (·.2)).getD .pad) else none

/-- CODEWORD_DECODE_DONE (R278 to R281, R287): the decoder that serves a codeword ends with or without a zero syndrome. A slot that holds nothing
yields no codeword. -/
def decodeDone (s : State) (id : Nat) (zero : Bool) (bits : Nat) : State :=
  match cwOf s id with
  | none => s
  | some x =>
    if !x.decoding || !x.served then s
    else
      let s := cwUpd s id fun y => { y with decoding := false, served := false }
      let x := { x with decoding := false, served := false }
      let hard := x.step ≤ 1
      let cell := Tbl.find s.flash.cells x.pua
      match x.purpose, zero, cell with
      | .survivor p, true, _ =>
        let s := if hard then noteCorr s bits else noteSoft s x.pua
        if survivorAccepted s x.pua then survivorOk s x p else stepFailed s x
      | _, true, some c =>
        match checkPayload s x c with
        | (some c, s) => finishCw (countRecovery (if hard then noteCorr s bits else s) x) x (some c)
        | (none, s) => stepFailed (if hard then countC0 (bump s 0x1A 0x120 1) 2 else s) x
      | _, _, _ => stepFailed (if hard then countC0 (bump s 0x1A 0x120 1) 2 else s) x

/-- STRIPE_REBUILD_DONE (R284, R287): PAR's XOR of the survivors ends; the checked payload wins, or the rebuild has failed. -/
def rebuildDone (s : State) (id : Nat) : State :=
  match cwOf s id with
  | none => s
  | some x =>
    match x.rebuild with
    | none => s
    | some r =>
      if r.waiting || r.failed || r.left ≠ 0 then s
      else
        match xorOf s x.pua with
        | none => rebuildFailed s id
        | some c =>
          match checkPayload s x c with
          | (none, s) => rebuildFailed s id
          | (some c, s) =>
            let s := countC0 (bump (bump s 0x19 0x114 1) 0x1A 0x12C 1) 4
            let s := if x.rbFirst then bump s 0x1A 0x144 1 else s
            finishCw (weakPut s x.pua 3) { x with step := 3 } (some c)

/-- Start the oldest rebuild that waits for an accumulator (R243). -/
def serveRebuilds (s : State) : State :=
  match s.ldc.cws.find? fun x => match x.rebuild with
    | some r => r.waiting
    | none => false with
  | none => s
  | some x =>
    if rdF s 0x19 0x100 7 0 ≤ rebuildsActive s then s
    else match survivorPuas s x.pua with
      | some l => launchSurvivors s x l
      | none => rebuildFailed s x.id

/-- BUSY_HINT_RECEIVED (R265, R286): the die has a hint outstanding for the codeword's queued read; a rebuild-first rebuild is launched while the read stays
queued. -/
def busyHint (s : State) (id : Nat) : State :=
  match cwOf s id with
  | some x =>
    let d := dieOf s (puaDie x.pua)
    if x.step ≤ 2 && d.hint && d.q.any (fun o => some o.id = x.op) then tryRbf s id else s
  | none => s

/-- LDC_STS as read (R299): busy decoders, rebuild-first rebuilds, recovery entries. -/
def ldcStsWord (s : State) : Word :=
  w32 (decBusy s false + decBusy s true * 2 ^ 8 + rbfActive s * 2 ^ 16 + s.ldc.bg.length * 2 ^ 23)

end Sys2Proof.Machine
end

