-- ==== Sys2Proof/Machine/FtlOps.lean ====
section
/-! DEFINITION. The map (R154 to R192): root entries, the Canopy, page-in, eviction, the HMB tier, writebacks, the journal and its application. -/

namespace Sys2Proof.Machine

/-! ### Addresses -/

/-- Global MU index of an MU of a namespace (R155), and back to the namespace. -/
def gmuOf (n : Ns) (mu : Nat) : Nat := (n.leafBase + mu / 2048) * 2048 + mu % 2048
def nsOfRoot (s : State) (root : Nat) : Option (Nat × Ns) :=
  s.ten.nss.find? fun p => p.2.kind = .nvm && p.2.leafBase ≤ root && root < p.2.leafBase + p.2.leafCount

/-- Change a frame. -/
def setFrame (s : State) (i : Nat) (f : Frame) : State := { s with ftl := { s.ftl with frames := Tbl.put s.ftl.frames i f } }

/-- The flash location word of a leaf, wherever the leaf is (R165). -/
def flashLoc (s : State) (r : Nat) : Nat :=
  match (rootOf s r).tier with
  | .flash l => l
  | .canopy f => match Tbl.find s.ftl.frames f with
    | some fr => fr.loc
    | none => 0
  | .hmb d => match Tbl.find s.ftl.hmb d with
    | some h => h.loc
    | none => 0
  | .bad _ => 0

/-- A malformed map entry, root entry or record (R158, R165, R183). -/
def mapCorrupt (s : State) : State := enterFault (blockErr s 0x0E 17 0) 0x0E

/-- Form and size of a leaf as the walker writes it (R162): extent up to ENC_MAX granules, else raw in 10. -/
def leafForm (s : State) (ents : Tbl Nat) : Bool × Nat :=
  let n := extGranules (geomPlanes s) ents
  if n ≤ rdF s 0x0E 0x100 3 0 then (true, n) else (false, 10)

/-- Tenant whose pools a leaf uses (R135, R169). -/
def leafTenant (s : State) (root : Nat) : Nat :=
  match nsOfRoot s root with
  | some (_, n) => n.owner
  | none => 0

/-- The Leaf-pool owner of a leaf. -/
def leafOwner (s : State) (root : Nat) : Nat := ownerOf s (leafTenant s root)

/-! ### Granules, frames and eviction -/

/-- Granules the Canopy holds (FTL_RES_GRAN), those on their way in included, and those of dirty leaves. -/
def resGran (s : State) : Nat := sumOf (fun p => p.2.grans.length) s.ftl.frames + sumOf (fun p => p.2.bufs.length) s.ftl.pageIns
def dirtyGran (s : State) : Nat := sumOf (fun p => if (rootOf s p.2.leaf).dirty then p.2.grans.length else 0) s.ftl.frames

/-- Give a frame's granules back to their owner's pool, and free the frame. -/
def freeFrame (s : State) (i : Nat) : State :=
  match Tbl.find s.ftl.frames i with
  | none => s
  | some f => (f.grans.map (·.2)).foldl bpmFree { s with ftl := { s.ftl with frames := Tbl.del s.ftl.frames i } }

/-- Free places of an HMB tier for n granules: after each held leaf, or at the start of a descriptor's buffer (R174). -/
def hmbPlaces (s : State) (n : Nat) : List Nat :=
  let used := s.ftl.hmb.map fun p => (p.2.granule, p.2.ngran)
  let starts := s.ftl.hmbMem.map (·.1) ++ used.map fun u => u.1 + u.2
  starts.filter fun a =>
    s.ftl.hmbMem.any (fun m => m.1 ≤ a && a + n ≤ m.1 + m.2) && !(used.any fun u => a < u.1 + u.2 && u.1 < a + n)

/-- The HMB tier takes leaves: enabled, granted, and no drop in progress. -/
def hmbEnabled (s : State) : Bool := Word.bit (rd s 0x0E 0x148) 0 && s.ftl.hmbMem ≠ [] && !s.ftl.hmbDropping

/-- Forget an HMB descriptor. -/
def hmbForget (s : State) (d : Nat) : State :=
  { s with ftl := { s.ftl with hmb := Tbl.del s.ftl.hmb d, hmbOrder := s.ftl.hmbOrder.filter (· ≠ d) } }

/-- The descriptor's leaf is on its way into the Canopy. -/
def hmbMoving (s : State) (d : Nat) : Bool := s.ftl.pageIns.any fun p => p.2.src = .hmb d

/-- Free the oldest HMB descriptor that no move reads: its leaf returns to TIER FLASH. -/
def hmbFreeOldest (s : State) : Option State :=
  match s.ftl.hmbOrder.find? fun d => !hmbMoving s d with
  | none => none
  | some d => match Tbl.find s.ftl.hmb d with
    | none => some (hmbForget s d)
    | some h => some (hmbForget (setRoot s h.leaf { rootOf s h.leaf with tier := .flash h.loc }) d)

/-- Move a clean leaf to the HMB tier, freeing the oldest descriptors for room (R174): of granules, and in the table of FTL_HMBD_COUNT descriptors. -/
def hmbPut (s : State) (f : Frame) (n : Nat) : Nat → State
  | 0 => setRoot s f.leaf { tier := .flash f.loc }
  | fuel + 1 =>
    let d := ((List.range (s.ftl.hmb.length + 1)).find? fun i => (Tbl.find s.ftl.hmb i).isNone).getD 0
    match (if d < rdF s 0x0E 0x138 24 0 then pick s (hmbPlaces s n) else (none, s)) with
    | (some g, s) =>
      let h : HmbDesc := { leaf := f.leaf, loc := f.loc, granule := g, ngran := n, raw := f.raw, lseq := f.lseq, entries := f.entries }
      setRoot { s with ftl := { s.ftl with hmb := Tbl.put s.ftl.hmb d h, hmbOrder := s.ftl.hmbOrder ++ [d] } } f.leaf { tier := .hmb d }
    | (none, s) => match hmbFreeOldest s with
      | some s => hmbPut s f n fuel
      | none => setRoot s f.leaf { tier := .flash f.loc }

/-- Evict a clean frame (R170): to the HMB tier if it is enabled and the leaf is whole, else back to TIER FLASH. -/
def evictFrame (s : State) (i : Nat) : State :=
  match Tbl.find s.ftl.frames i with
  | none => s
  | some f =>
    let s := bump (freeFrame s i) 0x0E 0x18C 1
    if hmbEnabled s && locGlen f.loc ≠ 0 && (!f.raw || f.grans.length = 10) then
      hmbPut s f (leafGranules (geomPlanes s) f.raw f.entries) (s.ftl.hmbOrder.length + 1)
    else setRoot s f.leaf { tier := .flash f.loc }

/-- All of a leaf is UNMAPPED. -/
def allUnmapped (f : Frame) : Bool := f.entries.all fun e => e.2 = 0

/-- A leaf's writeback is due (R171). -/
def queueWb (s : State) (root : Nat) : State :=
  if s.ftl.wbQueue.contains root then s else { s with ftl := { s.ftl with wbQueue := s.ftl.wbQueue ++ [root] } }

/-- One look of the clock sweep at a frame (R170): skip, clear REF, queue a writeback, or evict. -/
def sweepOne (s : State) (owner : Nat) (atCap : Bool) (i : Nat) : Bool × State :=
  match Tbl.find s.ftl.frames i with
  | none => (false, s)
  | some f =>
    let r := rootOf s f.leaf
    if leafPins s f.leaf ≠ 0 || r.busy || f.wb then (false, s)
    else if atCap && f.owner ≠ owner then (false, s)
    else if usedOf s f.owner 5 ≤ bpmMin s f.owner 5 then (false, s)
    else if f.ref then (false, setFrame s i { f with ref := false })
    else if r.dirty && !(allUnmapped f && locGlen f.loc = 0) then (false, queueWb s f.leaf)
    else (true, evictFrame s i)

/-- The sweep: the hand passes every frame twice at most, and stops at the first eviction. -/
def sweepAux (owner : Nat) (atCap : Bool) (s : State) : List Nat → Bool × State
  | [] => (false, s)
  | i :: t =>
    let s := { s with ftl := { s.ftl with hand := i + 1 } }
    match sweepOne s owner atCap i with
    | (true, s) => (true, s)
    | (false, s) => sweepAux owner atCap s t

def sweep (s : State) (owner : Nat) (atCap : Bool) : Bool × State :=
  let l := s.ftl.frames.map (·.1)
  let l := l.filter (s.ftl.hand ≤ ·) ++ l.filter (· < s.ftl.hand)
  sweepAux owner atCap s (l ++ l)

/-- An allocation would take the Canopy into its free reserve, or the owner past its class-5 CAP (R170). -/
def granFull (s : State) : Bool := rdF s 0x0E 0x13C 26 0 ≤ resGran s + rdF s 0x0E 0x140 26 0
def granCapped (s : State) (owner : Nat) : Bool := bpmCap s owner 5 ≤ usedOf s owner 5

/-- Take one granule for an owner (R170): where a limit would be passed or none is free the sweep evicts first, and what it could not free is waited for. -/
def takeGranule (s : State) (owner : Nat) : Option Nat × State :=
  let s := if granCapped s owner || granFull s then (sweep s owner (granCapped s owner)).2 else s
  if granCapped s owner || granFull s then (none, s)
  else match bpmTry s owner 5 false with
  | (some a, s) => (some a, s)
  | (none, s) => bpmTry (sweep s owner false).2 owner 5 false

/-- A frame index not in use; none while every frame is in use or promised (R167). -/
def freeFrameIdx (s : State) : Option Nat :=
  let promised := s.ftl.pageIns.filterMap fun p => match p.2.frame with
    | some i => if (Tbl.find s.ftl.frames i).isNone then some i else none
    | none => none
  if rdF s 0x0E 0x118 24 0 ≤ s.ftl.frames.length + promised.length then none
  else (List.range (s.ftl.frames.length + promised.length + 1)).find? fun i => (Tbl.find s.ftl.frames i).isNone && !promised.contains i

/-! ### Leaves on their way into the Canopy -/

/-- The frame of a resident leaf. -/
def residentOf (s : State) (root : Nat) : Option (Nat × Frame) :=
  match (rootOf s root).tier with
  | .canopy i => match Tbl.find s.ftl.frames i with
    | some f => some (i, f)
    | none => none
  | _ => none

/-- Whether the granules that hold an entry are present. -/
def entPresent (f : Frame) (off : Nat) : Bool := !f.raw || (entGranules off).all fun g => (Tbl.find f.grans g).isSome

/-- Change a page-in. -/
def setPg (s : State) (root : Nat) (q : PageIn) : State := { s with ftl := { s.ftl with pageIns := Tbl.put s.ftl.pageIns root q } }

/-- Take the granules of a page-in that it has not, while they can be had. -/
def pgTake (owner root : Nat) (s : State) (q : PageIn) : List Nat → PageIn × State
  | [] => (q, s)
  | g :: t =>
    if (Tbl.find q.bufs g).isSome then pgTake owner root s q t
    else match takeGranule s owner with
    | (none, s) => (q, s)
    | (some a, s) =>
      let q := { q with bufs := Tbl.put q.bufs g a }
      pgTake owner root (setPg s root q) q t

/-- Take the frame and the granules that a page-in lacks (R167, R169, R170). -/
def pgReserve (s : State) (root : Nat) (q : PageIn) : PageIn × State :=
  let o := leafOwner s root
  let s := if q.frame.isNone && (freeFrameIdx s).isNone then (sweep s o false).2 else s
  let q := { q with frame := q.frame.orElse fun _ => freeFrameIdx s }
  let s := setPg s root q
  if q.frame.isNone then (q, s) else pgTake o root s q q.granules

/-- The page-in has all that it takes. -/
def pgReady (q : PageIn) : Bool := q.frame.isSome && q.granules.all fun g => (Tbl.find q.bufs g).isSome

/-- A leaf is noted as dirtied by a record; CKPT_DUE is set at three quarters of the limit (R187). -/
def noteDirty (s : State) (root jseq : Nat) : State :=
  let s := { s with ftl := { s.ftl with dirtySince := Tbl.put s.ftl.dirtySince root jseq } }
  if 3 * rdF s 0x0E 0x14C 24 0 ≤ 4 * s.ftl.dirtySince.length then raiseInt s 0x0E 2 else s

/-- Install a leaf in the frame of its page-in (R168, R169): TIER CANOPY, BUSY clear. -/
def pgInstall (s : State) (root : Nat) (q : PageIn) (f : Frame) : State :=
  let i := q.frame.getD 0
  let s := { s with ftl := { s.ftl with pageIns := Tbl.del s.ftl.pageIns root } }
  setRoot (setFrame s i { f with leaf := root, owner := leafOwner s root, grans := q.bufs }) root { tier := .canopy i }

/-- The slots of a stored leaf that hold some granules, and every granule of those slots (R163, R169). -/
def pageSlots (loc : Nat) (gs : List Nat) : List Nat × List Nat :=
  let slots := (gs.map fun g => (locGoff loc + g) / 4).eraseDups
  (slots, (List.range (locGlen loc)).filter fun g => slots.contains ((locGoff loc + g) / 4))

/-- What a page-in with all its space does next: the codewords of a stored leaf are read, a leaf of the HMB tier is asked for while the management port has
a free non-posted request, and the others are installed. -/
def pgGo (s : State) (root : Nat) (q : PageIn) : State :=
  match q.src with
  | .flash loc =>
    let slots := (pageSlots loc (q.granules ++ (residentOf s root).toList.flatMap fun p => (p.2.grans.map (·.1)).filter fun g => q.granules.any fun h => h = g + 1 || g = h + 1)).1
    let s := setPg s root { q with issued := true, left := slots.length }
    slots.foldl (fun s k => startCw s (locPua loc + k) q.cls { kind := 2, mu := root, slot := k, loc := loc } (.leaf root)) (bump s 0x0E 0x188 1)
  | .hmb d =>
    let p := mgmtPort s
    if 4096 ≤ (Tbl.getD s.ports p {}).np.length + s.ftl.moving.length then s
    else setPg { s with ftl := { s.ftl with moving := Tbl.put s.ftl.moving root d } } root { q with issued := true }
  | .fresh => pgInstall s root q { leaf := root }
  | .rebuilt lseq raw ents =>
    let s := pgInstall s root q { leaf := root, raw := raw, lseq := lseq, entries := ents }
    let s := noteDirty (setRoot s root { rootOf s root with dirty := true }) root lseq
    queueWb { s with ftl := { s.ftl with rebuilding := s.ftl.rebuilding.filter (· ≠ root), leavesRebuilt := s.ftl.leavesRebuilt + 1 } } root
  | .grow =>
    let s := { s with ftl := { s.ftl with pageIns := Tbl.del s.ftl.pageIns root } }
    match residentOf s root with
    | some (i, f) => setRoot (setFrame s i { f with grans := q.bufs.foldl (fun t b => Tbl.put t b.1 b.2) f.grans }) root { rootOf s root with busy := false }
    | none => s

/-- Take a page-in further: what it lacks is taken, and once it has all it goes on. -/
def pgTry (s : State) (root : Nat) : State :=
  match Tbl.find s.ftl.pageIns root with
  | none => s
  | some q =>
    if q.issued then s
    else
      let (q, s) := pgReserve s root q
      if pgReady q then pgGo s root q else s

/-- Begin a page-in: BUSY is set (R169). -/
def pgBegin (s : State) (root : Nat) (q : PageIn) : State := pgTry (setPg (setRoot s root { rootOf s root with busy := true }) root q) root

/-- The granules of a leaf that its entries at some offsets need: those of a raw leaf while PARTIAL is 1, else all. -/
def needGrans (s : State) (raw : Bool) (glen : Nat) (offs : Option (List Nat)) : List Nat :=
  match offs with
  | some l => if raw && Word.bit (rd s 0x0E 0x100) 8 then (l.flatMap entGranules).eraseDups else List.range glen
  | none => List.range glen

/-- Start the page-in of a leaf for entries at some offsets, or for the whole leaf (R168, R169, R174). -/
def pageIn (s : State) (root : Nat) (cls : Nat) (offs : Option (List Nat)) : State :=
  let r := rootOf s root
  if r.busy then s
  else match r.tier with
  | .flash l =>
    if locGlen l = 0 then s
    else pgBegin s root { src := .flash l, cls := cls, granules := (pageSlots l (needGrans s (!locExt l) (locGlen l) offs)).2 }
  | .canopy i => match Tbl.find s.ftl.frames i with
    | some f =>
      let miss := (pageSlots f.loc ((needGrans s f.raw 10 offs).filter fun g => (Tbl.find f.grans g).isNone)).2.filter fun g => (Tbl.find f.grans g).isNone
      if f.raw && miss ≠ [] && locGlen f.loc ≠ 0 then pgBegin s root { src := .flash f.loc, cls := cls, frame := some i, granules := miss } else s
    | none => s
  | .hmb d => match Tbl.find s.ftl.hmb d with
    | some h => pgBegin s root { src := .hmb d, cls := cls, granules := List.range h.ngran }
    | none => s
  | .bad _ => s

/-- Something waits for a leaf. -/
def addWait (s : State) (root : Nat) (w : LookFor) : State := { s with ftl := { s.ftl with waits := s.ftl.waits ++ [(root, w)] } }

/-- Make something wait for a leaf, and start its page-in. -/
def waitLeaf (s : State) (root : Nat) (cls : Nat) (offs : Option (List Nat)) (w : LookFor) : State := pageIn (addWait s root w) root cls offs

/-- The bytes of the granules that the codewords of a page-in bring, by granule, and the LSEQ of their tags. -/
def partGrans (planes root loc : Nat) (parts : Tbl Content) : List (Nat × List Byte × Nat) :=
  (List.range (locGlen loc)).filterMap fun g => match Tbl.find parts ((locGoff loc + g) / 4) with
    | some c => (takeGran (payloadBytes planes (some c)) ((locGoff loc + g) % 4) root g (!locExt loc)).map fun b => (g, b.1, b.2)
    | none => none

/-- Every codeword of a page-in is of one leaf copy that the walker wrote: its content. -/
def sameCopy (parts : Tbl Content) : Option (Nat × Tbl Nat) :=
  match parts with
  | (_, .mapLeaf root lseq raw ents _) :: t => if t.all fun p => match p.2 with
      | .mapLeaf r l w e _ => r = root && l = lseq && w = raw && e = ents
      | _ => false then some (lseq, ents) else none
  | _ => none

/-- The leaf that the codewords of a page-in hold, with its LSEQ (R159 to R164): a copy that the walker wrote decodes to its content; the bytes of any other are
decoded, and one that breaks its form is unreadable. -/
def pgDecode (planes root loc : Nat) (parts : Tbl Content) : Option (Nat × Tbl Nat) :=
  match sameCopy parts with
  | some x => some x
  | none =>
    let l := partGrans planes root loc parts
    let lseq := (l.headD (0, [], 0)).2.2
    if locExt loc then
      (if l.length ≠ locGlen loc then none else (extDecode planes (l.map (·.2.1)).flatten).map fun t => (lseq, t))
    else if l = [] then none
    else some (lseq, rawDecode ((List.range 10).map fun g => match l.find? fun x => x.1 = g with
      | some x => x.2.1
      | none => List.replicate 1024 0).flatten)

/-! ### Lookups -/

/-- A pending write that a reader sees (R177, R178): OPEN, or HELD on the reader's own SQ; the highest write sequence. -/
def pwtVisible (s : State) (reader : Option CmdId) (gmu : Nat) : Option Pwt :=
  (s.ftl.pwt.filter fun p => p.gmu = gmu && !p.dead && (!p.held || (match reader with
    | some c => c.mid = p.cmd.mid && c.sqid = p.cmd.sqid
    | none => false))).foldl (fun b p => match b with
      | none => some p
      | some q => if q.wseq < p.wseq then some p else b) none

/-- The result of a lookup (R168): a pending write, a map entry, a wait, a leaf under rebuild (R192), a malformed root entry (R165), or a refused access (R142). -/
inductive Look where
  | pwt (p : Pwt)
  | ent (e : Nat)
  | wait
  | rebuilding
  | corrupt
  | denied
  deriving DecidableEq, Repr

/-- What the walker touches in DRAM for a leaf, as runs of bytes: its root entry, and of a resident leaf the frame and the granules that hold an entry, all of them in
extent form. -/
def walkRuns (s : State) (root : Nat) (off : Option Nat) : List (Nat × Nat) :=
  let grans := match residentOf s root with
    | none => []
    | some (i, f) => (baseAt s 0x0E 0x110 + 64 * i, 64) :: ((f.grans.filter fun g => !f.raw || (match off with
        | some o => (entGranules o).contains g.1
        | none => true)).map fun g => (g.2, 1024))
  (baseAt s 0x0E 0x104 + 8 * root, 8) :: grans

/-- The walker's accesses to DRAM for a leaf pass the Bark table (R15, R142, R169). They carry the tenant of the leaf. -/
def walkMay (s : State) (root : Nat) (off : Option Nat) (kind : AccKind) : Bool × State :=
  dramMayAll s ⟨0x3A0, leafTenant s root⟩ kind (walkRuns s root off)

/-- A resident leaf stands in chunks of an owner that its tenant has left (R133, R152). -/
def staleFrame (s : State) (f : Frame) : Bool := f.owner ≠ leafOwner s f.leaf

/-- Look a global MU index up in the map (R168 steps 2 to 6); `wait` where the leaf must be paged in, moved, or waited for. -/
def mapLookup (s : State) (gmu : Nat) : Look × State :=
  let root := gmu / 2048
  let r := rootOf s root
  if s.ftl.rebuilding.contains root then (.rebuilding, s)
  else if r.busy then (.wait, bump s 0x0E 0x198 1)
  else match walkMay s root (some (gmu % 2048)) .read with
  | (false, s) => (.denied, s)
  | (true, s) =>
    match r.tier with
    | .flash l => if locGlen l = 0 then (.ent 0, s) else (.wait, s)
    | .hmb _ => (.wait, s)
    | .bad _ => (.corrupt, s)
    | .canopy i =>
      match Tbl.find s.ftl.frames i with
      | none => (.wait, s)
      | some f =>
        if entPresent f (gmu % 2048) && !staleFrame s f then
          (.ent (Tbl.getD f.entries (gmu % 2048) 0), bump (setFrame s i { f with ref := true }) 0x0E 0x180 1)
        else (.wait, s)

/-- Look a global MU index up (R168): the pending-write table first. -/
def lookup (s : State) (reader : Option CmdId) (gmu : Nat) : Look × State :=
  match pwtVisible s reader gmu with
  | some p => (.pwt p, s)
  | none => mapLookup s gmu

/-! ### Writebacks -/

/-- LEAF_WRITEBACK_START (R171, R162): a dirty resident leaf is written from a snapshot; one that is all UNMAPPED is not written,
and its location becomes GLEN 0. Raw granules not present are paged in first. -/
def writebackStart (s : State) (root : Nat) : State :=
  let s := { s with ftl := { s.ftl with wbQueue := s.ftl.wbQueue.filter (· ≠ root) } }
  match residentOf s root with
  | none => s
  | some (i, f) =>
    if f.wb || !(rootOf s root).dirty then s
    else if (rootOf s root).busy then queueWb s root
    else if f.raw && f.grans.length < 10 && locGlen f.loc ≠ 0 then waitLeaf s root 2 none .writeback
    else if allUnmapped f then setRoot (setFrame s i { f with loc := 0 }) root { rootOf s root with dirty := false }
    else
      let (ext, n) := leafForm s f.entries
      queueItem (setFrame s i { f with wb := true }) {
        tenant := 0, ruh := ruhMap, src := .leaf root, content := .mapLeaf root f.lseq (!ext) f.entries, slots := ceilDiv n 4 }

/-- A writeback of a leaf may start (R171): one that is due, or any while the granules of dirty leaves exceed FTL_DIRTY_HI. -/
def wbMay (s : State) (root : Nat) : Bool := s.ftl.wbQueue.contains root || rdF s 0x0E 0x144 26 0 < dirtyGran s

/-! ### The journal -/

/-- Records since the replay start (FTL_JRNL_USED). -/
def jUsed (s : State) : Nat := s.ftl.jseq - s.ftl.jstart

/-- The flash groups are away in PS4, or on their way back: nothing is admitted that the flush would need flash for (R465). -/
def groupsAway (s : State) : Bool := s.pwr.psGate ≠ []

/-- Placement records may not be appended (R187, R465). -/
def jStalled (s : State) : Bool :=
  groupsAway s || rdF s 0x0E 0x150 26 0 ≤ jUsed s || rdF s 0x0E 0x14C 24 0 ≤ s.ftl.dirtySince.length

/-- Append a record to the journal buffer (R183). CKPT_DUE is set when a counter reaches three quarters of its limit (R187). -/
def jAppend (s : State) (t : JType) (mu a b c : Nat) : JRec × State :=
  let r : JRec := ⟨s.ftl.jseq, t, mu, a, b, c⟩
  let s := { s with ftl := { s.ftl with jseq := s.ftl.jseq + 1, jbuf := s.ftl.jbuf ++ [r] } }
  (r, if 3 * rdF s 0x0E 0x150 26 0 ≤ 4 * jUsed s then raiseInt s 0x0E 2 else s)

/-- Change one entry of a resident leaf, and invalidate the PUA it named (R182). -/
def putEntry (s : State) (i : Nat) (off e : Nat) : State :=
  match Tbl.find s.ftl.frames i with
  | none => s
  | some f =>
    let old := Tbl.getD f.entries off 0
    let s := setFrame s i { f with entries := Tbl.putC 0 f.entries off e }
    let s := if entFlags old = 1 && old ≠ e then invalidate s (entPua old) else s
    if entFlags e = 1 then validate s (entPua e) else s

/-- The entry changes a record makes in one leaf: offsets with their new entries. -/
def recChanges (r : JRec) (root : Nat) (ents : Tbl Nat) : List (Nat × Nat) :=
  let inLeaf (k : Nat) : Bool := k / 2048 = root
  match r.typ with
  | .mapRec => ((List.range (r.c % 32 + 1)).filter fun k => inLeaf (r.mu + k)).map fun k =>
      ((r.mu + k) % 2048, entMapped ((List.range k).foldl (fun p _ => puaSucc p) r.a))
  | .trim => ((List.range 2048).filter fun o => r.mu ≤ root * 2048 + o && root * 2048 + o < r.mu + r.a).map fun o => (o, 0)
  | .uncorr => ((List.range 2048).filter fun o => r.mu ≤ root * 2048 + o && root * 2048 + o < r.mu + r.a).map fun o => (o, entUncorr)
  | .reloc => if inLeaf r.mu && Tbl.getD ents (r.mu % 2048) 0 = entMapped r.a then [(r.mu % 2048, entMapped r.b)] else []
  | _ => []

/-- The record covers a leaf whole (R182). -/
def coversLeaf (r : JRec) (root : Nat) : Bool := r.mu ≤ root * 2048 && root * 2048 + 2048 ≤ r.mu + r.a

/-- Remove pending-write entries; a buffer is released with the last entry whose data it holds (R177, R210). -/
def pwtRemove (s : State) (gone : Pwt → Bool) : State :=
  let l := s.ftl.pwt.filter gone
  let s := { s with ftl := { s.ftl with pwt := s.ftl.pwt.filter fun p => !gone p } }
  (((l.map (·.buf)).eraseDups).filter fun b => b ≠ 0 && !((s.ftl.pwt ++ s.ftl.pwtWait).any fun q => q.buf = b)).foldl bpmFree s

/-- Remove pending writes that a record has made part of the map (R177): placed, closed, and applied. -/
def dropPwt (s : State) (gmu pua : Nat) : State := pwtRemove s fun p => p.gmu = gmu && p.pua = some pua && !p.held

/-- The victim's book-keeping of an applied RELOC record (R180, R220). -/
def relocApplied (s : State) (r : JRec) : State :=
  match ruOfPua s r.a with
  | some i =>
    let u := ruAt s i
    setRu s i { u with relocs := u.relocs.filter (· ≠ r.jseq), moving := u.moving.filter (· ≠ r.a), valid := u.valid.filter (· ≠ r.a) }
  | none => s

/-- What a record ends besides the entries: its pending write, or the move of its victim. -/
def recEnds (s : State) (r : JRec) : State :=
  match r.typ with
  | .mapRec => dropPwt s r.mu r.a
  | .reloc => relocApplied s r
  | _ => s

/-- A record is applied: REPLAY counts it (R195). -/
def noteApplied (s : State) (r : JRec) : State :=
  match s.ftl.replayRun with
  | some (d, l) => if l.contains r.jseq then s else { s with ftl := { s.ftl with replayRun := some (d, r.jseq :: l) } }
  | none => s

/-- Apply a record to a resident leaf that holds what it needs (R177, R182, R632). A record that the copy already holds is skipped (R185). -/
def applyResident (s : State) (i root : Nat) (r : JRec) : State :=
  match Tbl.find s.ftl.frames i with
  | none => s
  | some f =>
    if r.jseq ≤ f.lseq then recEnds s r
    else
      let s := (recChanges r root f.entries).foldl (fun s c => putEntry s i c.1 c.2) s
      let s := match Tbl.find s.ftl.frames i with
        | some f => setFrame s i { f with lseq := r.jseq, ref := true, raw := f.raw || !(leafForm s f.entries).1 }
        | none => s
      recEnds (noteApplied (noteDirty (setRoot s root { rootOf s root with dirty := true }) root r.jseq) r) r

/-- The map entries of a leaf, wherever it is (R165): an unlisted one is UNMAPPED. -/
def leafEntries (s : State) (root : Nat) : Tbl Nat :=
  match (rootOf s root).tier with
  | .canopy i => match Tbl.find s.ftl.frames i with
    | some f => f.entries
    | none => []
  | .hmb d => match Tbl.find s.ftl.hmb d with
    | some h => h.entries
    | none => []
  | .flash l => if locGlen l = 0 then [] else match Tbl.find s.flash.cells (locPua l) with
    | some (.mapLeaf _ _ _ ents _) => ents
    | _ => []
  | .bad _ => []

/-- Free the frame or descriptor of a leaf, and set its root entry to TIER FLASH with GLEN 0 (R182); the units that its entries name are no longer valid. -/
def dropLeaf (s : State) (root : Nat) : State :=
  let s := (leafEntries s root).foldl (fun s e => if entFlags e.2 = 1 then invalidate s (entPua e.2) else s) s
  let s := match (rootOf s root).tier with
    | .canopy i => freeFrame s i
    | .hmb d => hmbForget s d
    | _ => s
  setRoot s root {}

/-- What a record needs before it can be applied to a leaf. -/
inductive Need where
  | ready (frame : Nat)
  | nothing
  | page (q : PageIn)
  | leaf (offs : List Nat)
  deriving DecidableEq, Repr

/-- What a record needs of a leaf (R169, R182, R632): nothing where a leaf never written would not change, the frame where the leaf is resident with every
granule that the record touches and room for the new encoding, else what is to be brought. -/
def needOf (s : State) (r : JRec) (root : Nat) : Need :=
  match (rootOf s root).tier with
  | .canopy i =>
    match Tbl.find s.ftl.frames i with
    | none => .nothing
    | some f =>
      let ch := recChanges r root f.entries
      let offs := if r.typ = .reloc then [r.mu % 2048] else ch.map (·.1)
      if !(offs.all (entPresent f)) then .leaf offs
      else if f.raw then .ready i
      else
        let n := (leafForm s (ch.foldl (fun t c => Tbl.putC 0 t c.1 c.2) f.entries)).2
        let miss := (List.range n).filter fun g => (Tbl.find f.grans g).isNone
        if miss = [] then .ready i else .page { src := .grow, frame := some i, granules := miss }
  | .flash l =>
    if locGlen l = 0 then (if recChanges r root [] = [] then .nothing else .page { src := .fresh, granules := [0] })
    else .leaf (if r.typ = .reloc then [r.mu % 2048] else (recChanges r root []).map (·.1))
  | .hmb _ => .leaf []
  | .bad _ => .nothing

/-- Apply a record to a leaf as soon as the leaf holds what it needs. -/
def applyGo (s : State) (r : JRec) (root : Nat) : Nat → State
  | 0 => addWait s root (.apply r)
  | n + 1 =>
    match needOf s r root with
    | .nothing => recEnds s r
    | .ready i => applyResident s i root r
    | .leaf offs => waitLeaf s root 2 (some offs) (.apply r)
    | .page q =>
      let s := pgBegin s root q
      if (rootOf s root).busy then addWait s root (.apply r) else applyGo s r root n

/-- LSEQ of the copy of a leaf in a flash slot, and of the current copy of a leaf. -/
def copyLseq (s : State) (pua : Nat) : Nat :=
  match Tbl.find s.flash.cells pua with
  | some (.mapLeaf _ l _ _ _) => l
  | some (.raw p) => byteFld p 4104 7
  | _ => 0
def currentLseq (s : State) (root : Nat) : Nat :=
  match (rootOf s root).tier with
  | .canopy i => match Tbl.find s.ftl.frames i with
    | some f => f.lseq
    | none => 0
  | .hmb d => match Tbl.find s.ftl.hmb d with
    | some h => h.lseq
    | none => 0
  | .flash l => if locGlen l = 0 then 0 else copyLseq s (locPua l)
  | .bad _ => 0

/-- A LEAFWB record in replay sets the leaf's flash location, and is skipped where the current copy has a higher LSEQ (R185). -/
def applyWb (s : State) (r : JRec) (root : Nat) : State :=
  let word := locMk r.a (r.c % 4) (r.c / 4 % 16) (r.c / 64 % 2 = 1)
  if copyLseq s r.a < currentLseq s root then s
  else match residentOf s root with
    | some (i, f) => setFrame (noteApplied s r) i { f with loc := word }
    | none => setRoot (noteApplied s r) root { rootOf s root with tier := .flash word }

/-- Apply a record to one leaf (R177, R180, R182, R632): at once where the leaf is resident with what the record needs, or never written; else after its
page-in. Records of one leaf apply in order. The walker's accesses are journal work: a refusal is a Fault (R142). -/
def applyLeaf (s : State) (r : JRec) (root : Nat) : State :=
  if (rootOf s root).busy || s.ftl.waits.any (fun w => w.1 = root && (match w.2 with
      | .apply _ => true
      | _ => false)) then addWait s root (.apply r)
  else if r.typ = .leafwb then applyWb s r root
  else match walkMay s root none .write with
  | (false, s) => enterFault s 0x0E
  | (true, s) =>
    match (rootOf s root).tier with
    | .bad _ => mapCorrupt s
    | _ =>
      if r.typ = .trim && coversLeaf r root then
        (if r.jseq ≤ currentLseq s root then s else noteApplied (noteDirty (dropLeaf s root) root r.jseq) r)
      else applyGo s r root 3

/-- The leaves that a record touches. -/
def recLeaves (r : JRec) : List Nat :=
  let n := match r.typ with
    | .trim | .uncorr => r.a
    | .mapRec => r.c % 32 + 1
    | .reloc | .leafwb => 1
    | _ => 0
  if n = 0 then [] else (List.range ((r.mu + n + 2047) / 2048 - r.mu / 2048)).map (r.mu / 2048 + ·)

/-- Apply a record to every leaf it touches. -/
def applyRecord (s : State) (r : JRec) : State := (recLeaves r).foldl (fun s root => applyLeaf s r root) s

/-- Append a record and apply it; MAP, TRIM, UNCORR and RELOC records stall at the checkpoint limits (R187). -/
def journal (s : State) (t : JType) (mu a b c : Nat) : State :=
  if jStalled s then { s with ftl := { s.ftl with stalled := s.ftl.stalled ++ [⟨0, t, mu, a, b, c⟩] } }
  else
    let (r, s) := jAppend s t mu a b c
    let s := match t with
      | .reloc => match ruOfPua s a with
        | some i => setRu s i { ruAt s i with relocs := r.jseq :: (ruAt s i).relocs }
        | none => s
      | _ => s
    applyRecord s r

/-- What an NSMETA record's payload holds of a namespace (R183): its table entry, size, kind and reservation state; the layout is the model's (DESIGN CHOICE,
entry 121). A namespace that is gone has an entry without VALID. -/
def nsPayload (s : State) (nsid : Nat) : List Byte :=
  match Tbl.find s.ten.nss nsid with
  | none => List.replicate 16 0
  | some n =>
    nstBytes n ++ fieldBytes [(8, n.lbas), (1, n.rtype), (1, n.ptpl.toNat), (4, n.rgen), (2, n.regs.length)]
      ++ (n.regs.map fun r => fieldBytes [(8, r.hostId), (8, r.key), (2, r.mid), (1, (decide (n.holder = some r.hostId)).toNat), (13, 0)]).flatten

/-- The payload as records of 128 bits. -/
def payloadRecs (b : List Byte) : List (Nat × Nat) :=
  (List.range (ceilDiv b.length 16)).map fun i => (byteFld b (16 * i) 16 % 2 ^ 35, byteFld b (16 * i) 16 / 2 ^ 35)

/-- Append an NSMETA record with its payload (R183, R631). -/
def journalNs (s : State) (nsid : Nat) : State :=
  let l := payloadRecs (nsPayload s nsid)
  l.foldl (fun s p => (jAppend s .payload p.1 p.2 0 0).2) (jAppend s .nsmeta nsid 0 0 l.length).2

/-! ### What stands -/

/-- A write fetched before a sequence may still come (R176). -/
def earlierDue (s : State) (wseq : Nat) : Bool :=
  s.hqe.ctxs.any (fun x => x.wseq < wseq && x.wseq ≠ 0) || s.ftl.pwt.any (fun p => p.held && p.wseq < wseq) || s.ftl.pwtWait.any fun p => p.wseq < wseq

/-- A write or TRIM has entered the map: while writes fetched before it may still come, its sequence is remembered (R179). -/
def noteStood (s : State) (x : Stood) : State :=
  if earlierDue s x.wseq then { s with ftl := { s.ftl with stood := s.ftl.stood ++ [x] } } else s

/-- What no write can come before any more is forgotten. -/
def pruneStood (s : State) : State := { s with ftl := { s.ftl with stood := s.ftl.stood.filter fun x => earlierDue s x.wseq } }

/-- A TRIM or UNCORR of a range of MUs from a command (R182): pending writes with a lower sequence are superseded, then the
record is journalled. -/
def deallocate (s : State) (t : JType) (gmu count wseq : Nat) : State :=
  if count = 0 then s
  else
    let hit (p : Pwt) : Bool := gmu ≤ p.gmu && p.gmu < gmu + count && p.wseq < wseq
    let s := { s with ftl := { s.ftl with
      pwt := s.ftl.pwt.map (fun p => if hit p then { p with dead := true } else p), pwtWait := s.ftl.pwtWait.filter fun p => !hit p } }
    noteStood (journal (pwtRemove s fun p => p.dead && !p.queued && p.pua.isNone) t gmu count 0 0) { gmu := gmu, count := count, wseq := wseq }

/-- An MU of a host write is placed (R179): MAP, or DEAD where a later write stands. -/
def placedHost (s : State) (gmu wseq pua : Nat) : State :=
  match s.ftl.pwt.find? fun p => p.gmu = gmu && p.wseq = wseq with
  | none => journal s .dead gmu pua 0 0
  | some p =>
    let later := s.ftl.pwt.any fun q => q.gmu = gmu && !q.held && !q.dead && wseq < q.wseq
    if later || p.dead then
      let s := pwtRemove s fun q => q = p
      invalidate (journal s .dead gmu pua 0 0) pua
    else
      let s := { s with ftl := { s.ftl with pwt := s.ftl.pwt.map fun q =>
        if q = p then { q with pua := some pua }
        else if q.gmu = gmu && q.wseq < wseq && !q.held then { q with dead := true } else q } }
      let s := journal (pwtRemove s fun p => p.dead && !p.queued && p.pua.isNone) .mapRec gmu pua 0 0
      noteStood s { gmu := gmu, wseq := wseq, mask := p.mask }

/-- The location word of a leaf's new copy becomes current (R171): LEAFWB is appended, the frame takes the location, DIRTY
clears if nothing was applied after the snapshot. The copy begins at granule 0 of its slot (DESIGN CHOICE, entry 123). A copy of a leaf that was dropped meanwhile
is never referenced (R172, R182). -/
def leafWritten (s : State) (root pua glen lseq : Nat) (ext : Bool) : State :=
  match residentOf s root with
  | none => s
  | some (i, f) =>
    if !f.wb then s
    else
    let (_, s) := jAppend s .leafwb (root * 2048) pua 0 (glen * 4 + ext.toNat * 64)
    let s := setFrame s i { f with loc := locMk pua 0 glen ext, wb := false }
    let s := bump s 0x0E 0x190 1
    if f.lseq = lseq then setRoot s root { rootOf s root with dirty := false } else s

/-! ### Namespace utilisation -/

/-- MUs of a namespace that are allocated: mapped, uncorrectable, or pending. -/
def musUsed (s : State) (n : Ns) : Nat :=
  let base := n.leafBase * 2048
  let pend := ((s.ftl.pwt.filter fun p => !p.dead && !p.held && base ≤ p.gmu && p.gmu < base + n.leafCount * 2048).map (·.gmu)).eraseDups
  sumOf (fun k =>
    let ents := leafEntries s (n.leafBase + k)
    countOf (fun e => e.2 ≠ 0) ents
      + countOf (fun g => g / 2048 = n.leafBase + k && Tbl.getD ents (g % 2048) 0 = 0) pend) (List.range n.leafCount)

/-- NUSE of a namespace in LBAs. -/
def nuse (s : State) (n : Ns) : Nat := min n.lbas (musUsed s n * (if n.lbaf = 0 then 1 else 8))

end Sys2Proof.Machine
end

