-- ==== Sys2Proof/Machine/CpcOps.lean ====
section
/-! DEFINITION. Placement (R205 to R217): allocation of reclaim units, assignment of slots, rows, parity, programs, closure, and the
handling of program and erase failures (R226 to R228). -/

namespace Sys2Proof.Machine

/-- Key of an open RU: tenant, handle, die set. -/
def openKey (t ruh dset : Nat) : Nat := (t * 16 + ruh) * 64 + dset

/-- The die set a handle's rotation stands at (R216). -/
def rotOf (s : State) (t ruh : Nat) : Nat := Tbl.getD s.cpc.rot (t * 16 + ruh) (t % max 1 s.cpc.dsets.length)

/-- Die sets from one on, wrapping. -/
def dsetsFrom (s : State) (k : Nat) : List (Nat × DieSet) :=
  s.cpc.dsets.filter (k ≤ ·.1) ++ s.cpc.dsets.filter (·.1 < k)

/-- FREE RUs of a die set with the lowest erase count (R217). -/
def lowestFree (s : State) (d : DieSet) : List Nat :=
  let l := freeRus s d
  let m := (l.map fun i => (ruAt s i).eraseCnt).foldl min (((l.map fun i => (ruAt s i).eraseCnt)).headD 0)
  l.filter fun i => (ruAt s i).eraseCnt = m

/-- The die set an RU is taken from for a handle (R216, R217): the one chosen, or the next where the handle has an RU or one is FREE. -/
def placeSet (s : State) (t ruh k : Nat) : Nat :=
  match (dsetsFrom s k).find? fun d => (Tbl.find s.cpc.opens (openKey t ruh d.1)).isSome || freeRus s d.2 ≠ [] with
  | some d => d.1
  | none => k

/-- The tenant may take a FREE RU (R217); a host row also needs headroom above FREE_LOW (R218). -/
def mayAlloc (s : State) (t ruh : Nat) : Bool :=
  heldRus s t < ruMax s t && (heldRus s t < ruRsv s t || 0 < unrsvRus s) && !s.cpc.stopAlloc.contains t
    && (8 ≤ ruh || (freeLow s t : Int) < headroom s t)

/-- Issue the erase of a member of an RU. -/
def eraseMember (s : State) (idx m : Nat) : State :=
  let r := ruAt s idx
  match r.members[m]? with
  | none => s
  | some mb =>
    if mb.skip then s
    else (submitOp s {
      opc := 6, slc := r.slc, tenant := r.tenant, pmask := 2 ^ geomPlanes s - 1, addr := puaMk mb.die 0 mb.block 0 0,
      sub := .coppice, purpose := .erase idx m }).2

/-- The members of an RU before its erase (R217, R229): bad blocks leave service, and members on retired dies are SKIP. -/
def prepRu (s : State) (i : Nat) : State :=
  (List.range (ruAt s i).members.length).foldl (fun s m =>
    match (ruAt s i).members[m]? with
    | some mb =>
      if mb.skip then s
      else if s.cpc.retiredDies.contains mb.die then setRu s i { ruAt s i with members := setNth (ruAt s i).members m { mb with skip := true } }
      else if isBad s mb.die mb.block then replaceMember s i m else s
    | none => s) s

/-- A descriptor breaks R203: a STATE above 5, or a reserved handle. -/
def descBroken (s : State) (i : Nat) : Bool := (match (ruAt s i).st with
  | .bad _ => true
  | _ => false) || 12 < (ruAt s i).ruh

/-- Coppice found a broken structure in its own work (R241): it stops, and the device enters Fault. -/
def cpcBroken (s : State) : State := enterFault (blockErr { s with cpc := { s.cpc with ring := { s.cpc.ring with stopped := true } } } 0x0F 16 0) 0x0F

/-- Allocate an RU for a tenant and handle in a die set that has a FREE one (R217): its bad blocks leave service, members on retired
dies are SKIP (R229), and the others are erased. -/
def allocRu (s : State) (t ruh dset : Nat) : State :=
  if !mayAlloc s t ruh then
    if s.cpc.waits.contains t then s else { s with cpc := { s.cpc with waits := s.cpc.waits ++ [t] } }
  else
    match Tbl.find s.cpc.dsets dset with
    | none => s
    | some d =>
      if (setRus d).any (descBroken s) then cpcBroken s else
      let (i, s) := pick s (lowestFree s d)
      match i with
      | none => s
      | some i =>
        let r := ruAt s i
        let s := setRu s i { r with
          st := .erasing, tenant := t, ruh := ruh, slc := ruh = ruhFlush, degraded := false, short := false, refresh := false,
          valid := [], nextRow := 0, rows := 0, readMax := 0, reads := [], open_ := [], skipRows := [], closing := false,
          epoch := tenEpoch s t, erased := [], moving := [], relocs := [], rebuilt := [], wear := false, rotated := false }
        let s := prepRu s i
        let s := { s with cpc := { s.cpc with opens := Tbl.put s.cpc.opens (openKey t ruh dset) i, waits := s.cpc.waits.filter (· ≠ t) } }
        if ruWidth (ruAt s i) < 8 then
          let s := setRu s i { ruAt s i with st := .retired }
          { s with cpc := { s.cpc with opens := Tbl.del s.cpc.opens (openKey t ruh dset) } }
        else (List.range r.members.length).foldl (fun s m => eraseMember s i m) s

/-- Close an RU (R202, R203): SHORT where it closes before its last row; its handle's rotation moves on where writes that name no reclaim group were placed
in it (R216). -/
def closeRu (s : State) (idx : Nat) : State :=
  let r := ruAt s idx
  let s := setRu s idx { r with st := .closed, short := r.short || r.nextRow < ruRows s r, closing := false }
  let k := openKey r.tenant r.ruh r.dset
  let s := { s with cpc := { s.cpc with opens := s.cpc.opens.filter fun p => p.2 ≠ idx } }
  if Tbl.find s.cpc.opens k = none && r.rotated && rotOf s r.tenant r.ruh = r.dset then
    { s with cpc := { s.cpc with rot := Tbl.put s.cpc.rot (r.tenant * 16 + r.ruh) ((r.dset + 1) % max 1 s.cpc.dsets.length) } }
  else s

/-- Change a row of an RU. -/
def setRow (s : State) (idx row : Nat) (w : Row) : State :=
  setRu s idx { ruAt s idx with open_ := Tbl.put (ruAt s idx).open_ row w }

/-- A row of an RU. -/
def rowOf (s : State) (idx row : Nat) : Option Row := Tbl.find (ruAt s idx).open_ row

/-- Issue one pass of a member's program. -/
def progMember (s : State) (idx row m opc : Nat) (cls : Nat) : State :=
  let r := ruAt s idx
  match r.members[m]? with
  | none => s
  | some mb => (submitOp s {
      opc := opc, cls := cls, slc := r.slc, tenant := r.tenant, pmask := 2 ^ geomPlanes s - 1,
      addr := puaMk mb.die 0 mb.block (row * ruPpw s r) 0, sub := if r.ruh = ruhFlush then .flush else .coppice,
      purpose := .prog idx row m }).2

/-- The program passes are two (R209): QLC dies outside SLC mode. -/
def twoPass (s : State) (r : Ru) : Bool := geomTwoPass s && !r.slc

/-- The tenant of a window slice (R345). -/
def sliceTen (s : State) (k : Nat) : Nat := Word.fld (rd s 0x18 (0x1000 + 8 * k)) 10 2

/-- A write of a tenant is held at the dirty cap (R319): a request, or what a grove writes back at a recall. -/
def tenHeld (s : State) (t : Nat) : Bool :=
  s.win.queue.any (fun r => r.held && sliceTen s (r.line / 2 ^ 22) = t) || s.win.pends.any fun p => p.late && sliceTen s (p.line / 2 ^ 22) = t

/-- The trickle runs in class CLOSE for a tenant (R315): the dirty count has reached HI_PCT % of the cap, a write of the tenant is held, or the
window is Not armed. On the way into PS4 the dirty granules go out the same way (R465). -/
def trickleClose (s : State) (t : Nat) : Bool :=
  s.pwr.psEff = 4 || rdF s 0x18 0x128 23 16 * rdF s 0x18 0x11C 21 0 ≤ 100 * dirtyCount s || tenHeld s t || s.win.state = 2

/-- A row of the trickle holds a granule of a tenant that it serves in class CLOSE. -/
def rowTrickle (s : State) (w : Row) : Bool := w.items.any fun it => match it.src with
  | .backing g _ => trickleClose s (sliceTen s (g / 4096))
  | _ => false

/-- Class of a row's programs: CLOSE for a forced closure (R211), for the flush, and for a trickle in that class (R315). -/
def rowCls (s : State) (r : Ru) (w : Row) : Nat :=
  if w.forced || r.ruh = ruhFlush || (r.ruh = ruhBacking && rowTrickle s w) then 1 else 2

/-- A relocation that no tenant's budget pays for (R222): of a refresh, which PROG_BUDGET does not hold back, or on the background budget. -/
def freeOfBudget (s : State) (it : Item) : Bool := match it.src with
  | .reloc _ old => s.cpc.rebuild.contains old || (match ruOfPua s old with
    | some i => (ruAt s i).refresh || (ruAt s i).wear
    | none => false)
  | _ => false

/-- PROG_BUDGET of the row's tenant where it counts for the row (R219, R222); 0 is unlimited. -/
def rowBudget (s : State) (r : Ru) (w : Row) : Nat :=
  if r.ruh = ruhFlush || w.items.any (freeOfBudget s) then 0 else rdF s 0x0F (0x2008 + 16 * r.tenant) 31 16

/-- A row may be programmed under the tenant's PROG_BUDGET (R219) and the pacing of reclaim (R221). A row larger than the bucket goes when the
bucket is full. -/
def rowMayIssue (s : State) (r : Ru) (row : Nat) (w : Row) : Bool :=
  let b := rowBudget s r w
  let budget := b = 0 || min (rowSlots s r row * 4) (b * 1024) ≤ Tbl.getD s.cpc.budget r.tenant (b * 1024)
  let victim := s.cpc.rus.find? fun p => p.2.st = .victim && p.2.tenant = r.tenant && !p.2.wear && p.2.ruh < 8
  let pace := match victim with
    | some v =>
      let val := v.2.valid.length
      let cap := ruCap s v.2
      let q := min 64 (ceilDiv val (max 1 (cap - val)))
      8 ≤ r.ruh || q ≤ Tbl.getD s.cpc.pace r.tenant 0
    | none => true
  budget && pace

/-- A row is admitted (R219, R221): its bytes leave the bucket, and it counts as a row of relocation or of the host. -/
def admitRow (s : State) (idx row : Nat) (w : Row) : State :=
  let r := ruAt s idx
  let b := rowBudget s r w
  let s := { s with cpc := { s.cpc with
    budget := if b = 0 then s.cpc.budget else Tbl.put s.cpc.budget r.tenant (Tbl.getD s.cpc.budget r.tenant (b * 1024) - rowSlots s r row * 4)
    pace := Tbl.put s.cpc.pace r.tenant (if r.ruh = ruhGc then Tbl.getD s.cpc.pace r.tenant 0 + 1 else 0) } }
  let s := setRow s idx row { w with sent := true }
  if r.progTime = 0 then setRu s idx { ruAt s idx with progTime := s.dev.rtc } else s

/-- The programs of the word lines before this one have been issued on a member (R208). -/
def inOrder (r : Ru) (row m : Nat) : Bool := r.open_.all fun p => row ≤ p.1 || (Tbl.find p.2.units m).isSome

/-- Issue a member's program of a row, in word-line order on its die (R208). -/
def issueUnit (s : State) (idx row m : Nat) : State :=
  let r := ruAt s idx
  match rowOf s idx row with
  | none => s
  | some w =>
    if (Tbl.find w.units m).isSome || !inOrder r row m then s
    else
      let st : UnitSt := if twoPass s r then .foggy else .issued
      progMember (setRow s idx row { w with units := Tbl.put w.units m st }) idx row m (if twoPass s r then 4 else 3) (rowCls s r w)

/-- The data members of a row whose slots are all assigned or padded (R208). -/
def fullUnits (s : State) (r : Ru) (row : Nat) (w : Row) : List Nat :=
  (dataMembers r row).take (w.fill / max 1 (unitSlots s r))

/-- Every data unit of a row has ended. -/
def dataEnded (r : Ru) (row : Nat) (w : Row) : Bool :=
  (dataMembers r row).all fun m => Tbl.find w.units m = some .done || Tbl.find w.units m = some .failed

/-- Issue what a row can (R208): the data programs of its full units once the row is admitted, and the parity program once the parity has been
emitted and every data program has reported success. A row that lost a unit keeps its parity (R227). -/
def issueRow (s : State) (idx row : Nat) : State :=
  let r := ruAt s idx
  match rowOf s idx row with
  | none => s
  | some w =>
    let ms := fullUnits s r row w
    if ms = [] || (!w.sent && (!rowMayIssue s r row w || r.open_.any fun p => p.1 < row && !p.2.sent)) then s
    else
      let s := ms.foldl (fun s m => issueUnit s idx row m) (if w.sent then s else admitRow s idx row w)
      if w.emitted && dataEnded r row w then issueUnit s idx row (parityMember r row) else s

/-- What the placement of an item records (R179, R180, R171, R184). -/
def placeItem (s : State) (it : Item) : State :=
  match it.src with
  | .host g w => placedHost (egUpd { s with cpc := { s.cpc with hostMus := s.cpc.hostMus + 1 } } it.tenant fun e => { e with media := e.media + 1 }) g w it.pua
  | .reloc g old =>
    let fresh := match ruOfPua s old with
      | some i => (ruAt s i).refresh || ((ruAt s i).wear && (ruAt s i).ruh ≠ ruhFlush)
      | none => false
    let s := egUpd { s with cpc := { s.cpc with relocMus := s.cpc.relocMus + 1, refreshed := s.cpc.refreshed + fresh.toNat } } it.tenant fun e => { e with media := e.media + 1 }
    let s := if it.buf = 0 || s.ldc.bg.any (·.pua = old) then s else bpmFree s it.buf
    journal (bump s 0x0F 0x160 1) .reloc g old it.pua 0
  | .leaf root => { s with ftl := { s.ftl with wbDone := Tbl.put s.ftl.wbDone root it.pua } }
  | .jpage _ =>
    match it.content with
    | .journal recs _ => { s with ftl := { s.ftl with
        jpages := s.ftl.jpages ++ [recs], jpending := s.ftl.jpending.filter fun r => !recs.contains r } }
    | _ => s
  | src => { s with cpc := { s.cpc with sysDone := s.cpc.sysDone ++ [(src, it.pua)] } }

/-- The items of a row that lie in a member's unit. -/
def unitItems (s : State) (idx row m : Nat) : List Item :=
  let r := ruAt s idx
  match rowOf s idx row, r.members[m]? with
  | some w, some mb => w.items.filter fun it => puaDie it.pua = mb.die && puaBlock it.pua = mb.block
  | _, _ => []

/-- Place the items of the units of a row that are closed (R179). -/
def placeUnits (s : State) (idx row : Nat) : State :=
  match rowOf s idx row with
  | some w => (dataMembers (ruAt s idx) row).foldl (fun s m =>
      if Tbl.find w.units m = some .done then (unitItems s idx row m).foldl placeItem s else s) s
  | none => s

/-- Accumulators that fold rows: those in service that PAR_CFG.REBUILD_ACC does not keep for rebuilds (R207, R495). -/
def foldAccs (s : State) : Nat := countOf (fun u => !resOut s 5 0x19 u) (List.range 256) - rdF s 0x19 0x100 7 0

/-- Write an accumulator back to its parity buffer where all are in use: which is not stated, so it is free (R207). -/
def spillAcc (s : State) : State :=
  if s.cpc.accs.length < foldAccs s then s
  else match pick s s.cpc.accs with
    | (some v, s) => bump { s with cpc := { s.cpc with accs := s.cpc.accs.filter (· ≠ v), spilled := s.cpc.spilled ++ [v] } } 0x19 0x11C 1
    | (none, s) => s

/-- Fold a page into its position's accumulator: one that stands in the parity buffer is loaded first (R207). -/
def foldPage (s : State) (k : Nat × Nat × Nat) : State :=
  let s := bump s 0x19 0x10C 1
  if s.cpc.accs.contains k then s
  else
    let s := spillAcc s
    let s := if s.cpc.spilled.contains k then bump { s with cpc := { s.cpc with spilled := s.cpc.spilled.filter (· ≠ k) } } 0x19 0x120 1 else s
    { s with cpc := { s.cpc with accs := s.cpc.accs ++ [k] } }

/-- PAR folds the pages of a row that a number of slots completes (R207). -/
def foldPages (s : State) (idx row before after : Nat) : State :=
  (List.range (after / 4 - before / 4)).foldl (fun s i => foldPage s (idx, row, (before / 4 + i) % max 1 (unitSlots s (ruAt s idx) / 4))) s

/-- A row's parity stands in its parity buffer: its accumulators are free again (R207). -/
def emitAccs (s : State) (idx row : Nat) : State :=
  let mine (k : Nat × Nat × Nat) : Bool := k.1 = idx && k.2.1 = row
  { s with cpc := { s.cpc with accs := s.cpc.accs.filter fun k => !mine k, spilled := s.cpc.spilled ++ s.cpc.accs.filter mine } }

/-- The row's parity buffer is released. -/
def dropAccs (s : State) (idx row : Nat) : State :=
  let other (k : Nat × Nat × Nat) : Bool := k.1 ≠ idx || k.2.1 ≠ row
  { s with cpc := { s.cpc with accs := s.cpc.accs.filter other, spilled := s.cpc.spilled.filter other } }

/-- PAR folds a failed unit's pages out of the row's parity (R227). -/
def foldOut (s : State) (idx row : Nat) : State :=
  let s := foldPages s idx row 0 (unitSlots s (ruAt s idx))
  if (rowOf s idx row).any (·.emitted) then emitAccs s idx row else s

/-- A row has its last data slot: PAR emits its parity, what is closed is placed, and the programs left are issued (R179, R207, R208). -/
def rowFull (s : State) (idx row : Nat) : State :=
  match rowOf s idx row with
  | none => s
  | some w =>
    if w.full then s
    else
      let s := emitAccs (bump (setRow s idx row { w with full := true, emitted := true }) 0x19 0x110 1) idx row
      issueRow (placeUnits s idx row) idx row

/-- The programs of a row that have not started take the close priority (R211). -/
def hurryRow (s : State) (idx row : Nat) : State :=
  let f (o : FOp) : FOp := match o.purpose with
    | .prog i r _ => if i = idx && r = row then { o with cls := min o.cls 1 } else o
    | _ => o
  { s with flash := { s.flash with
    dies := s.flash.dies.map fun d => (d.1, { d.2 with q := d.2.q.map f })
    chans := s.flash.chans.map fun c => (c.1, { c.2 with held := c.2.held.map f }) } }

/-- Close a row without waiting for more data (R211): its free slots are padded, and it is issued in the close priority. -/
def padRow (s : State) (idx row : Nat) : State :=
  match rowOf s idx row with
  | none => s
  | some w =>
    let s := hurryRow (setRow s idx row { w with forced := true }) idx row
    if w.full then s
    else
      let n := rowSlots s (ruAt s idx) row
      let s := foldPages (bump s 0x0F 0x164 (n - w.fill)) idx row w.fill n
      let s := egUpd { s with cpc := { s.cpc with padSlots := s.cpc.padSlots + (n - w.fill) } } (ruAt s idx).tenant fun e => { e with media := e.media + (n - w.fill) }
      rowFull (setRow s idx row { w with fill := n, forced := true }) idx row

/-- Start a row of an RU: its parity buffer is an internal draw of the owner in class 4 (R207), which PAR must be allowed to reach (R142). -/
def startRow (s : State) (idx row : Nat) : Option State :=
  let r := ruAt s idx
  match bpmTry s (ownerOf s r.tenant) 4 true with
  | (none, _) => none
  | (some a, s) =>
    let s := setRow (setRu s idx { ruAt s idx with nextRow := row + 1 }) idx row { since := s.clock, parityBuf := a }
    match dramMay s ⟨0x3A4, r.tenant⟩ a 4096 .write with
    | (true, s) => some s
    | (false, s) => some (enterFault s 0x19)

/-- A row still takes slots. -/
def takesSlots (s : State) (idx row : Nat) : Bool := match rowOf s idx row with
  | some w => !w.full
  | none => false

/-- Force the closure of a row for an FUA write or a Flush (R211): on two-pass dies also the row after it, whose foggy pass closes it. -/
def forceRow (s : State) (idx row : Nat) : State :=
  let two := twoPass s (ruAt s idx) && row + 1 < ruRows s (ruAt s idx)
  let s := if two && (rowOf s idx (row + 1)).isNone && (ruAt s idx).nextRow = row + 1 then (startRow s idx (row + 1)).getD s else s
  let s := if takesSlots s idx row || (two && takesSlots s idx (row + 1)) then bump s 0x0F 0x170 1 else s
  let s := padRow s idx row
  if two then padRow s idx (row + 1) else s

/-- Other MUs of the item's write still wait for a slot: its closure is forced with the last one (R211). -/
def moreComing (s : State) (it : Item) : Bool := match it.src with
  | .host g w => s.ftl.pwt.any fun p => p.wseq = w && p.gmu ≠ g && !p.dead && !p.held
      && (!p.queued || s.cpc.queue.any fun q => q.src = ItemSrc.host p.gmu w)
  | _ => false

/-- The row of an RU that still takes slots. -/
def fillingRow (r : Ru) : Option Nat := match r.open_.find? fun p => !p.2.full with
  | some p => some p.1
  | none => none

/-- Let an RU close short: its open row is padded, and it takes no new row (R211, R227). -/
def closeShort (s : State) (idx : Nat) : State :=
  let s := setRu s idx { ruAt s idx with closing := true }
  let s := match fillingRow (ruAt s idx) with
    | some row => padRow s idx row
    | none => s
  if (ruAt s idx).open_ = [] then closeRu s idx else s

/-- The die set of an item (R216): its reclaim group, or the one its handle's rotation stands at. -/
def itemSet (s : State) (it : Item) : Nat := placeSet s it.tenant it.ruh (it.group.getD (rotOf s it.tenant it.ruh))

/-- The RU that an item is placed in, if one is OPEN (R216). -/
def ruFor (s : State) (it : Item) : Option Nat :=
  let k := itemSet s it
  match Tbl.find s.cpc.opens (openKey it.tenant it.ruh k) with
  | some i => if (ruAt s i).st = .opened && (!(ruAt s i).closing || (fillingRow (ruAt s i)).isSome) then some i else none
  | none => none

/-- Whether an allocation for the item's handle is under way. -/
def allocating (s : State) (it : Item) : Bool :=
  (Tbl.find s.cpc.opens (openKey it.tenant it.ruh (itemSet s it))).isSome

/-- Coppice reads an item's buffer to place it; Bark may refuse it (R142). -/
def itemMay (s : State) (it : Item) : Bool × State := if it.buf = 0 then (true, s) else dramMay s ⟨0x3A1, it.tenant⟩ it.buf 4096 .read

/-- The stored form of an item: user data is encrypted when it is placed (R416, R421). -/
def sealItem (s : State) (it : Item) : Option (Content × State) :=
  match it.content with
  | .user nsid mu t lost ws crc d =>
    match encMu s nsid mu d (it.ruh = ruhFlush) with
    | some (c, s) => some (.user nsid mu t lost ws crc c, s)
    | none => none
  | c => some (c, s)

/-- The content of the j-th slot of an item. -/
def Content.slot (c : Content) (j : Nat) : Content := match c with
  | .mapLeaf r l w e p => .mapLeaf r l w e (p + j)
  | .journal l p => .journal l (p + j)
  | .snapshot n f w p => .snapshot n f w (p + j)
  | .summary v b p => .summary v b (p + j)
  | c => c

/-- Assign an item to the next slot of an RU's row (R205, R216): PAR folds its page. An item of several slots stays within one
page, and a granule copy within one data unit (R313). -/
def assignTo (s : State) (idx : Nat) (it : Item) : Option State :=
  let r := ruAt s idx
  let start : Option (Nat × State) := match fillingRow r with
    | some row => some (row, s)
    | none => if ruRows s r ≤ r.nextRow then none else match startRow s idx r.nextRow with
      | some s => some (r.nextRow, s)
      | none => none
  match start with
  | none => none
  | some (row, s) =>
    match sealItem s it, rowOf s idx row with
    | some (c, s), some w =>
      let u := unitSlots s r
      let skip := match it.src with
        | .backing _ 0 => if u < w.fill % u + 16 then u - w.fill % u else 0
        | _ => if 4 < w.fill % 4 + it.slots then 4 - w.fill % 4 else 0
      let k := w.fill + skip
      let (_, p) := rowPua s r row k
      let s := { s with flash := { s.flash with
        cells := (List.range it.slots).foldl (fun t j => Tbl.put t (p + j) (c.slot j)) s.flash.cells } }
      let w := { w with fill := k + it.slots, items := w.items ++ [{ it with pua := p }] }
      let s := if it.group.isNone then setRu s idx { ruAt s idx with rotated := true } else s
      let s := foldPages (setRow s idx row w) idx row (k - skip) (k + it.slots)
      let s := if it.force && !moreComing s it then forceRow s idx row else s
      some (if rowSlots s r row ≤ k + it.slots then rowFull s idx row else issueRow s idx row)
    | _, _ => none

/-- COPPICE_ASSIGN (R213, R216, R217): the oldest buffered item of a tenant and handle takes a slot, or an RU is allocated for it; no host data once a power loss is
signalled. -/
def coppiceAssign (s : State) (t ruh : Nat) : State :=
  match takeFirst (fun it => it.tenant = t && it.ruh = ruh) s.cpc.queue with
  | none => s
  | some (it, q) =>
    if ruh < 8 && s.flash.withdraw then s
    else if s.cpc.opens.any fun p => p.1 / 64 = t * 16 + ruh && descBroken s p.2 then cpcBroken s
    else match ruFor s it with
    | none =>
      if allocating s it then s
      else
        let k := itemSet s it
        allocRu (if it.group.isNone then { s with cpc := { s.cpc with rot := Tbl.put s.cpc.rot (t * 16 + ruh) k } } else s) t ruh k
    | some i =>
      match itemMay s it with
      | (false, s) => enterFault s 0x0F
      | (true, s) =>
        match assignTo s i it with
        | some s => { s with cpc := { s.cpc with queue := q } }
        | none => s

/-- A row is complete (R208, R210): its parity buffer is released; an RU that takes no more rows closes. -/
def rowComplete (s : State) (idx row : Nat) : State :=
  match rowOf s idx row with
  | none => s
  | some w =>
    let r := ruAt s idx
    let s := dropAccs (bpmFree s w.parityBuf) idx row
    let s := setRu s idx { ruAt s idx with open_ := Tbl.del (ruAt s idx).open_ row, rows := (ruAt s idx).rows + 1 }
    let r := ruAt s idx
    if r.open_ = [] && (r.closing || ruRows s r ≤ r.nextRow) then closeRu s idx else s

/-- The foggy pass of the word line after this one has completed on a member, or there is none to come (R209). -/
def nextFoggyDone (s : State) (idx row m : Nat) : Bool :=
  let r := ruAt s idx
  match rowOf s idx (row + 1) with
  | some w => match Tbl.find w.units m with
    | some .foggyDone | some .issued | some .done | some .failed => true
    | _ => false
  | none => ruRows s r ≤ row + 1 || row + 1 < r.nextRow || r.closing

/-- Issue the fine passes that the foggy passes now permit (R209). -/
def issueFine (s : State) (idx : Nat) : State :=
  (ruAt s idx).open_.foldl (fun (s : State) (pr : Nat × Row) =>
    pr.2.units.foldl (fun (s : State) (u : Nat × UnitSt) =>
      match rowOf s idx pr.1 with
      | some w =>
        if u.2 = UnitSt.foggyDone && nextFoggyDone s idx pr.1 u.1 then
          progMember (setRow s idx pr.1 { w with units := Tbl.put w.units u.1 UnitSt.issued }) idx pr.1 u.1 5 (rowCls s (ruAt s idx) w)
        else s
      | none => s) s) s

/-- The pending writes among the items of a unit are closed on NAND (R209). -/
def closeItems (s : State) (its : List Item) : State :=
  { s with ftl := { s.ftl with pwt := s.ftl.pwt.map fun q =>
      if (its.any fun it => it.src = ItemSrc.host q.gmu q.wseq) = true then { q with closed := true } else q } }

/-- A unit is closed on NAND: its items are placed, once its row's parity has been emitted (R179, R209). -/
def unitDone (s : State) (idx row m : Nat) : State :=
  let r := ruAt s idx
  let its := unitItems s idx row m
  match rowOf s idx row with
  | none => s
  | some w =>
    let s := setRow s idx row { w with units := Tbl.put w.units m .done }
    let s := { s with cpc := { s.cpc with cwProg := s.cpc.cwProg + unitSlots s r } }
    if m = parityMember r row then rowComplete (putParity (setRow s idx row { w with units := Tbl.put w.units m .done, parityDone := true }) idx row) idx row
    else
      let s := closeItems s its
      issueRow (if w.emitted then its.foldl placeItem s else s) idx row

/-- A data or parity program has failed (R227). -/
def unitFailed (s : State) (idx row m status : Nat) : State :=
  let r := ruAt s idx
  match rowOf s idx row, r.members[m]? with
  | some w, some mb =>
    let its := unitItems s idx row m
    let s := if status = 1 || status = 3 then growBad s mb.die mb.block else s
    let s := bump s 0x0F 0x168 1
    let s := { s with cpc := { s.cpc with fcount := Tbl.put s.cpc.fcount 0 (Tbl.getD s.cpc.fcount 0 0 + 1) } }
    let s := emit s 0x6001 sevWarning 0x0F (some r.tenant) (leBytes 2 mb.die ++ leBytes 2 mb.block)
    let s := setRow s idx row { w with units := Tbl.put w.units m .failed }
    if m = parityMember r row then
      let s := setRu s idx { ruAt s idx with degraded := true, closing := true }
      closeShort (rowComplete s idx row) idx
    else
      let s := setRu s idx { ruAt s idx with skipRows := (row, m) :: (ruAt s idx).skipRows, degraded := true }
      let s := { s with
        flash := { s.flash with cells := its.foldl (fun t (it : Item) => (List.range it.slots).foldl (fun t j => Tbl.del t (it.pua + j)) t) s.flash.cells }
        cpc := { s.cpc with fdpEvents := s.cpc.fdpEvents ++ [(2, r.tenant)] } }
      let back := its.map fun (it : Item) => { it with pua := 0 }
      let s := { s with cpc := { s.cpc with queue := back ++ s.cpc.queue } }
      issueRow (closeShort (foldOut s idx row) idx) idx row
  | _, _ => s

/-- A program has completed (R208, R209, R227). A withdrawn program changes nothing: power is being lost (R213). -/
def progDone (s : State) (o : FOp) (idx row m status : Nat) : State :=
  match rowOf s idx row with
  | none => s
  | some w =>
    let s :=
      if status = 6 then s
      else if status ≠ 0 then unitFailed s idx row m status
      else if o.opc = 4 then setRow s idx row { w with units := Tbl.put w.units m .foggyDone }
      else unitDone s idx row m
    if twoPass s (ruAt s idx) then issueFine s idx else s

/-- Forget what the blocks of an RU hold. -/
def forgetCells (s : State) (r : Ru) : State := dropCells s fun p => r.members.any fun m => m.die = puaDie p && m.block = puaBlock p

/-- An RU under allocation has every member erased: it is OPEN, and closes short where a REKEY has stopped its tenant (R422 step 2). -/
def maybeOpen (s : State) (idx : Nat) : State :=
  let r := ruAt s idx
  let need := (List.range r.members.length).filter fun i => match r.members[i]? with
    | some m => !m.skip
    | none => false
  if r.st = .erasing && need.all r.erased.contains then
    let s := egUpd (setRu s idx { r with st := .opened, eraseCnt := r.eraseCnt + 1, nosum := false }) r.tenant fun e => { e with erased := e.erased + ruCap s r }
    if s.cpc.stopAlloc.contains r.tenant then closeShort s idx else s
  else s

/-- A member's erase has ended (R217, R228). -/
def eraseDone (s : State) (idx m status : Nat) : State :=
  let r := ruAt s idx
  match r.members[m]? with
  | none => s
  | some mb =>
    if r.st ≠ .erasing then s
    else if status = 0 then
      let s := weakErase s mb.die mb.block
      let s := dropCells s fun p => mb.die = puaDie p && mb.block = puaBlock p
      maybeOpen (setRu s idx { ruAt s idx with erased := m :: (ruAt s idx).erased }) idx
    else if status = 6 then s
    else
      let s := if status = 2 || status = 3 then growBad s mb.die mb.block else s
      let s := bump s 0x0F 0x16C 1
      let s := { s with cpc := { s.cpc with fcount := Tbl.put s.cpc.fcount 1 (Tbl.getD s.cpc.fcount 1 0 + 1) } }
      let s := emit s 0x6006 sevWarning 0x0F none (leBytes 2 mb.die ++ leBytes 2 mb.block)
      let s := if status = 4 || status = 5 then
          setRu s idx { ruAt s idx with members := setNth (ruAt s idx).members m { mb with skip := true } }
        else eraseMember (replaceMember s idx m) idx m
      if ruWidth (ruAt s idx) < 8 then
        let r := ruAt s idx
        let s := setRu s idx { r with st := .retired }
        let k := s.cpc.opens.filter fun p => p.2 ≠ idx
        allocRu { s with cpc := { s.cpc with opens := k } } r.tenant r.ruh r.dset
      else maybeOpen s idx

/-- Journal pages (R184): a full page of 1,023 records, or a partly filled one at its timer, goes to a JOURNAL RU of tenant 0. -/
def writeJournalPage (s : State) : State :=
  match s.ftl.jbuf with
  | [] => s
  | r :: t =>
    let page := (r :: t).take 1023
    let s := { s with ftl := { s.ftl with jbuf := s.ftl.jbuf.drop 1023, jpending := s.ftl.jpending ++ page } }
    queueItem s { tenant := 0, ruh := ruhJournal, src := .jpage (page.getLastD r).jseq, content := .journal page, slots := 4 }

/-- Write journal pages while one is full. -/
def fillPages (s : State) : State := if 1023 ≤ s.ftl.jbuf.length then writeJournalPage s else s

/-- Every record up to one is in the flash journal. -/
def inFlashJournal (s : State) (jseq : Nat) : Bool :=
  !(s.ftl.jbuf.any (·.jseq = jseq)) && !(s.ftl.jpending.any (·.jseq = jseq))

/-! ### The work ring -/

/-- Coppice as a master (R17). -/
def cpcWho : Who := ⟨0x3A1, 0⟩

/-- Post the completions of the CPC ring while slots are free (R240); none after a stop (R241). -/
def cpcPost (s : State) : State :=
  s.cpc.ring.done.foldl (fun s _ =>
    if s.cpc.ring.stopped || s.dev.fault then s
    else
      let (s, r) := ringPost cpcWho 0x0F 16 1 s s.cpc.ring
      { s with cpc := { s.cpc with ring := r } }) s

/-- Complete a work entry. -/
def cpcDone (s : State) (d : List Byte) (status count : Nat) : State :=
  cpcPost { s with cpc := { s.cpc with ring := { s.cpc.ring with done := s.cpc.ring.done ++ [ringCpl d status count s.ftl.jseq] } } }

/-- Items that hold a page each of a summary, four slots to a page. -/
def summaryItems (k ruh : Nat) (n : Nat) (v : List (Nat × List Nat)) (b : List (Nat × Nat)) : List Item :=
  (List.range n).map fun j => { tenant := 0, ruh := ruh, src := .sumPage (k + j), content := .summary v b (4 * j), slots := 4 }

/-- SUMMARY_WRITE (R226, R240): the validity bitmaps and the bad-block table go to flash for the checkpoint, and two copies of the table to JOURNAL RUs. One
runs at a time. -/
def summaryWrite (s : State) (d : List Byte) : State :=
  if s.cpc.sumRun.isSome then { s with cpc := { s.cpc with ring := { s.cpc.ring with fetched := (0, d) :: s.cpc.ring.fetched } } }
  else
    let v := s.cpc.rus.map fun p => (p.1, p.2.valid)
    let b := s.cpc.bad ++ s.cpc.grown
    let n := max 1 (ceilDiv (sumBytes v b).length 16384)
    let m := max 1 (ceilDiv (sumBytes [] b).length 16384)
    let l := summaryItems 0 ruhMap n v b ++ summaryItems n ruhJournal m [] b ++ summaryItems (n + m) ruhJournal m [] b
    l.foldl queueItem { s with cpc := { s.cpc with sumRun := some { ent := d, count := v.length, pages := l.length } } }

/-- SUMMARY_WRITE ends when all its pages are placed: the list of their PUAs is written to its address (R240; its layout is the model's, entry 121). A refused write is
a Fault (R142). -/
def settleSum (s : State) : State :=
  match s.cpc.sumRun with
  | none => s
  | some r =>
    let l := s.cpc.sysDone.filterMap fun x => match x.1 with
      | .sumPage k => some (k, x.2)
      | _ => none
    let placed := l.foldl (fun t x => Tbl.put t x.1 x.2) r.placed
    let s := { s with cpc := { s.cpc with
      sumRun := some { r with placed := placed }
      sysDone := s.cpc.sysDone.filter fun x => match x.1 with
        | .sumPage _ => false
        | _ => true } }
    if placed.length < r.pages then s
    else
      let puas := placed.map (·.2)
      let s := { s with cpc := { s.cpc with sumRun := none, sumPages := puas } }
      match busWrite s cpcWho (entArg2 r.ent) (puas.map (leBytes 8)).flatten with
      | (.ok, s) => cpcDone s r.ent 0 r.count
      | (_, s) => enterFault s 0x0F

end Sys2Proof.Machine
end

