-- ==== Sys2Proof/Machine/Walker.lean ====
section
/-! DEFINITION. What the map walker does as leaves come and go: page-ins that end (R169, R174), leaves that leave the Canopy (R133, R170, R194), leaf copies
written (R171), and the ends of its work entries (R186, R189, R191, R194, R195). -/

namespace Sys2Proof.Machine

/-! ### Work entries -/

/-- A completion for a work entry (R195); the final JSEQ is the next sequence number (DESIGN CHOICE, entry 125). -/
def ftlDone (s : State) (d : List Byte) (status count : Nat) : State :=
  { s with ftl := { s.ftl with ring := { s.ftl.ring with done := s.ftl.ring.done ++ [ringCpl d status count s.ftl.jseq] } } }

/-- LEAF_WB entries of a leaf end with a status. -/
def endWb (s : State) (root status : Nat) : State :=
  s.ftl.wbEnts.foldl (fun s w => if w.1 ≠ root then s
    else ftlDone { s with ftl := { s.ftl with wbEnts := s.ftl.wbEnts.filter (· ≠ w) } } w.2.1 status w.2.2) s

/-- A leaf is still to be written: resident, and dirty or in writeback. -/
def toWrite (s : State) (root : Nat) : Bool :=
  match residentOf s root with
  | some (_, f) => f.wb || (rootOf s root).dirty
  | none => false

/-- LEAF_WB ends when its leaf is no longer to be written (R194). -/
def settleWb (s : State) : State := ((s.ftl.wbEnts.map (·.1)).eraseDups.filter fun r => !toWrite s r && !s.ftl.rebuilding.contains r).foldl (fun s r => endWb s r 0) s

/-- CKPT_BEGIN ends when every leaf that was dirty then has been written as it was or later (R186); what is left is due. -/
def settleCkpt (s : State) : State :=
  match s.ftl.ckpt with
  | none => s
  | some k =>
    let left := k.left.filter fun p => toWrite s p.1
    let s := left.foldl (fun s p => match residentOf s p.1 with
      | some (_, f) => if f.wb then s else queueWb s p.1
      | none => s) s
    match k.ent with
    | some d =>
      if left = [] then ftlDone { s with ftl := { s.ftl with ckpt := some { k with left := [], ent := none } } } d 0 k.total
      else { s with ftl := { s.ftl with ckpt := some { k with left := left } } }
    | none => { s with ftl := { s.ftl with ckpt := some { k with left := left } } }

/-- DIR_SNAPSHOT ends when all its pages are placed: the list of their PUAs is written to its address (R186, R194; its layout is the model's, entry 121). A
refused write is a Fault (R142). -/
def settleSnap (s : State) : State :=
  match s.ftl.snapRun with
  | none => s
  | some r =>
    let l := s.cpc.sysDone.filterMap fun x => match x.1 with
      | .snapPage k => some (k, x.2)
      | _ => none
    let s := { s with cpc := { s.cpc with sysDone := s.cpc.sysDone.filter fun x => match x.1 with
      | .snapPage _ => false
      | _ => true } }
    let placed := l.foldl (fun t x => Tbl.put t x.1 x.2) r.placed
    if placed.length < r.pages then { s with ftl := { s.ftl with snapRun := some { r with placed := placed } } }
    else
      let puas := placed.map (·.2)
      let s := { s with ftl := { s.ftl with
        snapRun := none, ckpt := s.ftl.ckpt.map fun k => { k with pages := k.pages ++ puas } } }
      match busWrite s ⟨0x3A0, 0⟩ (entArg2 r.ent) (puas.map (leBytes 8)).flatten with
      | (.ok, s) => ftlDone s r.ent 0 (entArg1 r.ent)
      | (_, s) => enterFault s 0x0E

/-- LEAF_REBUILD ends when the leaves that it rebuilt are installed (R191, R192). -/
def settleRebuild (s : State) : State :=
  s.ftl.rebuilds.foldl (fun s r =>
    if !r.scanned || r.left.any s.ftl.rebuilding.contains then s
    else
      let all := entArg0 r.ent = 0xFFFFFFFF
      let s := { s with ftl := { s.ftl with rebuilds := s.ftl.rebuilds.filter (· ≠ r), rebuildAll := s.ftl.rebuildAll && !all } }
      let s := if all then { s with ten := { s.ten with nss := s.ten.nss.map fun p => (p.1, { p.2 with notReady := false }) } } else s
      ftlDone (emit s 0x5001 sevError 0x0E none (leBytes 4 r.lost)) r.ent 0 r.lost) s

/-- REPLAY ends when every record that it read is applied or skipped (R185, R189): I/O commands may go on. -/
def settleReplay (s : State) : State :=
  match s.ftl.replayRun with
  | none => s
  | some (d, l) =>
    if s.ftl.waits.any fun w => match w.2 with
      | .apply _ => true
      | _ => false then s
    else ftlDone { s with ftl := { s.ftl with replayRun := none, replayDue := false } } d 0 l.length

/-! ### Leaves that leave the Canopy -/

/-- Take a leaf's copy out of the Canopy or the HMB tier: its root entry returns to its flash location. -/
def dropCopy (s : State) (root : Nat) : State :=
  let loc := flashLoc s root
  match (rootOf s root).tier with
  | .canopy i => setRoot (freeFrame s i) root { tier := .flash loc }
  | .hmb h => setRoot (hmbForget s h) root { tier := .flash loc }
  | _ => s

/-- Put a resident leaf out: a clean one now, a dirty one after its writeback (R133, R194); one that is all UNMAPPED and was never written needs none (R170). -/
def putOut (s : State) (root : Nat) : State :=
  match residentOf s root with
  | none => s
  | some (_, f) =>
    if (rootOf s root).busy || f.wb then s
    else if (rootOf s root).dirty && !(allUnmapped f && locGlen f.loc = 0) then queueWb s root
    else bump (dropCopy s root) 0x0E 0x18C 1

/-- Leaves in chunks of an owner that their tenant has left are put out (R133, R152). -/
def evictStale (s : State) : State := (s.ftl.frames.filter fun p => staleFrame s p.2).foldl (fun s p => putOut s p.2.leaf) s

/-- Put out the leaves of a tenant's namespaces, those of the HMB tier too (R132, R194). It says whether all are out. -/
def evictTenant (s : State) (t : Nat) : Bool × State :=
  let s := (s.ftl.frames.filter fun p => leafTenant s p.2.leaf = t).foldl (fun s p => putOut s p.2.leaf) s
  let s := (s.ftl.hmb.filter fun p => leafTenant s p.2.leaf = t).foldl (fun s p => if (rootOf s p.2.leaf).busy then s else dropCopy s p.2.leaf) s
  (!(s.ftl.frames.any fun p => leafTenant s p.2.leaf = t) && !(s.ftl.hmb.any fun p => leafTenant s p.2.leaf = t)
    && !(s.ftl.pageIns.any fun p => leafTenant s p.1 = t), s)

/-- EVICT_OWNER entries that wait: each ends when its tenant's leaves are out (R194). -/
def settleEvict (s : State) : State :=
  s.ftl.evicts.foldl (fun s d => match evictTenant s (entArg0 d) with
    | (true, s) => ftlDone { s with ftl := { s.ftl with evicts := s.ftl.evicts.filter (· ≠ d) } } d 0 0
    | (false, s) => s) s

/-! ### Page-ins that end -/

/-- Give back the buffers that a page-in has taken. -/
def pgRelease (s : State) (root : Nat) : State :=
  match Tbl.find s.ftl.pageIns root with
  | none => s
  | some q => (q.bufs.map (·.2)).foldl bpmFree { s with ftl := { s.ftl with pageIns := Tbl.del s.ftl.pageIns root } }

/-- A codeword of a page-in arrives or is lost (R169). -/
def pageInStep (s : State) (root slot : Nat) (p : Option Content) : State :=
  match Tbl.find s.ftl.pageIns root with
  | none => s
  | some q => setPg s root (match p with
    | some c => { q with left := q.left - 1, parts := Tbl.put q.parts slot c }
    | none => { q with left := q.left - 1, failed := true })

/-- The leaf that a page-in has read takes its frame (R169); granules of a raw leaf that were present stay as they are. -/
def pgArrived (s : State) (root loc lseq : Nat) (ents : Tbl Nat) (q : PageIn) : State :=
  match residentOf s root with
  | some (i, f) =>
    let new := ents.filter fun e => !entPresent f e.1
    let s := { s with ftl := { s.ftl with pageIns := Tbl.del s.ftl.pageIns root } }
    setRoot (setFrame s i { f with
      grans := q.bufs.foldl (fun t b => Tbl.put t b.1 b.2) f.grans
      entries := new.foldl (fun t e => Tbl.putC 0 t e.1 e.2) f.entries }) root { rootOf s root with busy := false }
  | none => pgInstall s root q { leaf := root, loc := loc, raw := !locExt loc, lseq := lseq, entries := ents }

/-- A move from the HMB tier is over: its descriptor is free. -/
def moveOver (s : State) (root d : Nat) : State :=
  let s := hmbForget s d
  { s with ftl := { s.ftl with moving := Tbl.del s.ftl.moving root } }

/-- The descriptor of a leaf that moves from the HMB tier is discarded, and the leaf is read from flash (R174, R175). -/
def hmbDiscard (s : State) (root d : Nat) : State :=
  let loc := match Tbl.find s.ftl.hmb d with
    | some h => h.loc
    | none => 0
  let s := moveOver s root d
  let s := setRoot s root { rootOf s root with tier := .flash loc }
  match Tbl.find s.ftl.pageIns root with
  | none => s
  | some q =>
    let gs := List.range (locGlen loc)
    let s := (q.bufs.filter fun b => !gs.contains b.1).foldl (fun s b => bpmFree s b.2) s
    pgTry (setPg s root { q with src := .flash loc, granules := gs, issued := false, bufs := q.bufs.filter fun b => gs.contains b.1 }) root

/-! ### Leaf copies written -/

/-- Slots of MAP RUs that the map, a kept checkpoint, a checkpoint under way or a kept LEAFWB record still names (R188). -/
def mapLive (s : State) (pua : Nat) : Bool :=
  let hit (l : Nat) : Bool := locGlen l ≠ 0 && locPua l ≤ pua && pua < locPua l + ceilDiv (locGoff l + locGlen l) 4
  let page (p : Nat) : Bool := p ≤ pua && pua < p + 4
  s.ftl.root.any (fun p => hit (flashLoc s p.1)) || s.ftl.ckpts.any (fun k => k.words.any (fun w => hit w.2) || k.pages.any page)
    || (s.ftl.ckpt.any fun k => k.pages.any page) || (s.ftl.snapRun.any fun r => r.placed.any fun p => page p.2) || s.cpc.sumPages.any page
    || (s.ftl.jpages.flatten ++ s.ftl.jpending ++ s.ftl.jbuf).any fun r => r.typ = .leafwb && hit (locMk r.a (r.c % 4) (r.c / 4 % 16) false)

/-- LEAF_WRITEBACK_DONE (R171): the written copy becomes the leaf's flash copy, and LEAFWB is journalled. -/
def writebackDone (s : State) (root : Nat) : State :=
  match Tbl.find s.ftl.wbDone root with
  | none => s
  | some pua =>
    let s : State := { s with ftl := { s.ftl with wbDone := Tbl.del s.ftl.wbDone root } }
    match Tbl.find s.flash.cells pua with
    | some (.mapLeaf _ lseq raw ents _) =>
      let n := leafGranules (geomPlanes s) raw ents
      let s := (List.range (ceilDiv n 4)).foldl (fun s k => validate s (pua + k)) s
      let s := leafWritten s root pua n lseq (!raw)
      let s := { s with ftl := { s.ftl with
        ckpt := s.ftl.ckpt.map fun k => match Tbl.find k.left root with
          | some l => if l ≤ lseq then { k with left := Tbl.del k.left root, total := k.total + 1 } else k
          | none => k
        wbEnts := s.ftl.wbEnts.map fun w => if w.1 = root then (w.1, w.2.1, w.2.2 + 1) else w } }
      endWb s root 0
    | _ => s

end Sys2Proof.Machine
end

