-- ==== Sys2Proof/Machine/Media.lean ====
section
/-! DEFINITION. How the media side hands results on: completions of flash operations, codewords of commands, page-ins, relocation,
recovery entries, and what waits for them (R168, R169, R181, R220, R229, R230, R289 to R294). -/

namespace Sys2Proof.Machine

/-! ### Reads of host commands -/

/-- The class of a command's flash reads (R101, R259). -/
def flashCls (k : Cls) : Nat := match k with
  | .urgent => 0
  | _ => 2

/-- Change one MU of a command. -/
def muUpd (s : State) (c : CmdId) (gmu : Nat) (f : MuXfer → MuXfer) : State :=
  ctxUpd s c fun x => { x with mus := x.mus.map fun m => if m.gmu = gmu then f m else m }

/-- The LBAs of an MU that a command covers: first, count and LBAs in an MU (R154). -/
def muSpan (n : Ns) (x : Ctx) (gmu : Nat) : Nat × Nat :=
  let k := if n.lbaf = 0 then 1 else 8
  let mu := (gmu - n.leafBase * 2048)
  let lo := max x.lba (mu * k)
  let hi := min (x.lba + x.nlb) (mu * k + k)
  (lo - mu * k, hi - lo)

/-- The bytes of an MU that a command covers. -/
def muSlice (n : Ns) (x : Ctx) (m : MuXfer) : List Byte :=
  let b := if n.lbaf = 0 then 4096 else 512
  let (o, k) := muSpan n x m.gmu
  (m.data.drop (o * b)).take (k * b)

/-- A LOST mask touches the LBAs a command covers (R181). -/
def lostHits (n : Ns) (x : Ctx) (gmu lost : Nat) : Bool :=
  let (o, k) := muSpan n x gmu
  n.lbaf = 1 && (List.range k).any fun i => lost.testBit (o + i)

/-- Take a recovery entry for a codeword of a command that ended with 2h/81h (R292). -/
def takeRecovery (s : State) (pua gmu : Nat) (e : Expect) (step : Nat) : State :=
  if !Word.bit (rd s 0x1A 0x114) 8 || s.ldc.bg.any (·.pua = pua) then s
  else if 256 ≤ s.ldc.bg.length then emit s 0x7003 sevWarning 0x1A (some e.tenant) (leBytes 8 pua)
  else
    let b : BgEntry := { pua := pua, gmu := gmu, expect := e, step := step, deadline := s.clock + rdF s 0x1A 0x114 7 0 }
    let id := s.ldc.nextCw
    let s := { s with ldc := { s.ldc with bg := s.ldc.bg ++ [{ b with cw := some id }], nextCw := id + 1 } }
    let x : Cw := {
      id := id, pua := pua, cls := 3, expect := e, purpose := .recovery, used := step0Tracked s pua
      ladderDead := !dieUsable s (puaDie pua), ext := step == 5 }
    goStep { s with ldc := { s.ldc with cws := s.ldc.cws ++ [x] } } x (if step = 5 || x.ladderDead then 3 else step)

/-- The codewords a command still has in the ladder leave it, each into a recovery entry where it may take one (R289, R292). -/
def dropCws (s : State) (c : CmdId) (recover : Bool) : State :=
  (s.ldc.cws.filter fun x => match x.purpose with
    | .cmd d _ => d = c
    | _ => false).foldl (fun s x =>
      let s := cwDel (cancelCw (dropSurvivors s x.id) x) x.id
      match x.purpose with
      | .cmd _ g => if recover then takeRecovery s x.pua g x.expect (min x.step 4) else s
      | _ => s) s

/-- What R278 expects of a namespace MU. -/
def expectMu (s : State) (gmu : Nat) : Expect :=
  match nsOfRoot s (gmu / 2048) with
  | some (id, n) => { kind := 1, nsid := id, mu := gmu - n.leafBase * 2048, tenant := n.owner }
  | none => { kind := 1 }

/-- A command ends with Unrecovered Read Error (R290): no data, an Error Information entry, the counts; the codewords that reached step 5 take
recovery entries (R292). -/
def failRead (s : State) (c : CmdId) (first : Nat) : State :=
  let lost : List (Nat × Nat) := match ctxOf s c with
    | some x => x.mus.filterMap fun (m : MuXfer) => m.lostPua.map fun p => (m.gmu, p)
    | none => []
  let s := lost.foldl (fun s l => takeRecovery s l.2 l.1 (expectMu s l.1) 5) (dropCws s c true)
  let s := { s with hqe := { s.hqe with mediaErrors := s.hqe.mediaErrors + 1, errLog := s.hqe.errLog ++ [(c, stUnrecRead, first)] } }
  let s := match (ctxOf s c).bind fun x => nsOf s x.nsid with
    | some n => egUpd s n.owner fun e => { e with errors := e.errors + 1 }
    | none => s
  complete (ctxUpd s c fun y => { y with data := [], moved := false }) c stUnrecRead

/-- Every MU of a command has its data or an error: the command transfers, compares, or fails (R105, R112, R290). -/
def finishRead (s : State) (c : CmdId) : State :=
  match ctxOf s c with
  | none => s
  | some x =>
    if x.stage ≠ .reading then s
    else if x.mus.any fun m => match m.st with
      | .data | .failed _ => false
      | _ => true then s
    else match nsOf s x.nsid with
    | none => complete s c stInvalidNs
    | some n =>
      match x.mus.find? fun m => match m.st with
        | .failed _ => true
        | _ => false with
      | some m =>
        match m.st with
        | .failed st =>
          if st = stUnrecRead then failRead s c (max x.lba ((m.gmu - n.leafBase * 2048) * (if n.lbaf = 0 then 1 else 8)))
          else complete (dropCws s c false) c st
        | _ => s
      | none =>
        let d := (x.mus.map (muSlice n x)).flatten
        let s := { s with hqe := { s.hqe with unitsRead := s.hqe.unitsRead + d.length, readCmds := s.hqe.readCmds + 1 } }
        let s := egUpd s n.owner fun e => { e with rd := e.rd + d.length, rdCmds := e.rdCmds + 1 }
        if x.sqe.opc = 0x05 then complete s c (if d = x.data then stOk else stCompareFail)
        else if x.sqe.opc = 0x0C then complete s c stOk
        else completeData s c d

/-- A command and those that share its buffers (R150). -/
def withSharers (s : State) (c : CmdId) : List CmdId := c :: (s.hqe.ctxs.filter fun x => x.leader = some c).map (·.id)

/-- An MU of a command ends, for those that share its buffers too. -/
def endMu (s : State) (c : CmdId) (gmu : Nat) (f : Ctx → MuXfer → MuXfer) : State :=
  (withSharers s c).foldl (fun s d => match ctxOf s d with
    | some x => finishRead (muUpd s d gmu (f x)) d
    | none => s) s

/-- An MU of a command fails. -/
def failMu (s : State) (c : CmdId) (gmu : Nat) (st : Status) (pua : Option Nat := none) : State :=
  endMu s c gmu fun _ m => { m with st := .failed st, lostPua := pua }

/-- A payload reaches an MU of a command. -/
def deliverMu (s : State) (c : CmdId) (gmu lost : Nat) (d : List Byte) : State :=
  endMu s c gmu fun x m =>
    let bad := match nsOf s x.nsid with
      | some n => lostHits n x gmu lost
      | none => false
    { m with st := if bad then .failed stUnrecRead else .data, data := d }

/-- Resolve an MU of a command (R142, R168, R178, R192, R294). -/
def resolveMu (s : State) (c : CmdId) (gmu : Nat) : State :=
  match ctxOf s c with
  | none => s
  | some x =>
    match lookup s (some c) gmu with
    | (.pwt p, s) => if p.merged then deliverMu s c gmu p.lost p.data else s
    | (.rebuilding, s) => failMu s c gmu stUnrecRead
    | (.denied, s) => failMu s c gmu stAccessDenied
    | (.corrupt, s) => mapCorrupt s
    | (.wait, s) =>
      waitLeaf (muUpd s c gmu fun m => { m with st := .page }) (gmu / 2048) (flashCls x.cls) (some [gmu % 2048]) (.read c gmu)
    | (.ent e, s) =>
      if entMalformed s e then mapCorrupt s
      else match entFlags e with
      | 0 => deliverMu s c gmu 0 (List.replicate 4096 0)
      | 1 =>
        let p := entPua e
        match s.ldc.bg.find? fun b => b.pua = p with
        | some b =>
          match b.payload with
          | some (.user _ _ _ lost _ _ d) => deliverMu s c gmu lost d
          | _ =>
            let s := { s with ldc := { s.ldc with bg := s.ldc.bg.map fun y => if y.pua = p then { y with readers := y.readers ++ [c] } else y } }
            muUpd s c gmu fun m => { m with st := .flash p }
        | none => startCw (muUpd s c gmu fun m => { m with st := .flash p }) p (flashCls x.cls) (expectMu s gmu) (.cmd c gmu)
      | _ => failMu s c gmu stUnrecRead

/-- Start the reads of a command (R112): its MUs are looked up in order. -/
def startRead (s : State) (c : CmdId) : State :=
  match ctxOf s c with
  | none => s
  | some x => x.mus.foldl (fun s m => resolveMu s c m.gmu) (ctxUpd s c fun y => { y with stage := .reading })

/-! ### Reads of streams and of Memory Copies (R392, R405) -/

def rdOf (s : State) (id : Nat) : Option InnerRead := s.grv.reads.find? fun r => r.id = id
def rdUpd (s : State) (id : Nat) (f : InnerRead → InnerRead) : State :=
  { s with grv := { s.grv with reads := s.grv.reads.map fun r => if r.id = id then f r else r } }

/-- The read has its data or its error. -/
def MuSt.ended : MuSt → Bool
  | .data | .failed _ => true
  | _ => false

/-- A read is over: its buffer is released, and those that shared it go on by themselves. -/
def rdDrop (s : State) (id : Nat) : State :=
  match rdOf s id with
  | none => s
  | some r =>
    let s := { s with
      grv := { s.grv with reads := (s.grv.reads.filter fun x => x.id ≠ id).map fun x => if x.leader = some id then { x with leader := none } else x }
      bpm := { s.bpm with waiters := s.bpm.waiters.filter fun w => w.purpose ≠ .read id } }
    if r.buf = 0 then s else bpmFree s r.buf

/-- Nothing waits for a read's data any more (R383): one that flash has been asked for completes first. -/
def rdKill (s : State) (r : InnerRead) : State := match r.st with
  | .flash _ => rdUpd s r.id fun x => { x with dead := true }
  | _ => rdDrop s r.id

/-- The reads of a stream or of a Memory Copy. -/
def rdsOf (s : State) (w : ReadFor) : List InnerRead := s.grv.reads.filter fun r => r.who = w && !r.dead
def rdKillAll (s : State) (w : ReadFor) : State := (rdsOf s w).foldl rdKill s

/-- A read ends, with those that share its buffer (R150). -/
def rdEnd (s : State) (id : Nat) (f : InnerRead → InnerRead) : State :=
  let l := (s.grv.reads.filter fun r => r.id = id || (r.leader = some id && !r.st.ended)).map (·.id)
  l.foldl (fun s i =>
    let s := rdUpd s i f
    if (rdOf s i).any (·.dead) then rdDrop s i else s) s

def rdFail (s : State) (id : Nat) (st : Status) : State := rdEnd s id fun r => { r with st := .failed st }

/-- A payload arrives; a read of LBAs marked LOST finds them unreadable (R181, R392). -/
def rdData (s : State) (id lost : Nat) (d : List Byte) : State :=
  rdEnd s id fun r =>
    let bad := (List.range (ceilDiv r.len 512)).any fun i => lost.testBit (r.off / 512 + i)
    { r with st := if bad then .failed stUnrecRead else .data, data := d }

/-- Resolve a read that has its buffer (R23, R168, R178, R192, R294, R392). -/
def resolveRd (s : State) (id : Nat) : State :=
  match rdOf s id with
  | none => s
  | some r =>
    if r.st ≠ .lookup || r.buf = 0 || r.leader.isSome || r.dead then s
    else match lookup s none r.gmu with
    | (.pwt p, s) => if p.merged then rdData s id p.lost p.data else s
    | (.rebuilding, s) => rdFail s id stUnrecRead
    | (.denied, s) => rdFail s id stAccessDenied
    | (.corrupt, s) => mapCorrupt s
    | (.wait, s) => waitLeaf (rdUpd s id fun x => { x with st := .page }) (r.gmu / 2048) r.cls (some [r.gmu % 2048]) (.inner id)
    | (.ent e, s) =>
      if entMalformed s e then mapCorrupt s
      else match entFlags e with
      | 0 => rdData s id 0 (List.replicate 4096 0)
      | 1 =>
        let p := entPua e
        let s' := rdUpd s id fun x => { x with st := .flash p }
        match s.ldc.bg.find? fun b => b.pua = p with
        | some b =>
          match b.payload with
          | some (.user _ _ _ lost _ _ d) => rdData s id lost d
          | _ => { s' with ldc := { s'.ldc with bg := s'.ldc.bg.map fun y => if y.pua = p then { y with inner := y.inner ++ [id] } else y } }
        | none => startCw s' p r.cls (expectMu s r.gmu) (.inner id)
      | _ => rdFail s id stUnrecRead

/-- The read of another stream of the grove whose buffer a read may share (R150): of the same MU, for a tenant of the same owner, its data not yet decrypted, and
with the data that a read of its own would find. -/
def rdShare (s : State) (r : InnerRead) : Option InnerRead :=
  match r.who with
  | .copy _ => none
  | .stream e _ => s.grv.reads.find? fun y => (match y.who with
      | .stream f _ => f / 16 = e / 16
      | .copy _ => false)
    && y.gmu = r.gmu && y.leader.isNone && y.buf ≠ 0 && ownerOf s y.tenant = ownerOf s r.tenant && (pwtVisible s none r.gmu).isNone
    && match y.st with
      | .lookup | .page => true
      | .flash p => Tbl.getD (leafEntries s (r.gmu / 2048)) (r.gmu % 2048) 0 = entMapped p
      | _ => false

/-- Start a read: it shares a buffer, or draws one of class 1, for which it may wait (R145, R392). -/
def rdStart (s : State) (r : InnerRead) : State :=
  let r := { r with id := s.grv.nextRead }
  let add (s : State) (r : InnerRead) : State := { s with grv := { s.grv with reads := s.grv.reads ++ [r], nextRead := r.id + 1 } }
  let own : State := resolveRd (bpmAlloc (add s r) ⟨ownerOf s r.tenant, 1, false, .read r.id⟩) r.id
  match rdShare s r with
  | none => own
  | some y => match bpmShare s y.buf r.tenant with
    | (.ok _, s) => add s { r with buf := y.buf, leader := some y.id }
    | _ => own

/-- A stream or a Memory Copy may ask for its next MU (R28, R392): 256 at a time, 2,048 in a grove, and none while one waits for a buffer. -/
def rdRoom (s : State) (w : ReadFor) : Bool :=
  (rdsOf s w).length < 256 && !(rdsOf s w).any (·.buf = 0) && match w with
    | .stream e _ => countOf (fun r => match r.who with
        | .stream f _ => f / 16 = e / 16
        | .copy _ => false) s.grv.reads < 2048
    | .copy _ => true

/-- The next read of an LBA_IN stream. -/
def strNext (s : State) (e k : Nat) (x : Stream) : Option InnerRead :=
  match nsOf s x.nsid with
  | none => none
  | some n =>
    let pos := x.start * lbaBytes n + x.asked
    let o := pos % 4096
    if x.typ ≠ .lbaIn || x.stopped || x.len ≤ x.asked then none
    else some { id := 0, who := .stream e k, tenant := (engOf s e).tenant, nsid := x.nsid, gmu := gmuOf n (pos / 4096), off := o, len := min (4096 - o) (x.len - x.asked), cls := x.cls }

/-- A stream reads ahead (R392). -/
def strAhead (e k : Nat) : Nat → State → State
  | 0, s => s
  | n + 1, s =>
    match Tbl.find (engOf s e).streams k with
    | none => s
    | some x => match strNext s e k x with
      | none => s
      | some r =>
        if !rdRoom s (.stream e k) then s
        else strAhead e k n (rdStart (setEng s e { engOf s e with streams := Tbl.put (engOf s e).streams k { x with asked := x.asked + r.len } }) r)

/-- A Memory Copy reads ahead, in class NORMAL. -/
def copyAhead (c : CmdId) : Nat → State → State
  | 0, s => s
  | n + 1, s =>
    match s.grv.copies.find? fun y => y.cmd = c with
    | some ⟨_, (nsid, g, o, l) :: t, _, _⟩ =>
      if !rdRoom s (.copy c) then s
      else
        let tenant := ((ctxOf s c).map (·.tenant)).getD 0
        copyAhead c n (rdStart { s with grv := { s.grv with copies := s.grv.copies.map fun y => if y.cmd = c then { y with todo := t } else y } }
          { id := 0, who := .copy c, tenant := tenant, nsid := nsid, gmu := g, off := o, len := l, cls := 2 })
    | _ => s

/-- The stream that a read is for is open, or its command runs. -/
def rdWanted (s : State) (w : ReadFor) : Bool := match w with
  | .stream e k => (Tbl.find (engOf s e).streams k).isSome
  | .copy c => s.grv.copies.any (·.cmd = c)

/-- Reads go on: those whose stream or command is gone are dropped, lookups are made again, and more are asked for. -/
def serveReads (s : State) : State :=
  if s.grv.reads = [] && s.grv.copies = [] && !(s.grv.eng.any fun e => e.2.streams ≠ []) then s
  else
    let s := { s with grv := { s.grv with copies := s.grv.copies.filter fun (y : CopyRun) => match ctxOf s y.cmd with
      | some x => !ctxDone x
      | none => false } }
    let s := (s.grv.reads.filter fun (r : InnerRead) => !r.dead && !rdWanted s r.who).foldl rdKill s
    let s := s.grv.reads.foldl (fun (s : State) (r : InnerRead) => resolveRd s r.id) s
    let s := s.grv.eng.foldl (fun (s : State) (e : Nat × Eng) => e.2.streams.foldl (fun (s : State) (k : Nat × Stream) => strAhead e.1 k.1 256 s) s) s
    s.grv.copies.foldl (fun (s : State) (y : CopyRun) => copyAhead y.cmd 256 s) s

/-- The recovery time of a read of R392 reaches the limit of its namespace (R289): its ladder ends and goes on as background recovery. -/
def rdTimeout (s : State) (r : InnerRead) : State :=
  if rdF s 0x1A (0x1000 + 4 * (r.nsid - 1)) 15 0 = 0 then s
  else
    let s := bump s 0x1A 0x138 1
    let s := { s with ftl := { s.ftl with waits := s.ftl.waits.filter fun (w : Nat × LookFor) => w.2 ≠ LookFor.inner r.id } }
    let s := (s.ldc.cws.filter fun (x : Cw) => x.purpose = CwFor.inner r.id).foldl (fun (s : State) (x : Cw) =>
      takeRecovery (cwDel (cancelCw (dropSurvivors s x.id) x) x.id) x.pua r.gmu x.expect (min x.step 4)) s
    rdFail s r.id stUnrecRead

/-! ### Pending writes -/

/-- Hand an OPEN, merged pending write to Coppice (R177). -/
def queuePwt (s : State) (p : Pwt) : State :=
  if p.held || p.queued || p.dead || !p.merged then s
  else
    let s := { s with ftl := { s.ftl with pwt := s.ftl.pwt.map fun q => if q.wseq = p.wseq && q.gmu = p.gmu then { q with queued := true } else q } }
    queueItem s {
      tenant := p.tenant, ruh := p.handle, group := p.group, src := .host p.gmu p.wseq, force := p.fua, buf := p.buf
      content := .user p.nsid p.mu p.tenant p.lost p.wseq (crc32c p.data) p.data }

/-- Merge an LBAF1 write with the MU's current data (R181): uncovered LBAs take the old bytes; where the old data is lost they
are marked LOST. -/
def mergePwt (s : State) (wseq gmu : Nat) (old : Option (List Byte)) (oldLost : Nat) : State :=
  match s.ftl.pwt.find? fun p => p.wseq = wseq && p.gmu = gmu with
  | none => s
  | some p =>
    let d := (List.range 8).map fun i =>
      if p.mask.testBit i then (p.data.drop (512 * i)).take 512
      else (((old.getD []).drop (512 * i)).take 512 ++ List.replicate 512 0).take 512
    let lost := sumOf (fun i => if (if p.mask.testBit i then p.lost.testBit i else old = none || oldLost.testBit i) then 2 ^ i else 0) (List.range 8)
    let p' := { p with data := d.flatten, lost := lost, merged := true }
    queuePwt { s with ftl := { s.ftl with pwt := s.ftl.pwt.map fun q => if q = p then p' else q } } p'

/-- Start the merge of a pending write that covers part of its MU (R181), with the data of the highest write sequence below its own. A map access that Bark refuses
is a Fault: no command waits for it (DESIGN CHOICE, entry 58). -/
def startMerge (s : State) (p : Pwt) : State :=
  let before := s.ftl.pwt.filter fun q => q.gmu = p.gmu && !q.dead && q.wseq < p.wseq && (!q.held || (q.cmd.mid = p.cmd.mid && q.cmd.sqid = p.cmd.sqid))
  match before.foldl (fun (b : Option Pwt) q => match b with
    | none => some q
    | some x => if x.wseq < q.wseq then some q else b) none with
  | some q => if q.merged then mergePwt s p.wseq p.gmu (some q.data) q.lost else s
  | none =>
    match mapLookup s p.gmu with
    | (.ent e, s) =>
      if entMalformed s e then mapCorrupt s
      else match entFlags e with
      | 0 => mergePwt s p.wseq p.gmu (some (List.replicate 4096 0)) 0
      | 1 => startCw s (entPua e) 2 (expectMu s p.gmu) (.merge p.wseq p.gmu)
      | _ => mergePwt s p.wseq p.gmu none 0
    | (.rebuilding, s) => mergePwt s p.wseq p.gmu none 0
    | (.corrupt, s) => mapCorrupt s
    | (.denied, s) => enterFault s 0x0E
    | (_, s) => waitLeaf s (p.gmu / 2048) 2 (some [p.gmu % 2048]) (.merge p.wseq p.gmu)

/-- LBAs of an MU that writes and TRIMs with a higher sequence have given it (R112, R179, R182). -/
def laterMask (s : State) (gmu wseq : Nat) : Nat :=
  let m := (s.ftl.stood.filter fun x => x.gmu ≤ gmu && gmu < x.gmu + x.count && wseq < x.wseq).foldl (fun m x => m ||| x.mask) 0
  (s.ftl.pwt.filter fun q => q.gmu = gmu && !q.held && !q.dead && wseq < q.wseq).foldl (fun m q => m ||| q.mask) m

/-- An OPEN pending write enters the table, and goes to the merge or to Coppice (R177). -/
def pwtPush (s : State) (p : Pwt) : State :=
  let s := { s with ftl := { s.ftl with pwt := s.ftl.pwt ++ [p] } }
  if p.merged then queuePwt s p else startMerge s p

/-- A pending write becomes OPEN (R112, R177, R179): what later writes have given stays theirs. A write that they cover whole never enters the map; one that they cover
in part enters with the LBAs left and a sequence of its own, the next, so that both stand (DESIGN CHOICE, entry 124). The sequences whose closing it needs. -/
def pwtOpen (s : State) (p : Pwt) : List Nat × State :=
  let later := laterMask s p.gmu p.wseq
  let left := p.mask ^^^ (p.mask &&& later)
  if p.mask &&& later = 0 then ([p.wseq], pwtPush s p)
  else
    let up (q : Pwt) : Bool := q.gmu = p.gmu && !q.held && !q.dead && p.wseq < q.wseq
    let cover := (s.ftl.pwt.filter up).map (·.wseq)
    let s := { s with ftl := { s.ftl with pwt := s.ftl.pwt.map fun q => if up q then { q with cmdSeq := min q.cmdSeq p.cmdSeq } else q } }
    if left = 0 then (cover, s)
    else
      let w := s.ftl.wseq
      (w :: cover, pwtPush { s with ftl := { s.ftl with wseq := w + 1 } } { p with wseq := w, mask := left, merged := false })

/-- The pending-write table has room for n entries (R177), and none waits for room. -/
def pwtRoom (s : State) (n : Nat) : Bool := s.ftl.pwtWait = [] && s.ftl.pwt.length + n ≤ rdF s 0x0E 0x12C 27 0

/-- A full table stalls placement: PWT_FULL (R177, R197). -/
def pwtFull (s : State) : State := raiseInt s 0x0E 4

/-- Pending writes of a fully received write enter the table as far as it has room; the others wait for it (R177), which only those of a command that has ended do:
a live command waits itself. The sequences whose closing the write needs. -/
def pwtEnter (s : State) : List Pwt → List Nat × State
  | [] => ([], s)
  | p :: t =>
    if !pwtRoom s 1 then
      let l := pwtEnter (pwtFull { s with ftl := { s.ftl with pwtWait := s.ftl.pwtWait ++ [p] } }) t
      (p.wseq :: l.1, l.2)
    else if p.held then
      let l := pwtEnter { s with ftl := { s.ftl with pwt := s.ftl.pwt ++ [p] } } t
      (p.wseq :: l.1, l.2)
    else
      let a := pwtOpen s p
      let l := pwtEnter a.2 t
      (a.1 ++ l.1, l.2)

/-- Pending writes that waited for room enter the table. -/
def servePwtWait (s : State) : State := if s.ftl.pwtWait = [] then s else (pwtEnter { s with ftl := { s.ftl with pwtWait := [] } } s.ftl.pwtWait).2

/-! ### Relocation, die loss, recovery entries -/

/-- Coppice counts a relocation as over: the slot is moved, dead or unreadable. -/
def moveEnded (s : State) (pua : Nat) : State :=
  match ruOfPua s pua with
  | some i => setRu s i { ruAt s i with moving := (ruAt s i).moving.filter (· ≠ pua) }
  | none => s

/-- An MU that can no longer be read is journalled UNCORR and counted, where the map still names it, which is looked up first (R220, R230). -/
def uncorrMu (s : State) (gmu pua : Nat) : State :=
  match mapLookup s gmu with
  | (.ent e, s) =>
    moveEnded (if e = entMapped pua then journal { s with cpc := { s.cpc with uncorrSet := s.cpc.uncorrSet + 1 } } .uncorr gmu 1 0 0 else s) pua
  | (.corrupt, s) => mapCorrupt s
  | (.denied, s) => enterFault s 0x0F
  | (.rebuilding, s) => addWait s (gmu / 2048) (.uncorr gmu pua)
  | (_, s) => waitLeaf s (gmu / 2048) 2 (some [gmu % 2048]) (.uncorr gmu pua)

/-- The global MU index of a user content. -/
def contentGmu (s : State) (c : Content) : Option Nat := match c with
  | .user nsid mu _ _ _ _ _ => match nsOf s nsid with
    | some n => some (gmuOf n mu)
    | none => none
  | _ => none

/-- A buffer for one MU, drawn internally from the Leaf-pool owner of a tenant (R144, R145, R293). -/
def drawMu (s : State) (t : Nat) : Option Nat × State := match classFor s 4096 with
  | some k => bpmTry s (ownerOf s t) k true
  | none => (none, s)

/-- Give back a buffer that may not be held. -/
def giveBack (s : State) (a : Nat) : State := if a = 0 then s else bpmFree s a

/-- The read of a relocation joins the recovery entry of its MU (R294), or takes a buffer of its own, for which it may wait. -/
def moveRead (s : State) (idx pua gmu : Nat) (e : Expect) : State :=
  let mark (s : State) : State := setRu s idx { ruAt s idx with moving := pua :: (ruAt s idx).moving.filter (· ≠ pua) }
  if s.ldc.bg.any (·.pua = pua) then mark s
  else match drawMu s e.tenant with
    | (some a, s) => startCw (mark s) pua 3 e (.reloc idx gmu) a
    | (none, s) => { s with cpc := { s.cpc with moveWait := if s.cpc.moveWait.contains (idx, pua) then s.cpc.moveWait else s.cpc.moveWait ++ [(idx, pua)] } }

/-- Start the relocation of one valid slot (R220): user data is read through the read path; a live leaf is written back anew. -/
def moveSlot (s : State) (idx pua : Nat) : State :=
  match Tbl.find s.flash.cells pua with
  | none => s
  | some c =>
    match c with
    | .user nsid mu t _ _ _ _ =>
      match contentGmu s c with
      | some g => moveRead s idx pua g { kind := 1, nsid := nsid, mu := mu, tenant := t }
      | none => invalidate (moveEnded s pua) pua
    | .mapLeaf root _ _ _ _ =>
      let loc := flashLoc s root
      let mine := locGlen loc ≠ 0 && locPua loc ≤ pua && pua < locPua loc + ceilDiv (locGoff loc + locGlen loc) 4
      if !mine || s.ftl.waits.contains (root, .writeback) || s.ftl.rebuilding.contains root then s
      else match residentOf s root with
      | some _ => queueWb (setRoot s root { rootOf s root with dirty := true }) root
      | none => waitLeaf s root 2 none .writeback
    | _ => s

/-- Relocate a reclaim unit: it becomes the victim, and its valid slots are read (R220). -/
def startVictim (s : State) (idx : Nat) (wear : Bool) : State :=
  let r := ruAt s idx
  let s := setRu s idx { r with st := .victim, wear := wear }
  r.valid.foldl (fun s p => moveSlot s idx p) s

/-- Relocations that waited for a buffer are started. -/
def serveMoves (s : State) : State :=
  s.cpc.moveWait.foldl (fun s m => if isValid s m.2 && !(ruAt s m.1).moving.contains m.2 then moveSlot s m.1 m.2 else s) { s with cpc := { s.cpc with moveWait := [] } }

/-- Retire a die (R229, R230): its set marks it, RUs on it are DEGRADED, its valid MUs are rebuilt, and every valid MU of a stripe that
has lost two units becomes UNCORR. -/
def retireDie (s : State) (n : Nat) : State :=
  if s.cpc.retiredDies.contains n then s
  else
    let s := { s with cpc := { s.cpc with
      retiredDies := s.cpc.retiredDies ++ [n]
      dsets := s.cpc.dsets.map fun d => (d.1, { d.2 with members := d.2.members.map fun m => if m.1 = n then (m.1, true, m.2.2) else m })
      rus := s.cpc.rus.map fun p => if p.2.members.any fun m => m.die = n && !m.skip then (p.1, { p.2 with degraded := true }) else p } }
    let s := raiseInt s 0x0F 3
    let lostPuas := (s.cpc.rus.map fun p => p.2.valid.filter fun q => puaDie q = n).flatten
    let all := s.cpc.rebuild ++ lostPuas
    let gone := (s.cpc.rus.map fun p => if !(p.2.members.any fun m => m.die = n && !m.skip) then [] else
      p.2.valid.filter fun q => stripeLost s p.2 (puaPage q / max 1 (ruPpw s p.2))).flatten
    let s := gone.foldl (fun s p =>
      match Tbl.find s.flash.cells p with
      | some c => match contentGmu s c with
        | some g => uncorrMu { s with cpc := { s.cpc with lost := true } } g p
        | none => s
      | none => s) s
    let left := all.filter fun p => !gone.contains p
    let s := { s with cpc := { s.cpc with rebuild := left } }
    let s := if left = [] && all ≠ [] then raiseInt s 0x0F 6 else s
    checkReadOnly (left.foldl (fun s p => match ruOfPua s p with
      | some i => if (ruAt s i).moving.contains p then s else moveSlot s i p
      | none => s) s)

/-- Take a recovery entry out: its codeword leaves the ladder, and the reads that waited for it end with Unrecovered Read Error (R294). -/
def bgDrop (s : State) (b : BgEntry) : State :=
  let s := match b.cw with
    | some id => match cwOf s id with
      | some x => cwDel (cancelCw (dropSurvivors s id) x) id
      | none => s
    | none => s
  let s := giveBack { s with ldc := { s.ldc with bg := s.ldc.bg.filter fun y => y.pua ≠ b.pua } } b.buf
  b.inner.foldl (fun s i => rdFail s i stUnrecRead) (b.readers.foldl (fun s c => failMu s c b.gmu stUnrecRead) s)

/-- The end of a recovery entry (R293). A relocation that joined one that failed finds its MU unreadable (R220, R294). -/
def bgEnd (s : State) (pua : Nat) (ok : Bool) : State :=
  match s.ldc.bg.find? fun b => b.pua = pua with
  | none => s
  | some b =>
    if ok then bump (bgDrop s b) 0x1A 0x14C 1
    else
      let s := bgDrop (emit (raiseInt (bump s 0x1A 0x150 1) 0x1A 2) 0x7002 sevError 0x1A (some b.expect.tenant) (leBytes 8 pua)) b
      match ruOfPua s pua with
      | some i =>
        if (ruAt s i).moving.contains pua then uncorrMu (emit s 0x6002 sevError 0x0F (some b.expect.tenant) (leBytes 8 pua)) b.gmu pua else s
      | none => s

/-- A recovered payload is kept in a buffer drawn for it, which it may wait for; it is relocated, and its readers are served (R293, R294). -/
def bgKeep (s : State) (b : BgEntry) : State :=
  match b.held with
  | some (.user nsid mu t lost ws crc d) =>
    match drawMu s t with
    | (none, s) => s
    | (some a, s) =>
      let c : Content := .user nsid mu t lost ws crc d
      let s := { s with ldc := { s.ldc with bg := s.ldc.bg.map fun y => if y.pua = b.pua then { y with payload := some c, held := none, buf := a, readers := [], inner := [] } else y } }
      let s := b.inner.foldl (fun s i => rdData s i lost d) (b.readers.foldl (fun s k => deliverMu s k b.gmu lost d) s)
      queueItem s { tenant := t, ruh := ruhGc, src := .reloc b.gmu b.pua, content := c, buf := a }
  | _ => s

/-- The codeword of a recovery entry is recovered. -/
def bgRecovered (s : State) (x : Cw) (c : Content) : State :=
  match s.ldc.bg.find? fun b => b.cw = some x.id with
  | some b =>
    let b' := { b with held := some c }
    bgKeep { s with ldc := { s.ldc with bg := s.ldc.bg.map fun y => if y.pua = b.pua then b' else y } } b'
  | none => s

/-! ### Draining -/

/-- Count a read of a block (R224). -/
def countRead (s : State) (pua : Nat) : State :=
  match ruOfPua s pua with
  | none => s
  | some i =>
    let r := ruAt s i
    let k := puaDie pua
    let n := Tbl.getD r.reads k 0 + 1
    setRu s i { r with reads := Tbl.put r.reads k n, readMax := max r.readMax n }

/-- A completion of the firmware ring (R258). The die's busy time, which the model does not hold, is free: `t`. -/
def fwCpl (o : FOp) (status value : Nat) (t : List Byte) : List Byte :=
  leBytes 2 o.tag ++ leBytes 2 status ++ leBytes 4 value ++ t ++ leBytes 4 0

/-- Post the completions of a channel's firmware ring (R193, R274). -/
def postFch (s : State) (c : Nat) : State :=
  let (s, r) := ringPost ⟨0x380 + c, 0⟩ (fchRgn c) 16 5 s (chanOf s c).ring
  setChan s c { chanOf s c with ring := r }

/-- Hand one completion of a flash operation to its submitter (R258). -/
def handComp (s : State) (o : FOp) (status value : Nat) : State :=
  match o.purpose with
  | .prog i row m => progDone s o i row m status
  | .erase i m => eraseDone s i m status
  | .cw id => cwOpDone (if status = 0 then countRead s o.addr else s) id o.id status
  | _ =>
    if o.sub = .fw then
      let c := puaChan o.addr
      let (t, s) := freeBytes (if isRead o && status = 0 then countRead s o.addr else s) 4
      let x := chanOf s c
      postFch (setChan s c { x with ring := { x.ring with done := x.ring.done ++ [fwCpl o status value t] } }) c
    else s

/-- A refresh finds a codeword recoverable only by rebuild: at the second one in a block, the block is grown bad (R226). -/
def noteRebuilt (s : State) (i : Nat) (x : Cw) : State :=
  let r := ruAt s i
  if !r.refresh || x.step ≠ 3 || x.rbFirst || x.ladderDead then s
  else
    let n := Tbl.getD r.rebuilt (puaDie x.pua) 0 + 1
    let s := setRu s i { r with rebuilt := Tbl.put r.rebuilt (puaDie x.pua) n }
    if n = 2 then growBad s (puaDie x.pua) (puaBlock x.pua) else s

/-- Where LDC writes the payload of a codeword: the place of its MU in a command's buffers, or the codeword's own buffer; 0 where it has none (R256). -/
def cwDest (s : State) (x : Cw) : Nat := match x.purpose with
  | .cmd c g => match ctxOf s c with
    | some y => match (y.mus.zipIdx.find? fun m => m.1.gmu = g).map fun m => 4096 * m.2 with
      | some o => match y.bufs[o / 262144]? with
        | some a => a + o % 262144
        | none => 0
      | none => 0
    | none => 0
  | .merge w g => match s.ftl.pwt.find? fun p => p.wseq = w && p.gmu = g with
    | some p => p.buf
    | none => 0
  | .inner i => ((rdOf s i).map (·.buf)).getD 0
  | _ => x.buf

/-- LDC writes the payload with the MID and tenant of the sequencer that read it, which the Bark table of DMC checks (R15, R142). -/
def cwLands (s : State) (x : Cw) : Bool × State :=
  let a := cwDest s x
  if a = 0 then (true, s) else dramMay s ⟨0x380 + puaChan x.pua, x.expect.tenant⟩ a 4096 .write

/-- Hand one outcome of the ladder to its reader. -/
def giveResult (s : State) (x : Cw) (p : Option Content) : State :=
  match x.purpose with
  | .cmd c g =>
    match p with
    | some (.user _ _ _ lost _ _ d) => deliverMu s c g lost d
    | _ => failMu s c g stUnrecRead (some x.pua)
  | .inner i =>
    match p with
    | some (.user _ _ _ lost _ _ d) => rdData s i lost d
    | _ => rdFail (match rdOf s i with
      | some r => takeRecovery s x.pua r.gmu x.expect 5
      | none => s) i stUnrecRead
  | .merge w g =>
    match p with
    | some (.user _ _ _ lost _ _ d) => mergePwt s w g (some d) lost
    | _ => mergePwt s w g none 0
  | .leaf root => pageInStep s root x.expect.slot p
  | .reloc i g =>
    match p with
    | some (.user nsid mu t lost ws crc d) =>
      if isValid s x.pua then
        queueItem (noteRebuilt s i x) {
          tenant := t, ruh := ruhGc,
          src := .reloc g x.pua, content := .user nsid mu t lost ws crc d, buf := x.buf }
      else moveEnded (giveBack s x.buf) x.pua
    | _ => uncorrMu (emit (giveBack s x.buf) 0x6002 sevError 0x0F (some x.expect.tenant) (leBytes 8 x.pua)) g x.pua
  | .recovery =>
    match p with
    | some c => bgRecovered s x c
    | none => bgEnd s x.pua false
  | .survivor _ | .backing _ => s

/-- Hand on an outcome whose payload DMC takes; a refused write of a sequencer's puts the device in Fault (R142). -/
def handResult (s : State) (x : Cw) (p : Option Content) : State :=
  match p with
  | none => giveResult s x none
  | some c => match cwLands s x with
    | (true, s) => giveResult s x (some c)
    | (false, s) => enterFault s (fchRgn (puaChan x.pua))

/-- One piece of draining. -/
def drainOne (s : State) : Option State :=
  match s.flash.comps with
  | (o, st, v) :: t => some (handComp { s with flash := { s.flash with comps := t } } o st v)
  | [] =>
    match s.ldc.results with
    | (x, p) :: t => some (handResult { s with ldc := { s.ldc with results := t } } x p)
    | [] => none

/-- Hand on everything that is on its way. -/
def drainAll (s : State) : Nat → State
  | 0 => s
  | n + 1 => match drainOne s with
    | some s => drainAll s n
    | none => s

/-- A forced write or a Flush is closed: no covered pending write is still unplaced (R109, R110). -/
def closedNow (s : State) (x : Ctx) : Bool :=
  !(s.ftl.pwt.any fun p => x.cover.contains p.wseq && !p.closed && !p.dead)

/-- The MAP and NSMETA records with a sequence below a mark are in the flash journal (R454, R631). -/
def mapsClosed (s : State) (mark : Nat) : Bool :=
  !((s.ftl.jbuf ++ s.ftl.jpending).any fun r => (r.typ = .mapRec || r.typ = .nsmeta) && r.jseq < mark)

/-- Complete the commands whose writes are closed on NAND; while the ledger is invalid an FUA write and a Flush wait for the journal
pages of their MAP records too (R109, R110, R454). A read that waited for closure starts. -/
def checkCloses (s : State) : State :=
  s.hqe.ctxs.foldl (fun s x =>
    if x.stage = .waitClose && closedNow s x then
      if x.sqe.opc = 0x02 && !x.admin then startRead s x.id
      else if ledgerValid s then complete s x.id stOk x.dw0
      else match x.jmark with
        | some m => if mapsClosed s m then complete s x.id stOk x.dw0 else s
        | none =>
          if s.ftl.stalled.any (·.typ = .mapRec) then s
          else if mapsClosed s s.ftl.jseq then complete s x.id stOk x.dw0
          else ctxUpd s x.id fun y => { y with jmark := some s.ftl.jseq }
    else s) s

/-- Apply records that stalled at the checkpoint limits (R187), oldest first. -/
def unstall (s : State) : State :=
  if jStalled s then s
  else
    let l := s.ftl.stalled
    l.foldl (fun s r => journal s r.typ r.mu r.a r.b r.c) { s with ftl := { s.ftl with stalled := [] } }

/-- Issue rows that waited for budget or pace. -/
def issueRows (s : State) : State :=
  s.cpc.rus.foldl (fun (s : State) (p : Nat × Ru) => p.2.open_.foldl (fun (s : State) (w : Nat × Row) => issueRow s p.1 w.1) s) s

/-- Rebuild left to do (CPC_REBUILD_LEFT): MUs that are neither moved nor dead; REBUILD_DONE at zero (R229). -/
def rebuildLeft (s : State) : State :=
  if s.cpc.rebuild = [] then s
  else
    let l := s.cpc.rebuild.filter (isValid s)
    let s := { s with cpc := { s.cpc with rebuild := l } }
    if l = [] then raiseInt s 0x0F 6 else s

/-- Recovery entries whose RELOC has applied, or whose MU a host write or TRIM overtook, end (R293); recovered payloads that waited for a buffer are kept. -/
def settleBg (s : State) : State :=
  s.ldc.bg.foldl (fun s b =>
    if isValid s b.pua then bgKeep s b
    else if b.payload.isSome then bgEnd s b.pua true
    else bgDrop s b) s

/-- A read whose leader has ended before it goes on by itself (R150). -/
def leaderGone (s : State) : State :=
  s.hqe.ctxs.foldl (fun s x => match x.leader with
    | none => s
    | some l => if (ctxOf s l).any (·.stage = .reading) then s
      else ctxUpd s x.id fun y => { y with leader := none, mus := y.mus.map fun m => if m.st = .page then { m with st := .lookup } else m }) s

/-- Lookups left open behind a merge, or by a leader, are made again. -/
def retryLookups (s : State) : State :=
  (leaderGone s).hqe.ctxs.foldl (fun s x => if x.stage = .reading then
    x.mus.foldl (fun s m => if m.st = .lookup then resolveMu s x.id m.gmu else s) s else s) (leaderGone s)

/-- Pending writes left unmerged behind an earlier one are merged. -/
def retryMerges (s : State) : State :=
  s.ftl.pwt.foldl (fun s p =>
    if p.merged || s.ldc.cws.any (fun x => x.purpose = .merge p.wseq p.gmu) || s.ftl.waits.any (fun w => w.2 = .merge p.wseq p.gmu)
    then s else startMerge s p) s

/-- Lookups, updates, merges and writebacks that waited for a leaf proceed in arrival order (R169). A leaf that a victim's relocation brought in is written anew
(R220). -/
def wake (s : State) (root : Nat) : State :=
  let l := s.ftl.waits.filter fun w => w.1 = root
  let s := { s with ftl := { s.ftl with waits := s.ftl.waits.filter fun w => w.1 ≠ root } }
  l.foldl (fun s w => match w.2 with
    | .read c g => resolveMu (muUpd s c g fun m => { m with st := .lookup }) c g
    | .inner i => resolveRd (rdUpd s i fun r => { r with st := .lookup }) i
    | .merge q g => match s.ftl.pwt.find? fun p => p.wseq = q && p.gmu = g with
      | some p => if p.merged then s else startMerge s p
      | none => s
    | .apply r => applyLeaf s r root
    | .uncorr g p => uncorrMu s g p
    | .writeback => if (residentOf s root).isSome then writebackStart (setRoot s root { rootOf s root with dirty := true }) root else s) s

/-- A leaf is unreadable (R169, R191, R192): BUSY stays, REBUILD is raised, waiting reads fail, and LEAF_WB entries end (R195). -/
def leafUnreadable (s : State) (root : Nat) : State :=
  let s := pgRelease s root
  let s := raiseInt { s with ftl := { s.ftl with rebuilding := if s.ftl.rebuilding.contains root then s.ftl.rebuilding else s.ftl.rebuilding ++ [root] } } 0x0E 5
  let s := endWb s root 2
  let l := s.ftl.waits.filter fun w => w.1 = root
  let s := { s with ftl := { s.ftl with waits := s.ftl.waits.filter fun w => w.1 ≠ root || (match w.2 with
    | .apply _ | .uncorr _ _ => true
    | _ => false) } }
  l.foldl (fun s w => match w.2 with
    | .read c g => failMu s c g stUnrecRead
    | .inner i => rdFail s i stUnrecRead
    | .merge q g => mergePwt s q g none 0
    | _ => s) s

/-- The walker's own work goes on: leaves that must go, page-ins that lacked space, what waited for leaves that are there, pending writes that lacked room, and work
entries that have ended. -/
def walk (s : State) : State :=
  let s := evictStale s
  let s := s.ftl.pageIns.foldl (fun s p => pgTry s p.1) s
  let s := ((s.ftl.waits.map (·.1)).eraseDups.filter fun r => !(rootOf s r).busy).foldl wake s
  let s := servePwtWait (pruneStood s)
  settleSum (settleEvict (settleReplay (settleRebuild (settleSnap (settleCkpt (settleWb s))))))

/-- Everything that can move on after a result has arrived. -/
def drain (s : State) : State :=
  let s := drainAll s 4096
  let s := walk (serveMoves (serveRebuilds (rebuildLeft (settleBg (unstall s)))))
  let s := serveReads (retryLookups (retryMerges (issueRows (fillPages s))))
  serveDecoders (checkCloses (drainAll s 4096))

/-- The outcome of a media command: results are handed on, and a change of the device state is signalled. -/
def finMedia (s : State) : Out := fin (drain s)

end Sys2Proof.Machine
end

