-- ==== Sys2Proof/Machine/Fch.lean ====
section
/-! DEFINITION. The flash channels' commands (R244 to R276). -/

namespace Sys2Proof.Machine

/-- Set a channel's TSTATE. -/
def setTs (s : State) (c ts : Nat) : State := setChan s c { chanOf s c with tstate := ts }

/-- FCH_POWER_WAIT_DONE (R250): POWER ends, and DETECT begins. -/
def fchPowerWaitDone (s : State) (c : Nat) : State := if (chanOf s c).tstate = tsPower then setTs s c tsDetect else s

def execFchPowerWaitDone (c : Fin 32) (s : State) : Out := fin (fchPowerWaitDone s c)

/-- DIE_DETECT_TIMEOUT (R251): a silent die is ABSENT. -/
def dieDetectTimeout (s : State) (c d : Nat) : State :=
  if (chanOf s c).tstate = tsDetect then setDie s (c * 16 + d) { dieOf s (c * 16 + d) with st := .absent } else s

def execDieDetectTimeout (c : Fin 32) (d : Fin 16) (s : State) : Out := fin (dieDetectTimeout s c d)

/-- FCH_DETECT_DONE (R249, R250): the dies that answered are PRESENT, the others ABSENT; a LOST or retired die is not selected. -/
def fchDetectDone (s : State) (c : Nat) (answered : List Nat) : State :=
  if (chanOf s c).tstate ≠ tsDetect then s
  else
    let s := (List.range 16).foldl (fun s d => if (dieOf s (c * 16 + d)).st = .lost || (dieOf s (c * 16 + d)).st = .retired then s else
      setDie s (c * 16 + d) { dieOf s (c * 16 + d) with st := if answered.contains d then .present else .absent }) s
    setTs s c tsIdent

def execFchDetectDone (c : Fin 32) (answered : List (Fin 16)) (s : State) : Out :=
  fin (fchDetectDone s c (answered.map Fin.val))

/-- Exclude a die (R253): its state stands, and Rings records it. -/
def excludeDie (s : State) (c d : Nat) (st : DieSt) : State :=
  emit (setDie s (c * 16 + d) { dieOf s (c * 16 + d) with st := st }) 0x6003 sevWarning (fchRgn c) none
    (leBytes 2 (c * 16 + d) ++ leBytes 1 st.code)

/-- A die meets R244 and has the geometry of CPC_GEOM and CPC_GEOM2 (R245). -/
def pageFits (s : State) (p : ParamPage) : Bool :=
  p.valid && p.meets && 1024 ≤ p.gbit && p.gbit ≤ 2048 && p.data = 16384 && 1824 ≤ p.spare && (p.planes = 4 || p.planes = 6) && p.blocks ≤ 4096 && p.pagesPerBlock ≤ 4096
    && 1 ≤ p.luns && p.luns ≤ 4 && p.planes = rdF s 0x0F 0x104 2 0 && p.pagesPerWl = rdF s 0x0F 0x104 6 3 && p.twoPass = Word.bit (rd s 0x0F 0x104) 7
    && p.pagesPerBlock = rdF s 0x0F 0x104 20 8 && p.blocks = rdF s 0x0F 0x108 12 0

/-- FCH_IDENT_DONE (R244, R245): dies that fail the checks, or give no parameter page, are INCOMPAT; the parameter pages give the least bus timing. -/
def fchIdentDone (s : State) (c : Nat) (pages : List (Nat × ParamPage)) (ids : List (Nat × Word)) (tim0 tim1 : Word) : State :=
  if (chanOf s c).tstate ≠ tsIdent then s
  else
    let s := ids.foldl (fun s p => setDie s (c * 16 + p.1) { dieOf s (c * 16 + p.1) with idWord := p.2 }) s
    let fits (d : Nat) : Bool := (Tbl.find pages d).any (pageFits s)
    let s := (List.range 16).foldl (fun s d => if (dieOf s (c * 16 + d)).st = .present && !fits d then excludeDie s c d .incompat else s) s
    let s := setChan s c { chanOf s c with timMin := (tim0, tim1) }
    setTs (wr (wr s (fchRgn c) 0x134 tim0) (fchRgn c) 0x138 tim1) c tsTrain

def execFchIdentDone (c : Fin 32) (pages : List (Fin 16 × ParamPage)) (ids : List (Fin 16 × Word)) (tim0 tim1 : Word) (s : State) : Out :=
  fin (fchIdentDone s c (pages.map fun p => (p.1.val, p.2)) (ids.map fun p => (p.1.val, p.2)) tim0 tim1)

/-- The larger of two words byte by byte: the timing fields that the sequencer uses (R273). -/
def maxBytes (a b : Word) : Word := w32 (leNat ((List.range 4).map fun i => BitVec.ofNat 8 (max (a.toNat / 256 ^ i % 256) (b.toNat / 256 ^ i % 256))))

/-- The outcome of a rate search (R252, R253, R273): each die's highest passing rate, the channel rate, the bus timing in use, READY or EMPTY. -/
def trainResult (s : State) (c : Nat) (rates : List (Nat × Nat)) : State :=
  let max := rdF s (fchRgn c) 0x100 3 0
  let s := (List.range 16).foldl (fun s d =>
    let n := c * 16 + d
    if !dieUsable s n then s
    else
      let r := match rates.find? fun p => p.1 = d with
        | some p => min p.2 max
        | none => 0
      if r = 0 then excludeDie s c d .failedTrain
      else setDie s n { dieOf s n with st := .ready, maxRate := r }) s
  let live := (List.range 16).filter fun d => dieUsable s (c * 16 + d)
  let rate := (live.map fun d => (dieOf s (c * 16 + d)).maxRate).foldl min 15
  let excluded := (List.range 16).any fun d => (dieOf s (c * 16 + d)).st = .failedTrain || (dieOf s (c * 16 + d)).st = .incompat
  let m := (chanOf s c).timMin
  let tim := (maxBytes (rd s (fchRgn c) 0x134) m.1, maxBytes (rd s (fchRgn c) 0x138) m.2)
  let s := setChan s c { chanOf s c with tstate := if live = [] then tsEmpty else tsReady, rate := if live = [] then 0 else rate, tim := tim }
  let s := if excluded || (live ≠ [] && rate < max) then raiseInt s (fchRgn c) 2 else s
  let s := raiseInt s (fchRgn c) 1
  bump s (fchRgn c) 0x154 1

/-- Operations queued for a die that operations may not run on are answered with ABSENT (R250, R257). -/
def flushAbsent (s : State) (c : Nat) : State :=
  (List.range 16).foldl (fun s d =>
    let n := c * 16 + d
    let q := (dieOf s n).q
    if q = [] || ((chanOf s c).tstate ≠ tsEmpty && (dieUsable s n || (dieOf s n).st = .retired)) then s
    else q.foldl (fun s o => completeOp s o 5 0) (setDie s n { dieOf s n with q := [] })) s

/-- FCH_TRAIN_DONE (R250, R252): TRAIN ends, TRAIN_DONE is set, and the block is Ready. -/
def fchTrainDone (s : State) (c : Nat) (rates : List (Nat × Nat)) : State :=
  if (chanOf s c).tstate ≠ tsTrain then s
  else
    let s := trainResult s c rates
    let s := setBlk s (fchRgn c) { blkSt s (fchRgn c) with st := .ready }
    flushAbsent (offerHeld s c) c

def execFchTrainDone (c : Fin 32) (rates : List (Fin 16 × Nat)) (s : State) : Out :=
  finMedia (fchTrainDone s c (rates.map fun p => (p.1.val, p.2)))

/-- ZQ_CALIBRATION (R254): a READY die is calibrated; no state the spec names changes. -/
def execZqCalibration (_c : Fin 32) (_d : Fin 16) (s : State) : Out := fin s

/-- READ_DQ_RETRAIN (R254): a failed retraining puts the channel in RETRAIN. -/
def readDqRetrain (s : State) (c : Nat) (ok : Bool) : State :=
  if ok || (chanOf s c).tstate ≠ tsReady then s else setTs s c tsRetrain

def execReadDqRetrain (c : Fin 32) (_d : Fin 16) (ok : Bool) (s : State) : Out := fin (readDqRetrain s c ok)

/-- A write of FCH_CMD (R254, R273): RETRAIN is ignored unless TSTATE is READY. -/
def retrainWrite (s : State) (c : Nat) (v : Word) : State := readDqRetrain s c (!Word.bit v 0)

def execFchRetrain (who : Who) (c : Fin 32) (v : Word) (s : State) : Out :=
  fin (onWrite s who (fchRgn c) 0x104 v fun s => retrainWrite s c v)

/-- No die of a channel runs an operation or holds one suspended. -/
def chanQuiet (s : State) (c : Nat) : Bool :=
  (List.range 16).all fun d => (dieOf s (c * 16 + d)).run.isNone && (dieOf s (c * 16 + d)).susp.isNone

/-- FCH_RETRAIN_DONE (R254): running operations have completed, TRAIN has run again, and the channel resumes its queues. -/
def fchRetrainDone (s : State) (c : Nat) (rates : List (Nat × Nat)) : State :=
  if (chanOf s c).tstate ≠ tsRetrain || !chanQuiet s c then s else flushAbsent (offerHeld (trainResult s c rates) c) c

def execFchRetrainDone (c : Fin 32) (rates : List (Fin 16 × Nat)) (s : State) : Out :=
  finMedia (fchRetrainDone s c (rates.map fun p => (p.1.val, p.2)))

/-- An operation from its submitter's fields. -/
def reqOp (opc : Nat) (o : FlashReq) : FOp :=
  { opc := opc, cls := o.cls, slc := o.slc, tag := o.tag, tenant := o.tenant, pmask := o.pmask, smask := o.smask, addr := o.addr,
    buf := o.buf, rtry := o.rtry, arg := o.arg, rsvd := o.rsvd, sub := o.sub, purpose := if o.sub = .fw then .fw else .none }

/-- Offer an operation to a channel (R255 to R259): a malformed one from the ring stops the ring, from an internal submitter it
is recorded; either puts the device in Fault. -/
def offerOp (s : State) (c : Nat) (o : FOp) : State :=
  let id := s.flash.nextOp
  let o := { o with id := id, age := id }
  let s := { s with flash := { s.flash with nextOp := id + 1 } }
  let why := opBad s c o
  if why = 0 then acceptOp s c o
  else if o.sub = .fw then
    ringFault (stopChan s c) (fchRgn c) (rdF s (fchRgn c) 0x1010 11 0) why
  else enterFault (blockErr (stopChan s c) (fchRgn c) 18 why) (fchRgn c)

def execFchOpRead (c : Fin 32) (o : FlashReq) (s : State) : Out := finMedia (offerOp s c (reqOp 0x1 o))
def execFchOpReadSoft (c : Fin 32) (o : FlashReq) (s : State) : Out := finMedia (offerOp s c (reqOp 0x2 o))
def execFchOpProg (c : Fin 32) (o : FlashReq) (s : State) : Out := finMedia (offerOp s c (reqOp 0x3 o))
def execFchOpProgFoggy (c : Fin 32) (o : FlashReq) (s : State) : Out := finMedia (offerOp s c (reqOp 0x4 o))
def execFchOpProgFine (c : Fin 32) (o : FlashReq) (s : State) : Out := finMedia (offerOp s c (reqOp 0x5 o))
def execFchOpErase (c : Fin 32) (o : FlashReq) (s : State) : Out := finMedia (offerOp s c (reqOp 0x6 o))
def execFchOpResetLun (c : Fin 32) (o : FlashReq) (s : State) : Out := finMedia (offerOp s c (reqOp 0x7 o))
def execFchOpReadId (c : Fin 32) (o : FlashReq) (s : State) : Out := finMedia (offerOp s c (reqOp 0x8 o))
def execFchOpGetFeature (c : Fin 32) (o : FlashReq) (s : State) : Out := finMedia (offerOp s c (reqOp 0x9 o))
def execFchOpSetFeature (c : Fin 32) (o : FlashReq) (s : State) : Out := finMedia (offerOp s c (reqOp 0xA o))
def execFchOpCancel (c : Fin 32) (o : FlashReq) (s : State) : Out := finMedia (offerOp s c (reqOp 0xB o))

def execDieOpStart (die : Fin 512) (aged : List Nat) (s : State) : Out := fin (dieOpStart s die aged)

def execBusBurstGrant (die : Fin 512) (aged : List Nat) (s : State) : Out := fin (burstGrant s die aged)

/-- The slots a firmware read or program addresses, in the fill order of R205: planes of PMASK, slots of SMASK. -/
def opSlots (o : FOp) (smask page : Nat) : List Nat :=
  ((List.range 6).filter o.pmask.testBit).flatMap fun pl => ((List.range 4).filter smask.testBit).map fun k =>
    puaMk (puaDie o.addr) pl (puaBlock o.addr) page k

/-- A firmware read's payloads go to BUF, with the sequencer's MID and the operation's tenant (R255, R277). -/
def fwRead (s : State) (n : Nat) (o : FOp) : State :=
  let d := ((opSlots o o.smask (puaPage o.addr)).map (slotBytes s)).flatten
  match busWrite s ⟨0x380 + n / 16, o.tenant⟩ o.buf d with
  | (.ok, s) => s
  | (_, s) => enterFault s (fchRgn (n / 16))

/-- A firmware program stores the payload images that its page list names (R256). -/
def fwProg (s : State) (n : Nat) (o : FOp) : State :=
  let who : Who := ⟨0x380 + n / 16, o.tenant⟩
  let pages := if o.slc then 1 else geomPpw s
  let wl := puaPage o.addr / max 1 pages
  let targets := (List.range pages).flatMap fun k => ((List.range 6).filter o.pmask.testBit).map fun pl => (pl, wl * pages + k)
  match busRead s who o.buf (8 * targets.length) with
  | (.ok, lst, s) =>
    (List.range targets.length).foldl (fun s i =>
      match busRead s who (leNat ((lst.drop (8 * i)).take 8)) 16640 with
      | (.ok, img, s) =>
        let (pl, pg) := targets.getD i (0, 0)
        { s with flash := { s.flash with cells := (List.range 4).foldl (fun t k =>
          Tbl.put t (puaMk n pl (puaBlock o.addr) pg k) (.raw ((img.drop (4160 * k)).take 4160))) s.flash.cells } }
      | (_, _, s) => enterFault s (fchRgn (n / 16))) s
  | (_, _, s) => enterFault s (fchRgn (n / 16))

/-- A READ with RTRY k applies entry k with Set Features and restores entry 0's parameters afterwards (R276). -/
def restoreThr (s : State) (n : Nat) (o : FOp) : State :=
  if o.opc ≠ 1 || o.rtry = 0 then s
  else
    let r := fchRgn (n / 16)
    let apply (t : Tbl Nat) (k : Nat) : Tbl Nat :=
      Tbl.put t (rdF s r (0x3000 + 16 * k) 7 0) ((rd s r (0x3004 + 16 * k)).toNat % 2 ^ (8 * rdF s r (0x3000 + 16 * k) 15 8))
    setDie s n { dieOf s n with feat := apply (apply (dieOf s n).feat o.rtry) 0 }

/-- The bytes that a firmware operation leaves, and what a feature operation does to the die (R256). -/
def fwOpEffect (s : State) (n : Nat) (o : FOp) (value : Nat) (bytes : List Byte) : Nat × State :=
  match o.opc with
  | 8 =>
    match busWrite s ⟨0x380 + n / 16, o.tenant⟩ o.buf ((bytes ++ List.replicate 768 0).take 768) with
    | (.ok, s) => (value, s)
    | (_, s) => (value, enterFault s (fchRgn (n / 16)))
  | 9 => (Tbl.getD (dieOf s n).feat (o.arg % 256) value, s)
  | 0xA => (value, setDie s n { dieOf s n with feat := Tbl.put (dieOf s n).feat (o.arg % 256) (o.arg / 256 % 2 ^ 32) })
  | _ => (value, s)

/-- DIE_OP_COMPLETE (R258, R267): the running operation ends with OK or its failure, or with TIMEOUT after a Reset LUN; what
it did to the flash and the die stands, and its completion goes to its submitter. After the power-loss signal a suspended program resumes at once (R269). -/
def dieOpComplete (s : State) (n : Nat) (failed : Bool) (value : Nat) (bytes : List Byte) : State :=
  let d := dieOf s n
  if d.resetting then
    (match d.run with
      | some _ => hungRecovered s n
      | none => setDie s n { d with resetting := false })
  else match d.run with
  | none => s
  | some o =>
    if d.phase = .dataIn then s
    else
      let s := restoreThr (setDie s n { d with run := none, suspCnt := if d.susp.isSome then d.suspCnt else 0 }) n o
      let st := if failed && isProg o then 1 else if failed && isErase o then 2 else 0
      let s := if o.purpose ≠ .fw || st ≠ 0 then s else if isRead o then fwRead s n o else if isProg o then fwProg s n o else s
      let (v, s) := if isProg o || isErase o then (d.suspCnt, s) else fwOpEffect s n o value bytes
      let s := if isErase o && st = 0 then
          dropCells (weakErase s n (puaBlock o.addr)) fun p => puaDie p = n && puaBlock p = puaBlock o.addr && o.pmask.testBit (puaPlane p)
        else s
      let s := if s.flash.withdraw && (dieOf s n).susp.any isProg then opResume s n else s
      offerHeld (completeOp s o st v) (n / 16)

def execDieOpComplete (die : Fin 512) (failed : Bool) (value : Nat) (bytes : List Byte) (s : State) : Out :=
  let t := dieOpComplete s die failed value bytes
  finMedia (if (dieOf t die).st = .lost && (dieOf s die).st ≠ .lost then retireDie t die else t)

def execOpSuspend (die : Fin 512) (s : State) : Out := fin (opSuspend s die)

def execOpResume (die : Fin 512) (s : State) : Out := fin (opResume s die)

/-- DIE_HUNG (R267): the sequencer issues Reset LUN to the die. -/
def dieHung (s : State) (n : Nat) : State :=
  if (dieOf s n).run.isSome then setDie s n { dieOf s n with resetting := true } else s

def execDieHung (die : Fin 512) (s : State) : Out := fin (dieHung s die)

/-- DIE_LOST (R229, R268): the die is declared LOST, and CPC retires it. -/
def dieLost (s : State) (n : Nat) (burst : Bool) : State :=
  if dieUsable s n then retireDie (declareLost s n burst) n else s

def execDieLost (die : Fin 512) (burst : Bool) (s : State) : Out := finMedia (dieLost s die burst)

/-- An operation from a ring entry (R255). -/
def parseOp (d : List Byte) : FOp :=
  let f (lo n : Nat) : Nat := leNat ((d.drop lo).take n)
  { opc := f 0 1, cls := f 1 1 % 4, slc := f 1 1 / 4 % 2 = 1, tag := f 2 2, tenant := f 4 2 % 512, pmask := f 6 1 % 64, smask := f 7 1 % 16,
    addr := f 8 8 % 2 ^ 38, buf := f 16 8 % 2 ^ 48, rtry := f 24 1, arg := f 26 6, sub := .fw, purpose := .fw,
    rsvd := f 1 1 / 8 ≠ 0 || f 4 2 / 512 ≠ 0 || f 6 1 / 64 ≠ 0 || f 7 1 / 16 ≠ 0 || f 8 8 / 2 ^ 38 ≠ 0 || f 16 8 / 2 ^ 48 ≠ 0 || f 25 1 ≠ 0 }

/-- A write of FCH_WR_TAIL (R274): entries up to the tail are fetched, and enter the die queues in ring order. -/
def fchTailWrite (s : State) (c : Nat) (v : Word) : State :=
  let r := fchRgn c
  let x := chanOf s c
  if ringSize s r ≤ Word.fld v 11 0 then
    ringFault (stopChan s c) r (Word.fld v 11 0) 5
  else
    let s := wr s r 0x100C (v &&& 0xFFF)
    if !isEnabled s r || (blkSt s r).st = .draining then s
    else
      let (s, ring) := ringFetch ⟨0x380 + c, 0⟩ r 32 (fun s d => opBad s c (parseOp d)) s x.ring 4096
      let s := setChan s c { chanOf s c with ring := { ring with fetched := [] } }
      ring.fetched.foldl (fun s e => offerOp s c (parseOp e.2)) s

def execFchWorkTailWrite (who : Who) (c : Fin 32) (v : Word) (s : State) : Out :=
  finMedia (onWrite s who (fchRgn c) 0x100C v fun s => fchTailWrite s c v)

/-- A write of FCH_DIE_CTL (R268, R275): RETIRE has the effect of a loss for later operations; those queued run to completion. -/
def dieRetireWrite (s : State) (c d : Nat) (v : Word) : State :=
  if Word.bit v 0 && dieUsable s (c * 16 + d) then
    retireDie (setDie s (c * 16 + d) { dieOf s (c * 16 + d) with st := .retired }) (c * 16 + d)
  else s

def execFchDieRetireWrite (who : Who) (c : Fin 32) (d : Fin 16) (v : Word) (s : State) : Out :=
  finMedia (onWrite s who (fchRgn c) (0x200C + 16 * d) v fun s => dieRetireWrite s c d v)

/-- A write of FCH_UC_DATA (R276): stored at FCH_UC_ADDR, which increments, while ENABLE is 0; else CFG. -/
def ucDataWrite (s : State) (c : Nat) (v : Word) : State :=
  let r := fchRgn c
  if isEnabled s r then blockErr s r 17 0
  else
    let a := rdF s r 0x3400 13 0
    let s := setChan s c { chanOf s c with uc := Tbl.putC 0 (chanOf s c).uc a v }
    wr s r 0x3400 (w32 ((a + 1) % 2 ^ 14))

def execFchUcDataWrite (who : Who) (c : Fin 32) (v : Word) (s : State) : Out :=
  fin (onWrite s who (fchRgn c) 0x3404 v fun s => ucDataWrite s c v)

/-- FCH_UC_CRC as read: CRC32C of words 0 to FCH_UC_ADDR - 1. -/
def ucCrc (s : State) (c : Nat) : Word :=
  w32 (crc32c ((List.range (rdF s (fchRgn c) 0x3400 13 0)).map fun i => leBytes 4 (Tbl.getD (chanOf s c).uc i (0 : Word)).toNat).flatten)

/-! ### Read recovery -/

def execCodewordDecodeDone (id : Nat) (zeroSyndrome : Bool) (bits : Nat) (s : State) : Out :=
  finMedia (decodeDone s id zeroSyndrome bits)

def execStripeRebuildDone (id : Nat) (s : State) : Out := finMedia (rebuildDone s id)

def execBusyHintReceived (id : Nat) (s : State) : Out := finMedia (busyHint s id)

/-- RECOVERY_TIME_LIMIT (R289): the command's ladder ends; steps in progress go to background recovery, and the command
completes with Unrecovered Read Error. A page-in that it caused goes on (R169). -/
def recoveryTimeLimit (s : State) (c : CmdId) : State :=
  match ctxOf s c with
  | none => s
  | some x =>
    if x.stage ≠ .reading || (x.mus ≠ [] && rdF s 0x1A (0x1000 + 4 * (x.nsid - 1)) 15 0 = 0) then s
    else
      match x.mus.find? fun m => m.st ≠ .data with
      | some m =>
        let s := bump s 0x1A 0x138 1
        let first := match nsOf s x.nsid with
          | some n => max x.lba ((m.gmu - n.leafBase * 2048) * (if n.lbaf = 0 then 1 else 8))
          | none => x.lba
        let s := { s with ftl := { s.ftl with waits := s.ftl.waits.filter fun w => match w.2 with
          | .read d _ => d ≠ c
          | _ => true } }
        failRead s c first
      | none => match (rdsOf s (.copy c)).find? fun r => !r.st.ended with
        | some r => rdTimeout s r
        | none => s

def execRecoveryTimeLimit (c : CmdId) (s : State) : Out := finMedia (recoveryTimeLimit s c)

/-- BG_RECOVERY_LIMIT (R293): LIMIT_S after the error completion an entry without a payload ends. -/
def bgRecoveryLimit (s : State) (pua : Nat) : State :=
  match s.ldc.bg.find? fun b => b.pua = pua with
  | some b => if b.payload.isNone && b.deadline ≤ s.clock then bgEnd s pua false else s
  | none => s

def execBgRecoveryLimit (pua : Nat) (s : State) : Out := finMedia (bgRecoveryLimit s pua)

/-- WEAK_BLOCK_EXPIRE (R282): an entry whose time has passed leaves the weak-block cache. -/
def weakBlockExpire (s : State) (die block : Nat) : State :=
  { s with ldc := { s.ldc with weak := s.ldc.weak.filter fun e => !(e.1 = die * 4096 + block && e.2.2 ≤ s.clock) } }

def execWeakBlockExpire (die : Fin 512) (block : Fin 4096) (s : State) : Out := fin (weakBlockExpire s die block)

/-- Parameters P1 to P4 with the offsets that lie off their valleys moved by one die step: up at the bits of `up`, down at those of `dn` (R283). -/
def movedOffsets (w : Word) (up dn : Nat) : Word :=
  w32 (leNat ((List.range 4).map fun i => BitVec.ofNat 8 (w.toNat / 256 ^ i % 256 + (up.testBit i).toNat + (if dn.testBit i then 255 else 0))))

/-- TRACKED_THRESHOLD_UPDATE (R283): after MIN_EVENTS soft decodes of a class on a channel, LDC moves the tracked entry's offsets. Entry
1 + class holds the class's parameters P1 to P4. -/
def trackedUpdate (s : State) (c cls up dn : Nat) : State :=
  let k := c * 32 + cls + 1
  let off := 0x3000 + 16 * (cls + 1) + 4
  if ldcTrackEn s && rdF s 0x1A 0x104 23 8 ≤ Tbl.getD s.ldc.tracked k 0 then
    wr { s with ldc := { s.ldc with tracked := Tbl.del s.ldc.tracked k } } (fchRgn c) off (movedOffsets (rd s (fchRgn c) off) up dn)
  else s

def execTrackedThresholdUpdate (c : Fin 32) (cls up dn : Fin 16) (s : State) : Out :=
  fin (trackedUpdate s c cls up dn)

end Sys2Proof.Machine
end

