-- ==== Sys2Proof/Machine/Hash.lean ====
section
/-! DEFINITION. The hash functions of the grove hash units (R396): SHA-256 (FIPS 180-4) and SHA3-256 (FIPS 202). The standards are published;
the spec names them. -/

namespace Sys2Proof.Machine

/-! ### SHA-256 -/

/-- The round constants and the initial value: fractional parts of the roots of the first primes. -/
def sha256K : List Nat := (primesTo 312).map fun p => cbrtAux (p * 2 ^ 96) 0 35 % 2 ^ 32
def sha256H : List Nat := (primesTo 20).map fun p => sqrtAux (p * 2 ^ 64) 0 35 % 2 ^ 32

def rotr32 (x n : Nat) : Nat := x / 2 ^ n + x % 2 ^ n * 2 ^ (32 - n)

/-- The message schedule, newest word last. -/
def sha256Sched (w : List Nat) : Nat → List Nat
  | 0 => w
  | n + 1 =>
    let w := sha256Sched w n
    let g (i : Nat) : Nat := w.getD (w.length - i) 0
    let s0 := rotr32 (g 15) 7 ^^^ rotr32 (g 15) 18 ^^^ g 15 / 8
    let s1 := rotr32 (g 2) 17 ^^^ rotr32 (g 2) 19 ^^^ g 2 / 2 ^ 10
    w ++ [(g 16 + s0 + g 7 + s1) % 2 ^ 32]

/-- One round on the eight working variables. -/
def sha256Round (v : List Nat) (kw : Nat) : List Nat :=
  let g (i : Nat) : Nat := v.getD i 0
  let s1 := rotr32 (g 4) 6 ^^^ rotr32 (g 4) 11 ^^^ rotr32 (g 4) 25
  let ch := (g 4 &&& g 5) ^^^ ((2 ^ 32 - 1 - g 4) &&& g 6)
  let t1 := g 7 + s1 + ch + kw
  let s0 := rotr32 (g 0) 2 ^^^ rotr32 (g 0) 13 ^^^ rotr32 (g 0) 22
  let maj := (g 0 &&& g 1) ^^^ (g 0 &&& g 2) ^^^ (g 1 &&& g 2)
  [(t1 + s0 + maj) % 2 ^ 32, g 0, g 1, g 2, (g 3 + t1) % 2 ^ 32, g 4, g 5, g 6]

/-- Compress one block. -/
def sha256Block (h : List Nat) (blk : List Byte) : List Nat :=
  let w := sha256Sched ((List.range 16).map fun i => beNat ((blk.drop (4 * i)).take 4)) 48
  let v := (List.zipWith (· + ·) sha256K w).foldl sha256Round h
  List.zipWith (fun a b => (a + b) % 2 ^ 32) h v

/-- SHA-256 of a message. -/
def sha256 (m : List Byte) : List Byte :=
  let pad := (119 - m.length % 64) % 64
  let p := m ++ [0x80] ++ List.replicate pad 0 ++ beBytes 8 (8 * m.length)
  ((pieces 64 p (p.length / 64)).foldl sha256Block sha256H).flatMap (beBytes 4)

/-! ### SHA3-256 -/

/-- A lane of 64 bits rotated left. -/
def rotl64 (x n : Nat) : Nat := (x * 2 ^ (n % 64) + x / 2 ^ (64 - n % 64)) % 2 ^ 64

/-- Lane (x, y) of a state of 25 lanes. -/
def lane (a : List Nat) (x y : Nat) : Nat := a.getD (x % 5 + 5 * (y % 5)) 0

/-- A state made from a function of x and y. -/
def lanes (f : Nat → Nat → Nat) : List Nat := (List.range 25).map fun i => f (i % 5) (i / 5)

/-- The rotation of lane (x, y): triangular numbers along the walk of rho. -/
def rhoOff (x y : Nat) : Nat :=
  let p := (List.range 24).foldl (fun (p : (Nat × Nat) × Option Nat) t =>
    let r := if p.1 = (x, y) && p.2.isNone then some ((t + 1) * (t + 2) / 2) else p.2
    ((p.1.2, (2 * p.1.1 + 3 * p.1.2) % 5), r)) ((1, 0), none)
  p.2.getD 0

/-- A step of the LFSR of iota. -/
def lfsrStep (r : Nat) : Nat := let d := r * 2; if 256 ≤ d then (d ^^^ 0x171) % 256 else d

/-- The LFSR after n steps. -/
def lfsrAt : Nat → Nat
  | 0 => 1
  | n + 1 => lfsrStep (lfsrAt n)

/-- The round constant of a round. -/
def iotaRc (round : Nat) : Nat := sumOf (fun j => if (lfsrAt (7 * round + j)) % 2 = 1 then 2 ^ (2 ^ j - 1) else 0) (List.range 7)

/-- One round of Keccak-f[1600]. -/
def keccakRound (a : List Nat) (round : Nat) : List Nat :=
  let c (x : Nat) : Nat := lane a x 0 ^^^ lane a x 1 ^^^ lane a x 2 ^^^ lane a x 3 ^^^ lane a x 4
  let d (x : Nat) : Nat := c (x + 4) ^^^ rotl64 (c (x + 1)) 1
  let a := lanes fun x y => lane a x y ^^^ d x
  let b := lanes fun x y => rotl64 (lane a (x + 3 * y) x) (rhoOff ((x + 3 * y) % 5) x)
  let a := lanes fun x y => lane b x y ^^^ ((2 ^ 64 - 1 - lane b (x + 1) y) &&& lane b (x + 2) y)
  setNth a 0 (lane a 0 0 ^^^ iotaRc round)

/-- Absorb a block of 136 bytes. -/
def keccakAbsorb (a : List Nat) (blk : List Byte) : List Nat :=
  let a := (List.range 25).map fun i => a.getD i 0 ^^^ (if i < 17 then leNat ((blk.drop (8 * i)).take 8) else 0)
  (List.range 24).foldl keccakRound a

/-- SHA3-256 of a message. -/
def sha3 (m : List Byte) : List Byte :=
  let n := 135 - m.length % 136
  let p := if n = 0 then m ++ [0x86] else m ++ [0x06] ++ List.replicate (n - 1) 0 ++ [0x80]
  let a := (pieces 136 p (p.length / 136)).foldl keccakAbsorb (List.replicate 25 0)
  ((a.take 4).map (leBytes 8)).flatten

end Sys2Proof.Machine
end

