-- ==== Sys2Proof/Machine/Sec.lean ====
section
/-! DEFINITION. The commands of SEC and PKE (R413 to R441): data requests, key operations, the firmware ring, random numbers,
and the public-key engine. -/

namespace Sys2Proof.Machine

/-! ### Data requests -/

/-- SEC as a master (R17, R427). -/
def secWho : Who := ⟨0x3A3, 0⟩

/-- Queue a request in the instance of its direction with the fewest queued requests; where every queue holds 64 it waits (R417). -/
def secQueue (s : State) (r : SecReq) : State :=
  let qs := ((List.range 6).map fun i => if r.enc then i else 6 + i).filter fun q => !resOut s 4 0x0A q
  let len (q : Nat) : Nat := (Tbl.getD s.sec.queues q []).length
  let m := (qs.map len).foldl min 64
  if 64 ≤ m then { s with sec := { s.sec with waits := s.sec.waits ++ [r] } }
  else
    match pick s (qs.filter fun q => len q = m) with
    | (some q, s) => { s with sec := { s.sec with queues := Tbl.put s.sec.queues q (Tbl.getD s.sec.queues q [] ++ [r]) } }
    | (none, s) => s

/-- Accept a request (R419): its units are reserved, or it waits at the count limit. -/
def secAccept (s : State) (r : SecReq) : State :=
  if r.enc then
    match countUnits s r.slot (r.data.length / 4096) with
    | (true, s) => secQueue s { r with key := (xtsSlot s r.slot).cur }
    | (false, s) => { s with sec := { s.sec with waits := s.sec.waits ++ [{ r with key := [] }] } }
  else secQueue s { r with key := (xtsSlot s r.slot).cur }

/-- SEC_DATA_REQUEST (R137, R415, R417): the status goes back at once where the slot may not be used. -/
def secDataRequest (s : State) (r : SecReq) (tenant : Nat) : State :=
  match xtsStatus s tenant r.slot with
  | 0 => answer (secAccept { s with sec := { s.sec with nextReq := s.sec.nextReq + 1 } } { r with id := s.sec.nextReq }) .ok 0
  | 1 => answer (bump s 0x0A 0x11C 1) .ok 1
  | c => answer s .ok c

def execSecDataRequest (tenant : Nat) (enc : Bool) (slot : Fin 4096) (cls : Fin 4) (tweak : Nat) (data : List Byte) (s : State) : Out :=
  fin (secDataRequest s { id := 0, enc := enc, slot := slot, cls := cls, tweak := tweak, data := data, key := [] } tenant)

/-- The request an instance serves next: the highest class, and in it the oldest (R417). -/
def secNext (l : List SecReq) : Option (SecReq × List SecReq) :=
  let c := (l.map (·.cls)).foldl min 3
  takeFirst (fun r => r.cls = c) l

/-- Take waiting requests in (R417, R419). -/
def secRetry (s : State) : State :=
  s.sec.waits.foldl (fun s r => if r.key = [] then secAccept s r else secQueue s r) { s with sec := { s.sec with waits := [] } }

/-- SEC_REQUEST_DONE (R416, R417): the instance ends the request it serves, and returns the units. -/
def secRequestDone (s : State) (q : Nat) : State :=
  match secNext (Tbl.getD s.sec.queues q []) with
  | none => s
  | some (r, l) =>
    let s := { s with sec := { s.sec with queues := Tbl.put s.sec.queues q l } }
    let n := r.data.length / 4096
    let s := if r.enc then s else bump s 0x0A 0x114 n
    secRetry (answerBytes s (xtsUnits r.enc r.key r.tweak r.data n))

def execSecRequestDone (queue : Fin 12) (s : State) : Out := fin (secRequestDone s queue)

/-- An accepted encryption under a slot is still in an instance or waits with its units reserved (R422). -/
def secBusy (s : State) (slot : Nat) : Bool :=
  s.sec.queues.any (fun p => p.2.any fun r => r.enc && r.slot = slot) || s.sec.waits.any fun r => r.enc && r.slot = slot && r.key ≠ []

/-! ### Key operations -/

/-- Fields of SEC_KOP_CTL (R440). -/
def kopTtype (v : Word) : Nat := Word.fld v 5 4
def kopSlot (v : Word) : Nat := Word.fld v 17 6
def kopKek (v : Word) : Nat := Word.fld v 21 18
def kopGslot (v : Word) : Nat := Word.fld v 29 22

/-- Source, destination and argument of the operation that runs (R440). -/
def kopSrc (s : State) : Nat := (s.sec.kop.map (·.src)).getD 0
def kopDst (s : State) : Nat := (s.sec.kop.map (·.dst)).getD 0
def kopArg (s : State) : Nat := (s.sec.kop.map (·.arg)).getD 0

/-- The operation that a word of SEC_KOP_CTL starts, with what the registers name. -/
def kopOf (s : State) (v : Word) (status : Nat) : Kop :=
  { op := Word.fld v 3 0, word := v.toNat, src := rd64 s 0x0A 0x2004, dst := rd64 s 0x0A 0x200C, arg := rd64 s 0x0A 0x2014, status := status }

/-- Start an operation (R426): while one runs the write is not stored and records KOP_BUSY. The operation has its effect when it completes; `f` gives what
its start already does, with a status that ends it. -/
def kopStart (s : State) (v : Word) (f : State → Word → Nat × State) : State :=
  if s.sec.kop.isSome then blockErr s 0x0A 18 0
  else
    let (st, s) := f s v
    { s with sec := { s.sec with kop := some (kopOf s v st) } }

/-- The start of an operation that does nothing before it completes. -/
def kopQuiet (s : State) (_ : Word) : Nat × State := (0, s)

/-- A write of SEC_KOP_CTL whose OP is the command's (R426). -/
def kopWrite (s : State) (who : Who) (v : Word) (op : Nat) (f : State → Word → Nat × State) : State :=
  onWrite s who 0x0A 0x2000 (Word.setFld v 3 0 op) fun s => kopStart s (Word.setFld v 3 0 op) f

/-- The operation targets a slot that exists; KEK 0 is no target, since SEC derives it (R414). -/
def kopTarget (v : Word) : Bool :=
  match kopTtype v with
  | 0 => true
  | 1 => kopSlot v < 256
  | 2 => 0 < kopSlot v && kopSlot v < 16
  | _ => false

/-- Bytes of key material of a target kind (R426). -/
def matBytes (ttype : Nat) : Nat := if ttype = 0 then 64 else if ttype = 1 then 48 else 32

/-- The two halves of an XTS key are equal. -/
def halvesEqual (k : List Byte) : Bool := k.take 32 = k.drop 32

/-- The slot is bound to a namespace (R418). -/
def slotBound (s : State) (slot : Nat) : Bool := s.sec.bind.any fun p => p.2 = slot

/-- The tenant of a target. -/
def targetTenant (s : State) (v : Word) : Nat :=
  match kopTtype v with
  | 0 => xtsTenant s (kopSlot v)
  | 1 => gcmTenant s (kopSlot v)
  | _ => 0

/-- Load material into a target. A bound XTS slot is in epoch mode with the tenant's epoch, any other in GSEQ mode (R421). -/
def loadTarget (s : State) (v : Word) (m : List Byte) (exportable : Bool) (count : Nat) : Nat × State :=
  let k := kopSlot v
  match kopTtype v with
  | 0 =>
    if halvesEqual m then (6, s)
    else
      let b := slotBound s k
      (0, setXts s k { cur := m, cnt := count, ref := if b then tenEpoch s (xtsTenant s k) else 0, gseq := !b, exportable := exportable })
  | 1 => (0, setGcm s k { key := m.take 32, fixed := (m.drop 32).take 4, mask := beNat ((m.drop 40).take 8), exportable := exportable })
  | _ => (0, setKek s k { key := m, exportable := exportable })

/-- GEN (R424, R426): prediction resistance reseeds before the output; EXPORT is cleared. -/
def kopGen (s : State) (v : Word) : Nat × State :=
  if !kopTarget v then (13, s)
  else if !s.sec.drbgOk then (8, s)
  else
    let s := reseed s
    match kopTtype v with
    | 0 => let (b, s) := drbgGen s 16; loadTarget s v b false 0
    | 1 =>
      let (b, s) := drbgGen s 9
      (0, setGcm s (kopSlot v) { key := b.take 32, fixed := beBytes 4 (kopSlot v * 2 ^ 24 + leNat (b.drop 32) % 2 ^ 24) })
    | _ => let (b, s) := drbgGen s 8; loadTarget s v b false 0

def execKopGen (who : Who) (v : Word) (s : State) : Out := fin (kopWrite s who v 1 kopQuiet)

/-- A response code as a status (R415). -/
def tcodeStatus : TCode → Nat
  | .poison => 9
  | _ => 10


/-- LOAD_CLEAR (R426): the source must lie in Crown SRAM. The spec states no EXPORT for it: a free bit. -/
def kopLoadClear (s : State) (v : Word) : Nat × State :=
  let n := matBytes (kopTtype v)
  if !kopTarget v || !inSram (kopSrc s) n then (13, s)
  else match busRead s secWho (kopSrc s) n with
    | (.ok, b, s) => let (e, s) := takeBit s; loadTarget s v b e 0
    | (c, _, s) => (tcodeStatus c, s)

def execKopLoadClear (who : Who) (v : Word) (s : State) : Out := fin (kopWrite s who v 2 kopQuiet)

/-- Read a blob and unwrap it under a KEK (R426): its material, or the status. -/
def readBlob (s : State) (kek a n : Nat) : Except Nat (List Byte) × State :=
  let k := (kekSlot s kek).key
  if k = [] then (.error 2, s)
  else match busRead s secWho a (n + 8) with
    | (.ok, b, s) => match keyUnwrap k b with
      | some m => (.ok m, s)
      | none => (.error 4, bump s 0x0A 0x120 1)
    | (c, _, s) => (.error (tcodeStatus c), s)

/-- UNWRAP (R426): KEK 1 to 15 may be loaded under KEK 0 only. -/
def kopUnwrap (s : State) (v : Word) : Nat × State :=
  if !kopTarget v || (kopTtype v = 2 && kopKek v ≠ 0) then (13, s)
  else match readBlob s (kopKek v) (kopSrc s) (matBytes (kopTtype v)) with
    | (.ok m, s) => loadTarget s v m ((kopArg s).testBit 0) (kopArg s / 2 % 2 ^ 40)
    | (.error c, s) => (c, s)

def execKopUnwrap (who : Who) (v : Word) (s : State) : Out := fin (kopWrite s who v 3 kopQuiet)

/-- Count an invocation of a GCM slot (R425): none at its limit. -/
def gcmUse (s : State) (slot : Nat) : Option State :=
  let g := gcmSlot s slot
  if 2 ^ 32 ≤ g.cnt then none else some (bump (setGcm s slot { g with cnt := g.cnt + 1 }) 0x0A 0x118 1)

/-- IMPORT_GCM (R426): the key is decrypted straight into the target. -/
def kopImportGcm (s : State) (v : Word) : Nat × State :=
  let g := kopGslot v
  if !kopTarget v then (13, s)
  else if gcmTenant s g ≠ targetTenant s v then (7, s)
  else if !s.sec.drbgOk then (8, s)
  else if (gcmSlot s g).key = [] then (2, s)
  else match busRead s secWho (kopSrc s) 30 with
    | (.ok, h, s) =>
      let aadLen := leNat ((h.drop 28).take 2)
      let n := matBytes (kopTtype v)
      match busRead s secWho (kopSrc s + 30) (aadLen + n) with
      | (.ok, b, s) =>
        match gcmUse s g with
        | none => (3, s)
        | some s => match gcmDec (gcmSlot s g).key (h.take 12) (b.take aadLen) (b.drop aadLen) ((h.drop 12).take 16) with
          | some m => let (e, s) := takeBit s; loadTarget s v m e 0
          | none => (4, bump s 0x0A 0x120 1)
      | (c, _, s) => (tcodeStatus c, s)
    | (c, _, s) => (tcodeStatus c, s)

def execKopImportGcm (who : Who) (v : Word) (s : State) : Out := fin (kopWrite s who v 4 kopQuiet)

/-- The material of a loaded slot with its EXPORT: nothing where it is empty. -/
def slotMaterial (s : State) (v : Word) : Option (List Byte × Bool) :=
  match kopTtype v with
  | 0 => let x := xtsSlot s (kopSlot v); if x.cur = [] then none else some (x.cur, x.exportable)
  | 1 => let g := gcmSlot s (kopSlot v)
    if g.key = [] then none else some (g.key ++ g.fixed ++ List.replicate 4 0 ++ beBytes 8 g.mask, g.exportable)
  | _ => let k := kekSlot s (kopSlot v); if k.key = [] then none else some (k.key, k.exportable)

/-- WRAP (R414, R426): under KEK 0 always, under another KEK where the slot has EXPORT. -/
def kopWrap (s : State) (v : Word) : Nat × State :=
  if !kopTarget v && !(kopTtype v = 2 && kopSlot v = 0) then (13, s)
  else match slotMaterial s v with
    | none => (2, s)
    | some (m, e) =>
      let k := (kekSlot s (kopKek v)).key
      if k = [] then (2, s)
      else if kopKek v ≠ 0 && !e then (5, s)
      else match busWrite s secWho (kopDst s) (keyWrap k m) with
        | (.ok, s) => (0, s)
        | (c, s) => (tcodeStatus c, s)

def execKopWrap (who : Who) (v : Word) (s : State) : Out := fin (kopWrite s who v 5 kopQuiet)

/-- ZERO (R426, R428): accepted requests keep the key they hold. -/
def kopZero (s : State) (v : Word) : Nat × State :=
  if !kopTarget v then (13, s)
  else match kopTtype v with
    | 0 => if slotBound s (kopSlot v) || (xtsSlot s (kopSlot v)).paused then (11, s) else (0, setXts s (kopSlot v) {})
    | 1 => (0, setGcm s (kopSlot v) {})
    | _ => (0, setKek s (kopSlot v) {})

def execKopZero (who : Who) (v : Word) (s : State) : Out := fin (kopWrite s who v 6 kopQuiet)

/-- BIND_NS (R418, R421, R426). A slot whose last binding goes is in GSEQ mode again. -/
def kopBindNs (s : State) (v : Word) : Nat × State :=
  let k := kopSlot v
  let id := kopArg s % 4096
  if kopTtype v ≠ 0 then (13, s)
  else match nsOf s (id + 1) with
    | none => (1, s)
    | some n =>
      if xtsTenant s k ≠ n.owner then (1, s)
      else if nuse s n ≠ 0 then (12, s)
      else if (kopArg s).testBit 12 then
        let s := setXts s k { xtsSlot s k with gseq := false, ref := tenEpoch s n.owner }
        (0, { s with sec := { s.sec with bind := Tbl.put s.sec.bind id k } })
      else
        let old := Tbl.find s.sec.bind id
        let s := { s with sec := { s.sec with bind := Tbl.del s.sec.bind id } }
        (0, match old with
          | some o => if slotBound s o then s else setXts s o { xtsSlot s o with gseq := true, ref := 0 }
          | none => s)

def execKopBindNs (who : Who) (v : Word) (s : State) : Out := fin (kopWrite s who v 7 kopQuiet)

/-- A FLUSH RU holds data (R422). -/
def flushHolds (s : State) : Bool := s.cpc.rus.any fun p => p.2.ruh = ruhFlush && p.2.valid ≠ []

/-- The tenant epoch would move 2^15 past the REF of another slot of the tenant (R422). -/
def epochFar (s : State) (slot : Nat) : Bool :=
  let t := xtsTenant s slot
  s.sec.xts.any fun p => p.1 ≠ slot && p.2.cur ≠ [] && !p.2.gseq && xtsTenant s p.1 = t
    && 2 ^ 15 ≤ (tenEpoch s t + 1 + 65536 - p.2.ref % 65536) % 65536

/-- Stop a tenant's allocation of RUs, and close its open RUs short (R422 step 2). -/
def pauseTenant (s : State) (t : Nat) : State :=
  let s := { s with cpc := { s.cpc with stopAlloc := if s.cpc.stopAlloc.contains t then s.cpc.stopAlloc else s.cpc.stopAlloc ++ [t] } }
  (s.cpc.rus.filter fun p => p.2.st = .opened && p.2.tenant = t).foldl (fun s p => closeShort s p.1) s

/-- REKEY, steps 1 and 2 (R422): the refusals, and the pause of the tenant's allocation. -/
def kopRekey (s : State) (v : Word) : Nat × State :=
  let k := kopSlot v
  let x := xtsSlot s k
  if kopTtype v ≠ 0 then (13, s)
  else if x.cur = [] then (2, s)
  else if x.prev ≠ [] || x.paused || flushHolds s || (!x.gseq && epochFar s k) then (11, s)
  else (0, if x.gseq then s else pauseTenant s (xtsTenant s k))

def execKopRekey (who : Who) (v : Word) (s : State) : Out := finMedia (kopWrite s who v 8 kopRekey)

/-- The tenant's allocation is still held by another slot that is paused. -/
def stillPaused (s : State) (t slot : Nat) : Bool :=
  s.sec.xts.any fun p => p.1 ≠ slot && p.2.paused && !p.2.gseq && xtsTenant s p.1 = t

/-- The tenant of a slot that is no longer paused allocates again, where no other slot of it is paused. -/
def unpause (s : State) (slot : Nat) : State :=
  let t := xtsTenant s slot
  if stillPaused s t slot then s else { s with cpc := { s.cpc with stopAlloc := s.cpc.stopAlloc.filter (· ≠ t) } }

/-- RESUME (R422 step 6). -/
def kopResume (s : State) (v : Word) : Nat × State :=
  let k := kopSlot v
  if kopTtype v ≠ 0 then (13, s) else (0, unpause (setXts s k { xtsSlot s k with paused := false }) k)

def execKopResume (who : Who) (v : Word) (s : State) : Out := fin (kopWrite s who v 9 kopQuiet)

/-- An RU of the slot's tenant whose epoch selects PREV is neither FREE nor RETIRED (R423). -/
def prevInUse (s : State) (slot : Nat) : Bool :=
  s.cpc.rus.any fun p => p.2.st ≠ .free && p.2.st ≠ .retired && p.2.tenant = xtsTenant s slot && !epochCur (xtsSlot s slot) p.2.epoch

/-- RELEASE (R423): in GSEQ mode PREV is released by itself, and the operation is a bad request. -/
def kopRelease (s : State) (v : Word) : Nat × State :=
  let k := kopSlot v
  let x := xtsSlot s k
  if kopTtype v ≠ 0 || x.gseq then (13, s)
  else if prevInUse s k then (11, s)
  else (0, setXts s k { x with prev := [] })

def execKopRelease (who : Who) (v : Word) (s : State) : Out := fin (kopWrite s who v 0xA kopQuiet)

/-- RESTORE (R420, R426): CUR, PREV, count, REF and MODE from a record under KEK 0. -/
def kopRestore (s : State) (v : Word) : Nat × State :=
  let k := kopSlot v
  let kek := (kekSlot s 0).key
  if kopTtype v ≠ 0 then (13, s)
  else if kek = [] then (2, s)
  else match busRead s secWho (kopSrc s) 161 with
    | (.ok, b, s) =>
      let p := (b.drop 72).take 72
      match keyUnwrap kek (b.take 72), (if p.all (· == 0) then some [] else keyUnwrap kek p) with
      | some cur, some prev =>
        if halvesEqual cur then (6, s)
        else
          let (e, s) := takeBit s
          (0, setXts s k {
            cur := cur, prev := prev, cnt := leNat ((b.drop 144).take 8) % 2 ^ 40, ref := leNat ((b.drop 152).take 8)
            gseq := (b.getD 160 0).toNat = 1, exportable := e })
      | _, _ => (4, bump s 0x0A 0x120 1)
    | (c, _, s) => (tcodeStatus c, s)

def execKopRestore (who : Who) (v : Word) (s : State) : Out := fin (kopWrite s who v 0xB kopQuiet)

/-- The swap of REKEY (R422 step 4). -/
def rekeySwap (s : State) (slot : Nat) (key : List Byte) : State :=
  let x := xtsSlot s slot
  let t := xtsTenant s slot
  let e := (tenEpoch s t + 1) % 65536
  let s := if x.gseq then s else { s with sec := { s.sec with epochs := Tbl.put s.sec.epochs t e } }
  setXts s slot { x with prev := x.cur, cur := key, cnt := 0, limit := false, paused := true, ref := if x.gseq then s.win.gseq else e }

/-- The new key of a REKEY (R422 step 4): from the DRBG where SRC is 0, else from a blob. -/
def rekeyMaterial (s : State) (v : Word) : Except Nat (List Byte) × State :=
  if kopSrc s = 0 then
    if !s.sec.drbgOk then (.error 8, s) else let (b, s) := drbgGen (reseed s) 16; (.ok b, s)
  else readBlob s (kopKek v) (kopSrc s) 64

/-- REKEY completes (R422 steps 3 and 4). One that fails leaves the slot unchanged, and the tenant allocates again. -/
def kopSwap (s : State) (v : Word) : Nat × State :=
  match rekeyMaterial s v with
  | (.error c, s) => (c, unpause s (kopSlot v))
  | (.ok m, s) => if halvesEqual m then (6, unpause s (kopSlot v)) else (0, rekeySwap s (kopSlot v) m)

/-- What an operation does when it completes, with its status (R415, R426): a reserved OP ends with BAD_REQ. -/
def kopRun (s : State) (op : Nat) (v : Word) : Nat × State :=
  match op with
  | 1 => kopGen s v
  | 2 => kopLoadClear s v
  | 3 => kopUnwrap s v
  | 4 => kopImportGcm s v
  | 5 => kopWrap s v
  | 6 => kopZero s v
  | 7 => kopBindNs s v
  | 8 => kopSwap s v
  | 9 => kopResume s v
  | 0xA => kopRelease s v
  | 0xB => kopRestore s v
  | _ => (13, s)

/-- The end of an operation: its status is reported and KOP_DONE is set (R426). -/
def kopEnd (s : State) (status : Nat) : State :=
  raiseInt { wr s 0x0A 0x201C (w32 (status * 256)) with sec := { s.sec with kop := none } } 0x0A 2

/-- KOP_COMPLETE (R426): the operation has its effect; a REKEY waits for the accepted encryptions of its slot (R422 step 3). -/
def kopComplete (s : State) : State :=
  match s.sec.kop with
  | none => s
  | some k =>
    let v : Word := w32 k.word
    if k.status ≠ 0 then kopEnd s k.status
    else if k.op = 8 && secBusy s (kopSlot v) then s
    else
      let (st, s) := kopRun s k.op v
      kopEnd s st

def execKopComplete (s : State) : Out := finMedia (kopComplete s)

/-! ### The firmware ring -/

/-- Fields of a SEC entry (R427). -/
def seSlot (d : List Byte) : Nat := leNat ((d.drop 4).take 2)
def seSrc (d : List Byte) : Nat := leNat ((d.drop 8).take 8)
def seDst (d : List Byte) : Nat := leNat ((d.drop 16).take 8)
def seLen (d : List Byte) : Nat := leNat ((d.drop 24).take 4)
def seAadLen (d : List Byte) : Nat := leNat ((d.drop 28).take 4)
def seAad (d : List Byte) : Nat := leNat ((d.drop 32).take 8)
def seIv (d : List Byte) : List Byte := (d.drop 40).take 12
def seDun (d : List Byte) : Nat := leNat ((d.drop 52).take 8)

/-- Why a SEC entry is malformed (R427), with the reasons of R199. -/
def secBad (s : State) (d : List Byte) : Nat :=
  let opc := (d.headD 0).toNat
  let gcm := opc ≤ 2
  let ok (a n : Nat) : Bool := inDram s a n || inSram a n
  let n := seLen d
  let tagIn := if opc = 2 then 16 else 0
  let tagOut := if opc = 1 then 16 else 0
  if opc = 0 || 4 < opc then 1
  else if !zeroBytes d 1 1 || 4096 ≤ seSlot d || !zeroBytes d 6 2 || !zeroBytes d 60 4 || (gcm && (256 ≤ seSlot d || seDun d ≠ 0))
      || (opc ≠ 2 && !zeroBytes d 40 12) || (!gcm && seAad d ≠ 0) then 2
  else if n = 0 || 65536 < n || 4096 < seAadLen d || (!gcm && (n % 4096 ≠ 0 || seAadLen d ≠ 0)) then 3
  else if !ok (seSrc d) (n + tagIn) || !ok (seDst d) (n + tagOut) || (seAadLen d ≠ 0 && !ok (seAad d) (seAadLen d)) then 4
  else 0

/-- A write of SEC_WR_TAIL (R427). -/
def secTailWrite (s : State) (v : Word) : State :=
  if ringSize s 0x0A ≤ Word.fld v 11 0 then
    ringFault { s with sec := { s.sec with ring := { s.sec.ring with stopped := true } } } 0x0A (Word.fld v 11 0) 5
  else
    let s := wr s 0x0A 0x100C (v &&& 0xFFF)
    if !isEnabled s 0x0A then s
    else
      let (s, ring) := ringFetch secWho 0x0A 64 secBad s s.sec.ring 4096
      { s with sec := { s.sec with ring := ring } }

def execSecWorkTailWrite (who : Who) (v : Word) (s : State) : Out := fin (onWrite s who 0x0A 0x100C v fun s => secTailWrite s v)

/-- Post completions while slots are free. -/
def secPost (s : State) : State :=
  s.sec.ring.done.foldl (fun s _ =>
    let (s, r) := ringPost secWho 0x0A 32 1 s s.sec.ring
    { s with sec := { s.sec with ring := r } }) s

/-- Complete a SEC entry (R427). -/
def secDone (s : State) (d : List Byte) (status : Nat) (iv : List Byte) : State :=
  let c := leBytes 2 (entTag d) ++ leBytes 2 status ++ iv ++ List.replicate (28 - iv.length) 0
  secPost { s with sec := { s.sec with ring := { s.sec.ring with done := s.sec.ring.done ++ [c] } } }

/-- Perform the oldest fetched entry of an opcode. -/
def secWork (s : State) (opc : Nat) (f : State → List Byte → State) : State :=
  match ringTake s.sec.ring opc with
  | none => s
  | some (d, r) => f { s with sec := { s.sec with ring := r } } d

/-- The IV of an encryption (R424): FIXED, then COUNTER xor MASK; COUNTER steps. -/
def gcmIv (s : State) (slot : Nat) : List Byte × State :=
  let g := gcmSlot s slot
  (g.fixed ++ beBytes 8 (g.ctr ^^^ g.mask), setGcm s slot { g with ctr := (g.ctr + 1) % 2 ^ 64 })

/-- The status a ring request sees of its GCM slot (R137, R415, R425). -/
def gcmStatus (s : State) (slot : Nat) : Nat :=
  if !keyAccess s 0 (gcmTenant s slot) then 1
  else if (gcmSlot s slot).key = [] then 2
  else if 2 ^ 32 ≤ (gcmSlot s slot).cnt then 3
  else 0

/-- Count KEY_ACCESS refusals (R439). -/
def ringAccess (s : State) (st : Nat) : State := if st = 1 then bump s 0x0A 0x11C 1 else s

/-- GCM_ENC (R424, R425). -/
def gcmEncEntry (s : State) (d : List Byte) : State :=
  let k := seSlot d
  let st := gcmStatus s k
  if st ≠ 0 then secDone (ringAccess s st) d st []
  else match busRead s secWho (seAad d) (seAadLen d) with
    | (.ok, aad, s) => match busRead s secWho (seSrc d) (seLen d) with
      | (.ok, pt, s) =>
        let s := (gcmUse s k).getD s
        let (iv, s) := gcmIv s k
        let (ct, tag) := gcmEnc (gcmSlot s k).key iv aad pt
        match busWrite s secWho (seDst d) (ct ++ tag) with
        | (.ok, s) => secDone s d 0 iv
        | (c, s) => secDone s d (tcodeStatus c) iv
      | (c, _, s) => secDone s d (tcodeStatus c) []
    | (c, _, s) => secDone s d (tcodeStatus c) []

def execGcmEnc (s : State) : Out := fin (secWork s 1 gcmEncEntry)

/-- GCM_DEC (R425): the tag is verified before any plaintext is written. -/
def gcmDecEntry (s : State) (d : List Byte) : State :=
  let k := seSlot d
  let st := gcmStatus s k
  if st ≠ 0 then secDone (ringAccess s st) d st []
  else match busRead s secWho (seAad d) (seAadLen d) with
    | (.ok, aad, s) => match busRead s secWho (seSrc d) (seLen d + 16) with
      | (.ok, b, s) =>
        let s := (gcmUse s k).getD s
        match gcmDec (gcmSlot s k).key (seIv d) aad (b.take (seLen d)) (b.drop (seLen d)) with
        | none => secDone (bump s 0x0A 0x120 1) d 4 []
        | some pt => match busWrite s secWho (seDst d) pt with
          | (.ok, s) => secDone s d 0 []
          | (c, s) => secDone s d (tcodeStatus c) []
      | (c, _, s) => secDone s d (tcodeStatus c) []
    | (c, _, s) => secDone s d (tcodeStatus c) []

def execGcmDec (s : State) : Out := fin (secWork s 2 gcmDecEntry)

/-- An XTS entry of the ring (R416, R419): an encryption at the count limit waits at the front of the ring. -/
def xtsEntry (s : State) (d : List Byte) (enc : Bool) : State :=
  let k := seSlot d
  let n := seLen d / 4096
  let st := xtsStatus s 0 k
  if st ≠ 0 then secDone (ringAccess s st) d st []
  else
    let (go, s) := if enc then countUnits s k n else (true, bump s 0x0A 0x114 n)
    if !go then { s with sec := { s.sec with ring := { s.sec.ring with fetched := (0, d) :: s.sec.ring.fetched } } }
    else match busRead s secWho (seSrc d) (seLen d) with
      | (.ok, b, s) => match busWrite s secWho (seDst d) (xtsUnits enc (xtsSlot s k).cur (seDun d) b n) with
        | (.ok, s) => secDone s d 0 []
        | (c, s) => secDone s d (tcodeStatus c) []
      | (c, _, s) => secDone s d (tcodeStatus c) []

def execXtsEnc (s : State) : Out := fin (secWork s 3 fun s d => xtsEntry s d true)

def execXtsDec (s : State) : Out := fin (secWork s 4 fun s d => xtsEntry s d false)

/-! ### Random numbers -/

/-- The DRBG fails during a GEN, a REKEY from the DRBG or a PKE KEYGEN: that operation ends with DRBG_FAIL and its target is unchanged (R428). -/
def drbgLost (s : State) : State :=
  let s := match s.sec.kop with
    | some k => if k.status = 0 && (k.op = 1 || (k.op = 8 && k.src = 0)) then
        let s := { s with sec := { s.sec with kop := some { k with status := 8 } } }
        if k.op = 8 then unpause s (kopSlot (w32 k.word)) else s
      else s
    | none => s
  match s.sec.pkeOp with
  | some p => if p.op = 4 && p.status = 0 then { s with sec := { s.sec with pkeOp := some { p with status := 8 } } } else s
  | none => s

/-- ENTROPY_HEALTH_FAIL (R428, R433). -/
def healthFail (s : State) (apt : Bool) : State :=
  let s := drbgLost s
  let w := rd s 0x0A 0x2064
  let s := wr s 0x0A 0x2064 (Word.setBit (Word.setBit (Word.setBit w 0 false) 3 false) (if apt then 2 else 1) true)
  emit (raiseInt { s with sec := { s.sec with drbgOk := false } } 0x0A 5) 0xB002 sevCritical 0x0A none []

def execEntropyHealthFail (apt : Bool) (s : State) : Out := fin (healthFail s apt)

/-- ENTROPY_STARTUP_DONE (R433): the start-up tests, which SEC's start and its SOFT_RESET begin, have passed. -/
def startupDone (s : State) : State :=
  if !Word.bit (rd s 0x0A 0x2064) 3 then s
  else wr { s with sec := { s.sec with drbgOk := true } } 0x0A 0x2064 1

def execEntropyStartupDone (s : State) : Out := fin (startupDone s)

/-- MASK_RESEED (R417, R434): while the DRBG is available its output reseeds the mask generator. -/
def execMaskReseed (s : State) : Out :=
  fin (if s.sec.drbgOk then { s with sec := { s.sec with maskSeed := s.freeCtr, gens := s.sec.gens + 1 }, freeCtr := s.freeCtr + 1 } else s)

/-- DRBG_RESEED (R434): after 2^20 generate requests. -/
def execDrbgReseed (s : State) : Out := fin (if s.sec.drbgOk && 2 ^ 20 ≤ s.sec.gens then reseed s else s)

/-- SEC_RNG_RESEED_WRITE (R434). -/
def execSecRngReseedWrite (who : Who) (v : Word) (s : State) : Out :=
  fin (onWrite s who 0x0A 0x2068 v fun s => if Word.bit v 0 && s.sec.drbgOk then reseed s else s)

/-- SEC_RNG_DATA_READ (R434): 32 bits of DRBG output, or zero. -/
def rngRead (s : State) (who : Who) : State :=
  match regAdmit s 0x0A 0x2060 (rdAcc who 0x0A 0x2060) with
  | some (c, s) => answer s c
  | none => if s.sec.drbgOk then let (b, s) := drbgGen s 1; answer s .ok (leNat b) else answer s .ok 0

def execSecRngDataRead (who : Who) (s : State) : Out := fin (rngRead s who)

/-! ### PKE -/

/-- A 48-byte operand: a big-endian octet string in register order (R430). -/
def pkeBytes (s : State) (off : Nat) : List Byte := ((List.range 12).map fun i => leBytes 4 (rd s 0x0B (off + 4 * i)).toNat).flatten
def pkeNum (s : State) (off : Nat) : Nat := beNat (pkeBytes s off)
def setPke (s : State) (off v : Nat) : State :=
  let b := beBytes 48 v
  (List.range 12).foldl (fun s i => wr s 0x0B (off + 4 * i) (w32 (leNat ((b.drop (4 * i)).take 4)))) s

/-- Fields of PKE_CMD (R441). -/
def pkeP384 (v : Word) : Bool := Word.bit v 4
def pkeKslot (v : Word) : Nat := Word.fld v 7 5
def pkeKsrc (v : Word) : Bool := Word.bit v 8
def pkeCurve (v : Word) : Curve := if pkeP384 v then p384 else p256

/-- The scalar of an operation (R430): the operand, or a key slot, which must be loaded (R415) and of the same curve. -/
def pkeScalar (s : State) (v : Word) : Except Nat Nat :=
  if pkeKsrc v then match Tbl.find s.sec.pke (pkeKslot v) with
    | some (c, d) => if c = pkeP384 v then .ok d else .error 13
    | none => .error 2
  else .ok (pkeNum s 0x1000)

/-- The digest as a number (R429): for P-256 its leftmost 256 bits. -/
def pkeE (s : State) (v : Word) : Nat := if pkeP384 v then pkeNum s 0x1040 else beNat ((pkeBytes s 0x1040).take 32)

/-- The checks on a public point (R431, orders 2 to 4): 0 where it passes. -/
def pkePoint (c : Curve) (x y : Nat) : Nat :=
  if x = 0 && y = 0 then 16 else if c.p ≤ x || c.p ≤ y then 17 else if !c.on x y then 18 else 0

/-- The checks on a scalar (R431, orders 7 and 8). -/
def pkeD (c : Curve) (d : Nat) : Nat := if d = 0 then 21 else if c.n ≤ d then 22 else 0

/-- A random scalar by extra random bits: 64 bits beyond the order, modulo n - 1, plus 1 (R429). -/
def pkeRandom (s : State) (c : Curve) : Nat × State :=
  let (b, s) := drbgGen s (c.bits / 32 + 2)
  (leNat b % (c.n - 1) + 1, s)

/-- ECDSA (FIPS 186-5): r and s are drawn anew while one of them is zero. -/
def pkeSignAux (c : Curve) (d e : Nat) (s : State) : Nat → Nat × Nat × State
  | 0 => (0, 0, s)
  | n + 1 =>
    let (k, s) := pkeRandom s c
    let r := match c.base k with
      | some (x, _) => x % c.n
      | none => 0
    let t := powMod c.n k (c.n - 2) 384 * (e + r * d) % c.n
    if r = 0 || t = 0 then pkeSignAux c d e s n else (r, t, s)

/-- ECDSA verification: 23 where the computed point is the identity, 24 where the signature does not verify. -/
def pkeVerifySig (c : Curve) (e r t qx qy : Nat) : Nat :=
  let w := powMod c.n t (c.n - 2) 384
  match c.add (c.base (e * w % c.n)) (c.mul (r * w % c.n) (some (qx, qy)) c.bits) with
  | none => 23
  | some (x, _) => if x % c.n = r then 0 else 24

/-- Start an operation (R429, R430): while one runs the write is not stored and records BUSY. OX and OY are cleared. -/
def pkeStart (s : State) (who : Who) (v : Word) (op : Nat) (f : State → Word → PkeOp × State) : State :=
  let v := Word.setFld v 3 0 op
  onWrite s who 0x0B 0x100 v fun s =>
    if blkRetired s 0x0B then s
    else if s.sec.pkeOp.isSome then blockErr s 0x0B 16 0
    else
      let (p, s) := f (setPke (setPke s 0x1180 0) 0x11C0 0) v
      { s with sec := { s.sec with pkeOp := some p } }

/-- SIGN (R429, R431). -/
def pkeSign (s : State) (v : Word) : PkeOp × State :=
  let c := pkeCurve v
  let r : PkeOp := { op := 1, curve := pkeP384 v, status := 0 }
  match pkeScalar s v with
  | .error k => ({ r with status := k }, s)
  | .ok d =>
    if pkeD c d ≠ 0 then ({ r with status := pkeD c d }, s)
    else if !s.sec.drbgOk then ({ r with status := 8 }, s)
    else
      let (x, y, s) := pkeSignAux c d (pkeE s v) s 64
      ({ r with x := x, y := y }, s)

def execPkeSign (who : Who) (v : Word) (s : State) : Out := fin (pkeStart s who v 1 pkeSign)

/-- VERIFY (R429, R431). -/
def pkeVerify (s : State) (v : Word) : PkeOp × State :=
  let c := pkeCurve v
  let (qx, qy, r, t) := (pkeNum s 0x1080, pkeNum s 0x10C0, pkeNum s 0x1100, pkeNum s 0x1140)
  let st :=
    if pkePoint c qx qy ≠ 0 then pkePoint c qx qy
    else if r = 0 || c.n ≤ r then 19
    else if t = 0 || c.n ≤ t then 20
    else pkeVerifySig c (pkeE s v) r t qx qy
  ({ op := 2, curve := pkeP384 v, status := st }, s)

def execPkeVerify (who : Who) (v : Word) (s : State) : Out := fin (pkeStart s who v 2 pkeVerify)

/-- ECDH (R429, R431). -/
def pkeEcdh (s : State) (v : Word) : PkeOp × State :=
  let c := pkeCurve v
  let (qx, qy) := (pkeNum s 0x1080, pkeNum s 0x10C0)
  let r : PkeOp := { op := 3, curve := pkeP384 v, status := 0 }
  match pkeScalar s v with
  | .error k => ({ r with status := k }, s)
  | .ok d =>
    if pkePoint c qx qy ≠ 0 then ({ r with status := pkePoint c qx qy }, s)
    else if pkeD c d ≠ 0 then ({ r with status := pkeD c d }, s)
    else match c.mul d (some (qx, qy)) c.bits with
      | none => ({ r with status := 23 }, s)
      | some (x, _) => ({ r with x := x }, s)

def execPkeEcdh (who : Who) (v : Word) (s : State) : Out := fin (pkeStart s who v 3 pkeEcdh)

/-- KEYGEN into slot 2 to 7 (R429, R431, R432), with prediction resistance (R434). -/
def pkeKeygen (s : State) (v : Word) : PkeOp × State :=
  let c := pkeCurve v
  let r : PkeOp := { op := 4, curve := pkeP384 v, status := 0, slot := pkeKslot v }
  if pkeKslot v < 2 then ({ r with status := 13 }, s)
  else if !s.sec.drbgOk then ({ r with status := 8 }, s)
  else
    let (d, s) := pkeRandom (reseed s) c
    match c.base d with
    | some (x, y) => ({ r with x := x, y := y, d := d }, s)
    | none => ({ r with d := d }, s)

def execPkeKeygen (who : Who) (v : Word) (s : State) : Out := fin (pkeStart s who v 4 pkeKeygen)

/-- PUBGEN (R429, R431). -/
def pkePubgen (s : State) (v : Word) : PkeOp × State :=
  let c := pkeCurve v
  let r : PkeOp := { op := 5, curve := pkeP384 v, status := 0 }
  match pkeScalar s v with
  | .error k => ({ r with status := k }, s)
  | .ok d =>
    if pkeD c d ≠ 0 then ({ r with status := pkeD c d }, s)
    else match c.base d with
      | some (x, y) => ({ r with x := x, y := y }, s)
      | none => (r, s)

def execPkePubgen (who : Who) (v : Word) (s : State) : Out := fin (pkeStart s who v 5 pkePubgen)

/-- VALIDATE (R429, R431). -/
def pkeValidate (s : State) (v : Word) : PkeOp × State :=
  ({ op := 6, curve := pkeP384 v, status := pkePoint (pkeCurve v) (pkeNum s 0x1080) (pkeNum s 0x10C0) }, s)

def execPkeValidate (who : Who) (v : Word) (s : State) : Out := fin (pkeStart s who v 6 pkeValidate)

/-- PKE_OP_DONE (R429 to R431): outputs, status, DONE; the D operand is cleared. -/
def pkeDone (s : State) : State :=
  match s.sec.pkeOp with
  | none => s
  | some p =>
    let s := setPke { s with sec := { s.sec with pkeOp := none } } 0x1000 0
    let s := wr s 0x0B 0x104 (w32 (p.status * 256))
    let s := if p.status ≠ 0 then s
      else match p.op with
        | 1 => setPke (setPke s 0x1100 p.x) 0x1140 p.y
        | 3 => setPke s 0x1180 p.x
        | 4 => setPke (setPke { s with sec := { s.sec with pke := Tbl.put s.sec.pke p.slot (p.curve, p.d) } } 0x1180 p.x) 0x11C0 p.y
        | 5 => setPke (setPke s 0x1180 p.x) 0x11C0 p.y
        | _ => s
    raiseInt (bump s 0x0B 0x110 1) 0x0B 1

def execPkeOpDone (s : State) : Out := fin (pkeDone s)

/-- PKE_KEY_ZERO_WRITE (R432, R441): bits 0 and 1 are not stored. -/
def execPkeKeyZeroWrite (who : Who) (v : Word) (s : State) : Out :=
  fin (onWrite s who 0x0B 0x10C v fun s =>
    { s with sec := { s.sec with pke := s.sec.pke.filter fun p => p.1 < 2 || !Word.bit v p.1 } })

end Sys2Proof.Machine
end

