-- ==== Sys2Proof/Machine/WinOps.lean ====
section
/-! DEFINITION. The Heartwood window's shared operations (R301 to R333): slices, decoders, granules, the dirty cap, poison, the snoop
filter, and how a request is served. -/

namespace Sys2Proof.Machine

/-! ### Slices and decoders -/

/-- WIN_SLICE fields (R345). -/
def sliceWord (s : State) (k : Nat) : Word := rd s 0x18 (0x1000 + 8 * k)
def sliceEn (s : State) (k : Nat) : Bool := Word.bit (sliceWord s k) 0
def slicePersist (s : State) (k : Nat) : Bool := Word.bit (sliceWord s k) 1
/-- SEC serves the slice's data under its XTS slot (R137): the slot is open to the slice's tenant. -/
def sliceMay (s : State) (k : Nat) : Bool :=
  if Word.bit (sliceWord s k) 11 then keyAccess s (sliceTen s k) (xtsTenant s (Word.fld (sliceWord s k) 23 12)) else true

/-- The XTS slot of a slice. -/
def sliceKey (s : State) (k : Nat) : Option Nat := if Word.bit (sliceWord s k) 11 then some (Word.fld (sliceWord s k) 23 12) else none

/-- Slices of the window (R301). -/
def sliceCount (s : State) : Nat := rdF s 0x18 0x100 9 0

/-- The slice and the granule of a line of the window (R301, R310). -/
def lineSlice (line : Nat) : Nat := line / 2 ^ 22
def lineGran (line : Nat) : Nat := line / 1024
def granSlice (g : Nat) : Nat := g / 4096

/-- The DRAM address of a line. -/
def winAddr (s : State) (line : Nat) : Nat := rd64 s 0x18 0x104 / 2 ^ 28 * 2 ^ 28 + 64 * line

/-- The window engine as a master, for a line (R17). -/
def winWho (s : State) (line : Nat) : Who := ⟨0x3A2, sliceTen s (lineSlice line)⟩

/-- The tenant that a port serves: that of its PF0 (R303). -/
def portTenant (s : State) (p : Nat) : Nat := fnTenant s (p * 64)

/-- The layout that a tenant's slices form now (R303). -/
def layoutNow (s : State) (t : Nat) : Layout :=
  let l := (List.range (sliceCount s)).filter fun k => sliceEn s k && sliceTen s k = t
  ⟨l.filter fun k => !slicePersist s k, l.filter fun k => slicePersist s k⟩

/-- A decoder of a port. -/
def decOf (s : State) (p d : Nat) : HdmDec := Tbl.getD s.win.decs (p * 8 + d) {}

/-- A port has a committed decoder. -/
def anyDec (s : State) (p : Nat) : Bool := (List.range 8).any fun d => (decOf s p d).committed

/-- The line a DPA of a port selects (R306). -/
def dpaLine (s : State) (p dpa : Nat) : Option Nat :=
  match Tbl.find s.win.layouts p with
  | none => none
  | some l =>
    let v := l.vol.length * 2 ^ 28
    let k := if dpa < v then l.vol[dpa / 2 ^ 28]? else l.per[(dpa - v) / 2 ^ 28]?
    k.map fun k => k * 2 ^ 22 + dpa % 2 ^ 28 / 64

/-- The line a host physical address selects through a port's decoders (R306). -/
def hpaLine (s : State) (p hpa : Nat) : Option Nat :=
  match (List.range 8).find? fun d =>
    let x := decOf s p d
    x.committed && x.base ≤ hpa && hpa < x.base + x.size * 2 ^ 28 * 2 ^ x.iwl with
  | none => none
  | some d =>
    let x := decOf s p d
    let off := hpa - x.base
    let ig := x.igl + 8
    dpaLine s p (x.dpaBase * 2 ^ 28 + (off / 2 ^ (ig + x.iwl) * 2 ^ ig + off % 2 ^ ig))

/-- A port's decoders map a slice (R302). -/
def sliceMapped (s : State) (k : Nat) : Bool :=
  (List.range 8).any fun p => anyDec s p && match Tbl.find s.win.layouts p with
    | some l => l.vol.contains k || l.per.contains k
    | none => false

/-- PERST#, hot reset and link disable uncommit a port's decoders and release its layout (R309). -/
def winPortReset (s : State) (p : Nat) : State :=
  { s with win := { s.win with decs := s.win.decs.filter fun d => d.1 / 8 ≠ p, layouts := Tbl.del s.win.layouts p } }

/-! ### Granules and poison -/

/-- A granule-table entry. -/
def granOf (s : State) (g : Nat) : Granule := Tbl.getD s.win.grans g {}
def setGran (s : State) (g : Nat) (x : Granule) : State := { s with win := { s.win with grans := Tbl.putC {} s.win.grans g x } }

/-- A granule holds a poisoned line. -/
def granPoison (s : State) (g : Nat) : Bool := s.win.poison.any fun p => lineGran p.1 = g && p.2

/-- The line is poisoned (R324): the bitmap is consulted for marked granules. -/
def winPoisoned (s : State) (line : Nat) : Bool := (granOf s (lineGran line)).poisoned && Tbl.getD s.win.poison line false

/-- Set or clear a line's poison; INT_STS.POISON when a line becomes poisoned (R324, R343). -/
def setPoison (s : State) (line : Nat) (b : Bool) : State :=
  let was := winPoisoned s line
  let s := { s with win := { s.win with poison := if b then Tbl.put s.win.poison line true else Tbl.del s.win.poison line } }
  let g := lineGran line
  let s := setGran s g { granOf s g with poisoned := granPoison s g }
  if b && !was then raiseInt s 0x18 4 else s

/-- A granule returns to Unwritten: its data, poison and flash copy are dead (R302, R310). -/
def granReset (s : State) (g : Nat) : State :=
  let s := match Tbl.find s.win.bdir g with
    | some b => b.puas.foldl invalidate s
    | none => s
  let s := match Tbl.find s.win.snaps g with
    | some b => bpmFree s b.buf
    | none => s
  let s := { s with win := { s.win with
    bdir := Tbl.del s.win.bdir g, grans := Tbl.del s.win.grans g, poison := s.win.poison.filter fun p => lineGran p.1 ≠ g
    snaps := Tbl.del s.win.snaps g } }
  unwriteGranule s (granuleOf (lineOf (winAddr s (g * 1024))))

/-- Every granule of a slice that is not Unwritten already, or has a flash copy, is reset, and every copy in flash is dead. -/
def sliceReset (s : State) (k : Nat) : State :=
  let s := { s with win := { s.win with floor := Tbl.put s.win.floor k s.win.gseq } }
  (((s.win.grans.map (·.1)) ++ (s.win.bdir.map (·.1))).eraseDups.filter fun g => granSlice g = k).foldl granReset s

/-- Dirty granules of a tenant. -/
def tenDirty (s : State) (t : Nat) : Nat :=
  countOf (fun g => (g.2.st = .dirty || g.2.st = .trickling) && sliceTen s (granSlice g.1) = t) s.win.grans

/-- Reserved dirty granules of a tenant (R317), and the sum over tenants. -/
def dirtyMin (s : State) (t : Nat) : Nat := rdF s 0x18 (0x2008 + 32 * t) 21 0
def dirtyMinSum (s : State) : Nat := sumOf (dirtyMin s) (List.range 512)
def dirtyCap (s : State) : Nat := rdF s 0x18 0x11C 21 0
def effMin (s : State) (t : Nat) : Nat :=
  if dirtyCap s < dirtyMinSum s then dirtyMin s t * dirtyCap s / dirtyMinSum s else dirtyMin s t

/-- Admission of a write that would move a granule out of Unwritten or Clean (R318): while the window is Not armed the cap is not
applied (R320). -/
def winAdmit (s : State) (g : Nat) : Bool :=
  let t := sliceTen s (granSlice g)
  s.win.state = 2 || tenDirty s t < effMin s t
    || sumOf (fun t => tenDirty s t - effMin s t) (List.range 512) + sumOf (effMin s) (List.range 512) < dirtyCap s

/-- A write to a granule needs admission. -/
def needsAdmit (s : State) (g : Nat) : Bool :=
  slicePersist s (granSlice g) && ((granOf s g).st = .unwritten || (granOf s g).st = .clean)

/-- A write to a granule is held (R319): at the cap while the window is Armed, or while the flash groups are away in PS4 (R465). -/
def winHolds (s : State) (g : Nat) : Bool := needsAdmit s g && (groupsAway s || (s.win.state = 1 && !winAdmit s g))

/-- The state of a granule after a write (R310, R311). -/
def granWritten (s : State) (g : Nat) : State :=
  let x := granOf s g
  if slicePersist s (granSlice g) then
    match x.st with
    | .unwritten | .clean =>
      { setGran s g { x with st := .dirty, since := s.win.stamp } with win := { (setGran s g { x with st := .dirty, since := s.win.stamp }).win with stamp := s.win.stamp + 1 } }
    | .dirty => s
    | .trickling => setGran s g { x with redirty := true }
  else setGran s g { x with st := .clean }

/-! ### Data -/

/-- Read a line, with whether it is poisoned (R312, R324): zeros for an Unwritten granule; a read that DMC answers with POISON poisons the line, and
the data that goes with it is free. -/
def winRead (s : State) (line : Nat) : Bool × List Byte × State :=
  if (granOf s (lineGran line)).st = .unwritten then (winPoisoned s line, List.replicate 64 0, s)
  else match busRead s (winWho s line) (winAddr s line) 64 with
    | (.ok, d, s) => (winPoisoned s line, d, s)
    | (_, _, s) => let (d, s) := freeBytes s 64; (true, d, setPoison s line true)

/-- Merge bytes under a mask. -/
def mergeBytes (old new : List Byte) (mask : Nat) : List Byte :=
  (List.range 64).map fun i => if mask.testBit i then new.getD i 0 else old.getD i 0

/-- Perform a write (R324): a full line without poison clears the line's poison; a partial write to a poisoned line keeps it. -/
def winWrite (s : State) (line : Nat) (data : List Byte) (mask : Nat) (full poison : Bool) : State :=
  let (bad, old, s) := if full then (false, [], s) else winRead s line
  let s := granWritten s (lineGran line)
  let (_, s) := busWrite s (winWho s line) (winAddr s line) (if full then (data ++ List.replicate 64 0).take 64 else mergeBytes old data mask)
  setPoison s line (poison || bad)

/-! ### The snoop filter -/

/-- Add a response to what the command makes the engine send; one to a port whose link is down waits for the link (R629). -/
def wSend (s : State) (holder tag line : Nat) (a : WAns) : State :=
  if holder < 8 && !(Tbl.getD s.ports holder {}).dlActive then { s with win := { s.win with owed := s.win.owed ++ [⟨holder, tag, line, a⟩] } }
  else { s with win := { s.win with out := s.win.out ++ [⟨holder, tag, line, a⟩], lit := s.win.lit || holder < 8 } }

/-- CXL.mem requests of a port accepted and not yet answered (R28, R83): those that wait, and those whose answers wait for the link. -/
def cxlOut (s : State) (p : Nat) : Nat := countOf (fun q => q.holder = p && !q.gone) s.win.queue + countOf (fun o => o.holder = p) s.win.owed

/-- The port has a CXL.mem request credit to give (R28): 2,048 of each port, 16,384 of the device. -/
def cxlCredit (s : State) (p : Nat) : Bool := cxlOut s p < 2048 && sumOf (cxlOut s) (List.range 8) < 16384

/-- The link is back (R629): the answers that it owed leave in their order. -/
def sendOwed (s : State) (p : Nat) : State :=
  let (go, stay) := s.win.owed.partition (·.holder = p)
  { s with win := { s.win with out := go, owed := stay, lit := s.win.lit || go ≠ [] } }

/-- A protocol breach (R307, R331, R344). -/
def wBreach (s : State) (port kind : Nat) : State := blockErr (wr s 0x18 0x144 (w32 (port % 8 + kind * 16))) 0x18 17 0

def sfOf (s : State) (line : Nat) : Option SfEntry := Tbl.find s.win.sf line

/-- Store an entry; one without holders is freed. -/
def setSf (s : State) (line : Nat) (e : SfEntry) : State :=
  { s with win := { s.win with
    sf := if e.holders = [] then Tbl.del s.win.sf line else Tbl.put s.win.sf line { e with used := s.win.stamp }
    stamp := s.win.stamp + 1 } }

/-- Remove a holder from an entry. -/
def sfDrop (s : State) (line h : Nat) : State :=
  match sfOf s line with
  | some e => setSf s line { e with holders := e.holders.filter (· ≠ h), leaving := e.leaving.filter (· ≠ h) }
  | none => s

/-- The pending transaction of a line. -/
def pendOf (s : State) (line : Nat) : Option Pend := s.win.pends.find? fun p => p.line = line

/-- BISnps outstanding to hosts (R329). -/
def bisnpOut (s : State) : Nat := sumOf (fun p => countOf (· < 8) p.left) s.win.pends

/-- Start a transaction: none while it would take the outstanding BISnps past 1,024. -/
def startPend (s : State) (line : Nat) (k : Snoop) (l : List Nat) (victim : Bool) : State :=
  if 1024 < bisnpOut s + countOf (· < 8) l then s
  else { s with win := { s.win with pends := s.win.pends ++ [{ line := line, snoop := k, left := l, victim := victim }] } }

/-- SF_MIN and SF_MAX of a tenant, and the entries it holds (R346). -/
def sfMin (s : State) (t : Nat) : Nat := rdF s 0x18 (0x2000 + 32 * t) 24 0
def sfMax (s : State) (t : Nat) : Nat := rdF s 0x18 (0x2004 + 32 * t) 24 0
def sfUsed (s : State) (t : Nat) : Nat := countOf (fun e => e.2.tenant = t) s.win.sf

/-- The set of a line (R325). -/
def sfSet (s : State) (line : Nat) : Nat := Config.sfHash s.win.bootKey line % 2 ^ 20

/-- The least recently used of some lines. -/
def lruOf (s : State) (l : List (Nat × SfEntry)) : Option Nat :=
  let m := (l.map (·.2.used)).foldl min ((l.map (·.2.used)).headD 0)
  (l.find? fun e => e.2.used = m).map (·.1)

/-- Room for a new entry (R327): `true` where a free way stands; else a victim's recall starts, and the request waits for it. -/
def sfRoom (s : State) (line t : Nat) : Bool × Option Nat × State :=
  let free := s.win.sf.filter fun e => (pendOf s e.1).isNone
  let inSet := free.filter fun e => sfSet s e.1 = sfSet s line
  let recallLine (v : Option Nat) (s : State) : Bool × Option Nat × State := match v with
    | some v => match sfOf s v with
      | some e => (false, some v, startPend s v .inv e.holders true)
      | none => (false, none, s)
    | none => (false, none, s)
  if sfMax s t ≤ sfUsed s t then
    let own := inSet.filter fun e => e.2.tenant = t
    if own ≠ [] then let (v, s) := pick s (own.map (·.1)); recallLine v s
    else recallLine (lruOf s (free.filter fun e => e.2.tenant = t)) s
  else if countOf (fun e => sfSet s e.1 = sfSet s line) s.win.sf < 16 then (true, none, s)
  else
    let own := inSet.filter fun e => e.2.tenant = t
    let above := inSet.filter fun e => sfMin s e.2.tenant < sfUsed s e.2.tenant
    if own ≠ [] then let (v, s) := pick s (own.map (·.1)); recallLine v s
    else if above ≠ [] then let (v, s) := pick s (above.map (·.1)); recallLine v s
    else
      let n := s.win.pends.length
      let (b, v, s) := recallLine (lruOf s inSet) s
      (b, v, if s.win.pends.length = n then s else raiseInt (bump { s with win := { s.win with forced := s.win.forced + 1 } } 0x18 0x154 1) 0x18 3)

/-! ### Grove caches (R378) -/

def gLineKey (g line : Nat) : Nat := g * 2 ^ 32 + line
def gDirty (s : State) (g line : Nat) : Bool := s.grv.dirty.any fun d => d.1 = g && d.2.1 = line
def gDirtyCount (s : State) (g : Nat) : Nat := countOf (fun d => d.1 = g) s.grv.dirty
def gLine (s : State) (g line : Nat) : Option (List Byte) := Tbl.find s.grv.lines (gLineKey g line)
def setGLine (s : State) (g line : Nat) (d : List Byte) : State :=
  { s with grv := { s.grv with
    lines := Tbl.put s.grv.lines (gLineKey g line) d, lineTen := Tbl.put s.grv.lineTen (gLineKey g line) (sliceTen s (lineSlice line)) } }
def gClean (s : State) (g line : Nat) : State := { s with grv := { s.grv with dirty := s.grv.dirty.filter fun d => !(d.1 = g && d.2.1 = line) } }

/-- The key of a reservation of a window line, beside those of tile and shared memory, and the end of every reservation of the line (R377): the grove
cache has stored to it or no longer holds it. -/
def winRsv (line : Nat) : Nat := 2 ^ 40 + line
def rsvLose (s : State) (line : Nat) : State := { s with grv := { s.grv with rsv := s.grv.rsv.filter fun r => r.2 ≠ winRsv line } }

def gDrop (s : State) (g line : Nat) : State :=
  let s := rsvLose (gClean s g line) line
  { s with grv := { s.grv with lines := Tbl.del s.grv.lines (gLineKey g line), lineTen := Tbl.del s.grv.lineTen (gLineKey g line) } }

/-- Write a dirty line of a grove back to DRAM; the line stays, clean. -/
def gWriteBack (s : State) (g line : Nat) : State :=
  match gLine s g line with
  | some d => if gDirty s g line then gClean (winWrite s line d (2 ^ 64 - 1) true false) g line else s
  | none => s

/-- Queue the write-back of a grove's dirty line, once (R378). -/
def gQueueLine (s : State) (g line : Nat) : State :=
  if s.win.queue.any fun r => r.holder = 8 + g && r.line = line && r.kind = .wr then s
  else
    let r : WReq := {
      id := s.win.nextId, holder := 8 + g, mid := 0x200 + g * 16, tenant := sliceTen s (lineSlice line), line := line, kind := .wr, meta_ := .a,
      data := (gLine s g line).getD [] }
    { s with win := { s.win with queue := s.win.queue ++ [r], nextId := s.win.nextId + 1 } }

/-- Queue the write-back of a grove's oldest dirty line (R378). -/
def gQueueOldest (s : State) (g : Nat) : State :=
  match s.grv.dirty.find? fun d => d.1 = g with
  | none => s
  | some d => gQueueLine s g d.2.1

/-- The tile memory of an engine (R373, R375). -/
def tileBase (e : Nat) : Nat := 0x2000000000 + e / 16 * 0x1000000 + e % 16 * 0x80000

/-- Copy bytes into the ring of an input stream (R392). -/
def ringGive (s : State) (e k : Nat) (d : List Byte) : State :=
  match Tbl.find (engOf s e).streams k with
  | none => s
  | some x =>
    let n := 2 ^ x.ringLog
    let s := (List.range d.length).foldl (fun s i => memWrite s (tileBase e + x.ring + (x.delivered + i) % n) (d.getD i 0)) s
    setEng s e { engOf s e with streams := Tbl.put (engOf s e).streams k { x with delivered := x.delivered + d.length } }

/-- Bytes of a window line that a WIN_IN stream still wants, from its position. -/
def winWant (x : Stream) : Nat × Nat :=
  let a := x.start + x.delivered
  (a % 64, min (64 - a % 64) (x.len - x.delivered))

/-- A line read by a WIN_IN stream goes to its ring; the tag names the engine and the stream. -/
def winStreamIn (s : State) (tag : Nat) (d : List Byte) : State :=
  match Tbl.find (engOf s (tag / 8)).streams (tag % 8) with
  | none => s
  | some x => let (o, n) := winWant x; ringGive s (tag / 8) (tag % 8) ((d.drop o).take n)

/-- Apply a store to a cached line: reservations of the line end, and the line is dirty by the engine. -/
def gStore (s : State) (g line eng : Nat) (data : List Byte) (mask : Nat) : State :=
  let s := rsvLose (setGLine s g line (mergeBytes ((gLine s g line).getD []) data mask)) line
  if gDirty s g line then
    { s with grv := { s.grv with dirty := s.grv.dirty.map fun d => if d.1 = g && d.2.1 = line then (g, line, d.2.2 ||| 2 ^ eng) else d } }
  else { s with grv := { s.grv with dirty := s.grv.dirty ++ [(g, line, 2 ^ eng)] } }

/-- A store would exceed the grove's dirty limit (R378). -/
def gFull (s : State) (g line : Nat) : Bool := !gDirty s g line && rdF s (0x40 + g) 0x110 10 0 ≤ gDirtyCount s g

/-! ### Serving a request (R326) -/

/-- The granted line of a read goes to its requester; a grove caches it, and applies a store. -/
def wGrant (s : State) (r : WReq) (excl : Bool) : State :=
  if r.kind = .inv then wSend s r.holder r.tag r.line (if excl then .cmpE else .cmpS)
  else
    let (p, d, s) := winRead s r.line
    let s := wSend s r.holder r.tag r.line (.data p d excl)
    if 8 ≤ r.holder && !r.noHolder && r.meta_ ≠ .i then
      let g := r.holder - 8
      let s := setGLine s g r.line d
      if r.data ≠ [] then gStore s g r.line (r.mid % 16) r.data r.mask else s
    else if 8 ≤ r.holder && r.noHolder then winStreamIn s r.tag d
    else s

/-- Enter a holder in the snoop filter. -/
def wHold (s : State) (r : WReq) (a : Bool) : State :=
  match sfOf s r.line with
  | some e => setSf s r.line { e with a := a, holders := if a then [r.holder] else (r.holder :: e.holders.filter (· ≠ r.holder)), leaving := [] }
  | none => setSf s r.line { a := a, holders := [r.holder], tenant := r.tenant }

/-- Serve a read or an invalidate (R326): done, or it waits. -/
def wServeRead (s : State) (r : WReq) : Bool × State :=
  let e := sfOf s r.line
  let others := match e with
    | some x => if r.noHolder then x.holders else x.holders.filter (· ≠ r.holder)
    | none => []
  let isA := match e with
    | some x => x.a
    | none => false
  let wantA := r.kind = .inv || r.meta_ = .a
  let store := r.data ≠ [] && 8 ≤ r.holder
  if r.kind = .rd && r.meta_ = .i then
    if isA && others ≠ [] && !r.retry then (false, startPend s r.line .cur others false) else (true, wGrant s r false)
  else if wantA && others ≠ [] then (false, startPend s r.line .inv others false)
  else if !wantA && isA && others ≠ [] && !r.retry then (false, startPend s r.line .data others false)
  else if store && gFull s (r.holder - 8) r.line then (false, gQueueOldest s (r.holder - 8))
  else if e.isSome then (true, wGrant (wHold s r wantA) r wantA)
  else match sfRoom s r.line r.tenant with
    | (true, _, s) => (true, wGrant (wHold s r wantA) r wantA)
    | (false, v, s) =>
      (false, { s with win := { s.win with queue := s.win.queue.map fun q => if q.id = r.id then { q with on_ := v } else q } })

/-- Serve a write (R318, R319, R326): done, or it waits for holders or is held at the cap. -/
def wServeWrite (s : State) (r : WReq) : Bool × State :=
  let e := sfOf s r.line
  let mine := match e with
    | some x => x.a && x.holders = [r.holder] && !r.noHolder
    | none => false
  let others := match e with
    | some x => if r.noHolder then x.holders else x.holders.filter (· ≠ r.holder)
    | none => []
  if !mine && others ≠ [] then (false, startPend s r.line .inv others false)
  else if winHolds s (lineGran r.line) then
    if r.held then (false, s)
    else
      let s := { s with win := { s.win with holds := s.win.holds + 1, queue := s.win.queue.map fun q => if q.id = r.id then { q with held := true } else q } }
      (false, raiseInt (bump s 0x18 0x150 1) 0x18 1)
  else
    let s := winWrite s r.line r.data r.mask (r.kind = .wr) r.poison
    let s := if 8 ≤ r.holder && !r.noHolder then gClean s (r.holder - 8) r.line else s
    let s := if r.gone then s else wSend s r.holder r.tag r.line .cmp
    let s := if mine then
        match r.meta_ with
        | .i => sfDrop s r.line r.holder
        | .s => wHold s r false
        | .a => wHold s r true
      else match sfOf s r.line with
        | some e => setSf s r.line { e with holders := [] }
        | none => s
    (true, s)

/-- Serve a MemClnEvct: the requester leaves the entry (R326). -/
def wServeEvict (s : State) (r : WReq) : Bool × State := (true, sfDrop (wSend s r.holder r.tag r.line .cmp) r.line r.holder)

/-- Serve a request, if it need not wait. -/
def wServe (s : State) (r : WReq) : Bool × State :=
  match r.kind with
  | .wr | .wrPtl => wServeWrite s r
  | .evict => wServeEvict s r
  | _ => wServeRead s r

/-- A request waits (R322, R329): the window restores, a transaction of its line or of its victim is pending, the cap holds it, or an
earlier request names its line. -/
def wBlocked (s : State) (r : WReq) (before : List WReq) : Bool :=
  s.win.state = 0 || (pendOf s r.line).isSome || r.held || before.any (fun q => q.line = r.line)
    || (match r.on_ with
        | some v => (pendOf s v).isSome
        | none => false)

/-- One pass over the queue in arrival order: whether a request was served. -/
def wPass (s : State) (before : List WReq) : List WReq → Bool × State
  | [] => (false, s)
  | r :: t =>
    -- The request as it stands now: an attempt may have marked it.
    let r := (s.win.queue.find? fun q => q.id = r.id).getD r
    if wBlocked s r before then wPass s (before ++ [r]) t
    else match wServe s r with
      | (true, s) => (true, (wPass { s with win := { s.win with queue := s.win.queue.filter fun q => q.id ≠ r.id } } before t).2)
      | (false, s) => wPass s (before ++ [r]) t

/-- Serve what can be served. -/
def wPump (s : State) : Nat → State
  | 0 => s
  | n + 1 => match wPass s [] s.win.queue with
    | (true, s) => wPump s n
    | (false, s) => s

def wRun (s : State) : State := wPump s (2 * s.win.queue.length + 2)

/-- A request arrives. -/
def wArrive (s : State) (r : WReq) : State :=
  let r := { r with id := s.win.nextId }
  wRun { s with win := { s.win with queue := s.win.queue ++ [r], nextId := s.win.nextId + 1 } }

/-- The transaction resolves (R329): a victim's entry is freed; the request it was for is retried. -/
def wResolve (s : State) (p : Pend) : State :=
  let s := { s with win := { s.win with pends := s.win.pends.filter fun q => q.line ≠ p.line } }
  let s := if p.victim then
      match sfOf s p.line with
      | some e => setSf s p.line { e with holders := [] }
      | none => s
    else s
  wRun { s with win := { s.win with queue := s.win.queue.map fun q =>
    if q.line = p.line then { q with retry := true } else if q.on_ = some p.line then { q with on_ := none } else q } }

/-- A write that crossed a snoop of the line is held, so that the transaction waits for it (R319, R329). -/
def crossHeld (s : State) (line : Nat) : Bool := s.win.queue.any fun r => r.cross && r.line = line

/-- A holder has answered: `keep` says whether it keeps the line (R331). -/
def wAnswered (s : State) (line h : Nat) (keep : Bool) : State :=
  match pendOf s line with
  | none => s
  | some p =>
    let s := if keep then match sfOf s line with
        | some e => setSf s line { e with a := if p.snoop = .data then false else e.a }
        | none => s
      else sfDrop s line h
    let p := { p with left := p.left.filter (· ≠ h), answered := h :: p.answered }
    let s := { s with win := { s.win with pends := s.win.pends.map fun q => if q.line = line then p else q } }
    if p.left = [] && !crossHeld s line then wResolve s p else s

/-- A grove answers a recall (R328, R378): a dirty line is written back, which the cap may hold; a recall for a current copy leaves the
line, every other one drops it. -/
def groveRecall (s : State) (g line : Nat) : State :=
  match pendOf s line with
  | none => s
  | some p =>
    if !p.left.contains (8 + g) then s
    else if gDirty s g line && winHolds s (lineGran line) then
      if p.late then s
      else
        let s := { s with win := { s.win with
          holds := s.win.holds + 1, pends := s.win.pends.map fun q => if q.line = line then { q with late := true } else q } }
        raiseInt (bump s 0x18 0x150 1) 0x18 1
    else
      let s := gWriteBack { s with win := { s.win with pends := s.win.pends.map fun q => if q.line = line then { q with late := false } else q } } g line
      if p.snoop = .cur then wAnswered s line (8 + g) true else wAnswered (gDrop s g line) line (8 + g) false

/-- A port goes down (R78, R333): its BISnps resolve as BIRspI, and its bit leaves every entry. Its requests that wait go, but for the writes that have
arrived. -/
def winPortDown (s : State) (p : Nat) : State :=
  let s := (s.win.pends.filter fun x => x.left.contains p).foldl (fun s x => wAnswered s x.line p false) s
  let s := (s.win.sf.filter fun e => e.2.holders.contains p).foldl (fun s e => sfDrop s e.1 p) s
  wRun { s with win := { s.win with queue := (s.win.queue.filter fun q => q.holder ≠ p || q.kind = .wr || q.kind = .wrPtl).map fun q =>
    if q.holder = p then { q with noHolder := true, gone := true } else q } }

/-- Recall every line of a slice from the groves, and free its entries (R133, R407). -/
def winRecallSlice (s : State) (k : Nat) : State :=
  let l := s.win.sf.filter fun e => lineSlice e.1 = k
  l.foldl (fun s e =>
    let s := (e.2.holders.filter (8 ≤ ·)).foldl (fun s h => gDrop (gWriteBack s (h - 8) e.1) (h - 8) e.1) s
    match sfOf s e.1 with
    | some x => setSf s e.1 { x with holders := [] }
    | none => s) s

/-- Every grove writes back all its dirty lines (R398). -/
def groveFlush (s : State) : State := s.grv.dirty.foldl (fun s d => gWriteBack s d.1 d.2.1) s

/-- What the window does at the power-loss signal (R321, R331): transactions are abandoned, accepted requests are completed against
DRAM, held writes are discarded. -/
def winPowerLoss (s : State) : State :=
  let s := groveFlush s
  let s := s.win.pends.foldl (fun s p => p.left.foldl (fun s h => wAnswered s p.line h false) s) s
  let s := wRun s
  { s with win := { s.win with queue := [], pends := [] } }

end Sys2Proof.Machine
end

