-- ==== Sys2Proof/Machine/Win.lean ====
section
/-! DEFINITION. The commands of the Heartwood window (R301 to R347): CXL.mem requests, snoops, the trickle, restore, the CXL device
mailbox, and the window's own registers. -/

namespace Sys2Proof.Machine

/-! ### CXL.mem requests -/

/-- The port carries CXL.mem: its link is up in CXL mode (R308), contained by another cause than a surprise down (R76), and the device
is not in Fault (R575). -/
def cxlUp (s : State) (p : Nat) : Bool :=
  let x := Tbl.getD s.ports p {}
  (x.pstate = .up || (x.pstate = .contained && x.cause ≠ 4)) && x.cxl && !s.dev.fault

/-- What a command makes the engine send starts empty. -/
def wFresh (s : State) : State := { s with win := { s.win with out := [] } }

/-- A request of a port by its host physical address: one that no decoder maps is a breach (R307). Without a credit the host cannot send it (R28). -/
def cxlReq (s : State) (p hpa : Nat) (miss : State → State) (f : State → Nat → State) : State :=
  if !cxlUp s p || !cxlCredit s p then s
  else match hpaLine s p hpa with
    | none => miss (wBreach (wFresh s) p 1)
    | some line => f (wFresh s) line

/-- The answer to a read that no decoder maps: poison and ones (R307). -/
def missRead (p hpa tag : Nat) (s : State) : State := wSend s p tag (hpa / 64) (.data true (List.replicate 64 0xFF) false)

/-- The answer to a write that no decoder maps (R307), and to a MemInv, which returns no data. -/
def missWrite (p hpa tag : Nat) (s : State) : State := wSend s p tag (hpa / 64) .cmp

/-- A port's read or invalidate: the port has asked for the line again (R331). -/
def cxlRead (s : State) (p hpa tag : Nat) (k : WKind) (m : Meta) : State :=
  cxlReq s p hpa (if k = .inv then missWrite p hpa tag else missRead p hpa tag) fun s line =>
    let s := { s with win := { s.win with saidI := s.win.saidI.filter (· ≠ (line, p)) } }
    wArrive s { id := 0, holder := p, mid := p * 64, tenant := portTenant s p, tag := tag, line := line, kind := k, meta_ := m }

def execMemrd (port : Fin 8) (hpa : Nat) (m : Meta) (tag : Nat) (s : State) : Out := fin (cxlRead s port hpa tag .rd m)

def execMeminv (port : Fin 8) (hpa tag : Nat) (s : State) : Out := fin (cxlRead s port hpa tag .inv .a)

def execMemrddata (port : Fin 8) (hpa tag : Nat) (s : State) : Out := fin (cxlRead s port hpa tag .rdData .s)

/-- The writer's new state in the entry (R326). -/
def writerMeta (s : State) (line p : Nat) (m : Meta) : State :=
  match sfOf s line with
  | none => s
  | some e =>
    if e.a && e.holders = [p] then
      match m with
      | .i => sfDrop s line p
      | .s => setSf s line { e with a := false }
      | .a => s
    else s

/-- A writeback that crosses the snoop (R331): performed and answered, unless the cap holds it (R319). -/
def crossWrite (s : State) (r : WReq) : State :=
  if winHolds s (lineGran r.line) then
    let s := { s with win := { s.win with
      holds := s.win.holds + 1, nextId := s.win.nextId + 1
      queue := s.win.queue ++ [{ r with id := s.win.nextId, held := true, cross := true }] } }
    raiseInt (bump s 0x18 0x150 1) 0x18 1
  else
    let s := winWrite s r.line r.data r.mask (r.kind = .wr) r.poison
    writerMeta (if r.gone then s else wSend s r.holder r.tag r.line .cmp) r.line r.holder r.meta_

/-- A port's write (R326, R331). -/
def cxlWrite (s : State) (p hpa tag : Nat) (k : WKind) (m : Meta) (data : List Byte) (mask : Nat) (poison : Bool) : State :=
  cxlReq s p hpa (missWrite p hpa tag) fun s line =>
    let r : WReq := {
      id := 0, holder := p, mid := p * 64, tenant := portTenant s p, tag := tag, line := line, kind := k, meta_ := m, data := data, mask := mask, poison := poison }
    let pending := match pendOf s line with
      | some x => x.left.contains p
      | none => false
    if pending then crossWrite s r
    else if s.win.saidI.contains (line, p) then
      wArrive { wBreach s p 4 with win := { (wBreach s p 4).win with saidI := s.win.saidI.filter (· ≠ (line, p)) } } { r with noHolder := true }
    else wArrive s r

def execMemwr (port : Fin 8) (hpa : Nat) (m : Meta) (tag : Nat) (data : List Byte) (poison : Bool) (s : State) : Out :=
  fin (cxlWrite s port hpa tag .wr m data (2 ^ 64 - 1) poison)

def execMemwrptl (port : Fin 8) (hpa : Nat) (m : Meta) (tag : Nat) (data : List Byte) (mask : Nat) (poison : Bool) (s : State) : Out :=
  fin (cxlWrite s port hpa tag .wrPtl m data mask poison)

/-- MemClnEvct (R326, R331): the requester leaves the entry, or is marked leaving while a snoop to it is pending. -/
def cxlEvict (s : State) (p hpa tag : Nat) : State :=
  cxlReq s p hpa (missWrite p hpa tag) fun s line =>
    let snooped := match pendOf s line with
      | some x => x.left.contains p
      | none => false
    if snooped then
      let s := wSend s p tag line .cmp
      match sfOf s line with
      | some e => setSf s line { e with leaving := p :: e.leaving.filter (· ≠ p) }
      | none => s
    else wArrive s { id := 0, holder := p, mid := p * 64, tenant := portTenant s p, tag := tag, line := line, kind := .evict, meta_ := .i }

def execMemclnevct (port : Fin 8) (hpa tag : Nat) (s : State) : Out := fin (cxlEvict s port hpa tag)

/-- MemSpecRd is dropped (R326). -/
def execMemspecrd (port : Fin 8) (hpa tag : Nat) (s : State) : Out :=
  fin (if cxlUp s port then wFresh s else s)

/-- Note that a port answered a snoop of a line with I. -/
def noteI (s : State) (line p : Nat) : State :=
  { s with win := { s.win with saidI := (line, p) :: s.win.saidI.filter (· ≠ (line, p)) } }

/-- A BIRsp (R329, R331); the request that waits for a BISnpData shares the line with its old holder, whichever of S and E that answered (log entry 129). -/
def birsp (s : State) (p line : Nat) (m : Meta) : State :=
  if !cxlUp s p then s
  else
  let s := wFresh s
  match pendOf s line with
  | none => wBreach s p 2
  | some x =>
    if !x.left.contains p then wBreach s p 2
    else match m with
      | .i => wAnswered (noteI s line p) line p false
      | _ =>
        if x.snoop = .inv then wAnswered (noteI (wBreach s p 3) line p) line p false
        else
          let s := match sfOf s line with
            | some e => if m = .s then setSf s line { e with a := false } else s
            | none => s
          wAnswered s line p true

def execBirsp (port : Fin 8) (line : Nat) (rsp : Meta) (s : State) : Out := fin (birsp s port line rsp)

/-- A BIConflict (R330): counted, and answered behind the responses already sent. -/
def execBiconflict (port : Fin 8) (line : Nat) (s : State) : Out :=
  fin (if cxlUp s port then wSend (bump (wFresh s) 0x18 0x15C 1) port 0 line .conflictAck else s)

/-- A BISnp timeout (R332). -/
def bisnpTimeout (s : State) (p line : Nat) : State :=
  let s := wFresh s
  match pendOf s line with
  | none => s
  | some x =>
    if !x.left.contains p then s
    else
      let s := bump { s with win := { s.win with tmos := s.win.tmos + 1 } } 0x18 0x158 1
      let s := emit (raiseInt s 0x18 6) 0x8001 sevError 0x18 (some (sliceTen s (lineSlice line))) (leBytes 1 p ++ leBytes 8 line)
      wAnswered (noteI s line p) line p false

def execBisnpTimeout (port : Fin 8) (line : Nat) (s : State) : Out := fin (bisnpTimeout s port line)

/-- HELD_WRITE_ADMIT (R319): the oldest held write that is admitted now is performed in its turn. -/
def heldAdmit (s : State) : State :=
  let s := wFresh s
  match s.win.queue.find? fun r => r.held && !winHolds s (lineGran r.line) with
  | none => s
  | some r =>
    if r.cross then
      let s := crossWrite { s with win := { s.win with queue := s.win.queue.filter fun q => q.id ≠ r.id } } { r with held := false, cross := false }
      match pendOf s r.line with
      | some p => if p.left = [] && !crossHeld s r.line then wResolve s p else s
      | none => s
    else wRun { s with win := { s.win with queue := s.win.queue.map fun q => if q.id = r.id then { q with held := false } else q } }

def execHeldWriteAdmit (s : State) : Out := fin (heldAdmit s)

def execGroveRecall (grove : Fin 16) (line : Nat) (s : State) : Out := fin (groveRecall (wFresh s) grove line)

/-! ### Decoders -/

/-- The reason a Commit fails (R306); 0 where it succeeds. The order of the decoders is judged before the ranges that rest on it. -/
def decError (s : State) (p d ways gran base size skip : Nat) (l : Layout) : Nat :=
  let unit := 2 ^ 28
  if !([1, 2, 4, 8, 16].contains ways && [256, 512, 1024, 2048, 4096, 8192, 16384].contains gran
      && base % unit = 0 && size % (unit * ways) = 0 && skip % unit = 0) then 1
  else if (List.range d).any fun i => !(decOf s p i).committed then 4
  else
    let prev := if d = 0 then 0 else (decOf s p (d - 1)).dpaBase + (decOf s p (d - 1)).size
    let lo := prev + skip / unit
    let hi := lo + size / unit / ways
    if l.vol.length + l.per.length < hi then 2
    else if lo < l.vol.length && l.vol.length < hi then 3
    else 0

/-- Commit a decoder (R303, R306): the first commit of a port latches its layout. -/
def decCommit (s : State) (p d ways gran base size skip : Nat) : State :=
  let l := (Tbl.find s.win.layouts p).getD (layoutNow s (portTenant s p))
  let e := decError s p d ways gran base size skip l
  let prev := if d = 0 then 0 else (decOf s p (d - 1)).dpaBase + (decOf s p (d - 1)).size
  let x : HdmDec :=
    if e ≠ 0 then { err := e }
    else { committed := true, iwl := Nat.log2 ways, igl := Nat.log2 gran - 8, base := base, dpaBase := prev + skip / 2 ^ 28, size := size / 2 ^ 28 / ways }
  if (decOf s p d).committed then s
  else { s with win := { s.win with
    decs := Tbl.put s.win.decs (p * 8 + d) x
    layouts := if e = 0 then Tbl.put s.win.layouts p l else s.win.layouts } }

def execHdmDecoderCommit (port : Fin 8) (dec : Fin 8) (ways gran base size skip : Nat) (s : State) : Out :=
  fin (decCommit s port dec ways gran base size skip)

/-! ### The trickle -/

/-- The trickle may serve a granule of the slice now: the slice's key permits it (R137, R314, R422) and the tenant's PROG_BUDGET and, outside class
CLOSE, the rate have room (R315). -/
def trickleMay (s : State) (g : Nat) : Bool :=
  let k := granSlice g
  let t := sliceTen s k
  let b := rdF s 0x0F (0x2008 + 16 * t) 31 16
  let key := match sliceKey s k with
    | none => true
    | some x => xtsStatus s t x = 0 && !(xtsSlot s x).paused && !(match s.sec.kop with
        | some o => o.op = 8 && o.status = 0 && Word.fld (w32 o.word) 17 6 = x
        | none => false)
  key && (b = 0 || 64 ≤ Tbl.getD s.cpc.budget t (b * 1024)) && (trickleClose s t || 0 < s.win.rate)

/-- The oldest Dirty granule of the tenant whose turn it is (R315). -/
def oldestDirty (s : State) : Option Nat :=
  let l := s.win.grans.filter fun g => g.2.st = .dirty && trickleMay s g.1
  let ts := (l.map fun g => sliceTen s (granSlice g.1))
  let after := ts.filter (s.win.rrTen < ·)
  let t := if after ≠ [] then after.foldl min (after.headD 0) else ts.foldl min (ts.headD 0)
  let m := l.filter fun g => sliceTen s (granSlice g.1) = t
  let o := (m.map (·.2.since)).foldl min ((m.map (·.2.since)).headD 0)
  (m.find? fun g => g.2.since = o).map (·.1)

/-- The first granule marked for re-trickle. -/
def firstMarked (s : State) : Option Nat :=
  (s.win.grans.find? fun g => g.2.retrickle && g.2.st = .clean && (Tbl.find s.win.snaps g.1).isNone && trickleMay s g.1).map (·.1)

/-- Read the lines of a granule: the bytes, and the poison bits by line. -/
def granRead (s : State) (g : Nat) : Nat → List Byte × List Bool × State
  | 0 => ([], [], s)
  | n + 1 =>
    let (b, p, s) := granRead s g n
    let (bad, d, s) := winRead s (g * 1024 + n)
    (b ++ d, p ++ [bad], s)

/-- Poison bits of a codeword of a granule copy (R313). -/
def subPoison (p : List Bool) (sub : Nat) : Nat := sumOf (fun i => if p.getD (sub * 64 + i) false then 2 ^ i else 0) (List.range 64)

/-- Take the snapshot of a granule and hand its copy to Coppice (R314). -/
def trickleGranule (s : State) (g buf : Nat) (marked : Bool) : State :=
  let k := granSlice g
  let t := sliceTen s k
  let (bytes, poison, s) := granRead s g 1024
  let q := s.win.gseq
  let close := trickleClose s t
  let (s, key) := match sliceKey s k with
    | none => (s, [])
    | some x => ((countUnits s x 16).2, (xtsSlot s x).cur)
  let b := rdF s 0x0F (0x2008 + 16 * t) 31 16
  let s := { s with
    win := { s.win with
      gseq := q + 1, snaps := Tbl.put s.win.snaps g { buf := buf, gseq := q }, rrTen := if marked then s.win.rrTen else t
      rate := if close then s.win.rate else s.win.rate - 1 }
    cpc := { s.cpc with budget := if b = 0 then s.cpc.budget else Tbl.put s.cpc.budget t (Tbl.getD s.cpc.budget t (b * 1024) - 64) } }
  let s := setGran s g { granOf s g with st := if marked then .clean else .trickling, retrickle := false }
  (List.range 16).foldl (fun (s : State) (sub : Nat) =>
    let d := (bytes.drop (sub * 4096)).take 4096
    queueItem s {
      tenant := 0, ruh := ruhBacking, src := ItemSrc.backing g sub,
      content := Content.backing g sub q t (subPoison poison sub) (crc32c d) (if key = [] then d else xtsUnit true key (g * 16 + sub) d) }) s

/-- TRICKLE_START (R314, R315, R316): a Dirty or marked granule is taken; between the two kinds the choice is free. The count limit of its key stops
it (R419); a snapshot that Bark refuses is not taken (log entry 129). -/
def trickleStart (s : State) : State :=
  let (o, s) := pick s (((oldestDirty s).map fun g => (g, false)).toList ++ ((firstMarked s).map fun g => (g, true)).toList)
  match o with
  | none => s
  | some (g, marked) =>
    let t := sliceTen s (granSlice g)
    let limit : Bool := match sliceKey s (granSlice g) with
      | some x => xtsLimit < (xtsSlot s x).cnt + 16
      | none => false
    if limit then s
    else match bpmTry s (ownerOf s t) 3 true with
      | (none, _) => s
      | (some a, s') => match dramMayAll s' ⟨0x3A2, t⟩ .write [(a, 65536)] with
        | (true, s') => trickleGranule s' g a marked
        | (false, s') => bpmFree s' a

def execTrickleStart (s : State) : Out := finMedia (trickleStart s)

/-- The PUAs of a snapshot's codewords that are closed on NAND, in the order of SUB. -/
def snapPuas (s : State) (g gseq : Nat) : List Nat :=
  (List.range 16).filterMap fun sub => (s.cpc.sysDone.find? fun d => d.1 = .backing g sub && match Tbl.find s.flash.cells d.2 with
    | some (.backing _ _ q _ _ _ _) => q = gseq
    | _ => false).map (·.2)

/-- TRICKLE_COMPLETE (R314): the directory takes the copy, the earlier one is dead, and the buffer is released. A CLOSED BACKING RU left without a live
copy goes to Coppice for erasure (R316). -/
def trickleComplete (s : State) (g : Nat) : State :=
  match Tbl.find s.win.snaps g with
  | none => s
  | some n =>
    let l := snapPuas s g n.gseq
    if l.length < 16 then s
    else
      let s := match Tbl.find s.win.bdir g with
        | some b => b.puas.foldl invalidate s
        | none => s
      let s := l.foldl validate s
      let x := granOf s g
      let st : GranSt := if x.st = .trickling then (if x.redirty then .dirty else .clean) else x.st
      let s := setGran s g { x with st := st, redirty := false, since := if st = .dirty then s.win.stamp else x.since }
      let s := { s with
        win := { s.win with
          bdir := Tbl.put s.win.bdir g ⟨l, n.gseq⟩, snaps := Tbl.del s.win.snaps g, trickled := s.win.trickled + 1
          stamp := s.win.stamp + 1 }
        cpc := { s.cpc with sysDone := s.cpc.sysDone.filter fun d => match d.1 with
          | .backing h _ => h ≠ g
          | _ => true } }
      let s := bump (bpmFree s n.buf) 0x18 0x160 1
      { s with cpc := { s.cpc with rus := s.cpc.rus.map fun p =>
        if p.2.ruh = ruhBacking && p.2.st = .closed && p.2.valid = [] then (p.1, { p.2 with st := .victim }) else p } }

def execTrickleComplete (granule : Nat) (s : State) : Out := finMedia (trickleComplete s granule)

/-- BACKING RUs that are free: the reserve of twice the persistent window (R204, R313) less those in use. -/
def backingFree (s : State) : Nat :=
  ceilDiv (2 * countOf (slicePersist s) (List.range 512) * 2 ^ 28) (max 1 (ruData s) * 4096)
    - countOf (fun p => p.2.ruh = ruhBacking && p.2.st ≠ .free && p.2.st ≠ .retired) s.cpc.rus

/-- Mark granules for re-trickle. -/
def markGrans (s : State) (l : List Nat) : State := l.foldl (fun s g => setGran s g { granOf s g with retrickle := true }) s

/-- The granules whose live copy lies in an RU. -/
def granCopies (s : State) (ru : Nat) : List Nat := (s.win.bdir.filter fun b => b.2.puas.any fun p => ruOfPua s p = some ru).map (·.1)

/-- The granules whose live copy was sealed under a previous key (R423). -/
def prevCopies (s : State) : List Nat :=
  (s.win.bdir.filter fun b => match sliceKey s (granSlice b.1) with
    | some x => (xtsSlot s x).gseq && (xtsSlot s x).prev ≠ [] && b.2.gseq < (xtsSlot s x).ref
    | none => false).map (·.1)

/-- RETRICKLE_START (R316, R423). -/
def retrickleStart (s : State) : State :=
  let s := markGrans s (prevCopies s)
  if 2 ≤ backingFree s then s
  else
    let l := (s.cpc.rus.filter fun p => p.2.ruh = ruhBacking && p.2.st = .closed).map fun p => (p.1, (granCopies s p.1).length)
    let m := (l.map (·.2)).foldl min ((l.map (·.2)).headD 0)
    let (r, s) := pick s ((l.filter fun p => p.2 = m).map (·.1))
    match r with
    | some r => markGrans s (granCopies s r)
    | none => s

def execRetrickleStart (s : State) : Out := fin (retrickleStart s)

/-- PREV_DRAINED (R423): no live copy needs the previous key of a slot in GSEQ mode. -/
def prevDrained (s : State) (slot : Nat) : State :=
  let x := xtsSlot s slot
  if !x.gseq || x.prev = [] || (prevCopies s).any (fun g => sliceKey s (granSlice g) = some slot) then s
  else raiseInt (setXts s slot { x with prev := [] }) 0x0A 6

def execPrevDrained (slot : Fin 4096) (s : State) : Out := fin (prevDrained s slot)

/-! ### Restore and GPF -/

/-- The granule copies in BACKING and FLUSH RUs that are not dead by R302: granule and GSEQ, by their SUB 0 (R322). -/
def scanCopies (s : State) : List (Nat × Nat) :=
  s.flash.cells.filterMap fun c => match c.2 with
    | .backing g 0 q _ _ _ _ =>
      let inRu := match ruOfPua s c.1 with
        | some i => (ruAt s i).ruh = ruhBacking || (ruAt s i).ruh = ruhFlush
        | none => false
      if inRu && slicePersist s (granSlice g) && Tbl.getD s.win.floor (granSlice g) 0 ≤ q then some (g, q) else none
    | _ => none

/-- The codewords of a copy, in the order of SUB. -/
def copyCells (s : State) (g q : Nat) : List (Nat × Content) :=
  (List.range 16).filterMap fun sub => s.flash.cells.find? fun c => match c.2 with
    | .backing h k r _ _ _ _ => h = g && k = sub && r = q
    | _ => false

/-- A codeword's plaintext (R322): none where read recovery lost it or its CRC is wrong. -/
def cellPlain (s : State) (g : Nat) (bad : List Nat) (c : Nat × Content) : Option (List Byte × Nat) :=
  match c.2 with
  | .backing _ sub q _ poison crc d =>
    let x := match sliceKey s (granSlice g) with
      | some k => xtsUnit false (decKey (xtsSlot s k) 0 q) (g * 16 + sub) d
      | none => d
    if bad.contains c.1 || !sliceMay s (granSlice g) || crc32c x ≠ crc then none else some (x, poison)
  | _ => none

/-- A whole copy: its PUAs, bytes and poison bits. -/
def copyData (s : State) (g q : Nat) (bad : List Nat) : Option (List Nat × List Byte × List Nat) :=
  let l := copyCells s g q
  let p := l.filterMap (cellPlain s g bad)
  if p.length = 16 then some (l.map (·.1), (p.map (·.1)).flatten, p.map (·.2)) else none

/-- Restore one granule from its two newest copies (R322, R323). -/
def restoreGranule (s : State) (g : Nat) (qs : List Nat) (bad : List Nat) : State :=
  let q1 := qs.foldl max 0
  let q2 := (qs.filter (· ≠ q1)).foldl max 0
  match (copyData s g q1 bad).map (fun d => (q1, d)) <|> (copyData s g q2 bad).map fun d => (q2, d) with
  | some (q, puas, bytes, poison) =>
    let s := (busWrite s (winWho s (g * 1024)) (winAddr s (g * 1024)) bytes).2
    let flush : Bool := match ruOfPua s (puas.headD 0) with
      | some i => (ruAt s i).ruh = ruhFlush
      | none => false
    let s := setGran s g { st := if flush then .dirty else .clean, since := s.win.stamp }
    let s := puas.foldl validate s
    let s := { s with win := { s.win with bdir := Tbl.put s.win.bdir g ⟨puas, q⟩, gseq := max s.win.gseq (q + 1), stamp := s.win.stamp + 1 } }
    (List.range 1024).foldl (fun s i => if (poison.getD (i / 64) 0).testBit (i % 64) then setPoison s (g * 1024 + i) true else s) s
  | none =>
    let s := setGran s g { st := .clean }
    let s := (List.range 1024).foldl (fun s i => setPoison s (g * 1024 + i) true) s
    let (v, s) := takeFree (blockErr s 0x18 18 0)
    cxlEvent (emit s 0x8002 (v % 5) 0x18 (some (sliceTen s (granSlice g))) (leBytes 4 g)) (leBytes 4 g)

/-- The granules whose latest data the flush did not write. -/
def lostGrans (s : State) : List Nat := if s.pwr.lastFlush = 2 then s.pwr.last.grans.filter (fun g => slicePersist s (granSlice g)) else []

/-- RESTORE_LEFT (R344): the granules that the restore still has to bring back. -/
def restoreLeft (s : State) : Nat :=
  if s.win.state = 0 then (lostGrans s ++ (scanCopies s).map (·.1)).eraseDups.length else 0

/-- WINDOW_RESTORE_DONE (R322): the granules that have copies are restored, and the held requests proceed. -/
def restoreDone (s : State) (bad : List Nat) : State :=
  if s.win.state ≠ 0 || !isEnabled s 0x18 || !dramUp s then s
  else
    let l := scanCopies s
    let lost := lostGrans s
    let s := lost.foldl (fun s g => restoreGranule s g [] bad) s
    let s := ((l.map (·.1)).eraseDups.filter fun g => !lost.contains g).foldl (fun s g => restoreGranule s g ((l.filter fun c => c.1 = g).map (·.2)) bad) (wFresh s)
    let s := raiseInt { s with win := { s.win with state := 1, memActive := true } } 0x18 5
    wRun (winArm s (ledgerValid s))

def execWindowRestoreDone (bad : List Nat) (s : State) : Out := finMedia (restoreDone s bad)

/-- GPF_PHASE2 (R335, R398): groves write back, transactions end as at a power loss, and accepted requests complete. -/
def execGpfPhase2 (port : Fin 8) (s : State) : Out :=
  let s := groveFlush (wFresh s)
  fin (wRun (s.win.pends.foldl (fun s p => p.left.foldl (fun s h => wAnswered s p.line h false) s) s))

/-! ### The CXL device mailbox (R339) -/

/-- Return codes of the CXL 3.1 mailbox that the rows answer with. -/
def mbxOk (s : State) (d : List Byte) : State := { s with resp := { code := .ok, data := 0, bytes := d } }
def mbxFail (s : State) (code : Nat) : State := { s with resp := { code := .ok, data := code, bytes := [] } }

/-- A port's CXL device. -/
def cxlDev (s : State) (p : Nat) : CxlDev := Tbl.getD s.win.devs p {}
def setCxlDev (s : State) (p : Nat) (d : CxlDev) : State := { s with win := { s.win with devs := Tbl.put s.win.devs p d } }

/-- Get Event Records: the count, then handle and data of each record of a log. -/
def execGetEventRecords (port : Fin 8) (log : Fin 4) (s : State) : Out :=
  let l := Tbl.getD (cxlDev s port).logs log []
  fin (mbxOk s (leBytes 2 l.length ++ (l.map fun r => leBytes 2 r.1 ++ r.2).flatten))

/-- Clear Event Records: all of a log, or the records named; a handle that names none is invalid. -/
def execClearEventRecords (port : Fin 8) (log : Fin 4) (all : Bool) (handles : List Nat) (s : State) : Out :=
  let d := cxlDev s port
  let l := Tbl.getD d.logs log []
  fin (if all then mbxOk (setCxlDev s port { d with logs := Tbl.put d.logs log [] }) []
    else if handles.any fun h => !(l.any fun r => r.1 = h) then mbxFail s 0x0E
    else mbxOk (setCxlDev s port { d with logs := Tbl.put d.logs log (l.filter fun r => !handles.contains r.1) }) [])

def execGetEventInterruptPolicy (port : Fin 8) (s : State) : Out := fin (mbxOk s (leBytes 4 (cxlDev s port).policy))

def execSetEventInterruptPolicy (port : Fin 8) (policy : Nat) (s : State) : Out :=
  fin (mbxOk (setCxlDev s port { cxlDev s port with policy := policy % 2 ^ 32 }) [])

/-- Get Timestamp, in ns: the value set, and what the clock has counted since. -/
def execGetTimestamp (port : Fin 8) (s : State) : Out :=
  fin (mbxOk s (leBytes 8 ((cxlDev s port).tsBase + (s.clock - (cxlDev s port).tsClock) * 10 ^ 9)))

def execSetTimestamp (port : Fin 8) (ns : Nat) (s : State) : Out :=
  fin (mbxOk (setCxlDev s port { cxlDev s port with tsBase := ns % 2 ^ 64, tsClock := s.clock }) [])

/-- The identifier of the Command Effects Log (CXL 3.1). -/
def effectsLogId : List Byte := [0x0D, 0xA9, 0xC0, 0xB5, 0xBF, 0x41, 0x4B, 0x78, 0x8F, 0x79, 0x96, 0xB1, 0x62, 0x3B, 0x3F, 0x17]

/-- The opcodes of R339. -/
def mbxOpcodes : List Nat :=
  [0x0100, 0x0101, 0x0102, 0x0103, 0x0300, 0x0301, 0x0400, 0x0401, 0x4000, 0x4100, 0x4200, 0x4203, 0x4204, 0x4300, 0x4301, 0x4302]

def execGetSupportedLogs (port : Fin 8) (s : State) : Out :=
  fin (mbxOk s (leBytes 2 1 ++ List.replicate 6 0 ++ effectsLogId ++ leBytes 4 (4 * mbxOpcodes.length)))

/-- Get Log: the Command Effects Log alone. The effect word of an opcode is not stated: a free value. -/
def execGetLog (port : Fin 8) (log : List Byte) (s : State) : Out :=
  fin (if log ≠ effectsLogId then mbxFail s 2
    else
      let (v, s) := takeFree s
      mbxOk s (mbxOpcodes.map fun o => leBytes 2 o ++ leBytes 2 (v / 2 ^ (16 * (o % 64)) % 65536)).flatten)

/-- The layout a port reports: the latched one, or the one its slices form now (R303). -/
def portLayout (s : State) (p : Nat) : Layout := (Tbl.find s.win.layouts p).getD (layoutNow s (portTenant s p))

/-- Identify Memory Device (R304): total, volatile-only and persistent-only capacity in units of 256 MiB, and the partition alignment. -/
def execIdentifyMemoryDevice (port : Fin 8) (s : State) : Out :=
  let l := portLayout s port
  fin (mbxOk s (leBytes 8 (l.vol.length + l.per.length) ++ leBytes 8 l.vol.length ++ leBytes 8 l.per.length ++ leBytes 8 0))

/-- Get Partition Info (R303): active and next volatile and persistent capacities; a next capacity is reported where the slices have changed. -/
def execGetPartitionInfo (port : Fin 8) (s : State) : Out :=
  let l := portLayout s port
  let n := layoutNow s (portTenant s port)
  fin (mbxOk s (leBytes 8 l.vol.length ++ leBytes 8 l.per.length
    ++ leBytes 8 (if n = l then 0 else n.vol.length) ++ leBytes 8 (if n = l then 0 else n.per.length)))

/-- Set Partition Info is unsupported (R304). -/
def execSetPartitionInfo (port : Fin 8) (s : State) : Out := fin (mbxFail s 3)

/-- Get Health Info (R339): Life Used, temperature in degrees Celsius, and the Dirty Shutdown Count. -/
def execGetHealthInfo (port : Fin 8) (s : State) : Out :=
  fin (mbxOk s (leBytes 1 (pctUsed s) ++ leBytes 2 (rdF s 0x00 0x118 15 0 + 65536 - 273) ++ leBytes 4 s.win.dsc))

def execGetShutdownState (port : Fin 8) (s : State) : Out := fin (mbxOk s (leBytes 1 (cxlDev s port).shutdown))

def execSetShutdownState (port : Fin 8) (v : Fin 256) (s : State) : Out :=
  fin (mbxOk (setCxlDev s port { cxlDev s port with shutdown := v }) [])

/-- The line a DPA of the port selects, through the layout it reports. -/
def dpaOf (s : State) (p dpa : Nat) : Option Nat :=
  dpaLine { s with win := { s.win with layouts := Tbl.put s.win.layouts p (portLayout s p) } } p dpa

/-- The DPA of a line in a port's layout. -/
def lineDpa (s : State) (p line : Nat) : Option Nat :=
  let l := portLayout s p
  ((l.vol ++ l.per).findIdx? (· = lineSlice line)).map fun i => i * 2 ^ 28 + line % 2 ^ 22 * 64

/-- Get Poison List (R324, R339): the poisoned lines of the port's own DPA space in a range. -/
def execGetPoisonList (port : Fin 8) (dpa len : Nat) (s : State) : Out :=
  let l := (s.win.poison.filterMap fun p => lineDpa s port p.1).filter fun a => dpa ≤ a && a < dpa + len * 64
  fin (mbxOk s (leBytes 2 l.length ++ (l.map (leBytes 8)).flatten))

/-- Inject Poison (R324). -/
def execInjectPoison (port : Fin 8) (dpa : Nat) (s : State) : Out :=
  fin (match dpaOf s port dpa with
    | some l => mbxOk (setPoison s l true) []
    | none => mbxFail s 0x0F)

/-- Clear Poison (R324). -/
def execClearPoison (port : Fin 8) (dpa : Nat) (s : State) : Out :=
  fin (match dpaOf s port dpa with
    | some l => mbxOk (setPoison s l false) []
    | none => mbxFail s 0x0F)

/-! ### Registers -/

/-- A write of WIN_SLICE (R302): PERSIST and the key change only for an unmapped slice of tenant 0; a change of PERSIST resets the granules. -/
def winSliceWrite (s : State) (k : Nat) (v : Word) : State :=
  let old := sliceWord s k
  let v := v &&& 0xFFFFFF
  let persist := Word.bit v 1 != Word.bit old 1
  if (persist || Word.fld v 23 11 ≠ Word.fld old 23 11) && (sliceTen s k ≠ 0 || sliceMapped s k) then blockErr s 0x18 16 0
  else
    let s := if persist then sliceReset s k else s
    wr s 0x18 (0x1000 + 8 * k) v

def execWinSliceWrite (who : Who) (slice : Fin 512) (v : Word) (s : State) : Out :=
  finMedia (onWrite s who 0x18 (0x1000 + 8 * slice) v fun s => winSliceWrite s slice v)

/-- A write of a register of WIN_TEN (R327, R346): the sum of SF_MIN stays within 12,582,912; an SF_MAX below SF_MIN is reserved and not stored. -/
def winTenWrite (s : State) (t : Nat) (word : Fin 3) (v : Word) : State :=
  let off := 0x2000 + 32 * t + 4 * word
  if word = 0 then
    let s' := wr s 0x18 off (v &&& 0x1FFFFFF)
    if sumOf (sfMin s') (List.range 512) ≤ 12582912 then s' else blockErr s 0x18 16 0
  else if word = 1 then
    if Word.fld v 24 0 < sfMin s t then s else wr s 0x18 off (v &&& 0x1FFFFFF)
  else wr s 0x18 off (v &&& 0x3FFFFF)

def execWinTenWrite (who : Who) (tenant : Fin 512) (word : Fin 3) (v : Word) (s : State) : Out :=
  fin (onWrite s who 0x18 (0x2000 + 32 * tenant + 4 * word) v fun s => winTenWrite s tenant word v)

end Sys2Proof.Machine
end

