-- ==== Sys2Proof/Machine/GrvOps.lean ====
section
/-! DEFINITION. The groves' shared operations (R373 to R408): engine-local addresses, PMP and the tenant gate, streams, write-backs, and how
a program ends. -/

namespace Sys2Proof.Machine

/-! ### Engines and addresses -/

/-- The region of an engine's grove, its master ID and the request identity it carries (R17, R18). -/
def engRgn (e : Nat) : Nat := 0x40 + e / 16
def engWho (s : State) (e : Nat) : Who := ⟨0x200 + e, (engOf s e).tenant⟩

/-- Integer registers: x0 reads zero and takes nothing. -/
def xReg (s : State) (e r : Nat) : Nat := if r = 0 then 0 else Tbl.getD (engOf s e).x r 0
def setX (s : State) (e r v : Nat) : State :=
  if r = 0 then s else setEng s e { engOf s e with x := Tbl.put (engOf s e).x r (v % 2 ^ 64) }

/-- A register result of -code (R388). -/
def negCode (c : Nat) : Nat := 2 ^ 64 - c

/-- An engine that executes: assigned or running, not halted; in Fault every engine halts (R575). -/
def engLive (s : State) (e : Nat) : Bool :=
  !s.dev.fault && ((engOf s e).st = .assigned || (engOf s e).st = .running) && !(engOf s e).halted

/-- The SLM area (R405, R412). -/
def slmBlocks (s : State) (g : Nat) : Nat := rdF s (0x40 + g) 0x2008 13 0
def slmBase (s : State) (g : Nat) : Nat := rdF s (0x40 + g) 0x2000 31 24 * 2 ^ 24 + rdF s (0x40 + g) 0x2004 15 0 * 2 ^ 32

/-- Targets of an engine-local address (R375). -/
inductive ETgt where
  | tile (a : Nat)
  | shared (sec a : Nat)
  | window (addr : Nat)
  | slm (off : Nat)
  | nothing
  deriving DecidableEq, Repr

/-- Where n bytes at an engine-local address lie: one target, wholly. -/
def engTgt (s : State) (e a n : Nat) : ETgt :=
  let g := e / 16
  if a + n ≤ 0x80000 then .tile (tileBase e + a)
  else if 0x800000 ≤ a && a + n ≤ 0x1000000 then .shared ((a - 0x800000) / 0x80000) (0x2000000000 + g * 0x1000000 + a)
  else if 0x10000000000 ≤ a && a + n ≤ 0x10000000000 + sliceCount s * 2 ^ 28 then .window (a - 0x10000000000)
  else if 0x20000000000 ≤ a && a + n ≤ 0x20000000000 + slmBlocks s g * 2 ^ 24 then .slm (a - 0x20000000000)
  else .nothing

/-- A section's tenant: that of its engine, none while the engine is Free or Retired (R376, R377). -/
def sectionTen (s : State) (g sec : Nat) : Option Nat :=
  let x := engOf s (g * 16 + sec)
  if x.st = .free || x.st = .retired then none else some x.tenant

/-- The tag of an SLM block (R412). -/
def slmTag (s : State) (g blk : Nat) : Option Nat :=
  let w := rd s (0x40 + g) (0x3000 + 4 * (blk / 2))
  let h := if blk % 2 = 0 then Word.fld w 15 0 else Word.fld w 31 16
  if h / 2 ^ 15 % 2 = 1 then some (h % 512) else none

/-- The tenant gate (R376): the tenants of everything that n bytes touch must be the engine's. -/
def gatePass (s : State) (e a n : Nat) : Bool :=
  let t := some (engOf s e).tenant
  let g := e / 16
  match engTgt s e a n with
  | .tile _ => true
  | .shared _ _ => sectionTen s g ((a - 0x800000) / 0x80000) = t && sectionTen s g ((a + n - 1 - 0x800000) / 0x80000) = t
  | .window w => (List.range (n / 2 ^ 28 + 2)).all fun i =>
      let k := w / 2 ^ 28 + i
      (w + n - 1) / 2 ^ 28 < k || some (sliceTen s k) = t
  | .slm o => (List.range (n / 2 ^ 24 + 2)).all fun i =>
      let k := o / 2 ^ 24 + i
      (o + n - 1) / 2 ^ 24 < k || slmTag s g k = t
  | .nothing => false

/-- PMP (R374, R379): the first entry that overlaps the access decides for U-mode; the runtime grants by entries, and M-mode passes. -/
def pmpPass (x : Eng) (a n : Nat) (r w f : Bool) : Bool :=
  !x.umode || match x.pmp.find? fun p => a < p.base + p.len && p.base < a + n with
    | some p => p.base ≤ a && a + n ≤ p.base + p.len && (!r || p.r) && (!w || p.w) && (!f || p.x)
    | none => false

/-- A refusal of the tenant gate is counted, captured and recorded (R376). -/
def gateDenied (s : State) (e a n : Nat) (write : Bool) : State :=
  let s := bump (captureErr s (engRgn e) 17 write n 0 0 a (engWho s e)) (engRgn e) 0x12C 1
  emit s 0x4002 sevError (engRgn e) (some (engOf s e).tenant) (leBytes 8 a)

/-- Bytes at an engine-local address of the tile or the shared SRAM (R395). -/
def localAddr (s : State) (e a n : Nat) : Option Nat :=
  match engTgt s e a n with
  | .tile p => some p
  | .shared _ p => some p
  | _ => none

/-! ### Write-backs -/

/-- Write back every dirty line that an engine has stored to (R398): whether all have been written. -/
def tryWsync (s : State) (e : Nat) : Bool × State :=
  let mine (s : State) : List (Nat × Nat × Nat) := s.grv.dirty.filter fun d => d.1 = e / 16 && d.2.2.testBit (e % 16)
  let s := wRun ((mine s).foldl (fun s d => gQueueLine s d.1 d.2.1) s)
  (mine s = [], s)

/-! ### Streams -/

/-- An input stream. -/
def Stream.isIn (x : Stream) : Bool := x.typ = .lbaIn || x.typ = .slmIn || x.typ = .winIn

/-- ws.avail (R386). -/
def Stream.avail (x : Stream) : Nat :=
  if x.isIn then x.delivered - x.used else 2 ^ x.ringLog - (x.used - x.delivered)

/-- All input delivered (R388). -/
def Stream.eos (x : Stream) : Bool := x.isIn && x.delivered = x.len

def strOf (s : State) (e k : Nat) : Option Stream := Tbl.find (engOf s e).streams k
def setStr (s : State) (e k : Nat) (x : Stream) : State :=
  setEng s e { engOf s e with streams := Tbl.put (engOf s e).streams k x }

/-- Bytes of a ring from a position (R386). -/
def ringBytes (s : State) (e : Nat) (x : Stream) (pos n : Nat) : List Byte :=
  (List.range n).map fun i => memRead s (tileBase e + x.ring + (pos + i) % 2 ^ x.ringLog)

/-- The write-back of a descriptor when its stream closes or fails (R390). -/
def strBack (s : State) (e : Nat) (x : Stream) : State :=
  memWriteN s (tileBase e + x.desc + 32) (leBytes 8 x.delivered ++ leBytes 8 x.errPos)

/-- A stream stops with a code (R388, R392, R393). -/
def strStop (s : State) (e k code pos : Nat) : State :=
  match strOf s e k with
  | none => s
  | some x =>
    let x := { x with code := code, stopped := true, errPos := pos }
    rdKillAll (strBack (setStr s e k x) e x) (.stream e k)

/-- The port may issue requests for a function: it is up and not contained, BME is set, the function is in D0 with no FLR, and the device is not in
Fault (R73, R74, R76, R575). -/
def hostOpen (s : State) (mid : Nat) : Bool :=
  let p := Tbl.getD s.ports (mid / 64) {}
  let f := Tbl.getD p.fns (mid % 64) {}
  p.pstate = .up && f.bme && !f.d3hot && !f.flrPend && !s.dev.fault

/-- The Execute Program an engine runs. -/
def execOf (s : State) (e : Nat) : Option ExecCmd := s.grv.execs.find? fun x => x.engine = some e

/-- Issue committed bytes of an output stream, in ascending order (R393): at most one burst of n bytes, in lines to SLM and the window. The port silences the writes of
a command whose context has gone (R406). -/
def strIssue (s : State) (e k n : Nat) : Nat → State
  | 0 => s
  | fuel + 1 =>
    match strOf s e k with
    | none => s
    | some x =>
      let left := min n (x.used - x.delivered)
      if x.isIn || x.stopped || left = 0 then s
      else
        let a := x.start + x.delivered
        match x.typ with
        | .hostOut =>
          match execOf s e with
          | none => s
          | some c =>
            if !hostOpen s c.cmd.mid then s
            else if (ctxOf s c.cmd).isNone then setStr s e k { x with delivered := x.used }
            else
              let d := ringBytes s e x x.delivered left
              let s := { s with grv := { s.grv with execs := s.grv.execs.map fun y =>
                if y.cmd = c.cmd then { y with host := y.host ++ [⟨a, d, (tlpAttr s c.cmd.mid).1, (tlpAttr s c.cmd.mid).2⟩] } else y } }
              setStr s e k { x with delivered := x.delivered + left }
        | .slmOut =>
          let m := min left (64 - a % 64)
          if !gatePass s e (0x20000000000 + a) m then strStop (gateDenied s e (0x20000000000 + a) m true) e k 3 a
          else match busWrite s (engWho s e) (slmBase s (e / 16) + a) (ringBytes s e x x.delivered m) with
            | (.ok, s) => strIssue (setStr s e k { x with delivered := x.delivered + m }) e k (n - m) fuel
            | (_, s) => strStop s e k 3 a
        | _ =>
          let o := a % 64
          let m := min left (64 - o)
          if !gatePass s e (0x10000000000 + a) m then strStop (gateDenied s e (0x10000000000 + a) m true) e k 3 a
          else
            let d := List.replicate o 0 ++ ringBytes s e x x.delivered m
            let s := wArrive s {
              id := 0, holder := 8 + e / 16, mid := 0x200 + e, tenant := (engOf s e).tenant, tag := e * 8 + k, line := a / 64
              kind := if m = 64 then .wr else .wrPtl, meta_ := .i, data := d, mask := (2 ^ m - 1) * 2 ^ o, noHolder := true }
            strIssue (setStr s e k { x with delivered := x.delivered + m }) e k (n - m) fuel

/-- An output stream has bytes that it may issue now. -/
def outReady (s : State) (e k : Nat) : Bool := match strOf s e k with
  | none => false
  | some x => !x.isIn && !x.stopped && x.delivered < x.used && (x.typ ≠ .hostOut || (execOf s e).any fun c => hostOpen s c.cmd.mid)

/-- Whose turn it is in a grove after a stream that was served last (R394): the engines in turn, and the streams of an engine in the order of their numbers. -/
def nextTurn (g last : Nat) (ready : Nat → Nat → Bool) : Option Nat :=
  ((List.range 128).map fun i => (last + 1 + i) % 128).find? fun i => ready (g * 16 + i / 8) (i % 8)

/-- The output streams of a grove issue round robin, 4 KiB at a time (R394). -/
def outPump (g : Nat) : Nat → State → State
  | 0, s => s
  | n + 1, s => match nextTurn g (Tbl.getD s.grv.outTurn g 127) (outReady s) with
    | none => s
    | some i => outPump g n (strIssue { s with grv := { s.grv with outTurn := Tbl.put s.grv.outTurn g i } } (g * 16 + i / 8) (i % 8) 4096 66)

/-- Issue what can be issued in the grove of an engine. -/
def strPush (s : State) (e _k : Nat) : State := outPump (e / 16) 4096 s

/-- Every committed byte has been issued, and every window write answered (R393). -/
def strDrained (s : State) (e k : Nat) : Bool :=
  match strOf s e k with
  | none => true
  | some x => x.stopped || (x.used ≤ x.delivered && !s.win.queue.any fun r => r.noHolder && r.holder = 8 + e / 16 && r.tag = e * 8 + k)

/-- Close a stream: its descriptor is written back; reads that it still waits for are dropped. -/
def strClose (s : State) (e k : Nat) : State :=
  match strOf s e k with
  | none => s
  | some x =>
    let s := rdKillAll (strBack s e x) (.stream e k)
    let s := { s with win := { s.win with queue := s.win.queue.filter fun r => !(r.noHolder && r.holder = 8 + e / 16 && r.tag = e * 8 + k && r.kind = .rd) } }
    setEng s e { engOf s e with streams := Tbl.del (engOf s e).streams k }

/-! ### The end of a program -/

/-- An engine becomes Retired (R382). -/
def engRetired (s : State) (e : Nat) : State :=
  raiseInt (setEng s e { engOf s e with st := .retired, halted := true, streams := [], jobs := [], wait := none, retiring := false }) (engRgn e) 5

/-- The Execute Program of an engine completes, and the engine is Assigned again, or Retired where that waited for the program's end (R382, R404, R406). -/
def progReport (s : State) (e : Nat) (code dw0 cause : Nat) : State :=
  let x := engOf s e
  let s := if x.retiring then engRetired s e else s
  let x := engOf s e
  let s := setEng s e { x with
    st := if x.st = .running && !x.halted then .assigned else x.st, prog := none, umode := false, ending := none, aborting := false, wait := none, pmp := [] }
  match execOf s e with
  | none => s
  | some c =>
    let s := { s with grv := { s.grv with execs := s.grv.execs.filter fun y => y.cmd ≠ c.cmd } }
    if x.aborting then complete s c.cmd stAborted
    else complete s c.cmd stOk dw0 (code + cause * 65536)

/-- The runtime ends a program (R404): its streams close, ws.wsync runs, and the end is reported once every write-back is done. -/
def progEnd (s : State) (e : Nat) (code dw0 cause : Nat) : State :=
  let s := (engOf s e).streams.foldl (fun s k => strPush s e k.1) s
  let s := setEng s e { engOf s e with umode := false, wait := none, ending := some (code, dw0, cause) }
  let (ok, s) := tryWsync s e
  if ok && (engOf s e).streams.all fun k => strDrained s e k.1 then
    progReport ((engOf s e).streams.foldl (fun s k => strClose s e k.1) s) e code dw0 cause
  else s

/-- A trap in M-mode halts the engine (R384). -/
def engHalt (s : State) (e cause mepc : Nat) : State :=
  let r := engRgn e
  let off := 0x1000 + 64 * (e % 16)
  let s := wr (wr s r (off + 0x10) (w32 (cause % 256 + 2 ^ 31))) r (off + 0x14) (w32 mepc)
  let s := emit (raiseInt s r 2) 0xA001 sevCritical r (some (engOf s e).tenant) (leBytes 1 (e % 16) ++ leBytes 1 cause ++ leBytes 8 mepc)
  let s := setEng s e { engOf s e with halted := true, mcause := cause, mepc := mepc, wait := none }
  if (engOf s e).prog.isSome then progReport s e 3 0 0 else s

/-- A trap (R384, R402): in U-mode the runtime ends the program with END 1 and the cause. -/
def engTrap (s : State) (e cause : Nat) : State :=
  let x := engOf s e
  if x.umode then progEnd (setEng s e { x with mcause := cause, mepc := x.pc }) e 1 0 cause else engHalt s e cause x.pc

/-! ### Scrubs and assignment -/

/-- Forget the bytes of an address range: it reads zero. -/
def zeroRange (s : State) (a n : Nat) : State := { s with mem := s.mem.filter fun c => c.1 < a || a + n ≤ c.1 }

/-- Enter Scrubbing (R382, R383): the engine halts, its streams and jobs end. -/
def scrubStart (s : State) (e : Nat) (target : Option Nat) : State :=
  let x := engOf s e
  let s := setEng s e { x with
    st := .scrubbing, target := target, leaving := x.st ≠ .free && target ≠ some x.tenant, halted := true, streams := [], jobs := [], wait := none, ending := none }
  { s with win := { s.win with queue := s.win.queue.filter fun r => !(r.noHolder && r.holder = 8 + e / 16 && r.tag / 8 = e && r.meta_ = .i && r.kind = .rd) } }

/-- Re-initialise an engine (R379): the runtime image stands in the tile, and the engine starts in M-mode at 0x70000, with an owner or with none. -/
def engReinit (s : State) (e : Nat) (owner : Option Nat) : State :=
  let r := engRgn e
  let base := rdF s r 0x100 31 16 * 65536 + rdF s r 0x104 15 0 * 2 ^ 32
  let s := memWriteN s (tileBase e + 0x70000) (memReadN s base (min (rdF s r 0x108 16 0) 65536))
  setEng s e (match owner with
    | some t => { st := .assigned, tenant := t }
    | none => {})

/-- The end of a scrub (R379, R383): tile, registers and, on leaving, the section are zero; the runtime image stands in the tile, and the engine starts
in M-mode at 0x70000. -/
def scrubEnd (s : State) (e : Nat) : State :=
  let x := engOf s e
  let g := e / 16
  let s := zeroRange s (tileBase e) 0x80000
  let s := if x.leaving then
      let s := zeroRange s (0x2000000000 + g * 0x1000000 + 0x800000 + e % 16 * 0x80000) 0x80000
      if (List.range 16).any fun i => i ≠ e % 16 && (engOf s (g * 16 + i)).tenant = x.tenant && (engOf s (g * 16 + i)).st ≠ .free then s
      else (s.grv.lineTen.filter fun l => l.1 / 2 ^ 32 = g && l.2 = x.tenant).foldl (fun s l =>
        let line := l.1 % 2 ^ 32
        sfDrop (gDrop (gWriteBack s g line) g line) line (8 + g)) s
    else s
  raiseInt (bump (engReinit s e x.target) (engRgn e) 0x130 1) (engRgn e) 3

/-- Assign an engine to a tenant, or remove it (R382, R403, R407): none where the rules of R133 refuse it. -/
def assignEngine (s : State) (e : Nat) (t : Option Nat) : Option State :=
  let x := engOf s e
  if x.st = .running then none
  else if t.isSome && !isReady s (engRgn e) then none
  else
    let now := if x.st = .free then none else if x.st = .scrubbing then x.target else some x.tenant
    let s := wr s (engRgn e) (0x1008 + 64 * (e % 16)) (w32 (match t with
      | some t => t + 2 ^ 15
      | none => 0))
    if now = t then some s
    else if x.st = .retired then some (setEng s e { x with tenant := t.getD 0 })
    else if x.st = .testing then some (setEng s e { x with tenant := t.getD 0, prior := if t.isSome then .assigned else .free })
    else some (scrubStart s e t)

/-- The engine is in a tenant's engine set: its ASSIGN register names the tenant (R403). -/
def inSet (s : State) (e t : Nat) : Bool :=
  let w := rd s (engRgn e) (0x1008 + 64 * (e % 16))
  Word.bit w 15 && Word.fld w 8 0 = t

/-- Retire an engine (R382, R578): a running program ends first, with END 3. -/
def retireEngine (s : State) (e : Nat) : State :=
  let x := engOf s e
  if x.st = .retired then s
  else
    let s := if x.st = .running then progReport s e 3 0 0 else s
    engRetired s e

end Sys2Proof.Machine
end

