-- ==== Sys2Proof/Machine/Grv.lean ====
section
/-! DEFINITION. The commands of the groves (R373 to R412): engine accesses, Waiset instructions, streams, jobs, traps, CSRs, engine control. -/

namespace Sys2Proof.Machine

/-! ### Engine memory accesses (R375 to R378) -/

/-- The operation of an AMO on n bytes (RV64A). -/
def amoOp (op : Fin 9) (n old v : Nat) : Nat :=
  let m := 2 ^ (8 * n)
  let sg (x : Nat) : Int := if m / 2 ≤ x % m then (x % m : Int) - m else (x % m : Nat)
  match op with
  | 0 => v
  | 1 => (old + v) % m
  | 2 => old ^^^ v
  | 3 => old &&& v
  | 4 => old ||| v
  | 5 => if sg old ≤ sg v then old else v
  | 6 => if sg old ≤ sg v then v else old
  | 7 => min old v
  | _ => max old v

/-- The access writes, and the cause of its faults (RISC-V privileged specification). -/
def accWrites : EAcc → Bool
  | .store | .sc | .amo _ => true
  | _ => false
def accFault : EAcc → Nat
  | .fetch => 1
  | .load | .lr => 5
  | _ => 7
def accMisaligned : EAcc → Nat
  | .load | .lr => 4
  | _ => 6

/-- Reservations of LR (R377), by line. A store of n bytes ends every reservation of a line that it touches. -/
def resvDrop (s : State) (a n : Nat) : State :=
  { s with grv := { s.grv with rsv := s.grv.rsv.filter fun r => r.2 < a / 64 || (a + n - 1) / 64 < r.2 } }
def resvSet (s : State) (e a : Nat) : State := { s with grv := { s.grv with rsv := (e, a / 64) :: s.grv.rsv.filter fun r => r.1 ≠ e } }
def resvHas (s : State) (e a : Nat) : Bool := s.grv.rsv.contains (e, a / 64)

/-- What an access leaves in memory, given the old value: none where it stores nothing. -/
def accStore (s : State) (e : Nat) (k : EAcc) (a n old v : Nat) : Option Nat :=
  match k with
  | .store => some v
  | .sc => if resvHas s e a then some v else none
  | .amo op => some (amoOp op n old v)
  | _ => none

/-- What an access returns: the old value, or the result of SC (0 success, 1 failure). -/
def accResult (s : State) (e : Nat) (k : EAcc) (a old : Nat) : Nat :=
  match k with
  | .sc => if resvHas s e a then 0 else 1
  | .store => 0
  | _ => old

/-- The reservation after an access. -/
def accResv (s : State) (e : Nat) (k : EAcc) (a n : Nat) (stored : Bool) : State :=
  let s := if stored then resvDrop s a n else s
  match k with
  | .lr => resvSet s e a
  | .sc => { s with grv := { s.grv with rsv := s.grv.rsv.filter fun r => r.1 ≠ e } }
  | _ => s

/-- An access to tile memory or shared SRAM, at its internal address. -/
def sramAccess (s : State) (e : Nat) (k : EAcc) (p n v : Nat) : State :=
  let old := leNat (memReadN s p n)
  let res := accResult s e k p old
  let st := accStore s e k p n old v
  let s := match st with
    | some w => memWriteN s p (leBytes n w)
    | none => s
  answer (accResv s e k p n st.isSome) .ok res

/-- An access to the window through the grove cache (R378): the line is fetched in S for a load and in A for anything that writes; where it has to wait,
the access is answered nothing and takes effect later, or is made again. -/
def winAccess (s : State) (e : Nat) (k : EAcc) (a n v : Nat) : State :=
  let g := e / 16
  let line := a / 64
  let o := a % 64
  let wantA : Bool := accWrites k || k = .lr
  let held (s : State) : Bool := (gLine s g line).isSome && (!wantA || match sfOf s line with
    | some x => x.a && x.holders = [8 + g]
    | none => false)
  let r : WReq := {
    id := 0, holder := 8 + g, mid := 0x200 + e, tenant := (engOf s e).tenant, line := line, kind := .rd, meta_ := if wantA then .a else .s }
  let s := if accWrites k && gFull s g line then wRun (gQueueOldest s g) else s
  let data := List.replicate o 0 ++ leBytes n v
  let mask := (2 ^ n - 1) * 2 ^ o
  let key := 64 * winRsv line
  if k = .store && (!held s || gFull s g line) then wArrive s { r with data := data, mask := mask }
  else
    let s := if held s then s else wArrive s r
    match gLine s g line with
    | some d =>
      if !held s || (accWrites k && gFull s g line) then s
      else
        let old := leNat ((d.drop o).take n)
        let res := accResult s e k key old
        let st := accStore s e k key n old v
        let s := match st with
          | some w => gStore s g line (e % 16) (List.replicate o 0 ++ leBytes n w) mask
          | none => s
        answer (accResv s e k key 1 st.isSome) .ok res
    | none => s

/-- An access to SLM: one uncached DRAM access (R377). -/
def slmAccess (s : State) (e : Nat) (k : EAcc) (p n v : Nat) : State :=
  match k with
  | .store => match busWrite s (engWho s e) p (leBytes n v) with
    | (.ok, s) => answer s .ok
    | (_, s) => engTrap s e 7
  | _ => match busRead s (engWho s e) p n with
    | (.ok, d, s) => answer s .ok (leNat d)
    | (_, _, s) => engTrap s e 5

/-- ENGINE_MEMORY_ACCESS (R375 to R377). An AMO, LR or SC is aligned to its size (RV64A). -/
def engineAccess (s : State) (e : Nat) (k : EAcc) (a n v : Nat) : State :=
  let x := engOf s e
  if !engLive s e then s
  else
    let tgt := engTgt s e a n
    let w := accWrites k
    let r := k ≠ .store && k ≠ .sc && k ≠ .fetch
    let misplaced := k ≠ .fetch && k ≠ .load && k ≠ .store && a % n ≠ 0
    if !pmpPass x a n r w (k = .fetch) then engTrap s e (accFault k)
    else match tgt with
    | .nothing => engTrap s e (accFault k)
    | .tile p => if misplaced then engTrap s e (accMisaligned k) else sramAccess s e k p n v
    | .shared _ p =>
      if k = .fetch then engTrap s e 1
      else if !gatePass s e a n then engTrap (gateDenied s e a n w) e (accFault k)
      else if misplaced then engTrap s e (accMisaligned k)
      else sramAccess s e k p n v
    | .window p =>
      if k = .fetch then engTrap s e 1
      else if p % n ≠ 0 then engTrap s e (accMisaligned k)
      else if !gatePass s e a n then engTrap (gateDenied s e a n w) e (accFault k)
      else winAccess s e k p n v
    | .slm o =>
      if k = .fetch then engTrap s e 1
      else if k ≠ .load && k ≠ .store then engTrap s e 7
      else if o % n ≠ 0 then engTrap s e (accMisaligned k)
      else if !gatePass s e a n then engTrap (gateDenied s e a n w) e (accFault k)
      else slmAccess s e k (slmBase s (e / 16) + o) n v

def execEngineMemoryAccess (eng : Fin 256) (kind : EAcc) (addr size data : Nat) (s : State) : Out :=
  fin (engineAccess s eng kind addr size data)

/-! ### Waiset (R385 to R389) -/

/-- Run a Waiset instruction on an engine that executes and does not wait. -/
def wsRun (s : State) (e : Nat) (f : State → State) : State :=
  if !engLive s e || (engOf s e).wait.isSome then s else f s

/-- The instruction completes with a result, and the pc moves on. -/
def wsDone (s : State) (e rd v : Nat) : State :=
  let s := setX s e rd v
  setEng s e { engOf s e with pc := ((engOf s e).pc + 4) % 2 ^ 64, wait := none }

/-- The instruction waits: the pc stays. -/
def wsHold (s : State) (e : Nat) (w : Waiting) : State := setEng s e { engOf s e with wait := some w }

/-- A stream descriptor (R390). -/
structure Desc where
  typ : Nat
  cls : Nat
  nsid : Nat
  start : Nat
  len : Nat
  ring : Nat
  ringLog : Nat
  rsvd : Bool
  deriving DecidableEq, Repr

def descAt (s : State) (e a : Nat) : Desc :=
  let d := memReadN s (tileBase e + a) 64
  let f (o n : Nat) : Nat := leNat ((d.drop o).take n)
  ⟨f 0 1, f 1 1 % 4, f 4 4, f 8 8, f 16 8, f 24 4, f 28 1, f 1 1 / 4 ≠ 0 || f 2 2 ≠ 0 || f 29 3 ≠ 0 || f 48 8 ≠ 0 || f 56 8 ≠ 0⟩

/-- TYPE of a descriptor (R390). -/
def strType : Nat → Option StrType
  | 1 => some .lbaIn | 2 => some .slmIn | 3 => some .winIn | 4 => some .hostOut | 5 => some .slmOut | 6 => some .winOut | _ => none

/-- The engine-local form of a stream's target range: SLM and window ranges (R391). -/
def strLocal (t : StrType) (start : Nat) : Option Nat :=
  match t with
  | .slmIn | .slmOut => some (0x20000000000 + start)
  | .winIn | .winOut => some (0x10000000000 + start)
  | _ => none

/-- A descriptor breaks R390 or R391 (BAD_DESC). -/
def descBad (s : State) (e k a : Nat) (d : Desc) : Bool :=
  match strType d.typ with
  | none => true
  | some t =>
    let size := 2 ^ d.ringLog
    d.rsvd || !(d.cls = 2 || d.cls = 3) || a % 64 ≠ 0 || 0x80000 < a + 64 || d.ringLog < 12 || 17 < d.ringLog || d.ring % 4096 ≠ 0 || 0x70000 < d.ring + size
      || (engOf s e).streams.any (fun o => o.1 ≠ k && o.2.ring < d.ring + size && d.ring < o.2.ring + 2 ^ o.2.ringLog)
      || d.len = 0
      || (match t with
          | .lbaIn => match nsOf s d.nsid with
            | some n => n.kind = .nvm && (d.len % lbaBytes n ≠ 0 || n.lbas * lbaBytes n < d.start * lbaBytes n + d.len)
            | none => false
          | .winIn | .winOut => d.nsid ≠ 0 || d.len % 64 ≠ 0
          | .hostOut => d.nsid ≠ 0 || match execOf s e with
            | some c => c.outLen < d.start + d.len
            | none => false
          | _ => d.nsid ≠ 0)

/-- A stream may not be opened for want of access (R391). -/
def descDenied (s : State) (e : Nat) (d : Desc) : Bool :=
  let x := engOf s e
  match strType d.typ with
  | none => false
  | some t =>
    !pmpPass x d.ring (2 ^ d.ringLog) true true false
      || (match strLocal t d.start with
          | some a => !pmpPass x a d.len true true false || engTgt s e a d.len = .nothing || !gatePass s e a d.len
          | none => false)
      || (t = .lbaIn && match execOf s e, nsOf s d.nsid with
          | some c, some n => !n.attached.contains c.cmd.mid || n.deleting.isSome || n.kind ≠ .nvm
          | _, _ => true)
      || (t = .hostOut && (execOf s e).isNone)

/-- ws.open (R386, R390, R391). -/
def wsOpen (s : State) (e rd rs1 rs2 : Nat) : State :=
  let k := xReg s e rs2 % 8
  let a := xReg s e rs1
  if (strOf s e k).isSome then wsDone s e rd (negCode 6)
  else
    let d := descAt s e a
    if descBad s e k a d then wsDone s e rd (negCode 2)
    else if descDenied s e d then
      let s := match (strType d.typ).bind fun t => strLocal t d.start with
        | some a => if engTgt s e a d.len ≠ .nothing && !gatePass s e a d.len then gateDenied s e a d.len false else s
        | none => s
      wsDone s e rd (negCode 3)
    else match strType d.typ with
      | some t => strAhead e k 256 <| wsDone (setStr (rdKillAll s (.stream e k)) e k {
          typ := t, cls := d.cls, nsid := d.nsid, start := d.start, len := d.len, ring := d.ring, ringLog := d.ringLog, desc := a }) e rd 0
      | none => wsDone s e rd (negCode 2)

def execWsOpen (eng : Fin 256) (rd rs1 rs2 : Fin 32) (s : State) : Out := fin (wsRun s eng fun s => wsOpen s eng rd rs1 rs2)

/-- ws.avail (R386). -/
def execWsAvail (eng : Fin 256) (rd rs1 : Fin 32) (s : State) : Out :=
  fin (wsRun s eng fun s => match strOf s eng (xReg s eng rs1 % 8) with
    | none => wsDone s eng rd (negCode 1)
    | some x => wsDone s eng rd x.avail)

/-- The condition of ws.wait holds (R386). -/
def waitMet (x : Stream) (n : Nat) : Bool := n ≤ x.avail || x.eos || x.code ≠ 0

/-- ws.wait: it completes, or waits. -/
def wsWait (s : State) (e rd k n : Nat) : State :=
  match strOf s e k with
  | none => wsDone s e rd (negCode 1)
  | some x =>
    if !waitMet x n then wsHold s e (.wait rd k n)
    else wsDone s e rd (if x.code ≠ 0 then negCode x.code else x.avail)

def execWsWait (eng : Fin 256) (rd rs1 rs2 : Fin 32) (s : State) : Out :=
  fin (wsRun s eng fun s => wsWait s eng rd (xReg s eng rs1 % 8) (xReg s eng rs2))

/-- ws.pop (R386). For an output stream the spec states no result: a free value. -/
def wsPop (s : State) (e rd k n : Nat) : State :=
  match strOf s e k with
  | none => wsDone s e rd (negCode 1)
  | some x =>
    if !x.isIn then let (v, s) := takeFree s; wsDone s e rd v
    else if x.avail < n then wsDone s e rd (negCode 5)
    else wsDone (setStr s e k { x with used := x.used + n }) e rd (x.avail - n)

def execWsPop (eng : Fin 256) (rd rs1 rs2 : Fin 32) (s : State) : Out :=
  fin (wsRun s eng fun s => wsPop s eng rd (xReg s eng rs1 % 8) (xReg s eng rs2))

/-- ws.push (R386, R393). For an input stream the spec states no result: a free value. -/
def wsPush (s : State) (e rd k n : Nat) : State :=
  match strOf s e k with
  | none => wsDone s e rd (negCode 1)
  | some x =>
    if x.isIn then let (v, s) := takeFree s; wsDone s e rd v
    else if x.code ≠ 0 then wsDone s e rd (negCode x.code)
    else if x.avail < n || x.len < x.used + n then wsDone s e rd (negCode 5)
    else
      let s := wsDone (setStr s e k { x with used := x.used + n }) e rd (x.avail - n)
      strPush s e k

def execWsPush (eng : Fin 256) (rd rs1 rs2 : Fin 32) (s : State) : Out :=
  fin (wsRun s eng fun s => wsPush s eng rd (xReg s eng rs1 % 8) (xReg s eng rs2))

/-- ws.ptr (R386): the tile address of the read or write position. -/
def execWsPtr (eng : Fin 256) (rd rs1 : Fin 32) (s : State) : Out :=
  fin (wsRun s eng fun s => match strOf s eng (xReg s eng rs1 % 8) with
    | none => wsDone s eng rd (negCode 1)
    | some x => wsDone s eng rd (x.ring + x.used % 2 ^ x.ringLog))

/-- ws.close (R386, R393): an output stream closes once its bytes are out. -/
def wsClose (s : State) (e rd k : Nat) : State :=
  match strOf s e k with
  | none => wsDone s e rd (negCode 1)
  | some _ =>
    let s := strPush s e k
    if !strDrained s e k && !((strOf s e k).map Stream.isIn).getD true then wsHold s e (.close rd k)
    else
      let r := match strOf s e k with
        | some x => if x.code ≠ 0 then negCode x.code else x.used
        | none => 0
      wsDone (strClose s e k) e rd r

def execWsClose (eng : Fin 256) (rd rs1 : Fin 32) (s : State) : Out :=
  fin (wsRun s eng fun s => wsClose s eng rd (xReg s eng rs1 % 8))

/-- The status word of a stream (R388). -/
def statWord (x : Option Stream) : Nat :=
  match x with
  | none => 0
  | some x => x.code + 256 + x.eos.toNat * 512 + (!x.isIn).toNat * 1024 + x.avail * 2 ^ 32

def execWsStat (eng : Fin 256) (rd rs1 : Fin 32) (s : State) : Out :=
  fin (wsRun s eng fun s => wsDone s eng rd (statWord (strOf s eng (xReg s eng rs1 % 8))))

/-! ### Jobs (R395 to R397) -/

/-- ws.job (R387, R395). -/
def wsJob (s : State) (e rd rs1 rs2 : Nat) : State :=
  let a := xReg s e rs1
  let unit := xReg s e rs2
  let d := memReadN s (tileBase e + a) 32
  let f (o n : Nat) : Nat := leNat ((d.drop o).take n)
  let op := f 0 1
  let level := f 1 1
  let flags := f 2 1
  let codec := 1 ≤ op && op ≤ 4
  let hash := 8 ≤ op && op ≤ 10
  let levelOk := if op = 2 then 1 ≤ level && level ≤ 9 else if op = 4 then 1 ≤ level && level ≤ 6 else level = 0
  let ok := a % 32 = 0 && a + 32 ≤ 0x80000 && ((unit = 0 && codec) || (unit = 1 && hash)) && levelOk
    && (if codec then flags = 0 else flags < 4) && f 3 1 = 0 && f 28 4 = 0
  if !ok then wsDone s e rd (negCode 2)
  else if 4 ≤ (engOf s e).jobs.length then wsDone s e rd (negCode 6)
  else
    let x := engOf s e
    let ticket := ((List.range 4).find? fun i => (Tbl.find x.jobs i).isNone).getD 0
    let src := f 8 8
    let n := f 4 4
    let dst := f 16 8
    let cap := f 24 4
    let may := pmpPass x src n true false false && pmpPass x dst cap false true false
      && (localAddr s e src n).isSome && (localAddr s e dst cap).isSome && gatePass s e src n && gatePass s e dst cap
    let j : Job := {
      unit := unit, op := op, level := level, flags := flags, src := src, srcLen := n, dst := dst, dstCap := cap
      result := if may then none else some (negCode 3) }
    let s := if (localAddr s e src n).isSome && !gatePass s e src n then gateDenied s e src n false
      else if (localAddr s e dst cap).isSome && !gatePass s e dst cap then gateDenied s e dst cap true else s
    wsDone (setEng s e { x with jobs := Tbl.put x.jobs ticket j }) e rd ticket

def execWsJob (eng : Fin 256) (rd rs1 rs2 : Fin 32) (s : State) : Out := fin (wsRun s eng fun s => wsJob s eng rd rs1 rs2)

/-- ws.jwait (R387). -/
def wsJwait (s : State) (e rd ticket : Nat) : State :=
  match Tbl.find (engOf s e).jobs ticket with
  | none => wsDone s e rd (negCode 1)
  | some j => match j.result with
    | none => wsHold s e (.jwait rd ticket)
    | some r => wsDone (setEng s e { engOf s e with jobs := Tbl.del (engOf s e).jobs ticket }) e rd r

def execWsJwait (eng : Fin 256) (rd rs1 : Fin 32) (s : State) : Out := fin (wsRun s eng fun s => wsJwait s eng rd (xReg s eng rs1))

/-- What a job leaves: its output bytes, or the code it ends with. The bytes a job wrote before it ended with an error are undefined; so are the 256 bytes of
state between hash jobs, and the result of a message whose state does not stand at DST as the unit left it. -/
def jobRun (s : State) (e : Nat) (j : Job) : Except Nat (List Byte) × State :=
  match localAddr s e j.src j.srcLen with
  | none => (.error 3, s)
  | some p =>
    let src := memReadN s p j.srcLen
    if j.unit = 0 then
      let (c, d) := Config.codec j.op j.level src
      let code := match j.op with
        | 1 => [0, 7, 9].getD (c % 3) 0
        | 3 => [0, 7].getD (c % 2) 0
        | _ => 0
      (if code ≠ 0 then .error code else if j.dstCap < d.length then .error 8 else .ok d, s)
    else
      let key := e * 2 ^ 40 + j.dst
      let kept := Tbl.getD s.grv.hash key []
      let at_ := match localAddr s e j.dst 256 with
        | some q => memReadN s q 256
        | none => []
      let known := j.flags % 2 = 1 || (256 ≤ kept.length && kept.take 256 = at_)
      let msg := (if j.flags % 2 = 1 then [] else kept.drop 256) ++ src
      let last := j.flags / 2 = 1
      let n := if !last then 256 else if j.op = 10 then 4 else 32
      let s := { s with grv := { s.grv with hash := Tbl.del s.grv.hash key } }
      if j.dstCap < n then (.error 8, s)
      else if last && known then
        (.ok (if j.op = 8 then sha256 msg else if j.op = 9 then sha3 msg else leBytes 4 (crc32c msg)), s)
      else
        let (b, s) := freeBytes s n
        (.ok b, if last || !known then s else { s with grv := { s.grv with hash := Tbl.put s.grv.hash key (b ++ msg) } })

/-- JOB_COMPLETE (R396, R397): the unit's next job, round robin over the engines, ends. -/
def jobComplete (s : State) (g unit : Nat) : State :=
  let last := Tbl.getD s.grv.rr (g * 2 + unit) 15
  let order := (List.range 16).map fun i => (last + 1 + i) % 16
  let find (i : Nat) : Option (Nat × Job) := (engOf s (g * 16 + i)).jobs.find? fun j => j.2.unit = unit && j.2.result.isNone
  match order.find? fun i => (find i).isSome with
  | none => s
  | some i =>
    match find i with
    | none => s
    | some (t, j) =>
      let e := g * 16 + i
      let (r, s) := jobRun s e j
      let (v, s) := match r, localAddr s e j.dst j.dstCap with
        | .ok d, some p => (d.length, memWriteN s p d)
        | .error c, some p => let (b, s) := freeBytes s j.dstCap; (negCode c, memWriteN s p b)
        | _, none => (negCode 3, s)
      let s := setEng s e { engOf s e with jobs := Tbl.put (engOf s e).jobs t { j with result := some v } }
      let s := { s with grv := { s.grv with rr := Tbl.put s.grv.rr (g * 2 + unit) i } }
      bump s (0x40 + g) (if unit = 0 then 0x124 else 0x128) 1

def execJobComplete (grove : Fin 16) (unit : Fin 2) (s : State) : Out := fin (jobComplete s grove unit)

/-! ### Vector stream instructions (R387, R389) -/

/-- Bytes of a vector register group, and storing them: VLEN is 512. -/
def vBytes (x : Eng) (r n : Nat) : List Byte :=
  ((List.range (n / 64 + 1)).flatMap fun i => (Tbl.getD x.v ((r + i) % 32) [] ++ List.replicate 64 0).take 64).take n
def vStore (x : Eng) (r : Nat) (d : List Byte) : Eng :=
  { x with v := (List.range ((d.length + 63) / 64)).foldl (fun t i =>
      let new := (d.drop (64 * i)).take 64
      let old := (Tbl.getD t ((r + i) % 32) [] ++ List.replicate 64 0).take 64
      Tbl.put t ((r + i) % 32) (new ++ old.drop new.length)) x.v }

/-- ws.vpop (R389). From an output stream the spec states no elements: free values. -/
def wsVpop (s : State) (e vd k : Nat) : State :=
  let x := engOf s e
  if x.vill then engTrap s e 2
  else
    let b := x.vsew / 8
    match strOf s e k with
    | none => setEng s e { x with vl := 0, pc := x.pc + 4, wait := none }
    | some t =>
      if !t.isIn then
        let (d, s) := freeBytes s (x.vl * b)
        setEng s e { vStore x vd d with pc := x.pc + 4, wait := none }
      else if t.code ≠ 0 then setEng s e { x with vl := 0, pc := x.pc + 4, wait := none }
      else if t.avail < x.vl * b && !t.eos then wsHold s e (.vpop vd k)
      else
        let n := min x.vl (t.avail / max 1 b)
        let d := ringBytes s e t t.used (n * b)
        let s := setStr s e k { t with used := t.used + n * b }
        setEng s e { vStore (engOf s e) vd d with vl := n, pc := x.pc + 4, wait := none }

def execWsVpop (eng : Fin 256) (vd rs1 : Fin 32) (s : State) : Out :=
  fin (wsRun s eng fun s => wsVpop s eng vd (xReg s eng rs1 % 8))

/-- The active elements of a vector register, in order and without gaps. -/
def vActive (x : Eng) (vs2 : Nat) (vm : Bool) : List Byte :=
  let b := x.vsew / 8
  let d := vBytes x vs2 (x.vl * b)
  let m := leNat (Tbl.getD x.v 0 [])
  (List.range x.vl).flatMap fun i => if vm || m.testBit i then (d.drop (i * b)).take b else []

/-- ws.vpush (R389). -/
def wsVpush (s : State) (e rd vs2 k : Nat) (vm : Bool) : State :=
  let x := engOf s e
  if x.vill then engTrap s e 2
  else match strOf s e k with
    | none => wsDone s e rd (negCode 1)
    | some t =>
      let d := vActive x vs2 vm
      if t.isIn then let (v, s) := takeFree s; wsDone s e rd v
      else if t.code ≠ 0 then wsDone s e rd (negCode t.code)
      else if 2 ^ t.ringLog < d.length || t.len < t.used + d.length then wsDone s e rd (negCode 5)
      else if t.avail < d.length then wsHold (strPush s e k) e (.vpush rd vs2 k vm)
      else
        let n := 2 ^ t.ringLog
        let s := (List.range d.length).foldl (fun s i => memWrite s (tileBase e + t.ring + (t.used + i) % n) (d.getD i 0)) s
        let s := wsDone (setStr s e k { t with used := t.used + d.length }) e rd d.length
        strPush s e k

def execWsVpush (eng : Fin 256) (rd vs2 rs1 : Fin 32) (vm : Bool) (s : State) : Out :=
  fin (wsRun s eng fun s => wsVpush s eng rd vs2 (xReg s eng rs1 % 8) vm)

/-- ws.wsync (R398). -/
def wsWsync (s : State) (e rd : Nat) : State :=
  match tryWsync s e with
  | (true, s) => wsDone s e rd 0
  | (false, s) => wsHold s e (.wsync rd)

def execWsWsync (eng : Fin 256) (rd : Fin 32) (s : State) : Out := fin (wsRun s eng fun s => wsWsync s eng rd)

/-- WAISET_WAIT_END (R385): the instruction executes afresh; a program whose end still waited is reported. -/
def waitEnd (s : State) (e : Nat) : State :=
  match (engOf s e).ending with
  | some (c, d, k) => if s.dev.fault then s else progEnd s e c d k
  | none =>
    match (engOf s e).wait with
    | none => s
    | some w =>
      wsRun (setEng s e { engOf s e with wait := none }) e fun s => match w with
        | .wait rd k n => wsWait s e rd k n
        | .close rd k => wsClose s e rd k
        | .jwait rd t => wsJwait s e rd t
        | .vpop vd k => wsVpop s e vd k
        | .vpush rd v k m => wsVpush (strPush s e k) e rd v k m
        | .wsync rd => wsWsync s e rd

def execWaisetWaitEnd (eng : Fin 256) (s : State) : Out := fin (waitEnd s eng)

/-! ### Input streams (R392) -/

/-- A stream's reads of its namespace are permitted now: owned or shared, attached, ready, with its key, and with no reservation in the way (R392). -/
def strMay (s : State) (e : Nat) (x : Stream) : Bool := match nsOf s x.nsid with
  | none => false
  | some n =>
    let t := (engOf s e).tenant
    (n.owner = t || n.sharers.contains t) && (match execOf s e with
      | some c => n.attached.contains c.cmd.mid && !resvConflict n (ctrlOf s c.cmd.mid).hostId false
      | none => true) && !n.notReady && (nsKeyStatus s t x.nsid).isNone

/-- The oldest read of a stream: the MU that its ring takes next. -/
def strHead (s : State) (e k : Nat) : Option InnerRead := (rdsOf s (.stream e k)).head?

/-- A window read of a stream is on its way. -/
def winAsked (s : State) (e k : Nat) : Bool := s.win.queue.any fun r => r.noHolder && r.holder = 8 + e / 16 && r.kind = .rd && r.tag = e * 8 + k

/-- The next piece of an input stream: the bytes of its next MU, or up to the end of a line. -/
def inPiece (s : State) (e k : Nat) (x : Stream) : Nat := match x.typ with
  | .lbaIn => ((strHead s e k).map (·.len)).getD 0
  | _ => min (64 - (x.start + x.delivered) % 64) (x.len - x.delivered)

/-- An input stream has a piece that its ring can take, or something that stops it. -/
def inReady (s : State) (e k : Nat) : Bool := match strOf s e k with
  | none => false
  | some x => x.isIn && !x.stopped && x.delivered < x.len && x.avail + inPiece s e k x ≤ 2 ^ x.ringLog && match x.typ with
    | .lbaIn => !strMay s e x || (strHead s e k).any (·.st.ended)
    | .winIn => !winAsked s e k
    | _ => true

/-- The stream's next MU goes to its ring and its buffer is released, or the stream stops with the MU's first LBA (R392). -/
def deliverMuIn (s : State) (e k : Nat) (x : Stream) : State :=
  let b := ((nsOf s x.nsid).map lbaBytes).getD 4096
  let first := (x.start * b + x.delivered) / 4096 * 4096 / b
  if !strMay s e x then strStop s e k 3 first
  else match strHead s e k with
    | none => s
    | some r => match r.st with
      | .failed st => strStop s e k (if st = stUnrecRead then 4 else 3) first
      | .data => match dramMayAll s (engWho s e) .read [(r.buf, 4096)] with
        | (false, s) => strStop s e k 3 first
        | (true, s) => strAhead e k 256 (rdDrop (bump (ringGive s e k ((r.data.drop r.off).take r.len)) (engRgn e) 0x120 1) r.id)
      | _ => s

/-- A burst of an input stream (R394): one MU, or at most 4 KiB of lines. -/
def inBurst (s : State) (e k : Nat) : Nat → State
  | 0 => s
  | fuel + 1 =>
    match strOf s e k with
    | none => s
    | some x =>
      if !inReady s e k then s
      else
        let a := x.start + x.delivered
        let n := inPiece s e k x
        match x.typ with
        | .lbaIn => deliverMuIn s e k x
        | .slmIn =>
          if !gatePass s e (0x20000000000 + a) n then strStop (gateDenied s e (0x20000000000 + a) n false) e k 3 a
          else match busRead s (engWho s e) (slmBase s (e / 16) + a) n with
            | (.ok, d, s) => inBurst (ringGive s e k d) e k fuel
            | (_, _, s) => strStop s e k 3 a
        | _ =>
          if !gatePass s e (0x10000000000 + a) n then strStop (gateDenied s e (0x10000000000 + a) n false) e k 3 a
          else inBurst (wArrive s {
            id := 0, holder := 8 + e / 16, mid := 0x200 + e, tenant := (engOf s e).tenant, tag := e * 8 + k, line := a / 64, kind := .rd, meta_ := .i
            noHolder := true }) e k fuel

/-- STREAM_MU_DELIVERED (R392, R394): the next burst of an input stream arrives in its ring, when the stream unit's turn is the stream's. `limit`: the recovery time of
the stream's oldest read has reached its limit instead (R289). -/
def streamDeliver (s : State) (e k : Nat) (limit : Bool) : State :=
  if limit then match (rdsOf s (.stream e k)).find? fun r => !r.st.ended with
    | some r => rdTimeout s r
    | none => s
  else
    let i := e % 16 * 8 + k
    if nextTurn (e / 16) (Tbl.getD s.grv.inTurn (e / 16) 127) (inReady s) ≠ some i then s
    else inBurst { s with grv := { s.grv with inTurn := Tbl.put s.grv.inTurn (e / 16) i } } e k 64

def execStreamMuDelivered (eng : Fin 256) (stream : Fin 8) (limit : Bool) (s : State) : Out :=
  finMedia (streamDeliver s eng stream limit)

/-! ### Traps, CSRs, limits -/

/-- ecall with a7 = 0 (R402): the program ends with exit value a0. -/
def execEcallExit (eng : Fin 256) (s : State) : Out :=
  fin (if engLive s eng && (engOf s eng).umode && xReg s eng 17 = 0 then progEnd s eng 0 (xReg s eng 10 % 2 ^ 32) 0 else s)

/-- Fetch a window line into the grove cache for a load, where it is not there. -/
def winFetch (s : State) (e line : Nat) : State :=
  if (gLine s (e / 16) line).isSome then s
  else wArrive s { id := 0, holder := 8 + e / 16, mid := 0x200 + e, tenant := (engOf s e).tenant, line := line, kind := .rd, meta_ := .s }

/-- ecall with a7 = 1 (R402): at most 48 bytes at a0 go to Rings as PROGRAM_LOG. Where a window line of them has to wait, the call is made again. -/
def ecallLog (s : State) (e : Nat) : State :=
  if !engLive s e || !(engOf s e).umode || xReg s e 17 ≠ 1 then s
  else
    let n := min 48 (xReg s e 11)
    let a := xReg s e 10
    let log (s : State) (d : List Byte) : State := wsDone (emit s 0xA003 sevInfo (engRgn e) (some (engOf s e).tenant) d) e 0 0
    match engTgt s e a n with
    | .nothing => engTrap s e 5
    | .tile p => log s (memReadN s p n)
    | tgt =>
      if !gatePass s e a n then engTrap (gateDenied s e a n false) e 5
      else match tgt with
        | .shared _ p => log s (memReadN s p n)
        | .slm o => match busRead s (engWho s e) (slmBase s (e / 16) + o) n with
          | (.ok, d, s) => log s d
          | (_, _, s) => engTrap s e 5
        | .window p =>
          let s := winFetch (winFetch s e (p / 64)) e ((p + n - 1) / 64)
          let l := (List.range n).map fun i => (gLine s (e / 16) ((p + i) / 64)).map fun d => d.getD ((p + i) % 64) 0
          if l.all Option.isSome then log s (l.map fun b => b.getD 0) else s
        | _ => s

def execEcallLog (eng : Fin 256) (s : State) : Out := fin (ecallLog s eng)

/-- U_MODE_EXCEPTION (R402): END 1 with the cause. A local interrupt 17 or 18 ends the program as aborted or at its limit (R381). -/
def uException (s : State) (e cause : Nat) (interrupt : Bool) : State :=
  if !engLive s e || !(engOf s e).umode then s
  else if !interrupt then engTrap s e (cause % 65536)
  else if cause = 17 && (engOf s e).mip.testBit 17 then progEnd (setEng s e { engOf s e with aborting := true }) e 0 0 0
  else if cause = 18 && (engOf s e).mip.testBit 18 then progEnd s e 2 0 0
  else s

def execUModeException (eng : Fin 256) (cause : Nat) (interrupt : Bool) (s : State) : Out := fin (uException s eng cause interrupt)

/-- M_MODE_EXCEPTION (R384). -/
def execMModeException (eng : Fin 256) (cause mepc : Nat) (s : State) : Out :=
  fin (if engLive s eng && !(engOf s eng).umode then engHalt s eng cause mepc else s)

/-- A CSR write of the engine (R380): in U-mode an illegal instruction. -/
def csrWrite (s : State) (e : Nat) (f : State → State) : State :=
  if !engLive s e then s else if (engOf s e).umode then engTrap s e 2 else wsDone (f s) e 0 0

def execCsrWsnotifyWrite (eng : Fin 256) (v : Nat) (s : State) : Out :=
  fin (csrWrite s eng fun s => raiseInt (wr s (engRgn eng) (0x100C + 64 * (eng % 16)) (w32 v)) (engRgn eng) 1)

def execCsrWsulimWrite (eng : Fin 256) (v : Nat) (s : State) : Out :=
  fin (csrWrite s eng fun s => setEng s eng { engOf s eng with ulim := v % 2 ^ 64 })

/-- Clear mip bits 16 to 18 (R380). -/
def ipcWrite (s : State) (e v : Nat) : State :=
  setEng s e { engOf s e with mip := sumOf (fun i => if (engOf s e).mip.testBit i && !v.testBit i then 2 ^ i else 0) [16, 17, 18] }

def execCsrWsipcWrite (eng : Fin 256) (v : Nat) (s : State) : Out := fin (csrWrite s eng fun s => ipcWrite s eng v)

/-- U_CYCLE_LIMIT (R381). -/
def cycleLimit (s : State) (e : Nat) : State :=
  let x := engOf s e
  if !engLive s e || !x.umode || x.ulim = 0 then s
  else raiseInt (setEng s e { x with ucyc := x.ulim, mip := x.mip ||| 2 ^ 18 }) (engRgn e) 4

def execUCycleLimit (eng : Fin 256) (s : State) : Out := fin (cycleLimit s eng)

/-- Kill a running or halted engine (R382 to R384): its program ends; it is scrubbed and stays with its tenant. -/
def killEngine (s : State) (e : Nat) : State :=
  let x := engOf s e
  if x.st = .running || (x.halted && x.st = .assigned) then
    let code := if x.mip.testBit 18 then 2 else 3
    let s := if x.prog.isSome then progReport s e code 0 0 else s
    if (engOf s e).st = .retired then s else scrubStart s e (some x.tenant)
  else s

/-- RUNTIME_END_TIMEOUT (R381): in Fault no program ends (R575). A program still runs 1 ms after bit 17 or 18 was set. -/
def execRuntimeEndTimeout (eng : Fin 256) (s : State) : Out :=
  fin (let x := engOf s eng
    if !s.dev.fault && x.st = .running && (x.mip.testBit 17 || x.mip.testBit 18) then killEngine s eng else s)

/-! ### Registers -/

/-- The control register of an engine. -/
def engCtlOff (e : Nat) : Nat := 0x1004 + 64 * (e % 16)

/-- DOORBELL (R380, R411). -/
def doorbell (s : State) (e : Nat) : State := setEng s e { engOf s e with mip := (engOf s e).mip ||| 2 ^ 16 }

def execGrvDoorbell (who : Who) (eng : Fin 256) (s : State) : Out :=
  fin (onWrite s who (engRgn eng) (engCtlOff eng) 1 fun s => doorbell s eng)

def execGrvKill (who : Who) (eng : Fin 256) (s : State) : Out :=
  fin (onWrite s who (engRgn eng) (engCtlOff eng) 2 fun s => killEngine s eng)

/-- RETIRE (R382, R411): an engine that runs a program is Retired after the abort of R381. -/
def retireWrite (s : State) (e : Nat) : State :=
  let x := engOf s e
  if x.st = .running && x.prog.isSome then setEng s e { x with mip := x.mip ||| 2 ^ 17, aborting := true, retiring := true }
  else retireEngine s e

def execGrvRetire (who : Who) (eng : Fin 256) (s : State) : Out :=
  fin (onWrite s who (engRgn eng) (engCtlOff eng) 4 fun s => retireWrite s eng)

/-- A write of GRV_ENG_ASSIGN (R403, R407): refused writes record CFG. -/
def engAssignWrite (s : State) (e : Nat) (v : Word) : State :=
  match assignEngine s e (if Word.bit v 15 then some (Word.fld v 8 0) else none) with
  | some s => s
  | none => blockErr s (engRgn e) 16 0

def execGrvEngAssignWrite (who : Who) (eng : Fin 256) (v : Word) (s : State) : Out :=
  fin (onWrite s who (engRgn eng) (0x1008 + 64 * (eng % 16)) v fun s => engAssignWrite s eng v)

/-- ENGINE_SCRUB_DONE (R383). -/
def execEngineScrubDone (eng : Fin 256) (s : State) : Out :=
  fin (if (engOf s eng).st = .scrubbing then scrubEnd s eng else s)

/-- A write of GRV_SLM_TAG (R412): a tag that names a block outside the area is not stored. -/
def slmTagWrite (s : State) (g k : Nat) (v : Word) : State :=
  let n := slmBlocks s g
  if n ≤ 2 * k || (n ≤ 2 * k + 1 && Word.bit v 31) then blockErr s (0x40 + g) 16 0
  else wr s (0x40 + g) (0x3000 + 4 * k) (v &&& 0x81FF81FF)

def execGrvSlmTagWrite (who : Who) (grove : Fin 16) (k : Fin 4096) (v : Word) (s : State) : Out :=
  fin (onWrite s who (0x40 + grove) (0x3000 + 4 * k) v fun s => slmTagWrite s grove k v)

end Sys2Proof.Machine
end

