-- ==== Sys2Proof/Machine/WriteOps.lean ====
section
/-! DEFINITION. Writes of namespaces as pending writes (R108, R109, R177, R181, R216), and completions that wait for the journal (R631). -/

namespace Sys2Proof.Machine

/-- LBAs in a mapping unit (R154). -/
def nsK (n : Ns) : Nat := if n.lbaf = 0 then 1 else 8

/-- The mapping units that a run of LBAs touches. -/
def muRange (n : Ns) (lba nlb : Nat) : List Nat :=
  let a := lba / nsK n
  if nlb = 0 then [] else (List.range ((lba + nlb - 1) / nsK n + 1 - a)).map (a + ·)

/-- The mapping units that a run of LBAs covers whole: first and count. -/
def muWhole (n : Ns) (lba nlb : Nat) : Nat × Nat :=
  let a := ceilDiv lba (nsK n)
  (a, (lba + nlb) / nsK n - a)

/-- The placement of a write (R216): handle, reclaim group where the identifier names one, and whether the identifier is invalid. -/
def placement (s : State) (n : Ns) (q : Sqe) : Nat × Option Nat × Bool :=
  if Tbl.getD s.ten.fdp n.owner false && Word.fld q.cdw12 23 20 = 2 then
    let d := Word.fld q.cdw13 31 16
    if d % 1024 < 8 && (Tbl.find s.cpc.dsets (d / 1024)).isSome then (d % 1024, some (d / 1024), false) else (0, none, true)
  else (0, none, false)

/-- The pending writes of a run of LBAs whose bytes are given (R177, R181). -/
def pwtMake (n : Ns) (c : CmdId) (nsid wseq lba nlb : Nat) (data : List Byte) (bufs : List Nat) (held fua : Bool) (h : Nat) (g : Option Nat) : List Pwt :=
  let k := nsK n
  let b := lbaBytes n
  (muRange n lba nlb).map fun mu =>
    let lo := max lba (mu * k)
    let hi := min (lba + nlb) (mu * k + k)
    let o := (lo - lba) * b
    let d := (data.drop o).take ((hi - lo) * b)
    let mask := if n.lbaf = 0 then 255 else sumOf (fun i => if lo ≤ mu * k + i && mu * k + i < hi then 2 ^ i else 0) (List.range 8)
    { gmu := gmuOf n mu, wseq := wseq, nsid := nsid, mu := mu, tenant := n.owner, cmd := c
      data := List.replicate ((lo - mu * k) * b) 0 ++ d ++ List.replicate ((mu * k + k - hi) * b) 0
      mask := mask, merged := mask = 255, held := held, fua := fua, cmdSeq := wseq, handle := h, group := g, buf := bufs.getD (o / 262144) 0 }

/-- FUA of a command (R109). -/
def sqeFua (q : Sqe) : Bool := Word.bit q.cdw12 30

/-- A fully received write enters the pending-write table (R108, R114, R177). An identifier outside the configuration is reported (R215, R216). The sequences whose
closing it needs. -/
def writeEnter (s : State) (x : Ctx) (n : Ns) (held : Bool) : List Nat × State :=
  let (h, g, bad) := placement s n x.sqe
  let s := if bad then { s with cpc := { s.cpc with fdpEvents := s.cpc.fdpEvents ++ [(1, n.owner)] } } else s
  let s := { s with hqe := { s.hqe with unitsWritten := s.hqe.unitsWritten + x.nlb * lbaBytes n, writeCmds := s.hqe.writeCmds + 1 } }
  let s := egUpd s n.owner fun e => { e with wr := e.wr + x.nlb * lbaBytes n, wrCmds := e.wrCmds + 1 }
  pwtEnter s (pwtMake n x.id x.nsid x.wseq x.lba x.nlb x.data x.bufs held (sqeFua x.sqe) h g)

/-- A write's data may be counted (R453): while the ledger is valid it must not take PWR_WB_USED past wb_share. In PS4 it waits for the groups (R465). -/
def fitsShare (s : State) (x : Ctx) (n : Ns) : Bool :=
  !groupsAway s && (!ledgerValid s || wbUsed s + 4096 * (muRange n x.lba x.nlb).length ≤ wbShare s * 2 ^ 20)

/-- Complete a command whose NSMETA records are in the journal buffer (R631): at once while the ledger is valid; otherwise once the page that holds
them is closed on NAND. -/
def completeMeta (s : State) (c : CmdId) (dw0 : Nat := 0) : State :=
  if ledgerValid s then complete s c stOk dw0
  else ctxUpd s c fun x => { x with stage := .waitClose, cover := [], jmark := some s.ftl.jseq, dw0 := dw0 }

end Sys2Proof.Machine
end

