-- ==== Sys2Proof/Machine/PwrOps.lean ====
section
/-! DEFINITION. The power-loss signal, the flush and the device reset (R455 to R461, R478, R479), and the effective power state (R464). -/

namespace Sys2Proof.Machine

/-- Change CSTATE (R446). -/
def setCstate (s : State) (c : CState) : State :=
  if s.pwr.cstate = c then s else raiseInt { s with pwr := { s.pwr with cstate := c } } 0x02 4

/-- Every flash channel is gated (R270, R458). -/
def flashGated (s : State) : Bool := (List.range 32).all fun c => (blkSt s (0x20 + c)).st = .off

/-! ### PS_EFF -/

/-- PS_EFF (R464). -/
def psEffNow (s : State) : Nat :=
  let l := (s.hqe.ctrls.filter fun c => c.2.en).map fun c => c.2.psReq
  max (rdF s 0x02 0x164 2 0) (if l = [] then 3 else l.foldl min (l.headD 0))

/-- A change of PS_EFF is announced. -/
def psSettle (s : State) : State :=
  let n := psEffNow s
  if n = s.pwr.psEff then s else raiseInt { s with pwr := { s.pwr with psEff := n } } 0x02 5

/-! ### The power-loss signal -/

/-- The bank of an address, whether it lies in a parameter sector, and the base and size of its sector (R504). -/
def tapBank (a : Nat) : Nat := a / 0x10000000
def tapParam (a : Nat) : Bool := a % 0x10000000 < 0x80000
def tapSector (a : Nat) : Nat := if tapParam a then a / 0x4000 * 0x4000 else a / 0x40000 * 0x40000
def tapSectorLen (a : Nat) : Nat := if tapParam a then 0x4000 else 0x40000

/-- Store undefined bytes: each is a free value (R508). -/
def tapFree (s : State) (a n : Nat) : State := let (b, s) := freeBytes s n; memWriteN s a b

/-- A page is blank: every byte reads erased. -/
def tapBlank (s : State) (a : Nat) : Bool := (memReadN s a 512).all (· = 0xFF)

/-- Erased bytes of the store read 0xFF (R504). -/
def memErase (s : State) (a n : Nat) : State := { s with mem := s.mem.filter fun c => c.1 < a || a + n ≤ c.1 }

/-- Read units of a range leave the prefetch buffer and the branch target cache (R513). -/
def tapInval (s : State) (a n : Nat) : State :=
  let out (l : List Nat) : List Nat := l.filter fun u => u * 32 + 32 ≤ a || a + n ≤ u * 32
  { s with tap := { s.tap with pf := out s.tap.pf, btc := out s.tap.btc } }

/-- Firmware programs a page, and erases a range, with its own sequences (R507, R508). -/
def tapPut (s : State) (a : Nat) (b : List Byte) : State := memWriteN (tapInval s a b.length) a b
def tapWipe (s : State) (a n : Nat) : State := memErase (tapInval s a n) a n

/-- A Taproot erase that runs is abandoned (R511): the sector's content is undefined. -/
def tapAbandon (s : State) : State :=
  match s.tap.run with
  | some o =>
    if o.op = 2 then
      let s := tapFree { s with tap := { s.tap with run := none } } o.addr (tapSectorLen o.addr)
      raiseInt (wr (wr s 0x08 0x114 7) 0x08 0x118 (w32 o.addr)) 0x08 1
    else s
  | none => s

/-- What a device reset does to a running Taproot operation (R511): it waits for a program, and abandons an erase. -/
def tapReset (s : State) : State :=
  match s.tap.run with
  | some o => if o.op = 1 then memWriteN s o.addr (o.data.flatMap fun w => leBytes 4 w.toNat) else tapAbandon s
  | none => s

/-- A resource is re-initialised after its slice (R495): an engine returns to the state that its assignment names (R497). -/
def sliceRelease (s : State) (x : Slice) : State :=
  let s := { s with bst := { s.bst with slices := s.bst.slices.filter (· ≠ x) } }
  if x.kind = 0 then
    let e := (x.rgn - 0x40) * 16 + x.unit
    if (engOf s e).st = .testing then engReinit s e (if (engOf s e).prior = .free then none else some (engOf s e).tenant) else s
  else s

/-- The slices that run are abandoned (R493, R497). -/
def sliceAbandon (s : State) : State :=
  s.bst.slices.foldl sliceRelease (bump s 0x05 0x128 s.bst.slices.length)

/-- Put a write in write-sequence order among others. -/
def insertSeq (x : Nat × Nat) : List (Nat × Nat) → List (Nat × Nat)
  | [] => [x]
  | y :: t => if x.2 < y.2 then x :: y :: t else y :: insertSeq x t

/-- The flush index (R457 step 4): the OPEN pending writes not closed on NAND, in write-sequence order, and the dirty granules. -/
def flushIndex (s : State) : List (Nat × Nat) × List Nat :=
  ((s.ftl.pwt.filter openWrite).foldl (fun l p => insertSeq (p.gmu, p.wseq) l) [],
   (s.win.grans.filter fun g => g.2.st = .dirty || g.2.st = .trickling).map (·.1))

/-- Every host sees a surprise down (R78, R456): links are down, commands in flight end without completions, and writes that have been received in full are
kept where the ledger has room for them. -/
def hostsDown (s : State) : State :=
  let s := (s.hqe.ctxs.filter (·.stage = .received)).foldl (fun (s : State) (x : Ctx) => match nsOf s x.nsid with
    | some n => if fitsShare s x n then (writeEnter s x n false).2 else s
    | none => s) s
  { s with
    ports := s.ports.map fun p => (p.1, { p.2 with pstate := .down, ltssm := .detect, dlActive := false, np := [], bar2 := [] })
    hqe := { s.hqe with ctxs := [] } }

/-- Steps 2 to 4 of R457: the data path stops, groves and window settle, engines halt, and the index is taken. Before DMC is READY nothing is written (R460). -/
def flushStart (s : State) (reset : Bool) (cause : Nat) (dramLost : Bool) : State :=
  let s := winPowerLoss (fchPowerLoss { s with sec := { s.sec with kop := none } })
  let s := { s with grv := { s.grv with eng := s.grv.eng.map fun e => (e.1, { e.2 with halted := true, wait := none }), execs := [] } }
  let s := hostsDown s
  let (m, g) := flushIndex s
  { s with pwr := { s.pwr with flush := some {
    started := s.clock, reset := reset, cause := cause, dramLost := dramLost, mus := m, grans := g, void := !dramUp s } } }

/-- The power-loss signal (R455, R457, R460): never withdrawn; a reset flush that runs goes on with the bank. -/
def powerLoss (s : State) (why : Nat) (dramLost : Bool) : State :=
  if s.pwr.pl || s.pwr.cstate = .off then s
  else
    let s := raiseInt (setCstate { s with pwr := { s.pwr with pl := true, plWhy := why, switchOpen := true, measAct := false } } .flush) 0x02 1
    let s := sliceAbandon (tapAbandon s)
    let s := { s with ports := s.ports.map fun p => (p.1, { p.2 with quiet := true }) }
    if s.pwr.flush.isSome then s else flushStart s false 0 dramLost

/-! ### Writing the flush -/

/-- The RU that the flush fills: one opened for it, or a FREE one of the flush reserve in SLC mode, whose members are made ready and erased as at every allocation
(R202, R213, R217). -/
def flushRu (s : State) (need : Nat) : Option (Nat × State) :=
  match s.cpc.rus.find? fun p => p.2.ruh = ruhFlush && p.2.st = .opened && p.2.rows + need ≤ ruCap s p.2 with
  | some p => some (p.1, s)
  | none =>
    match (allRus s).find? fun i => (ruAt s i).st = .free with
    | none => none
    | some i =>
      let s := prepRu s i
      let s := forgetCells s (ruAt s i)
      some (i, setRu s i { ruAt s i with
        st := .opened, tenant := 0, ruh := ruhFlush, slc := true, degraded := false, short := false, refresh := false, nosum := false, wear := false, valid := [], nextRow := 0
        rows := 0, open_ := [], skipRows := [], moving := [], relocs := [], reads := [], readMax := 0, eraseCnt := (ruAt s i).eraseCnt + 1, progTime := s.dev.rtc, epoch := tenEpoch s 0 })

/-- The PUA of the k-th data slot of an RU. -/
def ruSlot (s : State) (idx k : Nat) : Nat :=
  let r := ruAt s idx
  let n := max 1 (rowSlots s r 0)
  (rowPua s r (k / n) (k % n)).2

/-- Take n consecutive slots in one unit for the flush; `rows` counts the slots taken. Slots of excluded groups are passed over. -/
def flushTake (s : State) (n : Nat) : Nat → Option (List Nat × State)
  | 0 => none
  | fuel + 1 =>
    match flushRu s n with
    | none => none
    | some (i, s) =>
      let r := ruAt s i
      let u := max 1 (unitSlots s r)
      let k := if u < r.rows % u + n then r.rows + (u - r.rows % u) else r.rows
      let s := setRu s i { r with rows := k + n }
      if ruCap s r < k + n then flushTake s n fuel
      else
        let l := (List.range n).map fun j => ruSlot s i (k + j)
        let ex := match s.pwr.flush with
          | some f => f.excluded
          | none => []
        if ex.contains (puaChan (l.headD 0) / 8) then flushTake s n fuel
        else
          let par := if (k + n) % max 1 (rowSlots s r 0) < n then u else 0
          some (l, { s with cpc := { s.cpc with cwProg := s.cpc.cwProg + n + par } })

/-- Write one pending write with its MAP record (R213, R457 step 6). -/
def flushMu (s : State) (gmu wseq : Nat) : State :=
  match s.ftl.pwt.find? fun p => p.gmu = gmu && p.wseq = wseq with
  | none => s
  | some p =>
    match encMu s p.nsid p.mu p.data true with
    | none => s
    | some (d, s) =>
      match flushTake s 1 512 with
      | some ([a], s) =>
        let s := { s with flash := { s.flash with cells := Tbl.put s.flash.cells a (.user p.nsid p.mu p.tenant p.lost wseq (crc32c p.data) d) } }
        placedHost { validate s a with cpc := { (validate s a).cpc with flushMus := s.cpc.flushMus + 1 } } gmu wseq a
      | _ => s

/-- Write one granule as a copy with a new GSEQ (R321). While its slot is paused the flush encrypts with PREV (R422). A slot that is not open to the slice's tenant
is refused (R137), and the granule is not written. -/
def flushGran (s : State) (g : Nat) : State :=
  let k := granSlice g
  if !sliceMay s k then bump s 0x0A 0x11C 1 else
  let (bytes, poison, s) := granRead s g 1024
  let q := s.win.gseq
  let key := match sliceKey s k with
    | none => []
    | some x => if (xtsSlot s x).paused then (xtsSlot s x).prev else (xtsSlot s x).cur
  match flushTake s 16 512 with
  | some (l, s) =>
    let s := (List.range 16).foldl (fun (s : State) (sub : Nat) =>
      let d := (bytes.drop (sub * 4096)).take 4096
      let c := Content.backing g sub q (sliceTen s k) (subPoison poison sub) (crc32c d) (if key = [] then d else xtsUnit true key (g * 16 + sub) d)
      validate { s with flash := { s.flash with cells := Tbl.put s.flash.cells (l.getD sub 0) c } } (l.getD sub 0)) s
    { s with win := { s.win with gseq := q + 1 } }
  | none => s

/-- One journal page goes to the flash of the flush reserve (R184). -/
def flushPage (s : State) (recs : List JRec) : State :=
  match flushTake s 4 512 with
  | some (l, s) => { s with
      flash := { s.flash with cells := (List.range 4).foldl (fun t j => Tbl.put t (l.getD j 0) (Content.journal recs j)) s.flash.cells }
      ftl := { s.ftl with jpages := s.ftl.jpages ++ [recs] } }
  | none => s

/-- Records in pages of at most 1,023 (R184). -/
def inPages (l : List JRec) : List (List JRec) := (List.range (ceilDiv l.length 1023)).map fun k => (l.drop (1023 * k)).take 1023

/-- The journal buffer is written, with the records that stalled at the checkpoint limits. -/
def journalOut (s : State) : State :=
  let s := s.ftl.stalled.foldl (fun (s : State) (r : JRec) => (jAppend s r.typ r.mu r.a r.b r.c).2) { s with ftl := { s.ftl with stalled := [] } }
  let l := s.ftl.jpending ++ s.ftl.jbuf
  (inPages l).foldl flushPage { s with ftl := { s.ftl with jpending := [], jbuf := [] } }

/-- Write the flush index or the trailer, in codewords of KIND 0x04 in the FLUSH reclaim units (R457); the layout is the model's (DESIGN CHOICE, entry 121). -/
def flushMeta (s : State) (trailer : Bool) (body : List Byte) : State :=
  (List.range (ceilDiv body.length 4096)).foldl (fun (s : State) (k : Nat) => match flushTake s 1 512 with
    | some ([a], s) => { s with flash := { s.flash with cells := Tbl.put s.flash.cells a (.flush trailer ((body.drop (4096 * k)).take 4096)) } }
    | _ => s) s

/-- The bytes of a flush index and of a flush trailer. -/
def indexBytes (f : FlushRec) : List Byte :=
  fieldBytes [(4, f.mus.length), (4, f.grans.length)] ++ (f.mus.map fun m => leBytes 8 m.1).flatten ++ (f.grans.map (leBytes 4)).flatten
def trailerBytes (f : FlushRec) : List Byte :=
  fieldBytes [(8, f.musDone), (8, f.gransDone), (4, f.vhold), (8, f.rtc), (8, f.opsec)]

/-- The parity of the rows that the flush has filled, in whole or in part (R206, R213). -/
def flushParity (s : State) : State :=
  s.cpc.rus.foldl (fun (s : State) (p : Nat × Ru) =>
    if p.2.ruh = ruhFlush && p.2.st = .opened then (List.range (ceilDiv p.2.rows (max 1 (rowSlots s p.2 0)))).foldl (fun s row => putParity s p.1 row) s else s) s

/-- What is closed on NAND in rows whose parity was never emitted gets its records, so that the flush leaves no write behind. -/
def placeOpen (s : State) : State :=
  s.cpc.rus.foldl (fun (s : State) (p : Nat × Ru) => p.2.open_.foldl (fun (s : State) (w : Nat × Row) =>
    if w.2.emitted then s else placeUnits s p.1 w.1) s) s

/-- Running programs end and the journal buffer is written (R457 step 5). -/
def flushSettle (s : State) : State :=
  let s := s.flash.dies.foldl (fun (s : State) (p : Nat × Die) => match p.2.run with
    | some o => if isProg o then completeOp (setDie s p.1 { p.2 with run := none }) o 0 0 else s
    | none => s) s
  journalOut (placeOpen (drain s))

/-- Records of MUs that the flush indexed and did not write: replay journals them UNCORR (R458). -/
def flushUncorr (s : State) (l : List (Nat × Nat)) : State :=
  let recs : List JRec := (List.range l.length).map fun i => { jseq := s.ftl.jseq + i, typ := .uncorr, mu := (l.getD i (0, 0)).1, a := 1 }
  if l = [] then s
  else { s with ftl := { s.ftl with jpages := s.ftl.jpages ++ inPages recs, jseq := s.ftl.jseq + l.length } }

/-! ### Device reset -/

/-- The parts of the reclaim-unit state that a power cycle keeps: what flash, the bad-block table and the checkpoint hold. -/
def cpcKept (c : Cpc) : Cpc := { c with
  opens := [], rot := [], queue := [], waits := [], stopAlloc := [], budget := [], nextVictim := [], pace := [], sysDone := [], sumRun := none, accs := [], spilled := [], moveWait := [], ring := {} }

/-- A namespace after the reset: the loss of power (causes 1 and 5 of R478) ends the registrations and the reservation of a namespace whose Persist
Through Power Loss is 0 (R136; DEDUCED, entry 118). -/
def nsAfter (cause : Nat) (n : Ns) : Ns :=
  if n.ptpl || (cause ≠ 1 && cause ≠ 5) then n else { n with regs := [], rtype := 0, holder := none }

/-- A device reset (R478): every block returns to its reset values. What stays: the Seed domain, the bank and charger, the Taproot store, the fuses, what
flash holds, and what firmware keeps in the settings schema. -/
def deviceReset (s : State) (cause : Nat) (flushed : Bool) : State :=
  let s := tapReset s
  let last := s.pwr.last
  let code := if !s.pwr.flushSince then 0 else s.pwr.lastFlush
  let t : State := {
    pending := s.pending, freeCtr := s.freeCtr + 1, clock := s.clock, resp := s.resp
    regs := s.regs.filter fun r => r.1 / 65536 = 3
    blk := s.blk.filter fun b => b.1 = 3
    mem := s.mem.filter fun c => c.1 < 0x20000000
    dev := {
      rtc := s.dev.rtc, opsec := s.dev.opsec, retired := s.dev.retired, pins := s.dev.pins, warnMin := s.dev.warnMin, critMin := s.dev.critMin, rstn := s.dev.rstn }
    ports := s.ports.map fun p => (p.1, { perst := p.2.perst, quiet := true })
    hqe := { unitsRead := s.hqe.unitsRead, unitsWritten := s.hqe.unitsWritten, mediaErrors := s.hqe.mediaErrors, errLog := s.hqe.errLog }
    ten := { nss := s.ten.nss.map fun p => (p.1, nsAfter cause p.2), saved := s.ten.saved, savedTler := s.ten.savedTler, fdp := s.ten.fdp }
    ftl := {
      jseq := s.ftl.jseq, wseq := s.ftl.wseq, jpages := s.ftl.jpages, ckpts := s.ftl.ckpts, jstart := s.ftl.jstart
      replayDue := s.ftl.jpages ≠ [] || s.ftl.ckpts ≠ [] || s.ten.nss ≠ [] }
    cpc := cpcKept s.cpc
    flash := { cells := s.flash.cells, cover := s.flash.cover }
    win := {
      gseq := s.win.gseq, dsc := s.win.dsc + (if s.win.dirtyLost then 1 else 0), floor := s.win.floor, bootKey := Config.freeNat s.freeCtr
      devs := s.win.devs.map fun d => (d.1, { shutdown := d.2.shutdown }) }
    pwr := {
      cstate := s.pwr.cstate, vin := s.pwr.vin, vhold := s.pwr.vhold, inPower := s.pwr.inPower, c := s.pwr.c, esr := s.pwr.esr, measured := s.pwr.measured, measOk := s.pwr.measOk
      measFails := s.pwr.measFails, measTry := s.pwr.measTry, firstProtected := s.pwr.firstProtected, chgFault := s.pwr.chgFault, rails := s.pwr.rails
      lastFlush := code, last := last, flushSince := s.pwr.flushSince, lastUncorr := s.pwr.lastUncorr, lastGransLost := s.pwr.lastGransLost
      meas := s.pwr.meas, flushes := s.pwr.flushes, lastMeasRtc := s.pwr.lastMeasRtc, history := s.pwr.history, trip := s.pwr.trip }
    aon := s.aon
    fus := { blown := s.fus.blown }
    graft := { srec := s.graft.srec, tickets := s.graft.tickets, settings := s.graft.settings, running := s.graft.running }
    rings := { next := s.rings.next, saved := s.rings.saved, savedNext := s.rings.savedNext, lastNext := s.rings.lastNext } }
  let t := wr t 0x00 0x104 (w32 (cause + flushed.toNat * 16))
  if code = 2 then emit t 0x1003 sevCritical 0x02 none [] else if code = 3 then emit t 0x1004 sevCritical 0x02 none [] else t

/-- t0 of the power-up timeline (R480, R596): PWR_GOOD with DEV_RST_N high. The straps are latched, the PLLs lock, and the fuses are sensed. -/
def leaveReset (s : State) : State :=
  if s.dev.started || !s.dev.rstn || s.pwr.cstate = .off || s.pwr.cstate = .softStart || s.pwr.cstate = .bleed then s
  else
    let s := { s with dev := { s.dev with started := true, t0 := s.clock, straps := s.dev.pins }, fus := { s.fus with sensing := true } }
    wr (wr s 0x00 0x110 (w32 s.dev.straps)) 0x00 0x114 0x7FF

/-- What the Seed domain loses where its supply fell below 2.0 V (R466, R477): counters, registers and the cell ring. -/
def seedLost (s : State) : State :=
  { s with
    regs := s.regs.filter fun r => r.1 / 65536 ≠ 3
    dev := { s.dev with rtc := 0, opsec := 0 }
    aon := { s.aon with rtcValid := false, cntValid := false, lost := false, pwrcyc := 0, ring := [], pos := 0, wrapped := false, seq := 0, latched := [] } }

/-- Enter Soft-start (R446): the power-cycle count advances (R467), and RING says that the cell ring holds entries. -/
def softStart (s : State) : State :=
  let s := setCstate { s with pwr := { s.pwr with switchOpen := false } } .softStart
  let s := { s with aon := { s.aon with pwrcyc := s.aon.pwrcyc + 1, onCell := false } }
  if s.aon.ring = [] then s else raiseInt s 0x03 4

/-- The start condition of R442: VIN at 8.8 V, and below 60 V where over-voltage opened the switch. -/
def vinOk (s : State) (vin : Nat) : Bool := 8800 ≤ vin && !(s.pwr.plWhy = 2 && 60000 ≤ vin)

/-- A restart (R459): a device reset, with the charger's fault kept. -/
def restart (s : State) : State := softStart (deviceReset s 5 false)

/-- What follows a flush (R457 step 8, R459, R479): the device reset that asked for it, a restart, or Bleed, in which the rails are down. -/
def flushAfter (s : State) (f : FlushRec) (vin : Bool) : State :=
  if f.reset && !s.pwr.pl then leaveReset (deviceReset s f.cause true)
  else if vin && !s.pwr.trip then restart s
  else { setCstate s .bleed with pwr := { (setCstate s .bleed).pwr with rails := 0 } }

/-- The end of a flush (R457 to R459, R479): `n` items of the index, MUs first, have been written when the energy ends or all are written. -/
def flushEnd (s : State) (index : Bool) (n : Nat) (trailer : Bool) (vhold dur : Nat) (vin : Bool) : State :=
  match s.pwr.flush with
  | none => s
  | some f =>
    if f.void then flushAfter { s with pwr := { s.pwr with flush := none } } f vin
    else
    let quiet := !f.dramLost && flashGated s && f.mus = [] && f.grans = []
    let index := index && !f.dramLost
    let s := if f.dramLost then s else flushSettle s
    let s := if index && !quiet then flushMeta s false (indexBytes f) else s
    let n := if index then n else 0
    let mus := f.mus.take n
    let grans := f.grans.take (n - f.mus.length)
    let s := grans.foldl flushGran (mus.foldl (fun s m => flushMu s m.1 m.2) s)
    let s := if f.dramLost then s else journalOut s
    let leftM := f.mus.drop n
    let leftG := f.grans.drop (n - f.mus.length)
    let done := index && trailer && leftM = [] && leftG = []
    let last : FlushRec := { f with
      index := index, trailer := done, mus := leftM, grans := leftG, musDone := mus.length, gransDone := grans.length, vhold := vhold, dur := dur, rtc := s.dev.rtc
      opsec := s.dev.opsec }
    let s := if done && !quiet then flushMeta s true (trailerBytes last) else s
    let s := if f.dramLost then s else flushParity s
    let s := { s with
      cpc := { s.cpc with rus := s.cpc.rus.map fun p => if p.2.ruh = ruhFlush && p.2.st = .opened then (p.1, { p.2 with st := .closed, rows := 0 }) else p } }
    let code := if quiet then 4 else if done then 1 else if index then 2 else 3
    let s := if index then flushUncorr s leftM else s
    let s := { s with
      pwr := { s.pwr with
        flush := none, flushSince := true, lastFlush := code, flushes := s.pwr.flushes + 1, lastUncorr := if index then leftM.length else 0
        lastGransLost := leftG.length
        last := last }
      win := { s.win with dirtyLost := leftG ≠ [] } }
    let s := bump s 0x02 0x168 1
    -- Step 7: Rings staging goes into the trailer (R559).
    let s := { s with rings := { s.rings with
      saved := if done then s.rings.pages.flatten ++ s.rings.part else []
      savedNext := if done then some (rd64 s 0x06 0x10C) else none } }
    flushAfter s f vin

/-- A reset flush, then the device reset (R478, R479): a device that has not been ready has nothing to flush. During a flush that runs already the request is
absorbed. -/
def resetFlush (s : State) (cause : Nat) : State :=
  if s.pwr.flush.isSome then s
  else if !s.dev.ready then leaveReset (deviceReset s cause false)
  else flushStart (sliceAbandon (tapAbandon s)) true cause false

end Sys2Proof.Machine
end

