-- ==== Sys2Proof/Machine/Pwr.lean ====
section
/-! DEFINITION. The commands of Cambium and the Seed domain (R442 to R477). -/

namespace Sys2Proof.Machine

/-! ### Input, rails, states -/

/-- VIN_START (R442, R454): Off to Soft-start, which is a device reset with cause 1 (R478); the charger may run again, and no measurement since power-up has
succeeded. A module that tripped stays off until it has cooled (R620). -/
def vinStart (s : State) (vin : Nat) : State :=
  if s.pwr.cstate ≠ .off || !vinOk s vin || s.pwr.trip then s
  else
    let s := deviceReset (if s.aon.lost then seedLost s else s) 1 false
    softStart { s with pwr := { s.pwr with vin := vin, chgFault := false, measOk := false, measFails := 0, firstProtected := false } }

def execVinStart (vin : Nat) (s : State) : Out := fin (vinStart s vin)

/-- SOFT_START_DONE (R444, R446, R480): PWR_GOOD, and t0 where DEV_RST_N is high. -/
def softStartDone (s : State) (straps : Nat) : State :=
  if s.pwr.cstate ≠ .softStart then s
  else leaveReset { setCstate s .charging with pwr := { (setCstate s .charging).pwr with rails := 0xFF7 }, dev := { (setCstate s .charging).dev with pins := straps } }

def execSoftStartDone (straps : Fin 128) (s : State) : Out := fin (softStartDone s straps)

/-- VIN_POWER_FAIL (R442, R455): VIN below FAIL_MV. -/
def execVinPowerFail (vin : Nat) (s : State) : Out :=
  fin (if vin < rdF s 0x02 0x114 15 0 then powerLoss { s with pwr := { s.pwr with vin := vin } } 1 false else s)

/-- VIN_OVER_VOLTAGE (R442). -/
def execVinOverVoltage (vin : Nat) (s : State) : Out :=
  fin (if 62000 < vin then powerLoss { s with pwr := { s.pwr with vin := vin, switchOpen := true } } 2 false else s)

/-- FLUSH_COMPLETE (R457, R459): what the flush could write, and whether the start condition holds. -/
def execFlushComplete (index : Bool) (written : Nat) (trailer : Bool) (vhold dur : Nat) (vin : Bool) (s : State) : Out :=
  fin (flushEnd s index written trailer vhold dur vin)

/-- VIN_RETURN_BLEED (R459). -/
def execVinReturnBleed (vin : Nat) (s : State) : Out :=
  fin (if s.pwr.cstate = .bleed && vinOk s vin && !s.pwr.trip then restart { s with pwr := { s.pwr with vin := vin } } else s)

/-- BLEED_END (R446, R462). -/
def execBleedEnd (s : State) : Out :=
  fin (if s.pwr.cstate = .bleed then { setCstate s .off with pwr := { (setCstate s .off).pwr with vhold := 0, rails := 0 } } else s)

/-- RAIL_FAULT (R445): rail n of PWR_RAIL_STS. In Off and Bleed every rail is down. -/
def railFault (s : State) (n : Nat) : State :=
  if n = 3 || 12 ≤ n || s.pwr.cstate = .off || s.pwr.cstate = .bleed then s
  else
    let s := { s with pwr := { s.pwr with railFault := s.pwr.railFault ||| 2 ^ n, rails := if s.pwr.rails.testBit n then s.pwr.rails - 2 ^ n else s.pwr.rails } }
    let s := emit (raiseInt s 0x02 6) 0x1001 sevCritical 0x02 none (leBytes 1 n)
    if n = 0 then s
    else if n ≤ 2 then
      let s := powerLoss (enterFault s 0x02) 3 true
      { s with pwr := { s.pwr with flush := s.pwr.flush.map fun f => { f with dramLost := true } } }
    else
      let g := n % 4
      let s := powerLoss (enterFault s 0x02) 3 false
      let off := { s.pwr with rails := s.pwr.rails &&& (0xFFF - 2 ^ (4 + g) - 2 ^ (8 + g)) }
      { s with pwr := { off with flush := s.pwr.flush.map fun f => { f with excluded := g :: f.excluded.filter (· ≠ g) } } }

def execRailFault (rail : Fin 16) (s : State) : Out := fin (railFault s rail)

/-! ### Bank, charger, measurement -/

/-- BANK_CHARGED (R446). -/
def execBankCharged (vhold : Nat) (s : State) : Out :=
  fin (if s.pwr.cstate = .charging && !s.pwr.chgFault && vsetMv s ≤ vhold then
      { setCstate s .protected_ with pwr := { (setCstate s .protected_).pwr with vhold := vhold } }
    else s)

/-- VHOLD_SAG (R446). -/
def execVholdSag (vhold : Nat) (s : State) : Out :=
  fin (if s.pwr.cstate = .protected_ && vhold + 2000 < vsetMv s then
      { setCstate s .charging with pwr := { (setCstate s .charging).pwr with vhold := vhold } }
    else s)

/-- CHARGER_FAULT (R448): the charger stops until the next Off to Soft-start, and bank measurements do not run. -/
def execChargerFault (s : State) : Out :=
  fin (blockErr { s with pwr := { s.pwr with chgFault := true, measAct := false } } 0x02 18 0)

/-- Start a bank measurement (R449). -/
def measStart (s : State) : State :=
  if s.pwr.cstate ≠ .protected_ || s.pwr.chgFault || s.pwr.measAct then s
  else { s with pwr := { s.pwr with measAct := true, firstProtected := true, measTry := s.clock } }

/-- A write of PWR_CMD.MEASURE (R449). -/
def execPwrMeasureWrite (who : Who) (s : State) : Out :=
  fin (onWrite s who 0x02 0x128 1 measStart)

/-- BANK_MEASURE_PERIODIC (R449): the first entry to Protected, the period, or 10 minutes after a failure. -/
def execBankMeasurePeriodic (s : State) : Out :=
  fin (if !s.pwr.firstProtected || rdF s 0x02 0x124 5 0 * 3600 ≤ measAge s || (0 < s.pwr.measFails && s.pwr.measTry + 600 ≤ s.clock) then measStart s else s)

/-- BANK_MEASURE_DONE (R449): the fall V0 - V1 in µV and Δt in µs. -/
def measDone (s : State) (drop dt : Nat) : State :=
  if !s.pwr.measAct then s
  else
    let s := { s with pwr := { s.pwr with measAct := false, meas := s.pwr.meas + 1 } }
    let s := raiseInt (bump s 0x02 0x16C 1) 0x02 3
    if dt < 5000 || 1500000 < dt || 1000000 < drop then
      blockErr { s with pwr := { s.pwr with measFails := s.pwr.measFails + 1 } } 0x02 17 0
    else { s with pwr := { s.pwr with
      c := 2 * dt, esr := drop / 200, measured := some s.clock, measOk := true, measFails := 0, lastMeasRtc := s.dev.rtc
      history := ((s.dev.rtc, 2 * dt, drop / 200) :: s.pwr.history).take 8 } }

def execBankMeasureDone (drop dt : Nat) (s : State) : Out := fin (measDone s drop dt)

/-- PWR_MEAS_AGE_EXPIRY (R454): the ledger is evaluated at the age the clock gives. -/
def execPwrMeasAgeExpiry (s : State) : Out := fin s

/-- APST_TRANSITION (R463, R464): a controller with autonomous transitions on moves to the target its table names, PS3 or PS4. -/
def apstTransition (s : State) (mid : Nat) : State :=
  let c := ctrlOf s mid
  let e := c.apst.getD c.psReq 0
  let tgt := e / 8 % 32
  if !c.en || !c.autoPs || e / 256 = 0 || !(tgt = 3 || tgt = 4) then s else psSettle (setCtrl s mid { c with psReq := tgt })

def execApstTransition (mid : Nat) (s : State) : Out := fin (apstTransition s mid)

/-! ### The Seed domain -/

/-- AON fields (R477). -/
def tempHi (s : State) : Int := (BitVec.ofNat 8 (rdF s 0x03 0x130 7 0)).toInt + 273
def tempLo (s : State) : Int := (BitVec.ofNat 8 (rdF s 0x03 0x130 15 8)).toInt + 273
def tempHyst (s : State) : Int := rdF s 0x03 0x130 20 16
def alarmOn (s : State) (typ : Nat) : Bool := Word.bit (rd s 0x03 0x13C) (typ - 1)

/-- A cell-ring entry (R470). -/
def cellEntry (s : State) (typ value : Nat) (sticky : Bool) : CellEntry :=
  let b := leBytes 5 s.dev.rtc ++ leBytes 1 typ ++ leBytes 1 (1 + sticky.toNat * 2) ++ leBytes 1 s.aon.seq ++ leBytes 2 value ++ leBytes 4 s.aon.pwrcyc ++ [0]
  b ++ [b.foldl (· ^^^ ·) 0]

def cellType (e : CellEntry) : Nat := (e.getD 5 0).toNat
def cellSticky (e : CellEntry) : Bool := (e.getD 6 0).toNat / 2 % 2 = 1

/-- The slot a new entry takes (R470): the next slot that does not hold a STICKY entry. -/
def cellSlot (s : State) : Nat :=
  (((List.range 128).map fun i => (s.aon.pos + i) % 128).find? fun i => match Tbl.find s.aon.ring i with
    | some e => !cellSticky e
    | none => true).getD 0

/-- Write a cell-ring entry: the first of each type is STICKY. -/
def cellWrite (s : State) (typ value : Nat) : State :=
  let sticky := !s.aon.ring.any fun e => cellType e.2 = typ
  let k := cellSlot s
  { s with aon := { s.aon with
    ring := Tbl.put s.aon.ring k (cellEntry s typ value sticky), pos := (k + 1) % 128, wrapped := s.aon.wrapped || k + 1 = 128 || k < s.aon.pos
    seq := (s.aon.seq + 1) % 256 } }

/-- The severity of an alarm (R554). -/
def alarmSev (typ : Nat) : Nat := if typ ≤ 3 then sevCritical else sevWarning

/-- Raise an alarm (R469): an interrupt while Cambium is not Off, which firmware records in Rings, a cell-ring entry while it is. -/
def seedAlarm (s : State) (typ value : Nat) : State :=
  if !alarmOn s typ || blkRetired s 0x03 then s
  else if s.pwr.cstate = .off then cellWrite s typ value
  else
    let s := raiseInt s 0x03 (if typ ≤ 2 then 2 else if typ = 5 then 3 else 1)
    { s with evq := s.evq ++ [{ code := 0x1006, sev := alarmSev typ, block := (evWho 0x03).1, inst := (evWho 0x03).2, tenant := none
                                detail := leBytes 1 typ ++ leBytes 2 value, fw := true }] }

/-- A latched condition: it alarms when it begins, and is released by its hysteresis. -/
def latchAlarm (s : State) (typ value : Nat) (begins ends : Bool) : State :=
  if s.aon.latched.contains typ then
    if ends then { s with aon := { s.aon with latched := s.aon.latched.filter (· ≠ typ) } } else s
  else if begins then seedAlarm { s with aon := { s.aon with latched := typ :: s.aon.latched } } typ value
  else s

/-- SEED_SAMPLE (R466, R469, R620): temperature in kelvin, VBAT in mV. After a thermal trip Cambium restarts once the module has cooled. -/
def seedSample (s : State) (temp vbat : Nat) : State :=
  let s := { s with aon := { s.aon with temp := temp, vbat := vbat, lost := s.aon.lost || (s.aon.onCell && vbat < 2000) } }
  let t : Int := temp
  let s := latchAlarm s 3 temp (tempHi s < t) (t < tempHi s - tempHyst s)
  let s := latchAlarm s 4 temp (t < tempLo s) (tempLo s + tempHyst s < t)
  let s := latchAlarm s 5 vbat (vbat < 2300) (2400 < vbat)
  if s.pwr.trip && t < tempHi s - tempHyst s && (s.pwr.cstate = .bleed || s.pwr.cstate = .off) then
    let s := { s with pwr := { s.pwr with trip := false } }
    if s.pwr.cstate = .off then vinStart s s.pwr.vin else if vinOk s s.pwr.vin then restart s else s
  else s

def execSeedSample (temp vbat : Nat) (s : State) : Out := fin (seedSample s temp vbat)

/-- Zeroize (R472): every XTS, GCM and KEK slot, and PKE slots 2 to 7; the device enters Fault. -/
def zeroize (s : State) : State :=
  enterFault { s with sec := { s.sec with xts := [], gcm := [], kek := [], pke := s.sec.pke.filter fun p => p.1 < 2 } } 0x03

/-- TAMPER_ALARM (R469, R472): input 0 or 1 at its active level for 1 ms. -/
def tamper (s : State) (n : Nat) : State :=
  if !Word.bit (rd s 0x03 0x138) (2 * n) || blkRetired s 0x03 then s
  else
    let s := { s with aon := { s.aon with tamper0 := s.aon.tamper0 || n = 0, tamper1 := s.aon.tamper1 || n = 1 } }
    if !alarmOn s (n + 1) then s
    else if s.pwr.cstate = .off then cellWrite s (n + 1) 0
    else
      let s := emit (raiseInt s 0x03 2) 0x1005 sevCritical 0x03 none (leBytes 1 (n + 1))
      if Word.bit (rd s 0x03 0x138) 4 then zeroize s else s

def execTamperAlarm (input : Fin 2) (s : State) : Out := fin (tamper s input)

/-- VBAT_SWITCHOVER (R466, R469): the domain moves to the cell, or VIN returns, given in units of 0.1 V. -/
def switchover (s : State) (toCell : Bool) (vin : Nat) : State :=
  if toCell then
    if s.aon.onCell || s.pwr.cstate ≠ .off then s else seedAlarm { s with aon := { s.aon with onCell := true } } 6 0
  else if !s.aon.onCell || vin ≤ 88 then s
  else { seedAlarm s 7 vin with aon := { (seedAlarm s 7 vin).aon with onCell := false } }

def execVbatSwitchover (toCell : Bool) (vin : Nat) (s : State) : Out := fin (switchover s toCell vin)

/-- SEED_DOMAIN_POWER_UP (R446, R466): the domain gains power after it had none; Cambium is Off. Where the cell had fallen below 2.0 V, the counters and the
ring are not valid. -/
def seedPowerUp (s : State) (cellLost : Bool) : State :=
  if cellLost then seedLost (setCstate s .off) else setCstate s .off

def execSeedDomainPowerUp (cellLost : Bool) (s : State) : Out := fin (seedPowerUp s cellLost)

/-- A write of AON_RTC_SET_HI (R468, R477): it takes effect with the low word. -/
def rtcSet (s : State) (v : Word) : State :=
  { s with dev := { s.dev with rtc := (rd s 0x03 0x110).toNat + v.toNat % 256 * 2 ^ 32 }, aon := { s.aon with rtcValid := true } }

def execAonRtcSetWrite (who : Who) (v : Word) (s : State) : Out := fin (onWrite s who 0x03 0x114 v fun s => rtcSet s v)

/-- A write of AON_OPSEC_SET_HI (R468): stored only while CNT_VALID is 0. -/
def opsecSet (s : State) (v : Word) : State :=
  if s.aon.cntValid then blockErr s 0x03 16 0
  else { s with dev := { s.dev with opsec := (rd s 0x03 0x124).toNat + v.toNat % 256 * 2 ^ 32 } }

def execAonOpsecSetWrite (who : Who) (v : Word) (s : State) : Out := fin (onWrite s who 0x03 0x128 v fun s => opsecSet s v)

/-- A write of AON_PWRCYC_SET (R468): stored only while CNT_VALID is 0, which it sets. -/
def pwrcycSet (s : State) (v : Word) : State :=
  if s.aon.cntValid then blockErr s 0x03 16 0 else { s with aon := { s.aon with pwrcyc := v.toNat, cntValid := true } }

def execAonPwrcycSetWrite (who : Who) (v : Word) (s : State) : Out := fin (onWrite s who 0x03 0x12C v fun s => pwrcycSet s v)

/-- An entry is VALID, and its CHECK matches (R470). -/
def cellValid (e : CellEntry) : Bool := leAt e 6 1 % 2 = 1
def cellChecks (e : CellEntry) : Bool := ((e.take 15).foldl (fun c b => c ^^^ b) 0) = e.getD 15 0

/-- How many entries the ring has taken since an entry, by its SEQ. -/
def cellAge (s : State) (e : CellEntry) : Nat := (s.aon.seq + 255 - leAt e 7 1) % 256

/-- The ring's entries from the oldest. -/
def cellOrder (s : State) : List CellEntry :=
  let put (l : List CellEntry) (e : CellEntry) : List CellEntry := l.takeWhile (fun y => cellAge s e ≤ cellAge s y) ++ [e]
    ++ l.dropWhile fun y => cellAge s e ≤ cellAge s y
  (s.aon.ring.map (·.2)).foldl put []

/-- A write of AON_RING_CLR (R471): the ring is empty, STICKY entries included. -/
def ringClr (s : State) : State := { s with aon := { s.aon with ring := [], pos := 0, wrapped := false } }

def execAonRingClrWrite (who : Who) (s : State) : Out := fin (onWrite s who 0x03 0x140 1 ringClr)

end Sys2Proof.Machine
end

