-- ==== Sys2Proof/Machine/RingsOps.lean ====
section
/-! DEFINITION. The event recorder's operations (R552 to R561, R565): stamping, admission, folding, closing, pages, the record store and
the clear. -/

namespace Sys2Proof.Machine

/-- EVR_CFG fields (R568). -/
def evrEn (s : State) : Bool := Word.bit (rd s 0x06 0x100) 0
def coalEn (s : State) : Bool := Word.bit (rd s 0x06 0x100) 1
def batchMs (s : State) : Nat := rdF s 0x06 0x100 23 16

/-- EVR_SEQ_NEXT. -/
def seqNext (s : State) : Nat := rd64 s 0x06 0x10C

/-- The clear floor (R565), EVR_FLOOR. -/
def clearFloor (s : State) : Nat := rd64 s 0x06 0x114

def setRings (s : State) (r : Rings) : State := { s with rings := r }

/-- A CLEARED record, which takes the clear slot (R555). -/
def Rec.cleared (r : Rec) : Bool := r.code = 0x0003

/-- Slots in use (R555): the clear slot is never counted. -/
def evrUsed (s : State) : Nat :=
  countOf (fun r : Rec => !r.cleared) (s.rings.opened ++ s.rings.part ++ s.rings.pages.flatten)

/-- A record of an event with the stamps of R553. With the Seed domain's block retired the counters stand as last read, with RTC_VALID 0 (R578). -/
def stampRec (s : State) (e : Ev) : Rec := {
  code := e.code, sev := e.sev, fw := e.fw, block := e.block, inst := e.inst, rtcValid := s.aon.rtcValid && !blkRetired s 0x03, tenant := e.tenant
  opsec := s.dev.opsec, pwrcyc := s.aon.pwrcyc, rtc := s.dev.rtc, detail := e.detail, at_ := s.clock }

/-- Seal full pages while fewer than 512 wait (R559). -/
def sealFull (s : State) : Nat → State
  | 0 => s
  | n + 1 =>
    if s.rings.part.length < 8 || 512 ≤ s.rings.pages.length then s
    else
      let r := s.rings
      sealFull (raiseInt (setRings s { r with pages := r.pages ++ [r.part.take 8], part := r.part.drop 8, partAt := s.clock }) 0x06 1) n

/-- Seal the partial page: its remaining slots are pads (R559). -/
def sealPart (s : State) : State :=
  let r := s.rings
  if r.part = [] || 512 ≤ r.pages.length then s
  else raiseInt (setRings s { r with pages := r.pages ++ [r.part.take 8], part := r.part.drop 8, partAt := s.clock }) 0x06 1

/-- Close a record: it takes its SEQ (R557) and its place in the partial page. -/
def closeRec (s : State) (x : Rec) : State :=
  let q := seqNext s
  let s := bump (wr64 s 0x06 0x10C (q + 1)) 0x06 0x138 1
  let r := s.rings
  sealFull (setRings s { r with part := r.part ++ [{ x with seq := q }], partAt := if r.part = [] then s.clock else r.partAt }) 600

/-- Open a record: one that can take no fold closes at once, unless EN is 0 (R556, R558). -/
def openRec (s : State) (x : Rec) : State :=
  let was := evrUsed s
  let s :=
    if x.single && evrEn s then closeRec s x
    else
      let r := s.rings
      setRings s { r with opened := r.opened ++ [x] }
  if was < 3584 && 3584 ≤ evrUsed s then raiseInt s 0x06 2 else s

/-- The use at which a severity is no longer admitted (R555). -/
def admitBelow (sev : Nat) : Nat := if sev = 0 then 4096 else if sev ≤ 2 then 3840 else 3584

/-- Count a dropped event (R555): its severity's counter, and the counts of the next DROPPED record. -/
def dropEv (s : State) (x : Rec) : State :=
  let s := raiseInt (bump s 0x06 (0x120 + 4 * x.sev) 1) 0x06 3
  let r := s.rings
  setRings s { r with
    drops := setNth r.drops x.sev (r.drops.getD x.sev 0 + 1), dropTotal := r.dropTotal + 1
    dropRec := match r.dropRec with
      | none => some x
      | some y => some y }

/-- Open the DROPPED record: the time of the first drop, COUNT and the counts per severity (R555). One that finds no slot is dropped and counted, and the drops
stay owed (DEDUCED, entry 135). -/
def writeDropped (s : State) : State :=
  match s.rings.dropRec with
  | none => s
  | some x =>
    let r := s.rings
    if 4096 ≤ evrUsed s then dropEv s { x with sev := sevNotice }
    else openRec (setRings s { r with dropRec := none, drops := [0, 0, 0, 0, 0] }) { x with
      code := 0x0002, sev := sevNotice, seed := false, fw := false, block := rgnOf .evr, inst := 0, tenant := none, count := min r.drops.sum 0xFFFFFFFF
      detail := (r.drops.map fun n => leBytes 4 (min n 0xFFFFFFFF)).flatten ++ List.replicate 4 0, single := true, early := false }

/-- A DROPPED record is owed, and opens once used is 3,072 or below. -/
def dropSettle (s : State) : State := if evrUsed s ≤ 3072 then writeDropped s else s

/-- An event at the recorder: 0 staged, 1 folded, 2 dropped (R555, R556). -/
def admitRec (s : State) (x : Rec) (nocoal : Bool) : Nat × State :=
  let single := x.sev = 0 || nocoal || x.seed || !coalEn s
  let fold (y : Rec) : Bool := !y.single && y.code = x.code && y.block = x.block && y.inst = x.inst
  if !single && s.rings.opened.any fold then
    let f (y : Rec) : Rec := if fold y then { y with count := min (y.count + 1) 0xFFFFFFFF, delta := min 1000 ((s.clock - y.at_) * 1000) } else y
    let r := s.rings
    (1, bump (setRings s { r with opened := r.opened.map f }) 0x06 0x134 1)
  else if evrUsed s < admitBelow x.sev then
    let many := 128 ≤ countOf (fun y : Rec => !y.single) s.rings.opened
    (0, openRec s { x with single := single || many })
  else (2, dropEv s x)

/-- Close every open record in arrival order, unless EN is 0 (R556, R558). -/
def closeAll (s : State) : State :=
  if !evrEn s then s
  else
    let r := s.rings
    r.opened.foldl closeRec (setRings s { r with opened := [] })

/-- SEAL_ALL (R559). -/
def sealAll (s : State) : State := sealPart (writeDropped (closeAll s))

/-! ### The record store -/

/-- A record as bytes 0 to 63 (R552). -/
def ringsRec (r : Rec) : List Byte :=
  let b := leBytes 8 r.seq ++ leBytes 2 r.code
    ++ [BitVec.ofNat 8 (r.sev % 8 + r.seed.toNat * 8 + (if 1 < r.count then 16 else 0) + r.fw.toNat * 32), BitVec.ofNat 8 r.block, BitVec.ofNat 8 r.inst,
        BitVec.ofNat 8 (r.rtcValid.toNat + r.early.toNat * 2)]
    ++ leBytes 2 (match r.tenant with
      | some t => t % 512 + 32768
      | none => 0)
    ++ leBytes 5 r.opsec ++ leBytes 4 r.pwrcyc ++ leBytes 5 r.rtc ++ leBytes 2 r.delta ++ leBytes 4 r.count
    ++ (r.detail.take 24 ++ List.replicate (24 - r.detail.length) 0)
  b ++ leBytes 4 (crc32c b)

/-- A page image (R559): its remaining slots are pads. -/
def pageImage (p : List Rec) : List Byte := padTo 512 (p.flatMap ringsRec)

/-- The record in a slot's bytes, where its CRC32C holds. -/
def recParse (b : List Byte) : Option Rec :=
  let t := leAt b 14 2
  let f := leAt b 10 1
  if leAt b 60 4 ≠ crc32c (b.take 60) then none
  else some {
    seq := leAt b 0 8, code := leAt b 8 2, sev := f % 8, seed := f / 8 % 2 = 1, fw := f / 32 % 2 = 1, block := leAt b 11 1, inst := leAt b 12 1
    rtcValid := leAt b 13 1 % 2 = 1, early := leAt b 13 1 / 2 % 2 = 1, tenant := if 32768 ≤ t then some (t % 512) else none
    opsec := leAt b 16 5, pwrcyc := leAt b 21 4, rtc := leAt b 25 5, delta := leAt b 30 2, count := leAt b 32 4, detail := (b.drop 36).take 24 }

/-- The records of a store page; none where one fails its CRC32C: the page is damaged (R561). Pads hold no record. -/
def pageRecs (b : List Byte) : List Rec :=
  let l := (pieces 64 b 8).filter fun x => !x.all (· = 0)
  if l.all fun x => (recParse x).isSome then l.filterMap recParse else []

/-- The store's pages (R560): main sectors 0 to 253 of bank 1, of 512 pages each. -/
def storeBase : Nat := 0x10080000
def storePages : Nat := 254 * 512
def storeAddr (p : Nat) : Nat := storeBase + 512 * p

/-- The pages that hold bytes. -/
def storeUsed (s : State) : List Nat :=
  ((s.mem.filter fun x => storeBase ≤ x.1 && x.1 < storeAddr storePages).map fun x => (x.1 - storeBase) / 512).eraseDups

/-- The good records of a page of the store, and of all of it. -/
def storeAt (s : State) (p : Nat) : List Rec := pageRecs (memReadN s (storeAddr p) 512)
def storeRecs (s : State) : List Rec := (storeUsed s).flatMap (storeAt s)

/-- Firmware programs a page into the next blank page; entering a sector, it erases the one after it, which is the oldest once the store is full (R560). -/
def storePage (s : State) (p : List Rec) : State :=
  let n := ((List.range 1024).map fun i => (s.rings.next + i) % storePages).find? (fun n => tapBlank s (storeAddr n)) |>.getD s.rings.next
  let s := tapPut s (storeAddr n) (pageImage p)
  let s := if n % 512 = 0 then tapWipe s (storeAddr ((n + 512) % storePages)) 0x40000 else s
  let r := s.rings
  setRings s { r with next := (n + 1) % storePages }

/-- Every record closed, in the store and in staging. -/
def closedRecs (s : State) : List Rec := storeRecs s ++ s.rings.pages.flatten ++ s.rings.part

/-- Pages of 8 of a list of records. -/
def pagesOf8 (l : List Rec) : List (List Rec) := pieces 8 l (l.length / 8 + 1)

/-- The value firmware writes to EVR_SEQ_NEXT at power-up (R558 step 2). -/
def seqStart (s : State) : Nat :=
  let inStore := (storeRecs s).map (·.seq)
  let fresh : Option Nat := match s.rings.savedNext with
    | some n => if inStore.all (· < n) then some n else none
    | none => none
  match fresh with
  | some n => n
  | none =>
    let l := inStore ++ s.rings.saved.map (·.seq) ++ (match s.rings.lastNext with
      | some n => if n = 0 then [] else [n - 1]
      | none => [])
    if l = [] then 0 else l.foldl max 0 + 4098

/-- The RESET record (R558). -/
def resetRec (s : State) : Rec :=
  { stampRec s { code := 0x0001, sev := sevNotice, block := rgnOf .evr, inst := 0, tenant := none
                 detail := [BitVec.ofNat 8 (rdF s 0x00 0x104 3 0), BitVec.ofNat 8 (rdF s 0x00 0x104 4 4)] ++ List.replicate 22 0 } with single := true }

/-- The floor of the newest CLEARED record in the store (R565). -/
def storeFloor (s : State) : Nat :=
  let newer (b : Option Rec) (r : Rec) : Option Rec := match b with
    | some x => if x.seq < r.seq then some r else some x
    | none => some r
  match ((storeRecs s).filter Rec.cleared).foldl newer none with
  | some r => leNat (r.detail.take 8)
  | none => 0

/-- A SEED_ALARM record of a cell-ring entry (R469 to R471, R569): its time is the entry's, and it takes no fold. -/
def cellRec (s : State) (e : CellEntry) : Rec :=
  { stampRec s { code := 0x1006, sev := alarmSev (cellType e), block := (evWho 0x03).1, inst := (evWho 0x03).2, tenant := none, detail := leBytes 1 (cellType e) ++ (e.drop 8).take 2, fw := true } with
    seed := true, rtcValid := true, rtc := leAt e 0 5, pwrcyc := leAt e 10 4 }

/-- Firmware merges the cell ring (R471, R558 step 5): the entries that check, from the oldest, one record for the rest, and the ring is emptied. -/
def mergeCells (s : State) : State :=
  let l := (cellOrder s).filter cellValid
  let bad := countOf (fun e => !cellChecks e) l
  let s := (l.filter cellChecks).foldl (fun s e => (admitRec s (cellRec s e) false).2) s
  let s := if bad = 0 then s else
    (admitRec s (stampRec s { code := 0x0004, sev := sevWarning, block := rgnOf .evr, inst := 0, tenant := none, detail := leBytes 4 bad, fw := true }) false).2
  if s.aon.ring = [] then s else ringClr s

/-- Set EN (R558): the first time, EVR_SEQ_NEXT is written unless a register write has set it, the saved staging is appended, RESET closes first, the early records follow in
arrival order, and the cell ring is merged. -/
def evrEnable (s : State) : State :=
  let s := wrF s 0x06 0x100 0 0 1
  if s.rings.started then closeEarly s false
  else
    let n := if seqNext s = 0 then seqStart s else seqNext s
    let r := s.rings
    let have_ := (storeRecs s).map (·.seq)
    let s := (pagesOf8 (r.saved.filter fun x => !have_.contains x.seq)).foldl storePage s
    let r := s.rings
    let s := setRings (wr64 s 0x06 0x10C n) { r with saved := [], savedNext := none, lastNext := some n, started := true }
    let s := wr64 s 0x06 0x114 (storeFloor s)
    mergeCells (closeEarly (closeRec s (resetRec s)) true)
where
  /-- Records that waited for EN close in arrival order, those that can take folds go on. -/
  closeEarly (s : State) (first : Bool) : State :=
    let r := s.rings
    let mark (x : Rec) : Rec :=
      if first then { x with
        early := true, opsec := s.dev.opsec, pwrcyc := s.aon.pwrcyc, rtc := s.dev.rtc, rtcValid := s.aon.rtcValid && !blkRetired s 0x03 } else x
    let l := r.opened.map mark
    let now (x : Rec) : Bool := first || x.single || x.at_ + 1 ≤ s.clock
    (l.filter now).foldl closeRec (setRings s { r with opened := l.filter fun x => !now x })

/-! ### Clearing -/

/-- The highest SEQ closed, if any record closed. -/
def lastClosed (s : State) : Option Nat :=
  let l := (closedRecs s).map (·.seq) ++ if seqNext s = 0 then [] else [seqNext s - 1]
  if l = [] then none else some (l.foldl max 0)

/-- Erase the sectors of the store that hold records at or below the floor only (R565). -/
def eraseBelow (s : State) (floor : Nat) : State :=
  let l := storeUsed s
  let old (k : Nat) : Bool := (l.filter fun p => p / 512 = k).all fun p => (storeAt s p).all fun r => r.seq ≤ floor
  ((l.map (· / 512)).eraseDups.filter old).foldl (fun s k => tapWipe s (storeAddr (512 * k)) 0x40000) s

/-- A clear that has the clear slot (R565): records at or below the floor are removed, and a CLEARED record closes at once, with EN set (R558). -/
def clearNow (s : State) (upto route : Nat) : State :=
  let floor := match lastClosed s with
    | some last => min upto last
    | none => clearFloor s
  let keep (x : Rec) : Bool := floor < x.seq
  let r := s.rings
  let s := wr64 s 0x06 0x114 (max (clearFloor s) floor)
  let s := setRings s { r with
    part := r.part.filter keep, pages := (r.pages.map fun p => p.filter keep).filter (· ≠ []), clearUsed := true }
  let s := dropSettle (eraseBelow s floor)
  openRec s { stampRec s { code := 0x0003, sev := sevNotice, block := rgnOf .evr, inst := 0, tenant := none,
                           detail := leBytes 8 floor ++ [BitVec.ofNat 8 route] ++ List.replicate 15 0 } with single := true }

/-- The responder's ACK of a vendor-defined request (R564): a VENDOR_DEFINED_RESPONSE header. -/
def spdmAck : List Byte := [0x13, 0x7E, 0, 0]

/-- Put a response in the DOE mailbox of a port (R81); with its interrupt enabled the message of vector 0 pends until the port sends it. -/
def doeReply (s : State) (p typ : Nat) (d : List Byte) : State :=
  { s with ports := Tbl.adj s.ports p fun (x : Port) => { x with
      doe := { x.doe with busy := false, intSts := true, response := leBytes 2 1 ++ leBytes 2 typ ++ leBytes 4 (ceilDiv (d.length + 8) 4) ++ d }
      fns := if x.doe.intEn && (Tbl.getD x.fns 0 {}).msixEn && !(Tbl.getD x.fns 0 {}).pba.contains 0 then
          Tbl.adj x.fns 0 fun f => { f with pba := f.pba ++ [0] } else x.fns } }

/-- Take waiting clears while the clear slot is free; a command that waited completes. -/
def clearWaiting (s : State) : State :=
  if s.rings.clearUsed then s
  else
    match s.rings.waitClear with
    | [] => s
    | q :: t =>
      let r := s.rings
      let s := clearNow (setRings s { r with waitClear := t }) q.upto q.route
      let s := match q.port with
        | some p => doeReply s p 2 spdmAck
        | none => s
      match q.cmd with
      | some c => complete s c stOk
      | none => s

/-- A clear arrives (R565): it waits while the clear slot is used. -/
def ringsClear (s : State) (q : ClearReq) : State :=
  let r := s.rings
  clearWaiting (setRings s { r with waitClear := r.waitClear ++ [q] })

/-! ### Log page C3h -/

/-- A GAP record (R561): COUNT and the time fields are zero. -/
def gapRec (seq : Nat) : Rec :=
  { seq := seq, code := 0x0005, sev := sevError, block := rgnOf .evr, inst := 0, opsec := 0, pwrcyc := 0, rtc := 0, count := 0, tenant := none }

/-- The oldest SEQ retained, and the highest closed plus 1. -/
def ringsSpan (s : State) : Nat × Nat :=
  let l := closedRecs s
  let n := l.foldl (fun m r => max m (r.seq + 1)) (seqNext s)
  let cleared := clearFloor s ≠ 0 || l.any Rec.cleared
  (max (if cleared then clearFloor s + 1 else 0) (l.foldl (fun m r => min m r.seq) n), n)

/-- The record delivered for a SEQ. -/
def recAt (s : State) (q : Nat) : List Byte :=
  ringsRec (match (closedRecs s).find? fun r => r.seq = q with
    | some r => r
    | none => gapRec q)

/-- The header of C3h (R562). -/
def ringsHeader (s : State) (first past : Nat) : List Byte :=
  leBytes 2 1 ++ List.replicate 6 0 ++ leBytes 8 first ++ leBytes 8 (past - 1) ++ leBytes 8 (clearFloor s) ++ leBytes 8 s.rings.dropTotal
    ++ List.replicate 24 0

/-- A read of C3h (R562, R563): LSP bit 0, offset and length in bytes. -/
def ringsLog (s : State) (mid : Nat) (snap : Bool) (lpo len : Nat) : Except Status (List Byte) × State :=
  if snap && lpo ≠ 0 then (.error stInvalidField, s)
  else
    let held := if snap then none else Tbl.find s.rings.snaps mid
    let (first, past) := held.getD (ringsSpan s)
    let r := s.rings
    let s := setRings s { r with snaps := Tbl.put r.snaps mid (first, past) }
    let lo := first + (max lpo 64 - 64) / 64
    let covers := 64 < lpo + len && lo < past
    if covers && lo < (ringsSpan s).1 then (.error ⟨7, 0xC2⟩, s)
    else
      let n := if lpo + len ≤ 64 then 0 else ceilDiv (lpo + len - 64) 64
      let body := if lpo < 64 then 0 else (lpo - 64) / 64
      let bytes := (List.range (n - body)).flatMap fun i => if first + body + i < past then recAt s (first + body + i) else List.replicate 64 0
      if lpo < 64 then (.ok (((ringsHeader s first past ++ bytes).drop lpo).take len), s)
      else (.ok ((bytes.drop ((lpo - 64) % 64)).take len), s)

end Sys2Proof.Machine
end

