-- ==== Sys2Proof/Machine/Rings.lean ====
section
/-! DEFINITION. The commands of the event recorder (R552 to R570). -/

namespace Sys2Proof.Machine

/-- EVENT_ARRIVAL (R553, R555): the oldest event on its way to EVR is stamped and staged, folded or dropped. -/
def eventArrival (s : State) : State :=
  match s.evq with
  | [] => s
  | e :: t => (admitRec { s with evq := t } (stampRec s e) false).2

def execEventArrival (s : State) : Out := fin (eventArrival s)

/-- RECORD_CLOSE_TIMEOUT (R556): the oldest open record is 1 s old. -/
def recordClose (s : State) : State :=
  match s.rings.opened with
  | [] => s
  | x :: t =>
    let r := s.rings
    if evrEn s && x.at_ + 1 ≤ s.clock then closeRec (setRings s { r with opened := t }) x else s

def execRecordCloseTimeout (s : State) : Out := fin (recordClose s)

/-- PAGE_SEAL_TIMEOUT (R559). -/
def execPageSealTimeout (s : State) : Out := fin (sealPart s)

/-- SEAL_ALL (R559, R568). -/
def execSealAll (who : Who) (s : State) : Out := fin (onWrite s who 0x06 0x11C 1 sealAll)

/-- A post of firmware through the interface of a core (R569). -/
def evrPost (s : State) (core : Nat) : State :=
  let off := 0x1000 + 64 * core
  let w (k : Nat) : Word := rd s 0x06 (off + k)
  let code := Word.fld (w 0) 15 0
  let sev := Word.fld (w 0) 18 16
  let cls := code / 4096
  if 5 ≤ sev || (cls = 0 && code ≠ 0x0004) || cls = 0xD || cls = 0xE then wrF (blockErr s 0x06 17 0) 0x06 (off + 0x24) 1 0 3
  else
    let seed := Word.bit (w 0) 20
    let x := stampRec s {
      code := code, sev := sev, block := Word.fld (w 4) 7 0, inst := Word.fld (w 4) 15 8
      tenant := if Word.bit (w 4) 31 then some (Word.fld (w 4) 24 16) else none
      detail := (List.range 6).flatMap fun i => leBytes 4 (w (8 + 4 * i)).toNat, fw := true }
    let x : Rec := if seed then { x with seed := true, rtcValid := true, rtc := (w 0x28).toNat + Word.fld (w 0x2C) 7 0 * 2 ^ 32, pwrcyc := (w 0x30).toNat } else x
    let (res, s) := admitRec s x (Word.bit (w 0) 19)
    wrF s 0x06 (off + 0x24) 1 0 res

def execEvrPostGo (who : Who) (core : Fin 4) (s : State) : Out :=
  fin (onWrite s who 0x06 (0x1020 + 64 * core) 1 fun s => evrPost s core)

/-- A write of EVR_DRAIN_ACK (R560, R567): the page stands in the store, where firmware programmed it (one that is there already is kept once, R566), its slots are free, and a DROPPED record or a clear that waits goes on. -/
def drainAck (s : State) : State :=
  match s.rings.pages with
  | [] => blockErr s 0x06 18 0
  | p :: t =>
    let r := s.rings
    let have_ := (storeRecs s).map (·.seq)
    let s := setRings s { r with pages := t, clearUsed := r.clearUsed && !p.any Rec.cleared }
    let s := if p.all fun x => have_.contains x.seq then s else storePage s p
    clearWaiting (dropSettle (sealFull s 600))

def execEvrDrainAck (who : Who) (s : State) : Out := fin (onWrite s who 0x06 0x200C 1 drainAck)

/-- EVR_ENABLE (R558): a write of EVR_CFG that sets EN. -/
def evrCfgWrite (s : State) (v : Word) : State :=
  let s := wr s 0x06 0x100 (Word.setBit (Word.mix (rd s 0x06 0x100) 0x00FF0002 (if 1 ≤ Word.fld v 23 16 && Word.fld v 23 16 ≤ 100 then v
    else Word.setFld v 23 16 (batchMs s))) 0 (evrEn s))
  if Word.bit v 0 && !evrEn s then evrEnable s else wrF s 0x06 0x100 0 0 (Word.bit v 0).toNat

def execEvrEnable (who : Who) (v : Word) (s : State) : Out := fin (onWrite s who 0x06 0x100 v fun s => evrCfgWrite s v)

/-! ### Clear Rings -/

/-- CLEAR_RINGS_GET_NONCE (R564): action 0. A fresh nonce replaces any earlier one; actions that are not stated are refused. -/
def clearNonce (s : State) (c : CmdId) (x : Ctx) : State :=
  match Word.fld x.sqe.cdw10 3 0 with
  | 0 =>
    let (b, s) := drbgGen s 8
    let r := s.rings
    completeData (setRings s { r with nonce := some (b, s.clock + 600) }) c b
  | 1 => s
  | _ => complete s c stInvalidField

def execClearRingsGetNonce (c : CmdId) (s : State) : Out := fin (onCmd s c true 0xC6 fun x => clearNonce s c x)

/-- CLEAR_RINGS_CLEAR (R564, R565): action 1. The token is the command's data; `sig` says that its signature verifies under a usable operator key hash. -/
def clearToken (s : State) (c : CmdId) (x : Ctx) (sig : Bool) : State :=
  if Word.fld x.sqe.cdw10 3 0 ≠ 1 then s
  else match s.rings.nonce with
  | none => complete s c stSequence
  | some (n, till) =>
    let r := s.rings
    let s := setRings s { r with nonce := none }
    let serial := leBytes 4 (Tbl.getD s.fus.eff 8 0).toNat ++ leBytes 4 (Tbl.getD s.fus.eff 9 0).toNat
    let usable := s.fus.usable.any (1 ≤ ·)
    if till ≤ s.clock then complete s c stSequence
    else if x.data.take 32 = n && (x.data.drop 32).take 8 = serial && zeroBytes x.data 48 64 && sig && usable then
      ringsClear (ctxUpd s c fun x => { x with stage := .waiting }) ⟨leNat ((x.data.drop 40).take 8), 1, some c, none⟩
    else complete s c stInvalidField

def execClearRingsClear (c : CmdId) (sig : Bool) (s : State) : Out := fin (onCmd s c true 0xC6 fun x => clearToken s c x sig)

/-- NONCE_EXPIRE (R564). -/
def nonceExpire (s : State) : State :=
  match s.rings.nonce with
  | some (_, t) =>
    let r := s.rings
    if t ≤ s.clock then setRings s { r with nonce := none } else s
  | none => s

def execNonceExpire (s : State) : Out := fin (nonceExpire s)

end Sys2Proof.Machine
end

