-- ==== Sys2Proof/Machine/Crown.lean ====
section
/-! DEFINITION. The commands of the Crown cores, their watchdogs, the Taproot store and the mailboxes (R501 to R518, R528 to R531). -/

namespace Sys2Proof.Machine

/-! ### Crown cores and watchdogs -/

/-- A core runs (R502). -/
def coreRuns (s : State) (k : Nat) : Bool := Word.bit (rd s 0x08 0x1000) k

def coreOf (s : State) (k : Nat) : Core := Tbl.getD s.cores k {}
def setCore (s : State) (k : Nat) (c : Core) : State := { s with cores := Tbl.put s.cores k c }

/-- Offset of the watchdog of a core (R531). -/
def cwdOff (k : Nat) : Nat := 0x1100 + 32 * k

/-- A write of CRN_RUN (R502): a held core starts at CRN_START; a core that runs goes on. -/
def crnRun (s : State) (v : Word) : State :=
  [1, 2, 3].foldl (fun s k =>
    if Word.bit v k && !coreRuns s k then setCore (wrF s 0x08 0x1000 k k 1) k { coreOf s k with start := rd64 s 0x08 0x1004 } else s) s

def execCrnRunWrite (who : Who) (v : Word) (s : State) : Out := fin (onWrite s who 0x08 0x1000 v fun s => crnRun s v)

/-- A write of CWD_CTL (R503): EN stays set until device reset. -/
def cwdEnable (s : State) (k : Nat) (v : Word) : State :=
  if Word.bit v 0 && !Word.bit (rd s 0x08 (cwdOff k)) 0 then
    setCore (wrF s 0x08 (cwdOff k) 0 0 1) k { coreOf s k with stage := 0, since := s.clock }
  else s

def execCwdEnable (who : Who) (core : Fin 4) (v : Word) (s : State) : Out :=
  fin (onWrite s who 0x08 (cwdOff core) v fun s => cwdEnable s core v)

/-- A write of CWD_KICK (R503). -/
def cwdKick (s : State) (k : Nat) (v : Word) : State :=
  if v.toNat ≠ 0x5EED then blockErr s 0x08 18 0
  else if (coreOf s k).stage = 3 then s
  else setCore s k { coreOf s k with stage := 0, since := s.clock }

def execCwdKick (who : Who) (core : Fin 4) (v : Word) (s : State) : Out :=
  fin (onWrite s who 0x08 (cwdOff core + 0x0C) v fun s => cwdKick s core v)

/-- The watchdog of a core is on and stands at a stage. -/
def wdAt (s : State) (k stage : Nat) : Bool := Word.bit (rd s 0x08 (cwdOff k)) 0 && (coreOf s k).stage = stage

/-- WATCHDOG_STAGE1 (R503): a non-maskable interrupt. -/
def wdStage1 (s : State) (k : Nat) : State :=
  if wdAt s k 0 then raiseInt (setCore s k { coreOf s k with stage := 1, since := s.clock, nmi := true }) 0x08 3 else s

def execWatchdogStage1 (core : Fin 4) (s : State) : Out := fin (wdStage1 s core)

/-- WATCHDOG_STAGE2 (R503): CRN_ESC to every other running core. -/
def wdStage2 (s : State) (k : Nat) : State :=
  if !wdAt s k 1 then s
  else
    let s := setCore s k { coreOf s k with stage := 2, since := s.clock }
    let s := (List.range 4).foldl (fun s j => if j ≠ k && coreRuns s j then setCore s j { coreOf s j with esc := true } else s) s
    emit s 0xC001 sevCritical 0x08 none [BitVec.ofNat 8 k]

def execWatchdogStage2 (core : Fin 4) (s : State) : Out := fin (wdStage2 s core)

/-- WATCHDOG_STAGE3 (R503, R478). -/
def wdStage3 (s : State) (k : Nat) : State :=
  if wdAt s k 2 then resetFlush (setCore s k { coreOf s k with stage := 3, since := s.clock }) 4 else s

def execWatchdogStage3 (core : Fin 4) (s : State) : Out := fin (wdStage3 s core)

/-! ### The Taproot store -/

/-- The sector of an address is protected (R512). -/
def tapProtected (s : State) (a : Nat) : Bool :=
  if tapParam a then Word.bit (rd s 0x08 (0x130 + 4 * tapBank a)) (a % 0x10000000 / 0x4000)
  else Word.bit (rd s 0x08 (0x120 + 4 * (a / 0x400000 / 32))) (a / 0x400000 % 32)

/-- End an operation with a code (R508). -/
def tapEnd (s : State) (code addr : Nat) : State := raiseInt (wr (wr s 0x08 0x114 (w32 code)) 0x08 0x118 (w32 addr)) 0x08 1

/-- Abandon the sequence under way. -/
def tapIdle (s : State) : State := { s with tap := { s.tap with step := 0, words := [] } }

/-- A broken sequence (R507): nothing starts; SEQ and RESULT 1 are recorded. -/
def tapBreak (s : State) : State := tapEnd (blockErr (tapIdle s) 0x08 16 0) 1 (rdF s 0x08 0x118 28 0)

/-- The code with which an operation is refused (R508); 0 where it starts. -/
def tapRefused (s : State) (op addr : Nat) : Nat :=
  let align := if op = 2 then tapSectorLen addr else 512
  if s.tap.run.isSome then 1
  else if s.pwr.pl then 8
  else if 0x20000000 ≤ addr || addr % align ≠ 0 then 9
  else if op ≠ 3 && tapProtected s addr then 2
  else if op = 1 && 4 ≤ (addr - tapSector addr) / 512 % 8 && tapBlank s (addr - 4 * 512) then 3
  else if op = 1 && !tapBlank s addr then 4
  else 0

/-- A sequence is complete: the operation starts, or ends refused. -/
def tapStart (s : State) (op addr : Nat) (words : List Word) : State :=
  let s := tapIdle s
  match tapRefused s op addr with
  | 0 => { s with tap := { s.tap with run := some { op := op, addr := addr, data := words } } }
  | c => tapEnd s c addr

/-- A write of TAP_KEY (0), TAP_CMD (1), TAP_ADDR (2) or TAP_DATA (3) by a core (R507); `late` says that more than 1 ms has passed since the previous
write of the sequence. Steps: 0 nothing, 1 first key, 2 second key, 3 command, 4 address and then data. -/
def tapWrite (s : State) (core reg : Nat) (v : Word) (late : Bool) : State :=
  let t := s.tap
  let first := reg = 0 && v.toNat = 0xA5C3
  let start (s : State) : State := { s with tap := { s.tap with step := 1, core := core, words := [] } }
  if t.step = 0 then (if first then start s else s)
  else if late || core ≠ t.core then (if first then start (tapBreak s) else tapBreak s)
  else
    match t.step, reg with
    | 1, 0 => if v.toNat = 0x3C5A then { s with tap := { t with step := 2 } } else if first then start (tapBreak s) else tapBreak s
    | 2, 1 =>
      let op := Word.fld v 3 0
      if 1 ≤ op && op ≤ 3 then { s with tap := { t with step := 3, op := op } } else tapBreak s
    | 3, 2 => { s with tap := { t with step := 4, addr := Word.fld v 28 0 } }
    | 4, 3 =>
      if t.op = 1 then
        if t.words.length < 127 then { s with tap := { t with words := t.words ++ [v] } } else tapStart s t.op t.addr (t.words ++ [v])
      else if v.toNat = 0xD0 then tapStart s t.op t.addr []
      else tapBreak s
    | _, _ => if first then start (tapBreak s) else tapBreak s

/-- Offset of a sequence register (R530). -/
def tapRegOff (reg : Nat) : Nat := 0x104 + 4 * reg

/-- TAP_SEQUENCE_WRITE (R507). -/
def execTapSequenceWrite (who : Who) (reg : Fin 4) (v : Word) (late : Bool) (s : State) : Out :=
  fin (onWrite s who 0x08 (tapRegOff reg) v fun s => tapWrite s who.mid reg v late)

/-- The write of TAP_DATA that completes a sequence with an OP; no event where the sequence does not stand there. -/
def tapLast (s : State) (who : Who) (op : Nat) (v : Word) : State :=
  if s.tap.step = 4 && s.tap.op = op && (op ≠ 1 || s.tap.words.length = 127) then onWrite s who 0x08 0x110 v fun s => tapWrite s who.mid 3 v false else s

/-- TAP_PROGRAM (R507): the 128th word. -/
def execTapProgram (who : Who) (v : Word) (s : State) : Out := fin (tapLast s who 1 v)

/-- TAP_ERASE (R507): the confirm value. -/
def execTapErase (who : Who) (s : State) : Out := fin (tapLast s who 2 0xD0)

/-- TAP_MARGIN (R507): the confirm value. -/
def execTapMargin (who : Who) (s : State) : Out := fin (tapLast s who 3 0xD0)

/-! Reads of the store. -/

/-- The address lies in the page or sector that the running operation changes (R509). -/
def tapHit (o : TapOp) (a n : Nat) : Bool :=
  (o.op = 1 && a < o.addr + 512 && o.addr < a + n) || (o.op = 2 && a < o.addr + tapSectorLen o.addr && o.addr < a + n)

/-- A read of the store, as the array answers it (R505, R509): ECC outcome 0 clean, 1 corrected, 2 uncorrectable. -/
def tapRead (s : State) (a n ecc : Nat) : State :=
  let hit := match s.tap.run with
    | some o => tapHit o a n
    | none => false
  if ecc = 2 then answer (raiseInt (bump s 0x08 0x144 1) 0x08 2) .poison
  else
    let s := if ecc = 1 then bump s 0x08 0x140 1 else s
    if hit then answer s .poison else answer s .ok (leNat (memReadN s a n))

/-- TAP_CFG.PF_EN and BTC_EN (R530). -/
def pfOn (s : State) : Bool := Word.bit (rd s 0x08 0x11C) 16
def btcOn (s : State) : Bool := Word.bit (rd s 0x08 0x11C) 17

/-- The read units of a read. -/
def tapUnits (a n : Nat) : List Nat := (List.range ((a + n - 1) / 32 + 1 - a / 32)).map (a / 32 + ·)

/-- A core fetches at the target of a taken branch (R506): neither the read unit that it fetched last nor the next one (DEDUCED, entry 134). -/
def tapBranch (s : State) (a : Acc) : Bool := a.kind = .fetch && match Tbl.find s.tap.last a.who.mid with
  | some u => !(a.addr / 32 = u || a.addr / 32 = u + 1)
  | none => true

/-- A demand read of one read unit (R506): where it was found (0 the array, 1 the prefetch buffer, 2 the branch target cache), with the buffers after it. -/
def tapUnit (s : State) (branch : Bool) (u : Nat) : Nat × State :=
  let inPf := pfOn s && s.tap.pf.contains u
  let inBtc := btcOn s && s.tap.btc.contains u
  let s := if inPf then bump s 0x08 0x14C 1 else if inBtc then bump s 0x08 0x150 1 else s
  let ahead := ([u + 1, u + 2, u + 3].filter fun w => w < 0x1000000)
  let pf := if pfOn s then (ahead ++ s.tap.pf.filter fun w => !ahead.contains w).take 4 else s.tap.pf
  let btc := if btcOn s && branch && !inPf && !inBtc then (u :: s.tap.btc).take 64 else s.tap.btc
  (if inPf then 1 else if inBtc then 2 else 0, { s with tap := { s.tap with pf := pf, btc := btc } })

/-- The read units of a demand read, in order: whether the array is read, and the buffers after it. -/
def tapLook (s : State) (branch : Bool) (l : List Nat) : Bool × State :=
  l.foldl (fun (r : Bool × State) u => let (w, s) := tapUnit r.2 branch u; (r.1 || w = 0, s)) (false, s)

/-- The read reaches the array (R509): the running operation of its bank is suspended. -/
def tapSuspend (s : State) (a : Nat) : State :=
  match s.tap.run with
  | some o =>
    if tapBank o.addr = tapBank a && !o.suspended then bump { s with tap := { s.tap with run := some { o with suspended := true } } } 0x08 0x148 1 else s
  | none => s

/-- An admitted read of the store (R505, R506, R509): what the buffers hold needs no read of the array. -/
def tapBankTake (s : State) (a : Acc) (ecc : Nat) : State :=
  let branch := tapBranch s a
  let (array, s) := tapLook s branch (tapUnits a.addr a.size)
  let s := if a.kind = .fetch then { s with tap := { s.tap with last := Tbl.put s.tap.last a.who.mid ((a.addr + a.size - 1) / 32) } } else s
  if array then tapRead (tapSuspend s a.addr) a.addr a.size ecc else tapRead s a.addr a.size 0

/-- A read that waited is answered (R509). -/
def tapServe (s : State) : State :=
  match s.tap.waits with
  | [] => s
  | (a, ecc) :: l => tapBankTake { s with tap := { s.tap with waits := l } } a ecc

/-- TAP_OP_COMPLETE (R508, R513): `fail` says that the verify failed, `l` and `h` that a read unit differs at the low and the high margin.
An operation that is suspended does not end (R509); a failed one is no page programmed and no sector erased. -/
def tapComplete (s : State) (fail l h : Bool) : State :=
  match s.tap.run with
  | none => s
  | some o =>
    if o.suspended then s
    else
    let s := { s with tap := { s.tap with run := none } }
    tapServe (match o.op with
    | 1 =>
      let s := tapInval s o.addr 512
      let s := if fail then tapFree s o.addr 512 else memWriteN s o.addr (o.data.flatMap fun w => leBytes 4 w.toNat)
      tapEnd (if fail then s else bump s 0x08 0x154 1) (if fail then 5 else 0) o.addr
    | 2 =>
      let n := tapSectorLen o.addr
      let s := tapInval s o.addr n
      let s := if fail then tapFree s o.addr n else memErase s o.addr n
      tapEnd (if fail then s else bump s 0x08 0x158 1) (if fail then 6 else 0) o.addr
    | _ => tapEnd s ((if l || h then 10 else 0) + l.toNat * 16 + h.toNat * 32) o.addr)

def execTapOpComplete (fail l h : Bool) (s : State) : Out := fin (tapComplete s fail l h)

/-- TAP_BANK_READ (R505, R506, R509, R623): `waits` says that the running operation of the bank has still to run SUSP_MIN_US; the read then waits for it. -/
def tapBankRead (s : State) (a : Acc) (ecc : Nat) (waits : Bool) : State :=
  if placeOf s a.addr ≠ .taproot || a.kind = .write then s
  else
    match busAdmit s a with
    | (.ok, s) =>
      let held := waits && s.tap.run.any fun o => tapBank o.addr = tapBank a.addr && !o.suspended
      if held then { s with tap := { s.tap with waits := s.tap.waits ++ [(a, ecc)] } } else tapBankTake s a ecc
    | (c, s) => answer s c

def execTapBankRead (a : Acc) (ecc : Fin 3) (waits : Bool) (s : State) : Out := fin (tapBankRead s a ecc waits)

/-- TAP_OP_RESUME (R509). -/
def execTapOpResume (s : State) : Out :=
  fin (match s.tap.run with
    | some o => { s with tap := { s.tap with run := some { o with suspended := false } } }
    | none => s)

/-! ### Mailboxes -/

def mbxOf (s : State) (m : Nat) : Mbx := Tbl.getD s.mbx m {}
def setMbx (s : State) (m : Nat) (x : Mbx) : State := { s with mbx := Tbl.put s.mbx m x }

/-- Offset of a mailbox's registers (R529). -/
def mbxOff (m : Nat) : Nat := 0x1000 + 64 * m

/-- The issuer may write a sending slot (R514). No issuer stands for a peer that runs microcode, over its direct link. -/
def mbxSide (s : State) (m slot : Nat) (who : Option Who) : Bool :=
  match who with
  | none => slot = 1 && (m = 4 || m = 5 || (8 ≤ m && m < 20))
  | some w =>
    let core := 0x300 ≤ w.mid && w.mid ≤ 0x303
    if slot = 0 then core
    else if m < 4 then w.mid = 0x300 + m
    else if 20 ≤ m && m < 24 then w.mid = mgmtPort s * 64
    else 24 ≤ m && core

/-- The regions whose fence closes side B of a mailbox (R514, R516). -/
def mbxPeers (s : State) (m : Nat) : List Nat :=
  if m = 4 then [0x02]
  else if 8 ≤ m && m < 16 then [0x10 + m - 8]
  else if 16 ≤ m && m < 20 then (List.range 8).map fun c => 0x20 + (m - 16) * 8 + c
  else if 20 ≤ m && m < 24 then [0x10 + mgmtPort s]
  else []

/-- The peer's domain is Draining, Isolated, Off or Testing (R516). -/
def mbxPeerOff (s : State) (m : Nat) : Bool := (mbxPeers s m).any fun r => match (blkSt s r).st with
  | .draining | .isolated | .off | .testing => true
  | _ => false

/-- The slot is full. -/
def mbxFull (x : Mbx) (slot : Nat) : Bool := if slot = 0 then x.full0 else x.full1

/-- Post a notice (R515). -/
def mbxPost (s : State) (m slot : Nat) (who : Option Who) (tag : Word) : State :=
  let x := mbxOf s m
  if m = 6 || m = 7 then s
  else if !mbxSide s m slot who then blockErr s 0x07 16 0
  else if slot = 0 && mbxPeerOff s m then answer s .domainOff
  else if mbxFull x slot then raiseInt (wrF s 0x07 0x110 m m 1) 0x07 3
  else
    let s := wr s 0x07 (mbxOff m + (if slot = 0 then 0x14 else 0x2C)) tag
    let s := setMbx s m (if slot = 0 then { x with full0 := true } else { x with full1 := true })
    raiseInt (wrF s 0x07 (if slot = 0 then 0x100 else 0x104) m m 1) 0x07 1

/-- MAILBOX_POST (R515): a TAG write through the Trunk, or a post of a microcoded peer. -/
def execMailboxPost (who : Option Who) (m : Fin 32) (slot : Fin 2) (tag : Word) (s : State) : Out :=
  fin (match who with
    | none => mbxPost (answer s .ok) m slot none tag
    | some w => match regAdmit s 0x07 (mbxOff m + (if slot = 0 then 0x14 else 0x2C)) (wrAcc w 0x07 (mbxOff m + (if slot = 0 then 0x14 else 0x2C)) tag) with
      | some (c, s) => answer s c
      | none => mbxPost (answer s .ok) m slot (some w) tag)

/-- The issuer may acknowledge a slot: it is the slot's receiver. -/
def mbxReceiver (s : State) (m slot : Nat) (who : Option Who) : Bool :=
  if slot = 0 then mbxSide s m 1 who else mbxSide s m 0 who

/-- Acknowledge a notice (R515): the sender gets its empty-interrupt. -/
def mbxAck (s : State) (m slot : Nat) (who : Option Who) : State :=
  let x := mbxOf s m
  if m = 6 || m = 7 then s
  else if !mbxReceiver s m slot who then blockErr s 0x07 16 0
  else if !mbxFull x slot then s
  else
    let s := setMbx s m (if slot = 0 then { x with full0 := false } else { x with full1 := false })
    raiseInt (wrF s 0x07 (if slot = 0 then 0x108 else 0x10C) m m 1) 0x07 2

/-- MAILBOX_ACK (R515). -/
def execMailboxAck (who : Option Who) (m : Fin 32) (slot : Fin 2) (s : State) : Out :=
  fin (match who with
    | none => mbxAck (answer s .ok) m slot none
    | some w => onWrite s w 0x07 (mbxOff m + (if slot = 0 then 0x18 else 0x30)) 1 fun s => mbxAck s m slot (some w))

/-- A peer domain's fence is set (R516): a notice in slot 0 is withdrawn, and the Huhild session ends (R518). -/
def mbxWithdraw (s : State) (rgn : Nat) : State :=
  (List.range 32).foldl (fun s m =>
    if (mbxPeers s m).contains rgn then
      let x := mbxOf s m
      let y := { x with full0 := false, offer0 := none, offer1 := none, ver0 := none, ver1 := none }
      let s := if x = y then s else setMbx s m y
      if x.full0 then raiseInt (wrF (wrF s 0x07 0x114 m m 1) 0x07 0x108 m m 1) 0x07 2 else s
    else s) s

/-- A peer domain has returned (R516): both slots of its mailboxes are empty. -/
def mbxReturn (s : State) (rgn : Nat) : State :=
  (List.range 32).foldl (fun s m =>
    let x := mbxOf s m
    if (mbxPeers s m).contains rgn && !mbxPeerOff s m && (x.full0 || x.full1) then setMbx s m { x with full0 := false, full1 := false } else s) s

/-! ### Huhild -/

/-- The version that HELLO_ACK names (R518): the highest common major, with the lower of the two highest minors; major 0 where none is common. -/
def hhVersion (a b : List (Nat × Nat)) : Nat × Nat :=
  let common := a.filter fun p => b.any fun q => q.1 = p.1
  let maj := (common.map (·.1)).foldl max 0
  let minor (l : List (Nat × Nat)) : Nat := match l.find? fun p => p.1 = maj with
    | some p => p.2
    | none => 0
  if common = [] then (0, 0) else (maj, min (minor a) (minor b))

/-- HUHILD_HELLO (R518): a HELLO sent through a slot restarts the session that way with the versions it offers. -/
def execHuhildHello (m : Fin 32) (slot : Fin 2) (pairs : List (Fin 256 × Fin 256)) (s : State) : Out :=
  let l := pairs.map fun p => (p.1.val, p.2.val)
  let x := mbxOf s m
  fin (if l.length = 0 || 8 < l.length || m.val = 6 || m.val = 7 then s
    else setMbx s m (if slot = 0 then { x with offer0 := some l, ver0 := none } else { x with offer1 := some l, ver1 := none }))

/-- HUHILD_HELLO_ACK (R518): the receiver of a HELLO, which supports `pairs`, names the version. -/
def execHuhildHelloAck (m : Fin 32) (slot : Fin 2) (pairs : List (Fin 256 × Fin 256)) (s : State) : Out :=
  let l := pairs.map fun p => (p.1.val, p.2.val)
  let x := mbxOf s m
  let ack (o : List (Nat × Nat)) : Nat × Nat := hhVersion o l
  fin (match (if slot = 0 then x.offer0 else x.offer1) with
    | none => s
    | some o => answer (setMbx s m (if slot = 0 then { x with ver0 := some (ack o) } else { x with ver1 := some (ack o) })) .ok ((ack o).1 + (ack o).2 * 256))

/-- HUHILD_MESSAGE (R517, R518): answered with the TYPE of the answer: ERROR (3) NOT_READY before HELLO_ACK; nothing where no major is common. -/
def execHuhildMessage (m : Fin 32) (slot : Fin 2) (typ : Fin 65536) (s : State) : Out :=
  let x := mbxOf s m
  fin (if typ.val = 1 || typ.val = 2 then s
    else match (if slot = 0 then x.ver0 else x.ver1) with
    | none => answer s .ok 3
    | some v => if v.1 = 0 then s else answer s .ok typ)

end Sys2Proof.Machine
end

