-- ==== Sys2Proof/Machine/Ftl.lean ====
section
/-! DEFINITION. The map walker's commands (R168 to R199, R630). -/

namespace Sys2Proof.Machine

/-- An event whose severity the spec does not state: the severity is a free value. -/
def emitFree (s : State) (code rgn : Nat) (tenant : Option Nat) (detail : List Byte) : State :=
  let (f, s) := takeFree s
  emit s code (f % 5) rgn tenant detail

/-! ### Leaves in motion -/

/-- PAGE_IN_COMPLETE (R169): once all its codewords have come the leaf is installed, or it is unreadable. -/
def pageInComplete (s : State) (root : Nat) : State :=
  match Tbl.find s.ftl.pageIns root with
  | none => s
  | some q => match q.src with
    | .flash loc =>
      if !q.issued || q.left ≠ 0 then s
      else match q.failed, pgDecode (geomPlanes s) root loc q.parts with
        | false, some (lseq, ents) => pgArrived s root loc lseq ents q
        | _, _ => leafUnreadable s root
    | _ => s

def execPageInComplete (root : Nat) (s : State) : Out := finMedia (pageInComplete s root)

/-- HMB_MOVE_COMPLETE (R174): the leaf passes its checks and takes its frame, or its descriptor is discarded. -/
def hmbMoveComplete (s : State) (root : Nat) (ok : Bool) : State :=
  match Tbl.find s.ftl.moving root with
  | none => s
  | some d =>
    match ok, Tbl.find s.ftl.hmb d, Tbl.find s.ftl.pageIns root with
    | true, some h, some q =>
      let s := bump (moveOver s root d) 0x0E 0x184 1
      pgInstall s root q { leaf := root, loc := h.loc, raw := h.raw, lseq := h.lseq, entries := h.entries }
    | _, _, _ => hmbDiscard (emitFree (bump s 0x0E 0x194 1) 0x5002 0x0E none (leBytes 4 root)) root d

def execHmbMoveComplete (root : Nat) (ok : Bool) (s : State) : Out := finMedia (hmbMoveComplete s root ok)

/-- HMB_MOVE_TIMEOUT (R174). -/
def hmbMoveTimeout (s : State) (root : Nat) : State :=
  match Tbl.find s.ftl.moving root with
  | none => s
  | some d => hmbDiscard (emitFree (bump s 0x0E 0x194 1) 0x5003 0x0E none (leBytes 4 root)) root d

def execHmbMoveTimeout (root : Nat) (s : State) : Out := finMedia (hmbMoveTimeout s root)

/-- The drop of the whole HMB tier (R175): every held leaf's root entry returns to TIER FLASH; leaves that move, or wait to, are read from flash. -/
def hmbDrop (s : State) : State :=
  if s.ftl.hmbMem = [] then s
  else
    let s := s.ftl.pageIns.foldl (fun s p => match p.2.src with
      | .hmb d => hmbDiscard s p.1 d
      | _ => s) s
    let s := s.ftl.hmb.foldl (fun s p => setRoot s p.2.leaf { rootOf s p.2.leaf with tier := .flash p.2.loc }) s
    { s with ftl := { s.ftl with hmb := [], hmbOrder := [], hmbMem := [], hmbDropping := true } }

/-- HMB_DROP_COMPLETE (R175). -/
def hmbDropComplete (s : State) : State :=
  if s.ftl.hmbDropping then raiseInt { s with ftl := { s.ftl with hmbDropping := false } } 0x0E 3 else s

def execHmbDropComplete (s : State) : Out := fin (hmbDropComplete s)

/-- LEAF_WRITEBACK_START (R171): the writeback of a leaf that something asks for starts. -/
def execLeafWritebackStart (root : Nat) (s : State) : Out := finMedia (if wbMay s root then writebackStart s root else s)

def execLeafWritebackDone (root : Nat) (s : State) : Out := finMedia (writebackDone s root)

/-- JOURNAL_PAGE_TIMER (R184): a partly filled journal page is written. -/
def execJournalPageTimer (s : State) : Out := finMedia (writeJournalPage s)

/-! ### The work ring -/

/-- Why a work entry is malformed (R194, R196): opcode, reserved field, range, address. -/
def ftlBad (s : State) (d : List Byte) : Nat :=
  let opc := (d.headD 0).toNat
  let range := entArg0 d + entArg1 d ≤ rdEntries s
  if opc = 0 || 0xB < opc then 1
  else if !zeroBytes d 1 1 || !zeroBytes d 24 8 || (opc = 0xB && 512 ≤ entArg0 d) || (opc = 9 && 1024 ≤ entArg2 d) then 2
  else if ((opc = 1 || opc = 2 || opc = 5) && !range) || (opc = 3 && rdEntries s ≤ entArg0 d)
      || (opc = 8 && entArg0 d ≠ 0xFFFFFFFF && rdEntries s ≤ entArg0 d) then 3
  else if ((opc = 5 || opc = 6 || opc = 7) && !inDram s (entArg2 d) 1) || (opc = 9 && !inDram s (entArg1 d) 1) then 4
  else 0

/-- A write of FTL_WR_TAIL (R193, R196). -/
def ftlTailWrite (s : State) (v : Word) : State :=
  if ringSize s 0x0E ≤ Word.fld v 11 0 then
    ringFault { s with ftl := { s.ftl with ring := { s.ftl.ring with stopped := true } } } 0x0E (Word.fld v 11 0) 5
  else
    let s := wr s 0x0E 0x100C (v &&& 0xFFF)
    if !isEnabled s 0x0E then s
    else
      let (s, ring) := ringFetch ⟨0x3A0, 0⟩ 0x0E 32 ftlBad s s.ftl.ring 4096
      { s with ftl := { s.ftl with ring := ring } }

def execFtlWorkTailWrite (who : Who) (v : Word) (s : State) : Out :=
  fin (onWrite s who 0x0E 0x100C v fun s => ftlTailWrite s v)

/-- Perform the next entry of the ring, where it has this opcode; a device in Fault performs none (R193, R196). -/
def ftlWork (s : State) (opc : Nat) (f : State → List Byte → State) : State :=
  if s.dev.fault then s
  else match ringTake s.ftl.ring opc with
  | none => s
  | some (d, r) => f { s with ftl := { s.ftl with ring := r } } d

/-- A leaf on its way into the Canopy no longer comes: codewords that arrive for it find nothing. -/
def pgCancel (s : State) (root : Nat) : State :=
  if (Tbl.find s.ftl.pageIns root).isNone then s
  else
    let s := pgRelease s root
    setRoot { s with ftl := { s.ftl with moving := Tbl.del s.ftl.moving root } } root { rootOf s root with busy := false }

/-- NS_INIT (R194): root entries of a range take GLEN 0. -/
def nsInit (s : State) (d : List Byte) : State :=
  ftlDone ((List.range (entArg1 d)).foldl (fun s i => dropLeaf (pgCancel s (entArg0 d + i)) (entArg0 d + i)) s) d 0 0

def execNsInit (s : State) : Out := finMedia (ftlWork s 0x1 nsInit)

/-- NS_FREE (R194): the frames and descriptors of a range are dropped. -/
def nsFree (s : State) (d : List Byte) : State :=
  ftlDone ((List.range (entArg1 d)).foldl (fun s i => dropCopy (pgCancel s (entArg0 d + i)) (entArg0 d + i)) s) d 0 0

def execNsFree (s : State) : Out := finMedia (ftlWork s 0x2 nsFree)

/-- LEAF_WB (R194): completes when the leaf is written; at once where it is clean, or unreadable (R195). -/
def leafWb (s : State) (d : List Byte) : State :=
  let root := entArg0 d
  if s.ftl.rebuilding.contains root then ftlDone s d 2 0
  else if !(rootOf s root).dirty then ftlDone s d 0 0
  else queueWb { s with ftl := { s.ftl with wbEnts := s.ftl.wbEnts ++ [(root, d, 0)] } } root

def execLeafWb (s : State) : Out := finMedia (ftlWork s 0x3 leafWb)

/-- CKPT_BEGIN (R186): the replay start is recorded, and every dirty leaf is to be written back. A checkpoint whose CKPT_BEGIN has not ended is given up: its
entry ends as partly done (DESIGN CHOICE, entry 125). -/
def ckptBegin (s : State) (d : List Byte) : State :=
  let s := match s.ftl.ckpt with
    | some k => match k.ent with
      | some e => ftlDone s e 1 k.total
      | none => s
    | none => s
  let dirty := (s.ftl.root.filter fun p => p.2.dirty).map fun p => (p.1, currentLseq s p.1)
  settleCkpt { s with ftl := { s.ftl with ckpt := some { number := entArg1 d, start := s.ftl.jseq, left := dirty, ent := some d } } }

def execCkptBegin (s : State) : Out := finMedia (ftlWork s 0x4 ckptBegin)

/-- DIR_SNAPSHOT (R186): the flash location word of every root entry of the range is written to flash, in pages of 2,048 words. -/
def dirSnapshot (s : State) (d : List Byte) : State :=
  let first := entArg0 d
  let words := ((List.range (entArg1 d)).map fun i => (first + i, flashLoc s (first + i))).filter fun p => p.2 ≠ 0
  let num := match s.ftl.ckpt with
    | some k => k.number
    | none => 0
  let pages := ceilDiv (entArg1 d) 2048
  let s := { s with ftl := { s.ftl with
    snapRun := some { ent := d, pages := pages }
    ckpt := s.ftl.ckpt.map fun k => { k with snap := words.foldl (fun t p => Tbl.put t p.1 p.2) k.snap } } }
  settleSnap ((List.range pages).foldl (fun s k =>
    let lo := first + 2048 * k
    queueItem s {
      tenant := 0, ruh := ruhMap, src := .snapPage k, content := .snapshot num lo (words.filter fun p => lo ≤ p.1 && p.1 < lo + 2048), slots := 4 }) s)

/-- One DIR_SNAPSHOT runs at a time: the next entry waits for it. -/
def execDirSnapshot (s : State) : Out := finMedia (if s.ftl.snapRun.isSome then s else ftlWork s 0x5 dirSnapshot)

/-- CKPT_COMMIT (R186, R188): the anchor image, of one codeword (DESIGN CHOICE, entry 121), is written to both anchor areas, the counters restart from the new replay
start, the two newest checkpoints are kept, and what only older ones needed is released. A refused read of the image is a Fault (R142). -/
def ckptCommit (s : State) (d : List Byte) : State :=
  match s.ftl.ckpt with
  | none => ftlDone s d 1 0
  | some k =>
    match busRead s ⟨0x3A0, 0⟩ (entArg2 d) 4096 with
    | (.ok, image, s) =>
      let ck : Ckpt := { number := k.number, start := k.start, words := k.snap, pages := k.pages, image := image, epochs := s.sec.epochs, used := (s.cpc.rus.filter fun p => p.2.st ≠ .free).map (·.1) }
      let ckpts := (ck :: s.ftl.ckpts).take 2
      let oldest := (ckpts.getLastD ck).start
      let s := { s with pwr := { s.pwr with flushSince := false, ckptSeq := some s.ftl.jseq } }
      let s := { s with ftl := { s.ftl with
        ckpts := ckpts, ckpt := none, jstart := k.start
        dirtySince := s.ftl.dirtySince.filter fun p => k.start ≤ p.2
        jpages := s.ftl.jpages.filter fun pg => pg.any fun r => oldest ≤ r.jseq } }
      let s := { s with cpc := { s.cpc with rus := s.cpc.rus.map fun p =>
        if p.2.ruh = ruhMap && p.2.tenant = 0 then (p.1, { p.2 with valid := p.2.valid.filter (mapLive s) }) else p } }
      ftlDone s d 0 0
    | (_, _, s) => enterFault s 0x0E

/-- An anchor waits for the leaves and the snapshot that it names. -/
def execCkptCommit (s : State) : Out :=
  finMedia (if s.ftl.snapRun.isSome || s.ftl.ckpt.any (·.ent.isSome) then s else ftlWork s 0x6 ckptCommit)

/-! ### Replay and rebuild -/

/-- The states of reclaim units after replay (R630). -/
def settleRus (s : State) : State :=
  { s with cpc := { s.cpc with
    opens := []
    rus := s.cpc.rus.map fun p => (p.1, match p.2.st with
      | .opened => { p.2 with
          st := .closed, short := true, closing := false, open_ := []
          degraded := p.2.degraded || p.2.open_.any fun w => !w.2.parityDone && w.2.units.any fun u => u.2 = UnitSt.done }
      | .erasing => { p.2 with st := .free, tenant := 0, erased := [], open_ := [] }
      | _ => { p.2 with open_ := [] }) } }

/-- Put a record in JSEQ order among others. -/
def insertRec (r : JRec) : List JRec → List JRec
  | [] => [r]
  | x :: t => if r.jseq < x.jseq then r :: x :: t else x :: insertRec r t

/-- An RU that the checkpoint records as FREE takes the epoch that its tenant held at that checkpoint (R421). -/
def ckptEpochs (s : State) (k : Ckpt) : State :=
  { s with cpc := { s.cpc with rus := s.cpc.rus.map fun p =>
    (p.1, if k.used.contains p.1 then p.2 else { p.2 with epoch := Tbl.getD k.epochs p.2.tenant 0 }) } }

/-- The snapshot of a checkpoint can be read: every slot of its pages holds one. -/
def snapReadable (s : State) (k : Ckpt) : Bool :=
  k.pages.all fun p => (List.range 4).all fun j => match Tbl.find s.flash.cells (p + j) with
    | some (.snapshot _ _ _ _) => dieUsable s (puaDie p)
    | _ => false

/-- REPLAY (R183, R185, R189, R421, R630): the directory of the checkpoint whose replay start is named, then the records from there on in JSEQ
order; victims resume. A snapshot that cannot be read ends it with STATUS 2, and a malformed record is a Fault. -/
def replay (s : State) (d : List Byte) : State :=
  let start := entArg1 d
  let recs : List JRec := ((s.ftl.jpages.flatten).filter fun r => start ≤ r.jseq).foldl (fun l r => insertRec r l) []
  let ck : Option Ckpt := s.ftl.ckpts.find? fun k => k.start = start
  if (ck.any fun k => !snapReadable s k) = true then ftlDone s d 2 0
  else if recs.any (recBad s) then mapCorrupt s
  else
    let s := match ck with
      | some k => k.words.foldl (fun (s : State) (w : Nat × Nat) => setRoot s w.1 { tier := .flash w.2 }) (ckptEpochs s k)
      | none => s
    let s := { s with ftl := { s.ftl with replayRun := some (d, []), jstart := start, jseq := (recs.map fun (r : JRec) => r.jseq + 1).foldl max s.ftl.jseq } }
    let s := settleRus (recs.foldl applyRecord s)
    settleReplay (s.cpc.rus.foldl (fun (s : State) (p : Nat × Ru) => if p.2.st = RuSt.victim then startVictim s p.1 p.2.wear else s) s)

def execReplay (s : State) : Out := finMedia (ftlWork s 0x7 replay)

/-- The summary of an RU is unreadable (R191): SUMMARY_LOAD could not load it, or a line of its bitmap in DRAM is poisoned. -/
def summaryLost (s : State) (i : Nat) : Bool :=
  let stride := rdF s 0x0F 0x12C 19 0
  let lo := baseAt s 0x0F 0x124 + stride * i
  (ruAt s i).nosum || (stride ≠ 0 && s.dmc.poison.any fun p => p.2 && lineOf lo ≤ p.1 && p.1 ≤ lineOf (lo + stride - 1))

/-- RUs whose bitmap a rebuild finds unreadable take NOSUM (R191, R203). -/
def noteNosum (s : State) (t : Nat) : State :=
  s.cpc.rus.foldl (fun (s : State) (p : Nat × Ru) => if p.2.tenant = t && !p.2.nosum && summaryLost s p.1 then setRu s p.1 { ruAt s p.1 with nosum := true } else s) s

/-- The entry a rebuild gives an MU (R191): of the units in the RUs of the owning tenant, the valid one with the highest write sequence; UNCORR where that unit lies in
an RU whose summary is unreadable. -/
def rebuildEntry (s : State) (tenant nsid mu : Nat) : Nat :=
  let cand := s.flash.cells.filterMap fun c => match c.2.asRead, ruOfPua s c.1 with
    | .user n m _ _ w _ _, some i =>
      if n = nsid && m = mu && (ruAt s i).tenant = tenant && ((ruAt s i).valid.contains c.1 || (ruAt s i).nosum) then some (w, c.1, i) else none
    | _, _ => none
  match cand.foldl (fun b c => match b with
    | none => some c
    | some x => if x.1 < c.1 then some c else b) none with
  | none => 0
  | some (_, p, i) => if (ruAt s i).nosum then entUncorr else entMapped p

/-- Rebuild one leaf (R191, R192): from headers, then the journal from the replay start; the result goes to the Canopy, DIRTY. The MUs set to UNCORR are counted. -/
def rebuildLeaf (s : State) (root : Nat) : Nat × State :=
  match nsOfRoot s root with
  | none => (0, setRoot { s with ftl := { s.ftl with rebuilding := s.ftl.rebuilding.filter (· ≠ root) } } root { rootOf s root with busy := false })
  | some (id, n) =>
    let base := root * 2048
    let s := noteNosum s n.owner
    let ents := (List.range 2048).foldl (fun t o => Tbl.putC 0 t o (rebuildEntry s n.owner id (base + o - n.leafBase * 2048))) ([] : Tbl Nat)
    let recs := (s.ftl.jpages.flatten ++ s.ftl.jpending ++ s.ftl.jbuf).filter fun r => s.ftl.jstart ≤ r.jseq
    let ents := recs.foldl (fun t r => (recChanges r root t).foldl (fun t c => Tbl.putC 0 t c.1 c.2) t) ents
    let (ext, g) := leafForm s ents
    let s := dropCopy s root
    let s := setRoot s root { tier := .flash 0, busy := true }
    (countOf (fun e => e.2 = entUncorr) ents,
      pgBegin s root { src := .rebuilt (s.ftl.jseq - 1) (!ext) ents, granules := List.range g })

/-- The Canopy or the HMB tier holds a whole copy of a leaf (R191). -/
def leafHeld (s : State) (root : Nat) : Bool :=
  match (rootOf s root).tier with
  | .hmb _ => true
  | .canopy i => match Tbl.find s.ftl.frames i with
    | some f => (!f.raw || f.grans.length = 10) && !s.ftl.rebuilding.contains root
    | none => false
  | _ => false

/-- LEAF_REBUILD starts (R191, R192): the leaves hold BUSY, and every namespace is not ready where all are named. A leaf that the Canopy or the HMB tier holds is not
rebuilt. -/
def rebuildStart (s : State) (d : List Byte) : State :=
  let all := entArg0 d = 0xFFFFFFFF
  let roots := (if all then (s.ten.nss.filter fun p => p.2.kind = .nvm).flatMap fun p => (List.range p.2.leafCount).map (p.2.leafBase + ·)
    else [entArg0 d]).filter fun r => !leafHeld s r
  let s := roots.foldl (fun s r => let s := pgCancel s r; setRoot s r { rootOf s r with busy := true }) s
  let s := { s with ftl := { s.ftl with
    rebuilding := (s.ftl.rebuilding ++ roots).eraseDups, rebuildAll := s.ftl.rebuildAll || all
    rebuilds := s.ftl.rebuilds ++ [{ ent := d, left := roots }] } }
  if all then { s with ten := { s.ten with nss := s.ten.nss.map fun p => (p.1, { p.2 with notReady := true }) } } else s

/-- The scan of the oldest rebuild ends (R191). -/
def rebuildScan (s : State) : State :=
  match s.ftl.rebuilds.find? fun r => !r.scanned with
  | none => s
  | some r =>
    let (lost, s) := r.left.foldl (fun (a : Nat × State) root => let b := rebuildLeaf a.2 root; (a.1 + b.1, b.2)) (0, s)
    settleRebuild { s with ftl := { s.ftl with rebuilds := s.ftl.rebuilds.map fun x => if x = r then { x with scanned := true, lost := lost } else x } }

/-- LEAF_REBUILD: an entry starts its rebuild, and the scan ends. -/
def execLeafRebuild (ends : Bool) (s : State) : Out := finMedia (if ends then rebuildScan s else ftlWork s 0x8 rebuildStart)

/-- HMB_ATTACH (R173, R194): host descriptors of 16 bytes, address and size in 4 KiB pages; granted memory below HMMIN leaves the
tier disabled. -/
def hmbAttach (s : State) (d : List Byte) : State :=
  match busRead s ⟨0x3A0, 0⟩ (entArg1 d) (16 * entArg2 d) with
  | (.ok, b, s) =>
    let sizes := (List.range (entArg2 d)).map fun i => leNat ((b.drop (16 * i + 8)).take 4) * 4
    let mem := (sizes.foldl (fun (a : Nat × List (Nat × Nat)) n => (a.1 + n, a.2 ++ [(a.1, n)])) (0, [])).2
    if sizes.sum < 262144 * 4 then ftlDone s d 1 0 else ftlDone { s with ftl := { s.ftl with hmbMem := mem } } d 0 0
  | (_, _, s) => enterFault s 0x0E

def execHmbAttach (s : State) : Out := finMedia (ftlWork s 0x9 hmbAttach)

def execHmbDetach (s : State) : Out := finMedia (ftlWork s 0xA fun s d => ftlDone (hmbDrop s) d 0 0)

/-- EVICT_OWNER (R194): it ends when every leaf is out. -/
def evictOwner (s : State) (d : List Byte) : State := settleEvict { s with ftl := { s.ftl with evicts := s.ftl.evicts ++ [d] } }

def execEvictOwner (s : State) : Out := finMedia (ftlWork s 0xB evictOwner)

/-- FTL_COMPLETION_POST (R193, R195): the oldest of what has ended is posted while the ring has a free slot; a walker that has stopped posts nothing (R196). -/
def ftlPost (s : State) : State :=
  if s.ftl.ring.stopped || s.dev.fault then s
  else
    let (s, r) := ringPost ⟨0x3A0, 0⟩ 0x0E 16 1 s s.ftl.ring
    { s with ftl := { s.ftl with ring := r } }

def execFtlCompletionPost (s : State) : Out := fin (ftlPost s)

end Sys2Proof.Machine
end

