-- ==== Sys2Proof/Machine/GraftOps.lean ====
section
/-! DEFINITION. Graft's images, slot record, tickets and settings copies, and the advance of the fused count (R534 to R551, R482 step 4). -/

namespace Sys2Proof.Machine

/-! ### Images -/

/-- The base of a slot (R504): 0 slot A, 1 slot B. -/
def slotBase (slot : Nat) : Nat := if slot = 0 then 0x04000000 else 0x14000000

/-- The manifest of a slot, 8,192 bytes, and its digest (R534). -/
def manifestOf (s : State) (slot : Nat) : List Byte := memReadN s (slotBase slot) 8192
def manifestDigest (s : State) (slot : Nat) : List Byte := sha384 (manifestOf s slot)

/-- Manifest fields (R535). -/
def manSvn (m : List Byte) : Nat := leAt m 8 4
def manRevision (m : List Byte) : List Byte := (m.drop 16).take 8
def manTested (m : List Byte) : Nat := leAt m 41 1

/-- Part entry i and its fields (R536). -/
def partEnt (m : List Byte) (i : Nat) : List Byte := (m.drop (64 + 128 * i)).take 128
def partInherit (e : List Byte) : Bool := leAt e 1 1 % 2 = 1
def partSecret (e : List Byte) : Bool := leAt e 1 1 / 2 % 2 = 1
def partVersion (e : List Byte) : Nat := leAt e 4 4
def partOff (e : List Byte) : Nat := leAt e 8 4
def partLen (e : List Byte) : Nat := leAt e 12 4
def partDigest (e : List Byte) : List Byte := (e.drop 16).take 48

/-- A part entry keeps the format (R536). -/
def partOk (e : List Byte) (i : Nat) : Bool :=
  leAt e 0 1 = i + 1 && leAt e 1 1 < 4 && leAt e 2 2 = 0 && partOff e % 4096 = 0 && 0x40000 ≤ partOff e && 1 ≤ partLen e
    && partOff e + partLen e ≤ 0xBC00000 && zeroBytes e 112 16 && (partSecret e || leAt e 80 4 = 0)

/-- Two parts overlap. -/
def partsMeet (a b : List Byte) : Bool := partOff a < partOff b + partLen b && partOff b < partOff a + partLen a

/-- The manifest passes its format check (R535, R536). -/
def manifestOk (m : List Byte) : Bool :=
  leAt m 0 4 = 0x54465247 && leAt m 4 2 = 1 && leAt m 6 2 = 0 && manSvn m ≤ 128 && leAt m 40 1 = 7 && 1 ≤ manTested m && manTested m ≤ 64
    && zeroBytes m 42 22 && zeroBytes m 2752 1344 && zeroBytes m 4512 3680 && zeroBytes m 4292 28 && leAt m 4288 4 < 2
    && (List.range 7).all (fun i => partOk (partEnt m i) i)
    && (List.range 7).all fun i => (List.range 7).all fun j => i = j || !partsMeet (partEnt m i) (partEnt m j)

/-- An ECDSA P-384 signature r‖s over a message, under a key X‖Y (R538). -/
def sigOk (key sig msg : List Byte) : Bool :=
  let x := beNat (key.take 48)
  let y := beNat (key.drop 48)
  let r := beNat (sig.take 48)
  let t := beNat (sig.drop 48)
  x < p384.p && y < p384.p && p384.on x y && 1 ≤ r && r < p384.n && 1 ≤ t && t < p384.n && pkeVerifySig p384 (beNat (sha384 msg)) r t x y = 0

/-- SIGNATURE verifies, and ENDORSE where DELEGATED is 1 (R538). A retired PKE verifies nothing (R578). -/
def manifestSigned (s : State) (m : List Byte) : Bool :=
  let root := (m.drop 4096).take 96
  let key := (m.drop 4192).take 96
  !blkRetired s 0x0B && sigOk key ((m.drop 4416).take 96) (m.take 4416)
    && (leAt m 4288 4 = 0 || sigOk root ((m.drop 4320).take 96) ((m.drop 4192).take 100))

/-- The bytes of a key hash in the fuses: 0 the vendor's, 1 to 4 the operator's. -/
def keyHash (s : State) (k : Nat) : List Byte :=
  (List.range 12).flatMap fun i => leBytes 4 (Tbl.getD s.fus.eff (if k = 0 then 0x20 + i else 0x30 + 12 * (k - 1) + i) 0).toNat

/-- The state of a LIFECYCLE word (R490). -/
def lifeState (w : Word) : Nat := if Word.bit w 3 then 4 else if Word.bit w 2 then 3 else if Word.bit w 1 then 2 else if Word.bit w 0 then 1 else 0

/-- The lifecycle in effect. -/
def lifecycle (s : State) : Nat := lifeState (Tbl.getD s.fus.eff 0 0)

/-- The chain ends at a usable key hash that the lifecycle permits (R538, R490). -/
def chainOk (s : State) (m : List Byte) : Bool :=
  let root := (m.drop 4096).take 96
  let h := sha384 root
  (leAt m 4288 4 = 1 || (m.drop 4192).take 96 = root)
    && s.fus.usable.any fun k => keyHash s k = h && (k = 0 || lifecycle s ≠ 0)

/-- The count of one SVN word, by its bits set (R549). -/
def svnWord (w : Word) : Nat := countOf (fun i => Word.bit w i) (List.range 32)

/-- The fused count of a resolved array (R549). -/
def svnCount (t : Tbl Word) : Nat := sumOf (fun k => svnWord (Tbl.getD t (4 + k) 0)) (List.range 4)

/-- A part's stored bytes. -/
def partBytes (s : State) (slot : Nat) (e : List Byte) : List Byte := memReadN s (slotBase slot + partOff e) (partLen e)

/-- The seven versions equal one tested-set entry (R537). -/
def testedOk (m : List Byte) : Bool :=
  (List.range (manTested m)).any fun j => (List.range 7).all fun i => leAt m (960 + 28 * j + 4 * i) 4 = partVersion (partEnt m i)

/-- Stepping B1 is supported by every part (R537). -/
def steppingsOk (m : List Byte) : Bool := (List.range 7).all fun i => ((partEnt m i).drop 64).take 8 |>.contains 0xB1

/-- Why a slot is refused (R482, R541 codes 1 to 7); 0 where it is not. `more` is what code 5 adds at a Commit. -/
def slotRefusal (s : State) (slot : Nat) (more : Bool) : Nat :=
  let m := manifestOf s slot
  if !manifestOk m then 1
  else if !manifestSigned s m then 2
  else if !chainOk s m then 3
  else if manSvn m < svnCount s.fus.eff then 4
  else if more || !((List.range 7).all fun i => sha384 (partBytes s slot (partEnt m i)) = partDigest (partEnt m i)) then 5
  else if !testedOk m then 6
  else if !steppingsOk m then 7
  else 0

/-! ### Slot record and tickets -/

/-- The other slot. -/
def otherSlot (k : Nat) : Nat := 1 - k

/-- A ticket of a slot counts (R544). -/
def ticketsOf (s : State) (slot : Nat) : List Ticket :=
  (Tbl.getD s.graft.tickets slot []).filter fun t => t.gen = s.graft.srec.gen && t.digest = manifestDigest s slot

def hasTicket (s : State) (slot typ : Nat) : Bool := (ticketsOf s slot).any fun t => t.typ = typ

/-- Revert a record (R545). -/
def SlotRec.revert (r : SlotRec) : SlotRec := { r with pref := r.fallback.getD (otherSlot r.pref), trial := false, fallback := none }

/-- A record page, and what a page holds of a record where it is valid (R543). -/
def recordBytes (r : SlotRec) : List Byte :=
  let b := padTo 508 (fieldBytes [(4, 0x43455253), (8, r.gen), (1, r.pref), (1, r.trial.toNat), (1, r.fallback.getD 0xFF), (1, r.misses), (4, r.boot), (8, r.trialOpsec)]
    ++ r.digest)
  b ++ leBytes 4 (crc32c b)
def recordParse (b : List Byte) : Option SlotRec :=
  if leAt b 0 4 ≠ 0x43455253 || leAt b 508 4 ≠ crc32c (b.take 508) then none
  else some {
    gen := leAt b 4 8, pref := leAt b 12 1, trial := leAt b 13 1 = 1, fallback := if leAt b 14 1 = 0xFF then none else some (leAt b 14 1), misses := leAt b 15 1
    boot := leAt b 16 4, trialOpsec := leAt b 20 8, digest := (b.drop 28).take 48 }

/-- The valid pages of a copy of the record, each of 64 pages in two sectors (R504, R543); pages that were never programmed hold none. -/
def recordPages (s : State) (c : Nat) : List (Nat × SlotRec) :=
  let l := ((s.mem.filter fun x => 0x8000 * c ≤ x.1 && x.1 < 0x8000 * c + 0x8000).map fun x => (x.1 - 0x8000 * c) / 512).eraseDups
  l.filterMap fun p => (recordParse (memReadN s (0x8000 * c + 512 * p) 512)).map fun r => (p, r)

/-- The page with the highest GEN. -/
def newestPage (l : List (Nat × SlotRec)) : Option (Nat × SlotRec) := l.foldl (fun b p => match b with
  | some q => if q.2.gen < p.2.gen then some p else some q
  | none => some p) none

/-- The record that stands (R543); with no valid page, the one in force stays (DESIGN CHOICE, entry 72). -/
def recordRead (s : State) : SlotRec := match newestPage (recordPages s 0 ++ recordPages s 1) with
  | some q => q.2
  | none => s.graft.srec

/-- Append a page to a copy (R543): a sector that the pages come round to is erased first. -/
def appendPage (s : State) (c : Nat) (r : SlotRec) : State :=
  let p := match newestPage (recordPages s c) with
    | some q => (q.1 + 1) % 64
    | none => 0
  let a := 0x8000 * c + 512 * p
  let lo := 0x8000 * c + p / 32 * 0x4000
  tapPut (if tapBlank s a then s else tapWipe s lo 0x4000) a (recordBytes r)

/-- Write a new record page where a field has changed: the first copy, then the second (R543, R545). -/
def putRecord (s : State) (r : SlotRec) : State :=
  let r := { r with digest := manifestDigest s r.pref, gen := s.graft.srec.gen }
  if r = s.graft.srec then s
  else
    let r := { r with gen := r.gen + 1 }
    appendPage (appendPage { s with graft := { s.graft with srec := r } } 0 r) 1 r

/-- Record a revert with its cause: 1 FAULT, 2 watchdog, 3 three misses, 4 REJECT, 5 refused at boot. -/
def graftReverted (s : State) (cause : Nat) : State := emitFree s 0x2006 0x00 none [BitVec.ofNat 8 cause]

/-- The boot ROM's update of the slot record (R545). After a Commit in Dormant the trial has no FALLBACK (R551). -/
def bootRecord (s : State) : State :=
  let r := recordRead s
  let s := { s with graft := { s.graft with srec := r } }
  if r.trial then
    let has (t : Nat) : Bool := hasTicket s r.pref t
    if has 4 then putRecord s { r with trial := false }
    else if has 5 || has 3 || rdF s 0x00 0x104 3 0 = 4 then
      graftReverted (putRecord s r.revert) (if has 5 then 4 else if has 3 then 1 else 2)
    else
      let ready := (ticketsOf s r.pref).any fun t => t.typ = 2 && t.boot = r.boot
      let misses := if ready then 0 else r.misses + 1
      if 3 ≤ misses then graftReverted (putRecord s { r with misses := misses }.revert) 3
      else putRecord s { r with misses := misses, boot := r.boot + 1 }
  else if hasTicket s (otherSlot r.pref) 1 then
    emitFree (putRecord s { r with
      fallback := if (ticketsOf s (otherSlot r.pref)).any fun t => t.typ = 1 && t.rom then none else some r.pref, pref := otherSlot r.pref, trial := true, boot := 1, misses := 0, trialOpsec := s.dev.opsec }) 0x2005 0x00 none
      [BitVec.ofNat 8 (otherSlot r.pref)]
  else s

/-! ### Settings -/

/-- Keep the settings in use in the copy in use (R546). -/
def settingsSync (s : State) : State :=
  match s.graft.copyUsed with
  | some k => { s with graft := { s.graft with settings := Tbl.adj s.graft.settings k fun c => { c with data := s.ten.saved } } }
  | none => s

/-- The copy with the highest GEN of a list. -/
def newestCopy (l : Tbl SettingsCopy) : Option (Nat × SettingsCopy) :=
  l.foldl (fun b p => match b with
    | some q => if q.2.gen < p.2.gen then some p else some q
    | none => some p) none

/-- The image starts (R546): it uses the newest copy of its schema version, or migrates the newest copy over the other one. After a revert the newest copy may
carry a version that the older image does not know: settings are lost. -/
def settingsStart (s : State) (schema : Nat) : State :=
  let l := s.graft.settings
  match newestCopy (l.filter fun p => p.2.schema = schema), newestCopy l with
  | some (k, c), some (_, n) =>
    let lost := n.schema ≠ schema && c.gen < n.gen
    let s := { s with ten := { s.ten with saved := c.data }, graft := { s.graft with copyUsed := some k, settingsLost := lost } }
    if lost then emitFree s 0x2008 0x00 none [] else s
  | none, some (k, n) =>
    let c : SettingsCopy := { n with schema := schema, gen := n.gen + 1 }
    { s with ten := { s.ten with saved := c.data }, graft := { s.graft with settings := Tbl.put l (1 - k) c, copyUsed := some (1 - k) } }
  | _, none =>
    { s with ten := { s.ten with saved := {} }, graft := { s.graft with settings := [(0, ⟨schema, 1, {}⟩)], copyUsed := some 0 } }

/-! ### The fused count -/

/-- The preconditions of programming (R489, R493): PLLs locked, rails in tolerance, a die temperature of 0 to 85 °C. -/
def bistPrecond (s : State) : Bool := rd s 0x00 0x114 = 0x7FF && s.pwr.rails &&& 0xFF7 = 0xFF7
def progPrecond (s : State) : Bool := bistPrecond s && 273 ≤ rdF s 0x00 0x118 15 0 && rdF s 0x00 0x118 15 0 ≤ 358

/-- Crown firmware advances the count to the running manifest's SVN (R549): it programs the lowest all-zero SVN word, operation 3 here. -/
def svnAdvance (s : State) : State :=
  let goal := manSvn (manifestOf s s.graft.running)
  let now := svnCount s.fus.last
  if goal ≤ now || s.fus.prog.isSome then s
  else
    match (List.range 4).find? fun k => Tbl.getD s.fus.blown (4 + k) 0 = 0 && Tbl.getD s.fus.blown (0x204 + k) 0 = 0 with
    | none => emitFree s 0x2009 0x04 none []
    | some k => { s with fus := { s.fus with prog := some {
        op := 3, word := 4 + k, data := [w32 (2 ^ min 32 (goal - now) - 1)], result := if progPrecond s then 0 else 3 } } }

/-- A trial image is confirmed (R547). -/
def graftConfirm (s : State) : State :=
  let s := addTicket s s.graft.running 4 (manifestDigest s s.graft.running)
  let s := svnAdvance { s with graft := { s.graft with trial := false } }
  emitFree s 0x2007 0x00 none [BitVec.ofNat 8 s.graft.running]

end Sys2Proof.Machine
end

