-- ==== Sys2Proof/Machine/Graft.lean ====
section
/-! DEFINITION. The commands of Graft (R539 to R542, R547, R548). A command row acts on a context that HQE has dispatched. -/

namespace Sys2Proof.Machine

/-- The slot that a download stages (R539): the one that does not run. In Dormant no slot runs, and it is the one that the record does not prefer. -/
def inactiveSlot (s : State) : Nat := if s.dev.dormant then otherSlot s.graft.srec.pref else otherSlot s.graft.running

/-- Erase the sectors that a piece needs and that the session has not erased (R540). -/
def stageErase (s : State) (base ofst len : Nat) : State :=
  let lo := if ofst % 0x40000 = 0 then ofst else (ofst / 0x40000 + 1) * 0x40000
  let hi := ceilDiv (ofst + len) 0x40000 * 0x40000
  if lo < hi then tapWipe s (base + lo) (hi - lo) else s

/-- The running image is in trial (R540); the FALLBACK slot stays intact until the reset that makes the record CONFIRMED (R547). -/
def inTrial (s : State) : Bool := s.graft.trial || (s.graft.srec.trial && !s.dev.dormant)

/-- FIRMWARE_IMAGE_DOWNLOAD (R539, R540): `fail` says that programming or erasing the piece failed. -/
def imageDownload (s : State) (c : CmdId) (x : Ctx) (fail : Bool) : State :=
  let len := (x.sqe.cdw10.toNat + 1) * 4
  let ofst := x.sqe.cdw11.toNat * 4
  let slot := inactiveSlot s
  let base := slotBase slot
  if inTrial s then complete s c ⟨1, 0x13⟩
  else if s.graft.session.any fun q => q.mid ≠ c.mid then complete s c stSequence
  else if ofst % 4096 ≠ 0 || 0xBC00000 < ofst + len then complete s c stInvalidField
  else
    let next := match s.graft.session with
      | some q => q.next
      | none => 0
    if ofst ≠ 0 && (s.graft.session.isNone || next < ofst) then complete s c stInvalidField
    else if ofst ≠ 0 && ofst < next then complete s c ⟨1, 0x14⟩
    else
      let s := if ofst = 0 then
          tapWipe { s with graft := { s.graft with tickets := Tbl.del s.graft.tickets slot } } (base + 0xBC00000) 0x400000
        else s
      let s := stageErase s base ofst len
      if fail then
        let s := tapFree (tapInval s (base + ofst) len) (base + ofst) len
        complete { s with graft := { s.graft with session := none } } c stInternal
      else
        let s := tapPut s (base + ofst) (x.data.take len)
        complete { s with graft := { s.graft with session := some ⟨c.mid, ofst + len⟩ } } c stOk

def execFirmwareImageDownload (c : CmdId) (fail : Bool) (s : State) : Out :=
  fin (onCmd s c true 0x11 fun x => imageDownload s c x fail)

/-- Copy the INHERIT parts from the running slot (R541). -/
def copyInherit (s : State) (slot : Nat) : State :=
  let m := manifestOf s slot
  let run := manifestOf s s.graft.running
  (List.range 7).foldl (fun (s : State) (i : Nat) =>
    let e := partEnt m i
    let src := partEnt run i
    if partInherit e then
      tapPut s (slotBase slot + partOff e) ((memReadN s (slotBase s.graft.running + partOff src) (partLen src)).take (partLen e))
    else s) s

/-- Code 9 of R541: bytes that were never downloaded in this session. -/
def stageHoles (s : State) (mid slot : Nat) : Bool :=
  let m := manifestOf s slot
  let next := match s.graft.session with
    | some q => if q.mid = mid then q.next else 0
    | none => 0
  next < 8192 || (List.range 7).any fun i => !partInherit (partEnt m i) && next < partOff (partEnt m i) + partLen (partEnt m i)

/-- What code 5 adds at a Commit: an INHERIT part whose VERSION or DIGEST differs from the running slot's part. -/
def inheritDiffers (s : State) (slot : Nat) : Bool :=
  let m := manifestOf s slot
  let run := manifestOf s s.graft.running
  (List.range 7).any fun i => partInherit (partEnt m i)
    && (partVersion (partEnt m i) ≠ partVersion (partEnt run i) || partDigest (partEnt m i) ≠ partDigest (partEnt run i))

/-- The code of the first failing check of a Commit (R541); `secret` says that a CONFIDENTIAL part fails its check. -/
def commitCode (s : State) (mid slot : Nat) (secret : Bool) : Nat :=
  match slotRefusal s slot (inheritDiffers s slot) with
  | 0 =>
    if secret && (List.range 7).any fun i => partSecret (partEnt (manifestOf s slot) i) then 8 else if stageHoles s mid slot then 9 else 0
  | k => k

/-- FIRMWARE_COMMIT (R541, R542). -/
def firmwareCommit (s : State) (c : CmdId) (x : Ctx) (secret : Bool) : State :=
  let ca := Word.fld x.sqe.cdw10 5 3
  let fs := Word.fld x.sqe.cdw10 2 0
  let slot := inactiveSlot s
  if ca ≠ 2 then complete s c stInvalidField
  else if fs ≠ 0 && fs ≠ slot + 1 then complete s c ⟨1, 0x06⟩
  else
    let s := if manifestOk (manifestOf s slot) then copyInherit s slot else s
    let code := commitCode s c.mid slot secret
    let s := { s with graft := { s.graft with session := none } }
    if code ≠ 0 then complete (emitFree s 0x2003 0x00 none [BitVec.ofNat 8 code]) c ⟨1, 0x07⟩ code
    else complete (emitFree (addTicket s slot 1 (manifestDigest s slot)) 0x2004 0x00 none [BitVec.ofNat 8 slot]) c stOk

def execFirmwareCommit (c : CmdId) (secret : Bool) (s : State) : Out := fin (onCmd s c true 0x10 fun x => firmwareCommit s c x secret)

/-- COMMIT_GRAFT_CONFIRM (R548): action 0; reserved actions are refused. -/
def commitGraftConfirm (s : State) (c : CmdId) (x : Ctx) : State :=
  let act := Word.fld x.sqe.cdw10 3 0
  if act = 1 then s
  else if act ≠ 0 then complete s c stInvalidField
  else if s.graft.trial then complete (graftConfirm s) c stOk 0
  else complete s c stOk 1

def execCommitGraftConfirm (c : CmdId) (s : State) : Out := fin (onCmd s c true 0xC5 fun x => commitGraftConfirm s c x)

/-- COMMIT_GRAFT_REJECT (R548): action 1. -/
def commitGraftReject (s : State) (c : CmdId) (x : Ctx) : State :=
  if Word.fld x.sqe.cdw10 3 0 ≠ 1 then s
  else if s.graft.trial then complete (addTicket s s.graft.running 5 (manifestDigest s s.graft.running)) c stOk 0
  else complete s c stSequence

def execCommitGraftReject (c : CmdId) (s : State) : Out := fin (onCmd s c true 0xC5 fun x => commitGraftReject s c x)

/-- TRIAL_CONFIRM_TIMEOUT (R547): 7,200 operating seconds of trial without a FAULT ticket. -/
def trialTimeout (s : State) : State :=
  if s.graft.trial && s.graft.srec.trialOpsec + 7200 ≤ s.dev.opsec && !hasTicket s s.graft.running 3 then graftConfirm s else s

def execTrialConfirmTimeout (s : State) : Out := fin (trialTimeout s)

end Sys2Proof.Machine
end

