-- ==== Sys2Proof/Machine/Boot.lean ====
section
/-! DEFINITION. Reset, boot, fuses and self-test (R478 to R500, R626). -/

namespace Sys2Proof.Machine

/-! ### Reset sources -/

/-- DEV_RST_N_ASSERT (R478, R479). While Cambium is not past Soft-start there is nothing to reset. -/
def rstAssert (s : State) : State :=
  let s := { s with dev := { s.dev with rstn := false } }
  match s.pwr.cstate with
  | .off | .softStart | .bleed => s
  | _ => resetFlush s 2

def execDevRstNAssert (s : State) : Out := fin (rstAssert s)

/-- DEV_RST_N_DEASSERT (R480, R596): t0 where PWR_GOOD is up; the straps are latched as they stand. -/
def execDevRstNDeassert (straps : Fin 128) (s : State) : Out :=
  fin (leaveReset { s with dev := { s.dev with rstn := true, pins := straps } })

/-- A write of TOP_RST_CTL.DEV_RST (R478). -/
def execTopDevRstWrite (who : Who) (s : State) : Out := fin (onWrite s who 0x00 0x108 1 fun s => resetFlush s 3)

/-! ### Fuses: sensing -/

/-- The value of a reading that decodes (R485). -/
def rdVal : FuseRd → Option Word
  | .clean w => some w
  | .fixed w => some w
  | .bad => none

/-- The class of a word: 0 Solid, 1 Marginal, 2 Broken (R485). -/
def wordCls (r : FuseWord) : Nat :=
  match r.n, r.l, r.h with
  | .clean a, .clean b, .clean c => if a = b && b = c then 0 else 1
  | n, l, h => if (rdVal n).isSome || (rdVal l).isSome || (rdVal h).isSome then 1 else 2

/-- The readings of a word: a word that the sensing does not list reads as it was blown, at every reference. -/
def fuseRead (s : State) (l : List FuseWord) (w : Nat) : FuseWord :=
  match l.find? fun r => r.word = w with
  | some r => r
  | none => let v := Tbl.getD s.fus.blown w 0; ⟨w, .clean v, .clean v, .clean v⟩

/-- The resolution kinds of R484. -/
inductive FuseKind where
  | restrictive | copy | plain
  deriving DecidableEq, Repr

/-- The resolution of a word below 0x200 (R484). A key hash word takes its value as Copy does; whether it is usable is R486's. -/
def fuseKind (w : Nat) : FuseKind :=
  if w ≤ 2 || (4 ≤ w && w < 8) then .restrictive
  else if w = 8 || w = 9 || (0x10 ≤ w && w < 0x18) || (0x20 ≤ w && w < 0x2C) || (0x30 ≤ w && w < 0x60) || (0x80 ≤ w && w < 0x100) then .copy
  else .plain

/-- A critical word: it has a copy at word + 0x200. -/
def fuseCritical (w : Nat) : Bool := w < 0x200 && fuseKind w ≠ .plain

/-- The more restrictive of two values of a restrictive word. -/
def fuseStricter (w : Nat) (a b : Word) : Word :=
  if w = 0 then (if lifeState a < lifeState b then b else a)
  else if w ≤ 2 then a ||| b
  else if svnWord a < svnWord b then b else a

/-- The most restrictive value of a word (R485). -/
def fuseStrictest (w : Nat) : Word := if w ≤ 1 then 0xF else if w = 2 then 0x1F else 0xFFFFFFFF

/-- The value of a word of resolution Copy (R485). Where both copies are broken, a TRIM word takes its safe default; every case that the rule does not
decide gives a free value. -/
def fuseCopy (s : State) (w : Nat) (p c : FuseWord) : Word :=
  let free := w32 (Config.freeNat (s.freeCtr + w))
  if wordCls p = 0 then (rdVal p.n).getD 0
  else if wordCls c = 0 then (rdVal c.n).getD 0
  else match (rdVal p.n), (rdVal c.n) with
    | some v, _ => v
    | none, some v => v
    | none, none => if wordCls p = 2 && wordCls c = 2 && 0x80 ≤ w then Config.trimDefault w else free

/-- The resolved value of a word (R485). -/
def fuseResolve (s : State) (l : List FuseWord) (w : Nat) : Word :=
  let p := fuseRead s l w
  let c := fuseRead s l (w + 0x200)
  match (if w < 0x200 then fuseKind w else .plain) with
  | .restrictive =>
    match [p.n, p.l, p.h, c.n, c.l, c.h].filterMap rdVal with
    | [] => fuseStrictest w
    | v :: t => t.foldl (fuseStricter w) v
  | .copy => fuseCopy s w p c
  | .plain => (rdVal p.n).getD (if wordCls p = 2 then 0 else w32 (Config.freeNat (s.freeCtr + w)))

/-- The words of a key hash: 0 the vendor's, 1 to 4 the operator's (R484). -/
def khWords (k : Nat) : List Nat := (List.range 12).map fun i => if k = 0 then 0x20 + i else 0x30 + 12 * (k - 1) + i

/-- A key hash is usable (R486). -/
def khUsable (s : State) (l : List FuseWord) (revoke : Word) (k : Nat) : Bool :=
  let ws := khWords k
  let v (w : Nat) : Word := (rdVal (fuseRead s l w).n).getD 0
  ws.all (fun w => wordCls (fuseRead s l w) = 0 && wordCls (fuseRead s l (w + 0x200)) = 0 && v w = v (w + 0x200))
    && !Word.bit revoke k && ws.any fun w => v w ≠ 0

/-- A word's position that is the copy of a critical word. -/
def fuseCopyOf (w : Nat) : Option Nat := if 0x200 ≤ w && w < 0x400 && fuseCritical (w - 0x200) then some (w - 0x200) else none

/-- The resolved array: a copy position reads as its critical word does. -/
def fuseArray (s : State) (l : List FuseWord) : Tbl Word :=
  (List.range 1024).filterMap fun w =>
    let v := fuseResolve s l ((fuseCopyOf w).getD w)
    if v = 0 then none else some (w, v)

/-- An open debug unlock ends (R491): where it had scan enabled the device enters Fault. -/
def debugClose (s : State) : State :=
  if s.fus.unlock = 2 then enterFault { s with fus := { s.fus with unlock := 0 } } 0x04 else { s with fus := { s.fus with unlock := 0 } }

/-- Record one drift (R488). -/
def fuseDrift (s : State) (word : Nat) (a b : Word) : State :=
  emit (raiseInt (bump s 0x04 0x120 1) 0x04 1) 0x2001 sevWarning 0x04 none (leBytes 2 word ++ leBytes 4 a.toNat ++ leBytes 4 b.toNat)

/-- A re-sensing (R488): values that differ from those in effect, and changes of usability, are drifts. A lock bit that newly resolves to 1 takes effect
at once. An SVN word that was programmed is no drift (R549). -/
def fuseResense (s : State) (arr : Tbl Word) (usable : List Nat) : State :=
  let words := (List.range 1024).filter fun w => (fuseCopyOf w).isNone && Tbl.getD arr w 0 ≠ Tbl.getD s.fus.eff w 0
    && !(4 ≤ w && w < 8 && Tbl.getD arr w 0 = Tbl.getD s.fus.blown w 0)
  let s := words.foldl (fun s w => fuseDrift s w (Tbl.getD s.fus.eff w 0) (Tbl.getD arr w 0)) s
  let s := (List.range 5).foldl (fun s k =>
    if s.fus.usable.contains k = usable.contains k then s
    else fuseDrift s ((khWords k).headD 0) (w32 (s.fus.usable.contains k).toNat) (w32 (usable.contains k).toNat)) s
  let old := Tbl.getD s.fus.eff 1 0
  let now := old ||| Tbl.getD arr 1 0
  let s := { s with fus := { s.fus with last := arr, usable := usable } }
  if now = old then s
  else debugClose { s with fus := { s.fus with eff := Tbl.put (Tbl.put s.fus.eff 1 now) 0x201 now } }

/-- FUSE_SENSE_DONE (R485 to R488): `l` holds the readings of the words that do not read as they were blown. -/
def fuseSenseDone (s : State) (l : List FuseWord) : State :=
  if !s.fus.sensing then s
  else
    let arr := fuseArray s l
    let usable := (List.range 5).filter fun k => khUsable s l (Tbl.getD arr 2 0) k
    let cls := (List.range 1024).filterMap fun w => let c := wordCls (fuseRead s l w); if c = 0 then none else some (w, c)
    let broken (w : Nat) : Bool := wordCls (fuseRead s l w) = 2 && wordCls (fuseRead s l (w + 0x200)) = 2
    let s := { s with freeCtr := s.freeCtr + 1024 }
    let s := if s.fus.sensed then fuseResense s arr usable
      else { s with fus := { s.fus with eff := arr, last := arr, usable := usable, secretOk := !(List.range 8).any fun i => broken (0x10 + i) } }
    let s := { s with fus := { s.fus with sensed := true, sensing := s.fus.again && s.fus.prog.isNone, again := false, cls := cls, sensedAt := s.dev.opsec } }
    raiseInt (wr s 0x04 0x11C (w32 (rdF s 0x00 0x118 15 0))) 0x04 2

def execFuseSenseDone (l : List FuseWord) (s : State) : Out := fin (fuseSenseDone s l)

/-- Start a sensing (R487, R489): one that runs serves this trigger too, and a program operation ends first. A retired FUS senses no more (R578). -/
def fuseSense (s : State) : State :=
  if s.fus.sensing || blkRetired s 0x04 then s
  else if s.fus.prog.isSome then { s with fus := { s.fus with again := true } }
  else { s with fus := { s.fus with sensing := true } }

/-- The hottest die differs by more than 40 °C from the last sensing, or 24 h of operating time have passed (R487). -/
def fuseDue (s : State) : Bool :=
  let a := rdF s 0x00 0x118 15 0
  let b := rdF s 0x04 0x11C 15 0
  a + 40 < b || b + 40 < a || s.fus.sensedAt + 86400 ≤ s.dev.opsec

/-- FUSE_SENSE_START (R487): a write of SENSE_NOW, or the check of time and temperature. -/
def execFuseSenseStart (now : Option Who) (s : State) : Out :=
  fin (match now with
    | some w => onWrite s w 0x04 0x118 1 fuseSense
    | none => if s.fus.sensed && fuseDue s then fuseSense s else s)

/-! ### Fuses: programming -/

/-- The reserved words of R484. -/
def fuseReserved (w : Nat) : Bool :=
  let b := if 0x200 ≤ w && w < 0x300 then w - 0x200 else w
  b = 3 || (0xA ≤ b && b < 0x10) || (0x18 ≤ b && b < 0x20) || (0x2C ≤ b && b < 0x30) || (0x60 ≤ b && b < 0x80) || 0x300 ≤ w

/-- The lifecycle in effect permits the word (R489). -/
def fusePermitted (s : State) (w : Nat) (v : Word) : Bool :=
  match lifecycle s with
  | 0 => true
  | 1 | 2 =>
    w ≤ 2 || (4 ≤ w && w < 8) || (0x100 ≤ w && w < 0x200)
      || (0x30 ≤ w && w < 0x60 && ((khWords ((w - 0x30) / 12 + 1)).all fun x => Tbl.getD s.fus.eff x 0 = 0))
  | 3 => w = 0 && Word.bit v 3
  | _ => false

/-- RESULT of a program operation before it starts (R489): 0 where it runs. A word is programmed only once, but for LIFECYCLE, which moves forward. -/
def progResult (s : State) (w : Nat) (v : Word) : Nat :=
  if fuseReserved w then 4
  else if (fuseCopyOf w).isSome || !fusePermitted s w v || (w ≠ 0 && (Tbl.getD s.fus.blown w 0 ≠ 0 || Tbl.getD s.fus.blown (w + 0x200) 0 ≠ 0 && fuseCritical w)) then 1
  else if !progPrecond s then 3
  else 0

/-- Start a program operation; one that runs stands. -/
def fuseProg (s : State) (p : FuseProg) : State :=
  if s.fus.prog.isSome then s else { s with fus := { s.fus with prog := some p } }

/-- FUS_PROG_CTL OP 1 (R489). -/
def fuseProgWord (s : State) : State :=
  let w := rdF s 0x04 0x124 9 0
  let v := rd s 0x04 0x128
  fuseProg s { op := 1, word := w, data := [v], result := progResult s w v }

def execFuseProgramWord (who : Who) (s : State) : Out := fin (onWrite s who 0x04 0x12C 1 fuseProgWord)

/-- FUS_PROG_CTL OP 2 (R489): DEVICE_SECRET from the DRBG with prediction resistance. -/
def fuseSecret (s : State) : State :=
  let ok := s.sec.drbgOk && ((List.range 8).all fun i => progResult s (0x10 + i) 0 = 0)
  let (b, s) := if ok then drbgGen (reseed s) 8 else ([], s)
  fuseProg s { op := 2, word := 0x10, data := (List.range 8).map fun i => w32 (leNat ((b.drop (4 * i)).take 4))
               result := if ok then 0 else if lifecycle s ≠ 0 then 1 else if progPrecond s then 1 else 3 }

def execFuseGenerateSecret (who : Who) (s : State) : Out := fin (onWrite s who 0x04 0x12C 2 fuseSecret)

/-- Blow bits of a word: no fuse returns to 0. -/
def fuseBlow (s : State) (w : Nat) (v : Word) : State :=
  let n := Tbl.getD s.fus.blown w 0 ||| v
  { s with fus := { s.fus with blown := Tbl.putC 0 s.fus.blown w n } }

/-- FUSE_PROGRAM_DONE (R489): `ok` says that the verify at the L reference passed. Where it failed, the words before the k-th are blown, and of the k-th the
bits in b0, and in its copy those in b1. A programmed SVN word counts at once in the last sensing (R549). -/
def fuseProgDone (s : State) (ok : Bool) (k : Nat) (b0 b1 : Word) : State :=
  match s.fus.prog with
  | none => s
  | some p =>
    let n := if p.result ≠ 0 then 0 else if ok then p.data.length else min k (p.data.length - 1)
    let s := (List.range n).foldl (fun s i =>
      let v := p.data.getD i 0
      let s := fuseBlow s (p.word + i) v
      if fuseCritical (p.word + i) then fuseBlow s (p.word + i + 0x200) v else s) s
    let s := if p.result = 0 && !ok then
        let v := p.data.getD n 0
        let s := fuseBlow s (p.word + n) (v &&& b0)
        if fuseCritical (p.word + n) then fuseBlow s (p.word + n + 0x200) (v &&& b1) else s
      else s
    let s := if 4 ≤ p.word && p.word < 8 then
        { s with fus := { s.fus with last := Tbl.put s.fus.last p.word (Tbl.getD s.fus.blown p.word 0) } }
      else s
    let res := if p.result ≠ 0 then p.result else if ok then 0 else 2
    let s := wr { s with fus := { s.fus with prog := none, sensing := s.fus.sensing || s.fus.again, again := false } } 0x04 0x130 (w32 (res * 16))
    let s := raiseInt s 0x04 3
    if p.op = 3 && res = 0 then svnAdvance s else s

def execFuseProgramDone (ok : Bool) (k : Fin 8) (b0 b1 : Word) (s : State) : Out := fin (fuseProgDone s ok k b0 b1)

/-! ### Debug -/

/-- A lock bit in effect (R490): 0 JTAG_OFF, 1 SCAN_OFF, 2 VENDOR_UNLOCK_OFF, 3 OPER_UNLOCK_OFF. -/
def debugLock (s : State) (k : Nat) : Bool := Word.bit (Tbl.getD s.fus.eff 1 0) k

/-- JTAG and scan are open (R490, R491). -/
def jtagOpen (s : State) : Bool := s.fus.sensed && (lifecycle s = 0 || 1 ≤ s.fus.unlock) && !debugLock s 0
def scanOpen (s : State) : Bool := s.fus.sensed && (lifecycle s = 0 || s.fus.unlock = 2) && !debugLock s 0 && !debugLock s 1

/-- DEBUG_UNLOCK (R491): `key` names the key hash that signs; `ok` says that the signature over nonce, serial number and level verifies. -/
def debugUnlock (s : State) (level key : Nat) (ok : Bool) : State :=
  let life := lifecycle s
  let signer := if key = 0 then life = 1 || life = 3 else life = 2
  let open_ := if key = 0 then !debugLock s 2 else !debugLock s 3
  let s := (drbgGen s 8).2
  if ok && s.fus.sensed && signer && open_ && s.fus.usable.contains key && !blkRetired s 0x0B && s.sec.drbgOk && !debugLock s 0
      && (level = 1 || (level = 2 && !debugLock s 1)) then
    { s with fus := { s.fus with unlock := level } }
  else s

def execDebugUnlock (level : Fin 4) (key : Fin 5) (ok : Bool) (s : State) : Out := fin (debugUnlock s level key ok)

/-- Clear every secret store (R492). -/
def clearSecrets (s : State) : State :=
  { s with
    sec := { s.sec with xts := [], gcm := [], kek := [], pke := [] }
    mem := s.mem.filter fun c => !((0x2000000000 ≤ c.1 && c.1 < 0x2010000000) || (0x50000000 ≤ c.1 && c.1 < 0x50800000)) }

/-- JTAG_SCAN_ENABLE (R492). -/
def scanEnable (s : State) : State := if scanOpen s then enterFault (clearSecrets s) 0x04 else s

def execJtagScanEnable (s : State) : Out := fin (scanEnable s)

/-- BST_STS as read (R500). -/
def bstSts (s : State) : Word := w32 (rdF s 0x05 0x100 2 0 + (!s.bst.slices.isEmpty).toNat * 8)

/-- TOP_DEV_STS as read (R498). -/
def topDevSts (s : State) : Word := w32 (devState s + s.dev.dormantWhy * 256 + s.dev.faultRgn * 65536)

/-- FUS_LIFECYCLE as read (R499). -/
def fusLifecycle (s : State) : Word := w32 (lifecycle s + lifeState (Tbl.getD s.fus.last 0 0) * 256)

/-- JTAG_STATUS (R492): BST_STS, TOP_BOOT_STS, TOP_DEV_STS and FUS_LIFECYCLE; JTAG_OFF closes it too. -/
def jtagStatus (s : State) : State :=
  if debugLock s 0 then s
  else answerBytes s (leBytes 4 (bstSts s).toNat ++ leBytes 4 (rd s 0x00 0x10C).toNat ++ leBytes 4 (topDevSts s).toNat ++ leBytes 4 (fusLifecycle s).toNat)

def execJtagStatus (s : State) : Out := fin (jtagStatus s)

/-- JTAG_TRST (R478): the test access port alone, which holds no state here. -/
def execJtagTrst (s : State) : Out := fin s

/-! ### Boot -/

/-- A Bark entry of R626. -/
def barkMake (base limit mask : Nat) (rd wr ex lock : Bool) : BarkEntry where
  w0 := w32 (base % 2 ^ 32 / 64 * 64)
  w1 := w32 (base / 2 ^ 32 % 65536 + mask * 65536)
  w2 := w32 (limit % 2 ^ 32 / 64 * 64)
  w3 := w32 (limit / 2 ^ 32 % 65536 + 2 ^ 25 + rd.toNat * 2 ^ 27 + wr.toNat * 2 ^ 28 + ex.toNat * 2 ^ 29 + lock.toNat * 2 ^ 30 + 2 ^ 31)

/-- The regions that hold a block. -/
def blockRgns : List Nat := (List.range 128).filter fun r => (blkOf r).isSome

/-- Install the entries of R626. -/
def barkInstall (s : State) : State :=
  let narrow (r : Nat) : Bool := r = 0x04 || r = 0x0B || r = 0x08 || r = 0x09 || r = 0x06
  let s := blockRgns.foldl (fun s r =>
    setBark s r 0 (barkMake (regAddr r 0) (regAddr r 0xFFFF) (if narrow r then 0x604 else 0x60D) true true false true)) s
  let s := setBark s 0x00 1 (barkMake 0x40000000 0x4003FFFF 4 true false true true)
  let s := setBark s 0x00 2 (barkMake 0x50000000 0x507FFFFF 0x10C true true true false)
  setBark s 0x08 1 (barkMake 0 0x1FFFFFFF 0xC true false true false)

/-- ENABLE goes from 0 to 1 (R623): a block in Reset starts Init, and the bring-up of its chapter (R250, R350, R433). -/
def enableBlock (s : State) (rgn : Nat) : State :=
  let b := blkSt s rgn
  if b.enable then s
  else
    let s := setBlk s rgn { b with enable := true, st := if b.st = .reset then .init else b.st }
    if b.st ≠ .reset then s else bringUp s rgn

where
  /-- The bring-up of a block's chapter. -/
  bringUp (s : State) (rgn : Nat) : State :=
    if rgn = 0x1B then { s with dmc := { s.dmc with tstate := 1 } }
    else if 0x20 ≤ rgn && rgn < 0x40 then setTs s (rgn - 0x20) tsPower
    else if rgn = 0x0A then wrF s 0x0A 0x2064 3 3 1
    else if rgn = 0x0E then ftlAdopt s
    else s

/-- The blocks that the boot ROM enables: those whose configuration no firmware writes before ENABLE. -/
def bootBlocks (s : State) : List Nat :=
  [0x00, 0x01, 0x02, 0x03, 0x04, 0x05, 0x06, 0x07, 0x08, 0x09, 0x0B] ++ ((List.range 8).filter (portPresent s)).map (0x10 + ·)

/-- The retirement list takes effect again (R494): engines and blocks are Retired. -/
def applyRetired (s : State) : State :=
  s.dev.retired.foldl (fun s k =>
    let rgn := k / 256 % 256
    if k / 65536 = 0 then setEng s ((rgn - 0x40) * 16 + k % 256) { engOf s ((rgn - 0x40) * 16 + k % 256) with st := .retired, halted := true }
    else if k / 65536 = 6 then setBlk s rgn { blkSt s rgn with st := .retired }
    else s) s

/-- A key of n bytes derived from the device secret (R414, R482). -/
def deriveKey (s : State) (purpose n : Nat) (ctx : List Byte) : List Byte :=
  let secret := (List.range 8).flatMap fun i => leBytes 4 (Tbl.getD s.fus.eff (0x10 + i) 0).toNat
  (List.range n).map (Config.kdf purpose secret ctx)

/-- A P-384 key derived from the device secret. -/
def deriveScalar (s : State) (purpose : Nat) (ctx : List Byte) : Nat := beNat (deriveKey s purpose 48 ctx) % (p384.n - 1) + 1

/-- The device boots Dormant (R482, R483). -/
def bootDormant (s : State) (why : Nat) : State :=
  wrF { s with dev := { s.dev with dormant := true, dormantWhy := why } } 0x00 0x10C 16 16 1

/-- Protect the running slot and the slot record, and lock TAP (R512). -/
def tapLock (s : State) (slot : Option Nat) : State :=
  let s := match slot with
    | some k => (List.range 47).foldl (fun s i =>
        let r := (if k = 0 then 16 else 80) + i
        wrF s 0x08 (0x120 + 4 * (r / 32)) (r % 32) (r % 32) 1) s
    | none => s
  let s := wr s 0x08 0x130 (rd s 0x08 0x130 ||| 0xF)
  setBlk s 0x08 { blkSt s 0x08 with lock := true }

/-- Choose a slot (R482 steps 4 to 6, R545): the preferred one, then the other. A refused TRIAL slot reverts the record. -/
def chooseSlot (s : State) : Option Nat × State :=
  let p := s.graft.srec.pref
  let ref (s : State) (k v : Nat) : State := wrF s 0x00 0x10C (7 + 4 * k) (4 + 4 * k) v
  match slotRefusal s p false with
  | 0 => (some p, wrF s 0x00 0x10C 0 0 p)
  | c =>
    let trial := s.graft.srec.trial
    let s := raiseInt (ref s p c) 0x00 2
    let s := if trial then graftReverted (putRecord s s.graft.srec.revert) 5 else s
    match slotRefusal s (otherSlot p) false with
    | 0 => (some (otherSlot p), wrF (wrF s 0x00 0x10C 0 0 (otherSlot p)) 0x00 0x10C 1 1 1)
    | c => (none, ref s (otherSlot p) c)

/-- An accepted slot starts (R482 step 5, R503, R512, R546, R550). -/
def startImage (s : State) (k : Nat) : State :=
  let m := manifestOf s k
  let s := { s with
    graft := { s.graft with running := k, trial := s.graft.srec.trial && s.graft.srec.pref = k }
    sec := { s.sec with pke := Tbl.put s.sec.pke 1 (true, deriveScalar s 3 (sha384 m)) }
    dev := { s.dev with crown := true } }
  let s := cwdEnable (tapLock s (some k)) 0 1
  let s := settingsStart s (partVersion (partEnt m 6))
  if s.graft.trial then s else svnAdvance s

/-- The boot ROM (R480 step 4, R482): a Scrapped device is held in reset. -/
def bootRom (s : State) : State :=
  if lifecycle s = 4 then { s with dev := { s.dev with heldInReset := true } }
  else
    let s := { s with dev := { s.dev with step4 := true, heldInReset := false } }
    let s :=
      if !s.fus.secretOk then tapLock (bootDormant s 3) none
      else
        let label := [BitVec.ofNat 8 (if lifecycle s = 3 then 1 else 0)]
        let s := setKek s 0 { key := deriveKey s 1 32 label }
        let s := { s with sec := { s.sec with pke := Tbl.put s.sec.pke 0 (true, deriveScalar s 2 []) } }
        let s := bootRecord s
        if s.fus.usable = [] then tapLock (bootDormant s 1) none
        else match chooseSlot s with
          | (some k, s) => startImage s k
          | (none, s) => tapLock (bootDormant s 2) none
    let s := (bootBlocks (barkInstall s)).foldl enableBlock (barkInstall s)
    (List.range 8).foldl (fun (s : State) (p : Nat) =>
      if blkRetired s (0x10 + p) then s
      else if portPresent s p then { s with ports := Tbl.put s.ports p { Tbl.getD s.ports p {} with quiet := false } }
      else setBlk s (0x10 + p) { blkSt s (0x10 + p) with st := .off }) s

/-- A failing unit of power-up BIST is on the retirement list, and skipped (R494). -/
def bistSkips (s : State) (rgn unit : Nat) : Bool := (List.range 7).any fun k => resRetired s k rgn unit || (k = 6 && resRetired s 6 rgn 0)

/-- POWER_UP_BIST_DONE (R480, R481, R494): failing region, kind and unit; the duration in ms. -/
def bistDone (s : State) (fails : List (Fin 128 × Fin 4 × Fin 256)) (ms : Nat) : State :=
  if !s.dev.started || !s.fus.sensed || Word.bit (rd s 0x05 0x100) 0 || Word.bit (rd s 0x05 0x100) 2 then s
  else
    let s := clearSecrets (applyRetired s)
    let l := fails.filter fun f => !bistSkips s f.1 f.2.2
    let s := wr (wr s 0x05 0x100 (w32 (1 + (!l.isEmpty).toNat * 2))) 0x05 0x12C (w32 (min ms 0xFFFF))
    let s := l.foldl (fun s f => wrF s 0x05 (0x104 + 4 * (f.1.val / 32)) (f.1.val % 32) (f.1.val % 32) 1) s
    match l with
    | [] => bootRom s
    | f :: _ =>
      let s := wr s 0x05 0x114 (w32 (f.1.val + f.2.1.val * 256 + f.2.2.val * 65536 + 2 ^ 31))
      { s with dev := { s.dev with heldInReset := true } }

def execPowerUpBistDone (fails : List (Fin 128 × Fin 4 × Fin 256)) (ms : Nat) (s : State) : Out := fin (bistDone s fails ms)

/-- BIST_PRECONDITION_TIMEOUT (R493). -/
def execBistPreconditionTimeout (s : State) : Out :=
  fin (if s.dev.started && !Word.bit (rd s 0x05 0x100) 0 && !bistPrecond s then
      { wrF s 0x05 0x100 2 2 1 with dev := { (wrF s 0x05 0x100 2 2 1).dev with heldInReset := true } }
    else s)

/-! ### In-service self-test -/

/-- The resource may be taken (R495). -/
def bistMay (s : State) (x : Slice) : Bool :=
  let g := 0x40 ≤ x.rgn && x.rgn < 0x50
  let e := (x.rgn - 0x40) * 16 + x.unit
  match x.kind with
  | 0 => g && x.unit < 16 && ((engOf s e).st = .free || (engOf s e).st = .assigned)
  | 1 => g && x.unit < 16 && (engOf s e).st = .free
  | 2 => g && x.unit < 2 && (List.range 16).all fun i => (engOf s ((x.rgn - 0x40) * 16 + i)).jobs.all fun j => j.2.unit ≠ x.unit || j.2.result.isSome
  | 3 => x.rgn = 0x1A && x.unit < 80 && decBusy s (64 ≤ x.unit) < decoders s (64 ≤ x.unit)
  | 4 => x.rgn = 0x0A && x.unit < 12 && (Tbl.getD s.sec.queues x.unit []).isEmpty
  | 5 => x.rgn = 0x19 && x.unit < 256 && s.cpc.accs.length < foldAccs s
  | _ => false

/-- BIST_SLICE_START (R493, R495): one resource of each kind at a time; its secret state is cleared first (R492). -/
def sliceStart (s : State) (x : Slice) : State :=
  if !Word.bit (rd s 0x05 0x118) 0 || blkRetired s 0x05 || !bistPrecond s || s.pwr.pl || !s.dev.step4 || s.bst.slices.any (fun y => y.kind = x.kind)
      || resRetired s x.kind x.rgn x.unit || !bistMay s x then s
  else
    let e := (x.rgn - 0x40) * 16 + x.unit
    let s := match x.kind with
      | 0 => setEng (zeroRange s (tileBase e) 0x80000) e { engOf s e with st := .testing, prior := (engOf s e).st, x := [], f := [], v := [] }
      | 1 => zeroRange s (0x2000000000 + (x.rgn - 0x40) * 0x1000000 + 0x800000 + x.unit * 0x80000) 0x80000
      | _ => s
    { s with bst := { s.bst with slices := x :: s.bst.slices } }

def execBistSliceStart (kind : Fin 6) (rgn : Fin 128) (unit : Fin 256) (s : State) : Out := fin (sliceStart s ⟨kind, rgn, unit⟩)

/-- How many resources R495 names. -/
def sliceTotal (s : State) : Nat := 256 + 256 + 32 + 80 + 12 + 256 - countOf (fun k => k / 65536 < 6) s.dev.retired

/-- BIST_SLICE_DONE (R495, R496): `mem` says that a memory test failed, else a logic test. -/
def sliceDone (s : State) (kind : Nat) (fail mem : Bool) : State :=
  match s.bst.slices.find? fun x => x.kind = kind with
  | none => s
  | some x =>
    let s := bump (sliceRelease s x) 0x05 0x120 1
    let key := retKey x.kind x.rgn x.unit
    let s := if !fail then s
      else
        let s := raiseInt (bump s 0x05 0x124 1) 0x05 1
        let s := if Word.bit (rd s 0x05 0x114) 31 then s
          else wr s 0x05 0x114 (w32 (x.rgn + (if mem then 2 else 1) * 256 + x.unit * 65536 + 2 ^ 31))
        let s := { s with dev := { s.dev with retired := key :: s.dev.retired } }
        let s := if x.kind = 0 then retireEngine s ((x.rgn - 0x40) * 16 + x.unit) else s
        emit s 0x2002 sevError x.rgn none (leBytes 1 x.rgn ++ leBytes 1 x.kind ++ leBytes 1 x.unit)
    let v := key :: s.bst.visited.filter (· ≠ key)
    if sliceTotal s ≤ v.length then raiseInt { s with bst := { s.bst with visited := [] } } 0x05 2
    else { s with bst := { s.bst with visited := v } }

def execBistSliceDone (kind : Fin 6) (fail mem : Bool) (s : State) : Out := fin (sliceDone s kind fail mem)

/-- BIST_SLICE_ABANDON (R493): the preconditions broke. -/
def execBistSliceAbandon (s : State) : Out := fin (sliceAbandon s)

end Sys2Proof.Machine
end

