-- ==== Sys2Proof/Machine/XmvOps.lean ====
section
/-! DEFINITION. The Xylem movers: doorbells, control, pacing and the write-back of descriptors (R519 to R526, R532, R533). -/

namespace Sys2Proof.Machine

def xmvOf (s : State) (c : Nat) : XmvCh := Tbl.getD s.xmv c {}
def setXmv (s : State) (c : Nat) (x : XmvCh) : State := { s with xmv := Tbl.putC {} s.xmv c x }

/-- A channel as a master (R519), and the offset of its registers (R533). -/
def xmvWho (c : Nat) : Who := ⟨0x310 + c, 0⟩
def xmvOff (c : Nat) : Nat := 0x1000 + 64 * c

/-- Entries of a channel's ring, and the address of an entry. -/
def xmvSize (s : State) (c : Nat) : Nat := 2 ^ rdF s 0x09 (xmvOff c + 8) 3 0
def xmvEntry (s : State) (c i : Nat) : Nat :=
  Word.fld (rd s 0x09 (xmvOff c)) 31 5 * 32 + rdF s 0x09 (xmvOff c + 4) 15 0 * 2 ^ 32 + 32 * i

/-- XMV_CH_HEAD and XMV_CH_TAIL. -/
def xmvHead (s : State) (c : Nat) : Nat := rdF s 0x09 (xmvOff c + 0x10) 11 0
def xmvTail (s : State) (c : Nat) : Nat := rdF s 0x09 (xmvOff c + 0x0C) 11 0

/-- XMV_CH_CTL.EN. -/
def xmvEn (s : State) (c : Nat) : Bool := Word.bit (rd s 0x09 (xmvOff c + 0x14)) 0

/-- Raise a bit of XMV_CH_INT: 0 HALF, 1 FULL, 2 ERR, 3 STOPPED; INT_STS.CH follows when an enabled bit first stands (R532). -/
def xmvInt (s : State) (c bit : Nat) : State :=
  let en := rd s 0x09 (xmvOff c + 0x2C)
  let was := rd s 0x09 (xmvOff c + 0x28) &&& en
  let s := wrF s 0x09 (xmvOff c + 0x28) bit bit 1
  if was = 0 && rd s 0x09 (xmvOff c + 0x28) &&& en ≠ 0 then raiseInt s 0x09 1 else s

/-- A channel without a descriptor; requests that are still outstanding stay so. -/
def xmvClear (x : XmvCh) : XmvCh :=
  { x with desc := none, rpos := 0, wpos := 0, limit := 0, got := [], base := 0, ending := none, broken := false }

/-- Enter ERROR or STOPPED (R526). -/
def xmvError (s : State) (c reason code : Nat) : State :=
  xmvInt (setXmv s c { xmvClear (xmvOf s c) with st := .error, reason := reason, tcode := code }) c 2
def xmvStopped (s : State) (c : Nat) : State := xmvInt (setXmv s c { xmvClear (xmvOf s c) with st := .stopped }) c 3

/-- The code of a Trunk response (R13). -/
def tcodeNum : TCode → Nat
  | .ok => 0 | .denied => 1 | .domainOff => 2 | .decode => 3 | .poison => 4 | .timeout => 5

/-- Move the head on. -/
def xmvNext (s : State) (c : Nat) : State := wrF s 0x09 (xmvOff c + 0x10) 11 0 ((xmvHead s c + 1) % xmvSize s c)

/-- Write the descriptor back (R520, R524): DONE, STATUS, the failing response and WB. -/
def xmvWriteBack (s : State) (c status code : Nat) : TCode × State :=
  let x := xmvOf s c
  let (r, s) := busWrite s (xmvWho c) (xmvEntry s c (xmvHead s c) + 24) (leBytes 4 x.done ++ [BitVec.ofNat 8 status, BitVec.ofNat 8 code, 1, 0])
  let s := bump s 0x09 0x114 1
  (r, if 2 ≤ status then bump s 0x09 0x118 1 else s)

/-- A write of XMV_CH_TAIL (R519, R521): a tail at or above the ring size is not stored. -/
def xmvTailWrite (s : State) (c : Nat) (v : Word) : State :=
  let t := Word.fld v 11 0
  if xmvSize s c ≤ t then xmvError s c 2 0 else wrF s 0x09 (xmvOff c + 0x0C) 11 0 t

def execXmvChTailWrite (who : Who) (ch : Fin 64) (v : Word) (s : State) : Out :=
  fin (onWrite s who 0x09 (xmvOff ch + 0x0C) v fun s => xmvTailWrite s ch v)

/-- CTL.STOP (R526): the current descriptor finishes first. -/
def xmvStop (s : State) (c : Nat) : State :=
  let x := xmvOf s c
  match x.st with
  | .run | .waitPace => if x.desc.isSome then setXmv s c { x with st := .stopping } else xmvStopped s c
  | _ => s

/-- XMV_STOP: a write of STOP that leaves EN, PRIO and CORE as they stand. -/
def execXmvStop (who : Who) (ch : Fin 64) (s : State) : Out :=
  fin (onWrite s who 0x09 (xmvOff ch + 0x14) (rd s 0x09 (xmvOff ch + 0x14) ||| 2) fun s => xmvStop s ch)

/-- The descriptor is written back ABORTED with DONE, once no request is outstanding (R526). -/
def xmvAborted (s : State) (c : Nat) : State :=
  match xmvWriteBack s c 1 0 with
  | (.ok, s) => xmvStopped (xmvNext s c) c
  | (r, s) => xmvError s c 4 (tcodeNum r)

/-- CTL.ABORT (R526): no new request; those issued complete. -/
def xmvAbort (s : State) (c : Nat) : State :=
  let x := xmvOf s c
  match x.st with
  | .run | .waitPace | .stopping =>
    if x.desc.isNone then xmvStopped s c
    else if x.out = [] then xmvAborted s c
    else if x.ending.isSome then s
    else setXmv s c { x with st := .stopping, ending := some (1, 0) }
  | _ => s

/-- XMV_ABORT: a write of ABORT that leaves EN, PRIO and CORE as they stand. -/
def execXmvAbort (who : Who) (ch : Fin 64) (s : State) : Out :=
  fin (onWrite s who 0x09 (xmvOff ch + 0x14) (rd s 0x09 (xmvOff ch + 0x14) ||| 4) fun s => xmvAbort s ch)

/-- The channel runs: it is in RUN, WAIT_PACE or STOPPING. -/
def xmvBusy (x : XmvCh) : Bool := x.st = .run || x.st = .waitPace || x.st = .stopping

/-- A write of XMV_CH_CTL (R526, R533): EN, PRIO and CORE are stored, then STOP and ABORT act. A write of EN = 0 while the channel runs is not stored. -/
def xmvEnWrite (s : State) (c : Nat) (v : Word) : State :=
  let x := xmvOf s c
  let off := xmvOff c + 0x14
  if !Word.bit v 0 && xmvBusy x then blockErr s 0x09 16 0
  else
    let s := wr s 0x09 off (Word.mix (rd s 0x09 off) 0xF1 v)
    let s := if Word.bit v 0 then (if x.st = .idle then setXmv s c { x with st := .run, reason := 0, tcode := 0 } else s)
      else setXmv s c { x with st := .idle, ovr := false }
    let s := if Word.bit v 1 then xmvStop s c else s
    if Word.bit v 2 then xmvAbort s c else s

def execXmvEnWrite (who : Who) (ch : Fin 64) (v : Word) (s : State) : Out :=
  fin (onWrite s who 0x09 (xmvOff ch + 0x14) v fun s => xmvEnWrite s ch v)

/-- Add credits (R522): at most 511 are held. -/
def xmvCredit (s : State) (c n : Nat) : State :=
  let x := xmvOf s c
  let t := x.credits + n
  setXmv s c { x with credits := min t 511, ovr := x.ovr || 511 < t, st := if x.st = .waitPace && 0 < t then .run else x.st }

/-- A rising edge of a request line (R522): each channel whose descriptor it paces gains a credit. -/
def xmvEdge (s : State) (line : Nat) : State :=
  (List.range 64).foldl (fun s c => match (xmvOf s c).desc with
    | some d => if d.ctrl / 16 % 4 = 2 && d.ctrl / 64 % 16 = line then xmvCredit s c 1 else s
    | none => s) s

/-- A write of XMV_SWREQ (R522, R532). -/
def xmvSwreq (s : State) (v : Word) : State := (List.range 8).foldl (fun s n => if Word.bit v n then xmvEdge s (8 + n) else s) s

/-- The unit of SWAP in bytes (R520). -/
def xmvUnit (ctrl : Nat) : Nat := 2 ^ (ctrl % 4)

/-- Fixed source and destination. -/
def xmvSrcFixed (ctrl : Nat) : Bool := ctrl / 2 ^ 14 % 2 = 1
def xmvDstFixed (ctrl : Nat) : Bool := ctrl / 2 ^ 15 % 2 = 1

/-- A descriptor is malformed (R521). -/
def xmvMalformed (d : List Byte) : Bool :=
  let f (lo n : Nat) : Nat := leNat ((d.drop lo).take n)
  let len := f 16 3 + 1
  let ctrl := f 20 2
  let fs := xmvSrcFixed ctrl
  let fd := xmvDstFixed ctrl
  f 6 2 ≠ 0 || f 14 2 ≠ 0 || f 19 1 ≠ 0 || f 22 2 ≠ 0 || ctrl / 16 % 4 = 3 || len % xmvUnit ctrl ≠ 0
    || ((fs || fd) && (len % 4 ≠ 0 || ctrl % 4 = 3)) || (fs && f 0 6 % 4 ≠ 0) || (fd && f 8 6 % 4 ≠ 0)
    || 2 ^ 48 < f 0 6 + len || 2 ^ 48 < f 8 6 + len

/-- A descriptor is paced (R522). -/
def xmvPaced (d : XmvDesc) : Bool := d.ctrl / 16 % 4 ≠ 0

/-- A paced channel whose credits are used up waits (R522). -/
def xmvWait (s : State) (c : Nat) : State :=
  let x := xmvOf s c
  match x.desc with
  | some d => if xmvPaced d && x.limit ≤ x.wpos && x.out = [] && x.credits = 0 && x.st = .run then setXmv s c { x with st := .waitPace } else s
  | none => s

/-! ### Requests -/

/-- The smallest naturally aligned block of up to 64 bytes that holds the bytes lo to hi (R523). -/
def alignedBlock (lo hi : Nat) : Nat × Nat :=
  match [1, 2, 4, 8, 16, 32].find? fun k => lo / k = hi / k with
  | some k => (lo / k * k, k)
  | none => (lo / 64 * 64, 64)

/-- How far the descriptor may move: all of it, or as far as the credits taken reach (R522). -/
def xmvReach (x : XmvCh) (d : XmvDesc) : Nat := if xmvPaced d then min d.len x.limit else d.len

/-- The next read of a descriptor (R523). -/
def xmvReadReq (x : XmvCh) (d : XmvDesc) : Option XmvReq :=
  let m := xmvReach x d
  if m ≤ x.rpos then none
  else if xmvSrcFixed d.ctrl then some { write := false, addr := d.src, size := 4, n := 4 }
  else
    let lo := d.src + x.rpos
    let hi := min (d.src + m - 1) (lo / 64 * 64 + 63)
    let (a, k) := alignedBlock lo hi
    some { write := false, addr := a, size := k, lo := lo - a, n := hi + 1 - lo }

/-- The next write of a descriptor, once the funnel holds what it takes (R523): output byte k takes input byte k XOR (unit - 1). -/
def xmvWriteReq (x : XmvCh) (d : XmvDesc) : Option XmvReq :=
  let n := min (xmvReach x d - x.wpos) (if xmvDstFixed d.ctrl then 4 else 64 - (d.dst + x.wpos) % 64)
  let u := xmvUnit d.ctrl
  if n = 0 || x.base + x.got.length < ((x.wpos + n - 1) / u + 1) * u then none
  else some {
    write := true, addr := if xmvDstFixed d.ctrl then d.dst else d.dst + x.wpos, size := n, n := n
    data := (List.range n).map fun k => x.got.getD (((x.wpos + k) ^^^ (u - 1)) - x.base) 0 }

/-- Take a credit where a paced descriptor has read as far as the last one reaches (R522). -/
def xmvPace (x : XmvCh) (d : XmvDesc) : XmvCh :=
  if !xmvPaced d || x.credits = 0 || x.rpos < x.limit || d.len ≤ x.limit then x
  else { x with credits := x.credits - 1, limit := x.limit + 64 * 2 ^ (d.ctrl / 1024 % 8) }

/-- A channel has issued a request. -/
def xmvIssued (x : XmvCh) (d : XmvDesc) (r : XmvReq) : XmvCh :=
  let x := { x with out := x.out ++ [r] }
  if !r.write then { x with rpos := x.rpos + r.n }
  else
    let w := x.wpos + r.n
    let b := w / xmvUnit d.ctrl * xmvUnit d.ctrl
    { x with wpos := w, base := b, got := x.got.drop (b - x.base) }

/-- What a channel does when it may issue a request: at most 32 are outstanding (R525), and none follows what ends the descriptor (R526). -/
def xmvIssue (x : XmvCh) : Option XmvCh :=
  match x.desc with
  | none => none
  | some d =>
    if (x.st ≠ .run && x.st ≠ .stopping) || x.ending.isSome || 32 ≤ x.out.length then none
    else
      let x := xmvPace x d
      match xmvWriteReq x d with
      | some r => some (xmvIssued x d r)
      | none => (xmvReadReq x d).map (xmvIssued x d)

/-- Requests that all channels have outstanding. -/
def xmvOutAll (s : State) : Nat := sumOf (fun p => p.2.out.length) s.xmv

/-- XMV_CH_CTL.PRIO. -/
def xmvPrio (s : State) (c : Nat) : Nat := rdF s 0x09 (xmvOff c + 0x14) 5 4

/-- The channel to serve among those with a request: the highest PRIO, round robin within it (R525). -/
def xmvPick (s : State) (l : List (Nat × XmvCh)) : Option (Nat × XmvCh) :=
  let p := (l.map fun r => xmvPrio s r.1).foldl max 0
  let l := l.filter fun r => xmvPrio s r.1 = p
  match Tbl.find s.xmvTurn p with
  | none => l.head?
  | some t => match l.find? fun r => t < r.1 with
    | some r => some r
    | none => l.head?

/-- Issue requests until every channel is at a bound or has none; all channels together hold at most 1,024 (R525). -/
def xmvPump (s : State) : Nat → State
  | 0 => s
  | fuel + 1 =>
    if 1024 ≤ xmvOutAll s then s
    else match xmvPick s (s.xmv.filterMap fun p => (xmvIssue p.2).map fun x => (p.1, x)) with
      | none => s
      | some (c, x) => xmvPump { setXmv s c x with xmvTurn := Tbl.put s.xmvTurn (xmvPrio s c) c } fuel

def xmvGo (s : State) : State := xmvPump s 1024

/-- A write of XMV_CH_STEP (R522). -/
def execXmvStepWrite (who : Who) (ch : Fin 64) (v : Word) (s : State) : Out :=
  fin (onWrite s who 0x09 (xmvOff ch + 0x1C) v fun s => xmvGo (xmvCredit s ch (Word.fld v 7 0)))

def execXmvRequestLineEdge (line : Fin 16) (s : State) : Out := fin (xmvGo (xmvEdge s line))

def execXmvSwreqWrite (who : Who) (v : Word) (s : State) : Out := fin (onWrite s who 0x09 0x104 v fun s => xmvGo (xmvSwreq s v))

/-- XMV_DESCRIPTOR_ARRIVAL (R519 to R521, R525): the descriptor at the head is fetched and checked, and its requests are issued. A channel has one descriptor in
execution at a time (DESIGN CHOICE, entry 23), and fetches none at the bound. -/
def xmvArrival (s : State) (c : Nat) : State :=
  let x := xmvOf s c
  if x.st ≠ .run || x.desc.isSome || x.out ≠ [] || 1024 ≤ xmvOutAll s || xmvHead s c = xmvTail s c then s
  else
    match busRead s (xmvWho c) (xmvEntry s c (xmvHead s c)) 32 with
    | (.ok, d, s) =>
      if xmvMalformed d then
        let s := setXmv s c { xmvOf s c with done := 0 }
        xmvError (xmvWriteBack s c 4 0).2 c 1 0
      else xmvGo (xmvWait (setXmv s c { xmvOf s c with
        desc := some { src := leNat (d.take 6), dst := leNat ((d.drop 8).take 6), len := leNat ((d.drop 16).take 3) + 1, ctrl := leNat ((d.drop 20).take 2) }
        done := 0 }) c)
    | (r, _, s) => xmvError s c 5 (tcodeNum r)

def execXmvDescriptorArrival (ch : Fin 64) (s : State) : Out := fin (xmvArrival s ch)

end Sys2Proof.Machine
end

