-- ==== Sys2Proof/Machine/PortOps.lean ====
section
/-! DEFINITION. Shared operations on ports, functions and command contexts (R63, R68, R72 to R78): what a port may issue, what it holds, containment, and what
the loss of a link or the reset of a function does to commands. -/

namespace Sys2Proof.Machine

/-! ### Ports and functions -/

/-- A function exists (R63, R85): the PF of a present port, and the VFs up to NumVFs while VF Enable is set. -/
def fnPresent (s : State) (mid : Nat) : Bool :=
  portPresent s (mid / 64) && (mid % 64 = 0 || ((portOf s (mid / 64)).vfEn && mid % 64 ≤ (portOf s (mid / 64)).numVfs))

/-- PF0 of the management port. -/
def mgmtPf (s : State) : Nat := mgmtPort s * 64

/-- A management function (R106): a function of the management port that is bound to tenant 0. -/
def mgmtFn (s : State) (mid : Nat) : Bool := mid / 64 = mgmtPort s && fnTenant s mid = 0

/-- Answer a host request with a PCIe completion. -/
def hostAnswer (s : State) (cpl : Nat) (data : Nat := 0) : State := { s with resp := { code := .ok, data := data, cpl := cpl } }

/-- Answer a host write with Successful Completion, keeping what else left the port. -/
def hostKeep (s : State) : State := { s with resp := { code := .ok, tlps := s.resp.tlps } }

/-- The port may train (R55, R59, R629): PERST# is deasserted, step 4 has ended, the block is in service and LINK_EN reads 1. -/
def portMayTrain (s : State) (p : Nat) : Bool :=
  portPresent s p && !(portOf s p).perst && !(portOf s p).quiet && s.dev.step4 && Word.bit (rd s (portRgn p) 0x100) 0
    && (blkSt s (portRgn p)).st ≠ .off && (blkSt s (portRgn p)).st ≠ .retired

/-- Enter Detect (R55): the link-control fields take effect. -/
def enterDetect (s : State) (p : Nat) : State :=
  setPort s p { portOf s p with link := rd s (portRgn p) 0x100, ltssm := .detect, detActive := false, dlActive := false, credits := none }

/-- The receive credits of a port in units of R67's table: the completion credits are without end. -/
def rxCredits : Credits := ⟨some 128, some 1024, some 128, some 32, none, none⟩

/-! ### Error records of a function -/

/-- Record an uncorrectable error (R80): PF0's masks and severities hold for every function of its port. -/
def aerRec (s : State) (mid bit hdr : Nat) (advisory : Bool) : State :=
  let f := fnOf s (mid / 64 * 64)
  setFn s mid (aerLog f.aerMask f.aerSev (fnOf s mid) bit hdr advisory)

/-- Record a correctable error of the link in PF0 (R80). -/
def aerCorr (s : State) (p bit : Nat) : State :=
  setFn s (p * 64) { fnOf s (p * 64) with aerCor := (fnOf s (p * 64)).aerCor ||| 2 ^ bit, devSta := (fnOf s (p * 64)).devSta ||| 1 }

/-- Record an error of a host request whose header the command does not carry: a free value (log entry 106). -/
def aerHost (s : State) (mid bit : Nat) (advisory : Bool) : State :=
  let (h, s) := takeFree s
  aerRec s mid bit (h % 2 ^ 128) advisory

/-- Answer a host read or configuration request with Unsupported Request, or with Completer Abort (R65, R80). -/
def hostUr (s : State) (mid : Nat) : State := hostAnswer (aerHost s mid 20 true) 1
def hostCa (s : State) (mid : Nat) : State := hostAnswer (aerHost s mid 15 true) 4


/-! ### MSI-X -/

/-- A vector is masked: by its function, or by its own control dword, which reads 1 until it is written (R64). -/
def vecMasked (f : FnSt) (v : Nat) : Bool := f.msixMask || Word.bit (Tbl.getD f.msixTab (4 * v + 3) 1) 0

/-- A function signals an MSI-X vector (R64, R69, R74): a message leaves, or the vector pends while it is masked. Nothing is sent while MSI-X is off. -/
def msixSignal (s : State) (mid v : Nat) : Bool × State :=
  let f := fnOf s mid
  if !f.msixEn then (false, s)
  else if vecMasked f v || !hostOpen s mid then (false, setFn s mid { f with pba := if f.pba.contains v then f.pba else f.pba ++ [v] })
  else (true, s)

/-- Messages of pending vectors that are no longer masked leave (R64, R74). -/
def msixFlush (s : State) (mid : Nat) : State :=
  let f := fnOf s mid
  if !f.msixEn || !hostOpen s mid then s
  else
    let (stay, go) := f.pba.partition fun v => vecMasked f v
    if go = [] then s
    else
      let s := setFn s mid { f with pba := stay }
      { s with resp := { s.resp with tlps := s.resp.tlps ++ go.map fun v => { mid := mid, kind := .msix v } } }

/-! ### Requests of a port -/

/-- A tag that no outstanding request holds (R68). -/
def freeTag (x : Port) : Nat :=
  (((List.range 4097).map fun i => (x.nextTag + i) % 16384).find? fun t => !(x.np.any (·.tag = t))).getD x.nextTag

/-- Non-posted requests of a port that are outstanding (R28, R83): those of its functions, and the reads of leaves in the Host Memory Buffer. -/
def npOut (s : State) (p : Nat) : Nat := (portOf s p).np.length + (if p = mgmtPort s then s.ftl.moving.length else 0)

/-- Issue a non-posted request, if fewer than 4,096 are outstanding (R28, R68, R69). -/
def npIssue (s : State) (p mid : Nat) (f : NpFor) : Option State :=
  let x := portOf s p
  if 4096 ≤ npOut s p then none
  else
    let t := freeTag x
    let a := tlpAttr s mid
    some (setPort s p { x with np := x.np ++ [{ tag := t, mid := mid, purpose := f, ro := a.1, ido := a.2 }], nextTag := (t + 1) % 16384 })

/-- Issue what a command still wants to fetch: its next fragment table, or pieces of its data, as far as tags reach. -/
def ctxIssue (s : State) (x : Ctx) : Nat → State
  | 0 => s
  | fuel + 1 =>
    match ctxOf s x.id with
    | none => s
    | some x =>
      let p := x.id.mid / 64
      if !hostOpen s x.id.mid then s
      else match x.stage, x.twant, x.want with
        | .fetched, (o, a, n) :: t, _ =>
          match npIssue s p x.id.mid (.table x.id o a n) with
          | some s => ctxIssue (ctxUpd s x.id fun y => { y with twant := t }) x fuel
          | none => s
        | .dataIn, _, (o, a, n) :: t =>
          match npIssue s p x.id.mid (.data x.id o a n) with
          | some s => ctxIssue (ctxUpd s x.id fun y => { y with want := t }) x fuel
          | none => s
        | _, _, _ => s

/-- Held and waiting requests of a port issue in the order of the commands' fetches (R74, R77); programs' output resumes (R393), and messages that were held
leave. -/
def portPump (s : State) (p : Nat) : State :=
  let s := { s with resp := { s.resp with tlps := [] } }
  let s := (s.hqe.ctxs.filter fun x => x.id.mid / 64 = p).foldl (fun s x => ctxIssue s x (x.want.length + x.twant.length + 1)) s
  let s := ((portOf s p).fns.map (·.1)).foldl (fun s f => msixFlush s (p * 64 + f)) s
  s.grv.execs.foldl (fun s c => match c.engine with
    | some e => if c.cmd.mid / 64 = p then (engOf s e).streams.foldl (fun s k => strPush s e k.1) s else s
    | none => s) s

/-- The requests of a port that no completion will answer: entries are fetched again, tables and data are asked for again. -/
def npLost (s : State) (p : Nat) (gone : NpReq → Bool) : State :=
  let l := (portOf s p).np.filter fun n => gone n
  let s := setPort s p { portOf s p with np := (portOf s p).np.filter fun n => !gone n }
  (l.filter fun n => !n.discard).foldl (fun s n => match n.purpose with
    | .entries mid sqid idx _ => { s with hqe := { s.hqe with sqs := Tbl.adj s.hqe.sqs (mid * 65536 + sqid) fun q => { q with head := idx } } }
    | .data c o a k => ctxUpd s c fun x => { x with want := x.want ++ [(o, a, k)] }
    | .table c o a k => ctxUpd s c fun x => { x with twant := x.twant ++ [(o, a, k)] }) s

/-- Containment ends with DL_Active (R58, R77): held commands resume in order. -/
def containEnd (s : State) (p : Nat) : State :=
  let x := portOf s p
  if x.pstate = .contained && x.dlActive then portPump (setPort s p { x with pstate := .up }) p else s

/-! ### Contexts -/

/-- Commands held under R74 or R76: their function may not issue. -/
def ctxHeld (s : State) (x : Ctx) : Bool := !hostOpen s x.id.mid

/-- HELD pending writes of a command become OPEN (R177): they are merged and handed to Coppice. -/
def openHeld (s : State) (c : CmdId) : State :=
  let l := s.ftl.pwt.filter fun p => p.cmd = c && p.held
  let s := { s with ftl := { s.ftl with
    pwt := s.ftl.pwt.filter fun p => !(p.cmd = c && p.held), pwtWait := s.ftl.pwtWait.map fun p => if p.cmd = c then { p with held := false } else p } }
  l.foldl (fun s p =>
    let a := pwtOpen s { p with held := false }
    ctxUpd a.2 c fun x => if x.stage = .waitClose then { x with cover := x.cover.filter (· ≠ p.wseq) ++ a.1 } else x) s

/-- A command in a queue for an engine leaves it; one that runs is aborted (R406). -/
def progAbort (s : State) (c : CmdId) : State :=
  match s.grv.execs.find? fun y => y.cmd = c with
  | none => s
  | some y => match y.engine with
    | none => { s with grv := { s.grv with execs := s.grv.execs.filter fun z => z.cmd ≠ c } }
    | some e => setEng s e { engOf s e with mip := (engOf s e).mip ||| 2 ^ 17, aborting := true }

/-- Entries of an SQ are on their way (R91). -/
def entriesDue (s : State) (mid sqid : Nat) : Bool :=
  (portOf s (mid / 64)).np.any fun n => match n.purpose with
    | .entries m k _ l => m = mid && k = sqid && l ≠ []
    | _ => false

/-- Complete a Resume Queue that waits for the last command of its SQ (R116). -/
def resumeCheck (s : State) (mid sqid : Nat) : State :=
  let k := mid * 65536 + sqid
  match Tbl.find s.hqe.sqs k with
  | none => s
  | some q => match q.resume with
    | none => s
    | some (c, head) =>
      if (s.hqe.ctxs.any fun x => x.id.mid = mid && x.id.sqid = sqid) || entriesDue s mid sqid then s
      else
        let s := { s with hqe := { s.hqe with sqs := Tbl.put s.hqe.sqs k { q with st := .active, head := head, resume := none, reason := 0 } } }
        let s := setCtrl s mid { ctrlOf s mid with c2hGen := (ctrlOf s mid).c2hGen + 1 }
        complete s c stOk

/-- A context goes (R98): its waiting allocations end, buffers that no pending write holds are released, and completions of its requests are discarded. -/
def ctxDrop (s : State) (x : Ctx) : State :=
  let s := { s with
    bpm := { s.bpm with waiters := s.bpm.waiters.filter fun w => w.purpose ≠ .cmd x.id }
    hqe := { s.hqe with ctxs := s.hqe.ctxs.filter fun y => y.id ≠ x.id } }
  let s := setPort s (x.id.mid / 64) { portOf s (x.id.mid / 64) with
    np := (portOf s (x.id.mid / 64)).np.map fun n => match n.purpose with
      | .table c _ _ _ => if c = x.id then { n with discard := true } else n
      | .data c _ _ _ => if c = x.id then { n with discard := true } else n
      | .entries _ _ _ _ => n }
  let s := (x.bufs.filter fun b => !((s.ftl.pwt ++ s.ftl.pwtWait).any (·.buf = b))).foldl (fun s b => bpmFree s b) s
  resumeCheck s x.id.mid x.id.sqid

/-- The end of a command of a function that is reset (R73, R119, R406): a fully received write proceeds to media with no completion, a write received in
part is discarded, a read is cancelled and its data discarded, a program is aborted. -/
def ctxEnd (s : State) (x : Ctx) : State :=
  let s := match nsOf s x.nsid with
    | some n => if x.stage = .received then (writeEnter s x n false).2 else s
    | none => s
  let s := openHeld (progAbort s x.id) x.id
  ctxDrop { s with grv := { s.grv with execs := s.grv.execs.filter fun y => y.cmd ≠ x.id } } x

/-- Mark a command failed with Data Transfer Error (R76): the failure stands unless the command already has its status. -/
def failTransfer (s : State) (c : CmdId) : State := complete s c stTransferErr

/-- Writes whose data has been received in part are discarded when the link is lost (R78). -/
def failPartial (s : State) (p : Nat) : State :=
  (s.hqe.ctxs.filter fun x => x.id.mid / 64 = p && x.stage = .dataIn && !x.admin && x.sqe.opc = 0x01).foldl (fun s x => failTransfer s x.id) s

/-! ### Containment -/

/-- Drop the HMB tier (R175), if the function holds one. -/
def hmbLoss (s : State) (p : Nat) : State := if p = mgmtPort s then hmbDrop s else s

/-- Enter Contained (R75, R76): from Up. `hdr`: the triggering TLP's header as a 128-bit number. -/
def portContain (s : State) (p cause fn hdr : Nat) : State :=
  if (portOf s p).pstate ≠ .up then s
  else
    let s := setPort s p { portOf s p with pstate := .contained, cause := cause, causeFn := fn }
    let s := (List.range 4).foldl (fun s i => wr s (portRgn p) (0x114 + 4 * i) (w32 (hdr / 2 ^ (32 * i)))) s
    let s := emit (raiseInt s (portRgn p) 3) 0x3002 sevError (portRgn p) none (leBytes 1 cause ++ leBytes 1 fn)
    hmbLoss s p

/-- The link goes down without a return to Detect that the port forces, PERST#, hot reset or link disable (R75, R78): a surprise down. The RATE, WIDTH, FLIT and CXL
of the last training stay as they were (DESIGN CHOICE, entry 104). -/
def surpriseDown (s : State) (p : Nat) : State :=
  let x := portOf s p
  if x.pstate ≠ .up && x.pstate ≠ .contained then s
  else
    let s := portContain s p 4 0 0
    let s := if x.dlActive then raiseInt s (portRgn p) 2 else s
    let s := enterDetect s p
    let s := failPartial s p
    let s := npLost s p fun _ => true
    let s := setPort s p { portOf s p with bar2 := [] }
    let s := hmbLoss { s with win := { s.win with owed := s.win.owed.filter (·.holder ≠ p) } } p
    if x.cxl then winPortDown s p else s

/-- Training that ends in Detect is counted, signalled and logged (R58, R59). -/
def trainFail (s : State) (p : Nat) : State :=
  emit (raiseInt (bumpF s (portRgn p) 0x108 15 0 1) (portRgn p) 6) 0x3001 sevNotice (portRgn p) none []

/-- A return to Detect that the port forces (R58, R629): state is kept, requests in flight are asked for again, and PSTATE is Down; a contained port stays
contained. One before L0 is a training failure. The RATE, WIDTH, FLIT and CXL of the last training stay as they were (DESIGN CHOICE, entry 104). -/
def forcedDetect (s : State) (p : Nat) : State :=
  let x := portOf s p
  let s := if x.dlActive then raiseInt s (portRgn p) 2 else s
  let s := if x.ltssm = .polling || x.ltssm = .configuration then trainFail s p else s
  let s := hmbLoss (npLost (enterDetect s p) p fun _ => true) p
  setPort s p { portOf s p with pstate := if x.pstate = .contained then .contained else .down }

/-! ### Resets of functions and ports -/

/-- What ends when a controller is reset or its function resets (R119, R540, R563): queues, their latches and commands; enables and features return to
their defaults. The C2h generation counts what it loses. -/
def ctrlClear (s : State) (mid : Nat) : State :=
  let s := (s.hqe.ctxs.filter fun x => x.id.mid = mid).foldl ctxEnd s
  let s := setPort s (mid / 64) { portOf s (mid / 64) with np := (portOf s (mid / 64)).np.map fun n => if n.mid = mid then { n with discard := true } else n }
  let lost := countOf (fun q => q.1 / 65536 = mid && q.2.st ≠ .active) s.hqe.sqs
  let g := (ctrlOf s mid).c2hGen + lost
  let s := { s with
    hqe := { s.hqe with
      sqs := s.hqe.sqs.filter fun q => q.1 / 65536 ≠ mid
      cqs := s.hqe.cqs.filter fun q => q.1 / 65536 ≠ mid }
    graft := { s.graft with session := match s.graft.session with
      | some q => if q.mid = mid then none else some q
      | none => none }
    rings := { s.rings with snaps := Tbl.del s.rings.snaps mid } }
  let c : Ctrl := { c2hGen := g, tsOff := (ctrlOf s mid).tsOff, tsSet := (ctrlOf s mid).tsSet }
  let s := setCtrl s mid c
  let s := if mid = mgmtPf s then hmbDrop s else s
  psSettle s

/-- A function's configuration state returns to its reset values, sticky AER bits apart (R72, R73). -/
def fnReset (s : State) (mid : Nat) (ready : Bool) : State :=
  let f := fnOf s mid
  setFn s mid {
    ready := ready, aerUnc := f.aerUnc, aerCor := f.aerCor, aerMask := f.aerMask, aerSev := f.aerSev, aerCorMask := f.aerCorMask, aerFirst := f.aerFirst, aerHdr := f.aerHdr }

/-- The functions of a port that exist or hold state. -/
def portMids (s : State) (p : Nat) : List Nat :=
  ((List.range 64).map (p * 64 + ·)).filter fun m =>
    m % 64 = 0 || (Tbl.find (portOf s p).fns (m % 64)).isSome || (Tbl.find s.hqe.ctrls m).isSome || s.hqe.ctxs.any (·.id.mid = m)

/-- PERST#, hot reset or link disable (R72, R78): the port's link, functions, controllers and decoders reset; containment ends; what stays in PRT_CONTAIN is
its history. -/
def portReset (s : State) (p : Nat) (l : Ltssm) : State :=
  let x := portOf s p
  let s := if x.dlActive then raiseInt s (portRgn p) 2 else s
  let s := hmbLoss s p
  let mids := portMids s p
  let s := mids.foldl ctrlClear s
  let s := mids.foldl (fun s m => fnReset s m false) s
  let s := winPortReset (winPortDown s p) p
  let s := enterDetect { s with win := { s.win with owed := s.win.owed.filter (·.holder ≠ p) } } p
  setPort s p { portOf s p with
    pstate := .down, ltssm := l, np := [], bar2 := [], doe := {}, cxl := false, flit := false, rate := 0, width := 0, vfEn := false, numVfs := 0
    ctoEnc := 0, ctoOff := false }

end Sys2Proof.Machine
end

