-- ==== Sys2Proof/Machine/HqeFetch.lean ====
section
/-! DEFINITION. The fetch side of HQE: queues and their latches (R92, R96, R115, R123), contexts (R98, R99, R104), arbitration (R100 to R103) and the fetch
of entries (R91). -/

namespace Sys2Proof.Machine

/-! ### Queues -/

/-- The key of a queue of a controller. -/
def qKey (mid qid : Nat) : Nat := mid * 65536 + qid
def sqOf (s : State) (mid qid : Nat) : Option Sq := Tbl.find s.hqe.sqs (qKey mid qid)
def cqOf (s : State) (mid qid : Nat) : Option Cq := Tbl.find s.hqe.cqs (qKey mid qid)
def setSq (s : State) (mid qid : Nat) (q : Sq) : State := { s with hqe := { s.hqe with sqs := Tbl.put s.hqe.sqs (qKey mid qid) q } }
def setCq (s : State) (mid qid : Nat) (q : Cq) : State := { s with hqe := { s.hqe with cqs := Tbl.put s.hqe.cqs (qKey mid qid) q } }

/-- The SQs of a controller, in ascending order. -/
def sqsOf (s : State) (mid : Nat) : List (Nat × Sq) :=
  (s.hqe.sqs.filter fun q => q.1 / 65536 = mid).map fun q => (q.1 % 65536, q.2)

/-- The last value written to a doorbell is kept with the latch (R123). -/
structure LatchInfo where
  reason : Nat
  head : Nat
  doorbell : Nat
  cid : Nat := 0xFFFF
  status : Status := ⟨0, 0⟩
  frag : Nat := 0

/-- Latch an SQ as Errored or Frozen (R96 step 5, R115 step 4, R123, R126). -/
def latchSq (s : State) (mid qid : Nat) (st : SqState) (l : LatchInfo) : State :=
  match sqOf s mid qid with
  | none => s
  | some q =>
    let s := setSq s mid qid { q with
      st := st, reason := l.reason, latch := l.head, doorbell := l.doorbell, cidFault := l.cid, stFault := l.status.sct * 256 + l.status.sc, aborted := 0
      frag := l.frag, opsec := s.dev.opsec }
    let s := setCtrl s mid { ctrlOf s mid with c2hGen := (ctrlOf s mid).c2hGen + 1 }
    let s := if Word.bit (rd s 0x0D 0x118) 31 then s
      else wr (wr s 0x0D 0x114 (w32 (mid + qid * 65536))) 0x0D 0x118 (w32 (l.head % 65536 + l.reason * 65536 + 2 ^ 31))
    let s := emit (raiseInt s 0x0D (if st = .frozen then 2 else 1)) (if st = .frozen then 0x3005 else 0x3004) (if st = .frozen then sevNotice else sevWarning) 0x0D
      (some (fnTenant s mid)) (leBytes 2 mid ++ leBytes 2 qid ++ leBytes 1 l.reason)
    raiseAer s mid 7 0xC2 0xC2

/-- Fetches of an SQ under way deliver nothing: their contexts return. -/
def dropFetch (s : State) (mid qid : Nat) : State :=
  setPort s (mid / 64) { portOf s (mid / 64) with np := (portOf s (mid / 64)).np.map fun n => match n.purpose with
    | .entries m q i _ => if m = mid && q = qid then { n with discard := true, purpose := .entries m q i [] } else n
    | _ => n }

/-- A fetch-level fault (R96): the SQ becomes Errored with its head at the faulty entry; a queue that is Errored or Frozen already keeps its latch. The
faulty command completes with Malformed Entry. Commands of later entries that were fetched already go on (DESIGN CHOICE, entry 108). -/
def queueError (s : State) (mid qid reason idx frag : Nat) (c : Option CmdId) : State :=
  let s := match sqOf s mid qid with
    | none => s
    | some q =>
      if q.st ≠ .active then s
      else
        let s := dropFetch s mid qid
        let s := setSq s mid qid { q with head := idx }
        latchSq s mid qid .errored { reason := reason, head := idx, doorbell := q.tail, frag := frag
                                     cid := (c.map fun x => x.cid % 65536).getD 0xFFFF, status := if c.isSome then stMalformedEntry else ⟨0, 0⟩ }
  match c with
  | some c => complete s c stMalformedEntry
  | none => s

/-! ### Contexts -/

/-- Contexts in use: tenant, MID and source, those drawn for entries on their way included (R98). -/
def ctxUses (s : State) : List (Nat × Nat × CtxSrc) :=
  (s.hqe.ctxs.map fun x => (x.tenant, x.id.mid, x.src))
    ++ s.ports.flatMap fun p => p.2.np.flatMap fun n => match n.purpose with
      | .entries mid _ _ l => l.map fun d => (fnTenant s mid, mid, d.2)
      | _ => []

def ctxUsed (s : State) : Nat := (ctxUses s).length
def tenUsed (s : State) (t : Nat) : Nat := countOf (fun u => u.1 = t) (ctxUses s)
def minUsed (s : State) (t : Nat) : Nat := countOf (fun u => u.1 = t && u.2.2 = .tenantMin) (ctxUses s)
def resUsed (s : State) (p : Nat) : Nat := countOf (fun u => u.2.1 / 64 = p && u.2.2 = .reserve) (ctxUses s)
def sharedUsed (s : State) (p : Nat) : Nat := countOf (fun u => u.2.1 / 64 = p && u.2.2 = .shared) (ctxUses s)

/-- Fields of the tenant table (R128), and the port weight (R127). -/
def ctxMin (s : State) (t : Nat) : Nat := rdF s 0x0D (0x2000 + 32 * t) 15 0
def ctxCap (s : State) (t : Nat) : Nat := rdF s 0x0D (0x2004 + 32 * t) 16 0
def urgRate (s : State) (t : Nat) : Nat := rdF s 0x0D (0x2008 + 32 * t) 23 0
def urgBurst (s : State) (t : Nat) : Nat := rdF s 0x0D (0x2008 + 32 * t) 31 24
def portWeight (s : State) (p : Nat) : Nat := rdF s 0x0D (0x1000 + 16 * p) 7 0

/-- The sum of CTX_MIN, and the shared pool net of it (R98, R126). -/
def ctxMinSum (s : State) : Nat := sumOf (ctxMin s) (List.range 512)
def sharedPool (s : State) : Nat := 49152 - ctxMinSum s
def sharedFree (s : State) : Nat := sharedPool s - countOf (fun u => u.2.2 = .shared) (ctxUses s)

/-- The controller may be fetched for (R76, R119, R575): ready, no shutdown begun, its function may issue, no power loss or flush. -/
def ctlFetches (s : State) (mid : Nat) : Bool :=
  (ctrlOf s mid).en && (ctrlOf s mid).rdy && (ctrlOf s mid).shn = 0 && fnPresent s mid && hostOpen s mid && !s.pwr.pl && s.pwr.flush.isNone

/-- Entries wait in an Active SQ whose previous fetch has returned (R91). -/
def sqWaits (s : State) (mid qid : Nat) (q : Sq) : Bool :=
  q.st = .active && q.head ≠ q.tail && !((portOf s (mid / 64)).np.any fun n => match n.purpose with
    | .entries m k _ _ => m = mid && k = qid
    | _ => false)

/-- The next context of a port's commands would come from the shared pool. -/
def drawsShared (s : State) (mid : Nat) (admin : Bool) : Bool :=
  (admin || tenUsed s (fnTenant s mid) < ctxCap s (fnTenant s mid)) && ctxMin s (fnTenant s mid) ≤ minUsed s (fnTenant s mid)
    && (if admin then 2048 else 1984) ≤ resUsed s (mid / 64)

/-- The tenant's owner can supply a 4 KiB buffer (R99). In Dormant DRAM is not started, and no buffer is asked for (R483). -/
def bufferCan (s : State) (mid : Nat) : Bool :=
  s.dev.dormant || (match classFor s 4096 with
    | some k => (bpmTry s (ownerOf s (fnTenant s mid)) k false).1.isSome
    | none => false)

/-- Ports with waiting entries that need the shared pool, and that nothing else stops (R99, R104). -/
def sharedWaiters (s : State) : List Nat :=
  (List.range 8).filter fun p => s.hqe.ctrls.any fun c => c.1 / 64 = p && ctlFetches s c.1 && bufferCan s c.1 &&
    (sqsOf s c.1).any fun q => sqWaits s c.1 q.1 q.2 && drawsShared s c.1 (q.1 = 0)

/-- The source of the next context for a function's command after those in `acc` (R98, R104): none where it cannot be had. -/
def drawOne (s : State) (mid : Nat) (admin : Bool) (acc : List CtxSrc) : Option CtxSrc :=
  let t := fnTenant s mid
  let p := mid / 64
  let k (x : CtxSrc) : Nat := countOf (· = x) acc
  if !admin && ctxCap s t ≤ tenUsed s t + acc.length then none
  else if minUsed s t + k .tenantMin < ctxMin s t then some .tenantMin
  else if resUsed s p + k .reserve < (if admin then 2048 else 1984) then some .reserve
  else if sharedFree s ≤ k .shared then none
  else
    let others := (sharedWaiters s).filter (· ≠ p)
    if others ≠ [] && sharedPool s * portWeight s p / (portWeight s p + sumOf (portWeight s) others) ≤ sharedUsed s p + k .shared then none
    else some .shared

/-- Draw up to n contexts. -/
def drawN (s : State) (mid : Nat) (admin : Bool) (acc : List CtxSrc) : Nat → List CtxSrc
  | 0 => acc
  | n + 1 => match drawOne s mid admin acc with
    | some x => drawN s mid admin (acc ++ [x]) n
    | none => acc

/-- An SQ can be fetched (R91, R98, R99). -/
def sqFetchable (s : State) (mid qid : Nat) (q : Sq) : Bool :=
  ctlFetches s mid && sqWaits s mid qid q && (drawOne s mid (qid = 0) []).isSome && bufferCan s mid

/-! ### Arbitration -/

def rrOf (s : State) (k : Nat) : Nat := Tbl.getD s.hqe.rr k 0
def setRr (s : State) (k v : Nat) : State := { s with hqe := { s.hqe with rr := Tbl.put s.hqe.rr k v } }
def rrPos : Nat := 0
def rrCtl (p : Nat) : Nat := 1 + p
def rrSq (mid : Nat) : Nat := 0x1000 + mid
def rrCls (mid : Nat) : Nat := 0x2000 + mid
def rrCredit (mid : Nat) : Nat := 0x3000 + mid

/-- The urgent budget (R101): a bucket that was never used is full; a rate of 0xFF_FFFF is unlimited. -/
def tokensOf (s : State) (t : Nat) : Nat := if urgRate s t = 0xFFFFFF then urgBurst s t else min (urgBurst s t) (Tbl.getD s.hqe.tokens t (urgBurst s t))

/-- The first SQ of a list at or after a round-robin position. -/
def rrFirst (l : List Nat) (k : Nat) : Option Nat := (l.find? (k ≤ ·)).orElse fun _ => l.head?

/-- Weights of the Arbitration feature (R100): high, medium, low. -/
def arbWeight (c : Ctrl) (k : Nat) : Nat := (if k = 1 then Word.fld c.arb 31 24 else if k = 2 then Word.fld c.arb 23 16 else Word.fld c.arb 15 8) + 1

/-- The weighted class that is served next: the current class while it has credit and work, else the next ones in turn. -/
def wrrPick (c : Ctrl) (pool : Nat → List Nat) (k credit : Nat) : Nat → Option (Nat × Nat)
  | 0 => none
  | fuel + 1 =>
    if pool k ≠ [] && 0 < credit then some (k, credit)
    else wrrPick c pool (k % 3 + 1) (arbWeight c (k % 3 + 1)) fuel

/-- The SQ a controller serves next (R100): the admin SQ and the I/O SQs in turn, or by weights; `first`: only if it has an admin entry, or an urgent entry that
has a token (R102). The state keeps the weighted class served. -/
def ctlPick (s : State) (mid : Nat) (first : Bool) : Option (Nat × State) :=
  let c := ctrlOf s mid
  let ok := (sqsOf s mid).filter fun q => sqFetchable s mid q.1 q.2
  let ids := ok.map (·.1)
  if !c.ams then (if first && !ids.contains 0 then none else (rrFirst ids (rrOf s (rrSq mid))).map fun q => (q, s))
  else if ids.contains 0 then some (0, s)
  else
    let urg := (ok.filter fun q => q.2.prio = 0).map (·.1)
    let token := 0 < tokensOf s (fnTenant s mid)
    if urg ≠ [] && token then (rrFirst urg (rrOf s (rrSq mid))).map fun q => (q, s)
    else if first then none
    else
      let pool (k : Nat) : List Nat := (ok.filter fun q => q.1 ≠ 0 && (q.2.prio = k || (k = 1 && q.2.prio = 0))).map (·.1)
      let k0 := max 1 (rrOf s (rrCls mid))
      match wrrPick c pool k0 (if rrOf s (rrCls mid) = 0 then arbWeight c 1 else rrOf s (rrCredit mid)) 4 with
      | none => none
      | some (k, credit) => (rrFirst (pool k) (rrOf s (rrSq mid))).map fun q => (q, setRr (setRr s (rrCls mid) k) (rrCredit mid) credit)

/-- The controller and SQ a port serves next (R102): controllers round robin, those with an admin or urgent entry first. -/
def portPick (s : State) (p : Nat) (first : Bool) : Option (Nat × Nat × State) :=
  let l := (s.hqe.ctrls.filter fun c => c.1 / 64 = p).map (·.1)
  let k := p * 64 + rrOf s (rrCtl p)
  let l := l.filter (k ≤ ·) ++ l.filter (· < k)
  let go (f : Bool) : Option (Nat × Nat × State) := l.findSome? fun m => (ctlPick s m f).map fun r => (m, r.1, r.2)
  match go true with
  | some r => some r
  | none => if first then none else go false

/-- Entries one win fetches (R68, R91, R100): up to BURST and the arbitration burst, never past the tail or the end of the queue, and no more than one request
of the port reads: it stays within 4 KiB of host address and Max Read Request Size. -/
def burstOf (s : State) (mid qid : Nat) (q : Sq) : Nat :=
  let ab := Word.fld (ctrlOf s mid).arb 2 0
  let b := rdF s 0x0D 0x120 3 0
  let b := if ab = 7 then b else min b (2 ^ ab)
  let b := min b (min (2 * 2 ^ (fnOf s mid).mrrs) (64 - (q.base + 64 * q.head) % 4096 / 64))
  min b ((if q.head < q.tail then q.tail else q.size) - q.head)

/-- The class of an entry (R100, R101): without weighted round robin every entry is medium. -/
def prioCls (ams : Bool) (prio : Nat) : Cls := if !ams then .medium else match prio with
  | 0 => .urgent
  | 1 => .high
  | 2 => .medium
  | _ => .low

/-- INT_STS.CTX_LOW (R125): the shared pool fell below its threshold from s to t. -/
def noteCtxLow (s t : State) : State :=
  if rdF s 0x0D 0x124 15 0 ≤ sharedFree s && sharedFree t < rdF t 0x0D 0x124 15 0 then raiseInt t 0x0D 3 else t

/-- Fetch a burst of an SQ (R91, R98, R101): contexts are drawn, an urgent entry costs a token or is demoted, an entry of a weighted class takes one from its
weight, and the request for the entries leaves the port. It also gives the number of entries. -/
def fetchBurst (s : State) (mid qid : Nat) : Option (Nat × State) :=
  match sqOf s mid qid with
  | none => none
  | some q =>
    let t := fnTenant s mid
    let p := mid / 64
    let ams := (ctrlOf s mid).ams && qid ≠ 0
    let urgent := ams && q.prio = 0
    let tk := tokensOf s t
    let n := burstOf s mid qid q
    let n := if urgent && 0 < tk then min n tk else n
    let weighted := ams && !(urgent && 0 < tk)
    let n := if weighted then min n (rrOf s (rrCredit mid)) else n
    let srcs := drawN s mid (qid = 0) [] n
    let demoted := urgent && tk = 0
    let cls := if qid = 0 then Cls.high else if demoted then .high else prioCls ams q.prio
    if srcs = [] then none
    else match npIssue s p mid (.entries mid qid q.head (srcs.map fun x => (cls, x))) with
    | none => none
    | some s' =>
      let k := srcs.length
      let s' := setSq s' mid qid { q with head := (q.head + k) % q.size }
      let s' := if urgent && !demoted && urgRate s t ≠ 0xFFFFFF then { s' with hqe := { s'.hqe with tokens := Tbl.put s'.hqe.tokens t (tk - k) } } else s'
      let s' := if demoted then bump (bump s' 0x0D 0x11C k) 0x0D (0x2010 + 32 * t) k else s'
      let s' := bump s' 0x0D (0x1008 + 16 * p) k
      let s' := if weighted then setRr s' (rrCredit mid) (rrOf s (rrCredit mid) - k) else s'
      let s' := setRr (setRr s' (rrCtl p) ((mid % 64 + 1) % 64)) (rrSq mid) (qid + 1)
      some (k, noteCtxLow s s')

/-- One grant of the rounds of R103: first the ports with admin or urgent entries in order, then deficit round robin in entries. Positions 0 to 7 are the
ports served first, 8 to 15 the ports of the deficit round; the low bit says that the port has had its credit in this round. -/
def arbGrant (s : State) : Nat → Option State
  | 0 => none
  | fuel + 1 =>
    let w := rrOf s rrPos
    let k := w / 2
    let nxt : State := setRr s rrPos ((k + 1) % 16 * 2)
    if k < 8 then
      match portPick s k true with
      | some (mid, qid, s') => match fetchBurst (setRr s' rrPos ((k + 1) % 16 * 2)) mid qid with
        | some (_, s') => some s'
        | none => arbGrant nxt fuel
      | none => arbGrant nxt fuel
    else
      let p := k - 8
      match portPick s p false with
      | none => arbGrant (if w % 2 = 1 then nxt else { nxt with hqe := { nxt.hqe with deficit := Tbl.put nxt.hqe.deficit p 0 } }) fuel
      | some (mid, qid, s') =>
        let d : Int := Tbl.getD s.hqe.deficit p 0 + (if w % 2 = 1 then 0 else 8 * portWeight s p)
        if d < 1 then arbGrant { nxt with hqe := { nxt.hqe with deficit := Tbl.put nxt.hqe.deficit p d } } fuel
        else match fetchBurst (setRr s' rrPos (k * 2 + 1)) mid qid with
          | some (n, s') => some { s' with hqe := { s'.hqe with deficit := Tbl.put s'.hqe.deficit p (d - n) } }
          | none => arbGrant { nxt with hqe := { nxt.hqe with deficit := Tbl.put nxt.hqe.deficit p d } } fuel

/-- SQ_FETCH (R91, R103): HQE makes its next grant; with nothing to fetch, nothing changes. -/
def sqFetch (s : State) : State := (arbGrant s 40).getD s

def execSqFetch (s : State) : Out := fin (sqFetch s)

/-! ### Doorbells -/

/-- A command at a controller whose request is non-operational returns it to its last operational state (R464). -/
def psWake (s : State) (mid : Nat) : State :=
  let c := ctrlOf s mid
  if 3 ≤ c.psReq then psSettle (setCtrl s mid { c with psReq := c.psLast }) else s

/-- An asynchronous event of type Error on a doorbell (R92): Invalid Doorbell Register is information 0, Invalid Doorbell Write Value 1. -/
def doorbellEvent (s : State) (mid info : Nat) : State := raiseAer s mid 0 info 1

/-- A write of an SQ tail doorbell (R92): discarded in Fault (R576). A value at or above the size makes the SQ Errored, a Frozen one too; one that is Errored keeps
its latch. -/
def sqDoorbell (s : State) (mid qid v : Nat) : State :=
  if s.dev.fault || !(ctrlOf s mid).en then s
  else match sqOf s mid qid with
  | none => doorbellEvent s mid 0
  | some q =>
    if q.size ≤ v then
      if q.st = .errored then s
      else latchSq s mid qid .errored { reason := 1, head := q.head, doorbell := v }
    else
      let s := setSq s mid qid { q with tail := v }
      if q.head = v then s else psWake s mid

def execSqTailDoorbell (mid : Fin 512) (qid v : Fin 65536) (s : State) : Out := fin (sqDoorbell s mid qid v)

/-- A write of a CQ head doorbell (R92): the entries up to it are freed. A value at or above the size, or beyond the last entry posted, is not stored. -/
def cqDoorbell (s : State) (mid qid v : Nat) : State :=
  if s.dev.fault || !(ctrlOf s mid).en then s
  else match cqOf s mid qid with
  | none => doorbellEvent s mid 0
  | some q =>
    let n := (v + q.size - q.head) % q.size
    if q.size ≤ v || q.entries.length < n then doorbellEvent s mid 1
    else setCq s mid qid { q with head := v, entries := q.entries.drop n }

def execCqHeadDoorbell (mid : Fin 512) (qid v : Fin 65536) (s : State) : Out := fin (cqDoorbell s mid qid v)

end Sys2Proof.Machine
end

