-- ==== Sys2Proof/Machine/HqeWalk.lean ====
section
/-! DEFINITION. Data pointers (R94, R95): the walk of PRP lists and SGL segments, the requests for a command's data, and what their completions bring. -/

namespace Sys2Proof.Machine

/-! ### Transfers of a command -/

/-- What a command transfers: bytes from the host, bytes to the host. The field layouts are those of the NVMe command sets (log entry 40). -/
structure XferLen where
  ofHost : Nat := 0
  toHost : Nat := 0

/-- NUMD of a log or firmware transfer. -/
def numd (q : Sqe) : Nat := (Word.fld q.cdw10 31 16 + Word.fld q.cdw11 15 0 * 65536 + 1) * 4

/-- Transfer lengths of admin commands. -/
def adminXfer (q : Sqe) : XferLen :=
  match q.opc with
  | 0x02 => { toHost := numd q }
  | 0x06 => { toHost := 4096 }
  | 0x09 => match Word.fld q.cdw10 7 0 with
    | 0x0C => { ofHost := 256 }
    | 0x0E => { ofHost := 8 }
    | 0x81 => { ofHost := if Word.bit q.cdw11 0 then 16 else 8 }
    | _ => {}
  | 0x0A => match Word.fld q.cdw10 7 0 with
    | 0x0C => { toHost := 256 }
    | 0x0E => { toHost := 8 }
    | 0x81 => { toHost := if Word.bit q.cdw11 0 then 16 else 8 }
    | 0xC2 => { toHost := 16 }
    | _ => {}
  | 0x0D => if Word.fld q.cdw10 3 0 = 0 then { ofHost := 4096 } else {}
  | 0x15 => { ofHost := 4096 }
  | 0x11 => { ofHost := (q.cdw10.toNat + 1) * 4 }
  | 0x85 => { ofHost := q.cdw12.toNat }
  | 0x89 => { ofHost := Word.fld q.cdw11 7 0 * 32 }
  | 0xC6 => match Word.fld q.cdw10 3 0 with
    | 0 => { toHost := 32 }
    | 1 => { ofHost := 208 }
    | _ => {}
  | 0xC9 => if Word.fld q.cdw10 7 0 = 0x0A then { ofHost := 32 } else {}
  | _ => {}

/-- NLB of a read or write. -/
def sqeNlb (q : Sqe) : Nat := Word.fld q.cdw12 15 0 + 1

/-- Transfer lengths of I/O commands, by the command set of their namespace (R105, R403, R405). -/
def ioXfer (n : Ns) (q : Sqe) : XferLen :=
  match n.kind with
  | .nvm => match q.opc with
    | 0x01 => { ofHost := sqeNlb q * lbaBytes n }
    | 0x02 => { toHost := sqeNlb q * lbaBytes n }
    | 0x05 => { ofHost := sqeNlb q * lbaBytes n }
    | 0x09 => { ofHost := (Word.fld q.cdw10 7 0 + 1) * 16 }
    | 0x0D => { ofHost := 16 }
    | 0x0E => { toHost := (q.cdw10.toNat + 1) * 4 }
    | 0x11 => { ofHost := 16 }
    | 0x15 => { ofHost := 8 }
    | 0x1D => { ofHost := if Word.fld q.cdw10 7 0 = 1 then (Word.fld q.cdw10 31 16 + 1) * 2 else 0 }
    | _ => {}
  | .memory => match q.opc with
    | 0x01 => { ofHost := (Word.fld q.cdw12 7 0 + 1) * 32 }
    | 0x02 => { toHost := q.cdw12.toNat }
    | 0x05 => { ofHost := q.cdw12.toNat }
    | _ => {}
  | .compute => match q.opc with
    | 0x01 => { toHost := q.cdw12.toNat }
    | _ => {}

/-- The transfer of a command. -/
def xferOf (s : State) (x : Ctx) : XferLen :=
  if x.admin then adminXfer x.sqe
  else match nsOf s x.nsid with
    | some n => ioXfer n x.sqe
    | none => {}

/-- The write of an NVM namespace, whose data goes to buffers (R109). -/
def isNvmWrite (s : State) (x : Ctx) : Bool :=
  !x.admin && x.sqe.opc = 0x01 && (match nsOf s x.nsid with
    | some n => n.kind = .nvm
    | none => false)

/-! ### Requests for data -/

/-- Cut a run of host bytes into requests (R68): none longer than Max Read Request Size, none across 4 KiB of host address. -/
def cutReq (mrrs : Nat) (off addr len : Nat) : Nat → List (Nat × Nat × Nat)
  | 0 => []
  | fuel + 1 =>
    if len = 0 then []
    else
      let k := min len (min mrrs (4096 - addr % 4096))
      (off, addr, k) :: cutReq mrrs (off + k) (addr + k) (len - k) fuel

/-- The requests for the fragments of a command: bit buckets are passed over. -/
def cutFrags (mrrs off : Nat) : List (Nat × Nat × Bool) → List (Nat × Nat × Nat)
  | [] => []
  | (a, n, b) :: t => (if b then [] else cutReq mrrs off a n (n / 64 + 2)) ++ cutFrags mrrs (off + n) t

/-- Where a command stands once its data from the host has arrived: a write is fully received, any other command is ready. -/
def dataDone (s : State) (c : CmdId) : State :=
  match ctxOf s c with
  | none => s
  | some x =>
    let out := (portOf s (c.mid / 64)).np.any fun n => !n.discard && (match n.purpose with
      | .data d _ _ _ => d = c
      | _ => false)
    if x.stage ≠ .dataIn || x.want ≠ [] || out then s
    else ctxUpd s c fun y => { y with data := (y.got.map (·.2)).flatten, got := [], stage := if isNvmWrite s x then .received else .ready }

/-- Ask for a command's data. -/
def askData (s : State) (c : CmdId) : State :=
  match ctxOf s c with
  | none => s
  | some x =>
    let l := cutFrags (128 * 2 ^ (fnOf s c.mid).mrrs) 0 x.frags
    let s := ctxUpd s c fun y => { y with stage := .dataIn, want := l, got := [] }
    dataDone (ctxIssue s { x with stage := .dataIn } (l.length + 1)) c

/-- The walk of a command's data pointers has ended: a command other than a write that takes data from the host asks for it. -/
def walkEnd (s : State) (c : CmdId) : State :=
  match ctxOf s c with
  | none => s
  | some x =>
    let s := ctxUpd s c fun y => { y with seg := none, twant := [], tgot := [] }
    if (xferOf s x).ofHost ≠ 0 && !isNvmWrite s x then askData s c else ctxUpd s c fun y => { y with stage := .ready }

/-! ### The walk -/

/-- A step of the walk: another fragment table, the end, a fault of the command, or a fault of the fetch (R95) with its reason and fragment address. -/
inductive Walk where
  | table (x : Ctx)
  | ends (x : Ctx)
  | cmdErr (st : Status)
  | fetchErr (reason frag : Nat)

/-- Bytes that the fragments found so far cover. -/
def fragLen (l : List (Nat × Nat × Bool)) : Nat := sumOf (fun f => f.2.1) l

/-- The next PRP list (R91, R95): it must be 8-byte aligned, and is read as far as the transfer needs or to the end of its page. -/
def prpTable (x : Ctx) (ps addr : Nat) : Walk :=
  if addr % 8 ≠ 0 then .fetchErr 3 addr
  else
    let need := ceilDiv (x.xlen - fragLen x.frags) ps
    .table { x with seg := some (addr, 8 * min need ((ps - addr % ps) / 8), false) }

/-- The first step of a PRP walk. -/
def prpStart (x : Ctx) (ps : Nat) : Walk :=
  if x.sqe.prp1 % 4 ≠ 0 then .cmdErr ⟨0, 0x13⟩
  else
    let first := min x.xlen (ps - x.sqe.prp1 % ps)
    let x := { x with frags := [(x.sqe.prp1, first, false)] }
    if first = x.xlen then .ends x
    else if x.xlen - first ≤ ps then
      (if x.sqe.prp2 % ps ≠ 0 then .cmdErr ⟨0, 0x13⟩ else .ends { x with frags := x.frags ++ [(x.sqe.prp2, x.xlen - first, false)] })
    else prpTable x ps x.sqe.prp2

/-- The entries of a PRP list as it arrives. -/
def prpEntries (x : Ctx) (ps base : Nat) : List Nat → Walk
  | [] => .ends x
  | e :: t =>
    let left := x.xlen - fragLen x.frags
    if left = 0 then .ends x
    else if t = [] && ps < left then prpTable x ps e
    else if e % ps ≠ 0 then .cmdErr ⟨0, 0x13⟩
    else if 4096 ≤ x.frags.length then .fetchErr 4 base
    else prpEntries { x with frags := x.frags ++ [(e, min ps left, false)] } ps base t

/-- The end of an SGL: its data length must be the transfer length. -/
def sglEnd (x : Ctx) : Walk := if fragLen x.frags = x.xlen then .ends x else .cmdErr ⟨0, 0x0F⟩

/-- Follow an SGL Segment or Last Segment descriptor (R91, R95): no segment is read once the descriptors before it cover the transfer, and none beyond the
descriptor that passes 4,096 fragments. -/
def sglSegment (x : Ctx) (addr len : Nat) : Walk :=
  if x.xlen ≤ fragLen x.frags then sglEnd x
  else if addr % 16 ≠ 0 || len % 16 ≠ 0 then .fetchErr 3 addr
  else if x.segs.contains addr then .fetchErr 2 addr
  else if len = 0 then sglEnd x
  else .table { x with seg := some (addr, min len (16 * (4098 - x.frags.length)), true), segs := x.segs ++ [addr] }

/-- SGL descriptors in order: address, and the dword pair of length and type. `toHost`: the command is a read. -/
def sglDescs (toHost : Bool) (base : Nat) (x : Ctx) : List (Nat × Nat) → Walk
  | [] => sglEnd x
  | (a, q) :: t =>
    let len := q % 2 ^ 32
    if q / 2 ^ 56 % 16 ≠ 0 then .cmdErr ⟨0, 0x11⟩
    else match q / 2 ^ 60 with
    | 0 => if 4096 ≤ x.frags.length then .fetchErr 4 base else sglDescs toHost base { x with frags := x.frags ++ [(a, len, false)] } t
    | 1 =>
      if !toHost then .cmdErr ⟨0, 0x11⟩
      else if 4096 ≤ x.frags.length then .fetchErr 4 base
      else sglDescs toHost base { x with frags := x.frags ++ [(a, len, true)] } t
    | 2 => sglSegment x a len
    | 3 => sglSegment x a len
    | _ => .cmdErr ⟨0, 0x11⟩

/-- Bytes as 64-bit words. -/
def qwords (b : List Byte) : Nat → List Nat
  | 0 => []
  | n + 1 => leNat (b.take 8) :: qwords (b.drop 8) n

/-- Pairs of words. -/
def pairs : List Nat → List (Nat × Nat)
  | a :: b :: t => (a, b) :: pairs t
  | _ => []

/-- Memory page size of a controller (CC.MPS). -/
def pageSize (s : State) (mid : Nat) : Nat := 4096 * 2 ^ (ctrlOf s mid).mps

/-- Act on a step of the walk (R68, R95, R96). -/
def walkAct (s : State) (c : CmdId) : Walk → State
  | .table x => match x.seg with
    | none => s
    | some (a, n, _) =>
      let l := cutReq (128 * 2 ^ (fnOf s c.mid).mrrs) 0 a n (n / 64 + 2)
      let y := { x with stage := .fetched, twant := l, tgot := [] }
      ctxIssue (ctxUpd s c fun _ => y) y (l.length + 1)
  | .ends x => walkEnd (ctxUpd s c fun _ => x) c
  | .cmdErr st => complete s c st
  | .fetchErr r f => match ctxOf s c with
    | some x => queueError s c.mid c.sqid r x.idx f (some c)
    | none => s

/-- Begin the walk of a dispatched command. -/
def walkStart (s : State) (c : CmdId) : State :=
  match ctxOf s c with
  | none => s
  | some x =>
    let l := xferOf s x
    let n := max l.ofHost l.toHost
    let x := { x with xlen := n, frags := [], segs := [], seg := none }
    if n = 0 then walkAct s c (.ends x)
    else if x.sqe.psdt = 0 then walkAct s c (prpStart x (pageSize s c.mid))
    else walkAct s c (sglDescs (l.toHost ≠ 0) x.sqe.prp1 x [(x.sqe.prp1, x.sqe.prp2)])

/-- A fragment table has arrived whole. -/
def tableArrive (s : State) (c : CmdId) (b : List Byte) : State :=
  match ctxOf s c with
  | none => s
  | some x => match x.seg with
    | none => s
    | some (addr, len, sgl) =>
      let q := qwords b (len / 8)
      let x := { x with seg := none, twant := [], tgot := [] }
      if sgl then walkAct s c (sglDescs ((xferOf s x).toHost ≠ 0) addr x (pairs q)) else walkAct s c (prpEntries x (pageSize s c.mid) addr q)

/-- A piece of a fragment table has arrived (R68); the last one completes the table. -/
def tablePiece (s : State) (c : CmdId) (off : Nat) (b : List Byte) : State :=
  let s := ctxUpd s c fun x => { x with tgot := Tbl.put x.tgot off b }
  match ctxOf s c with
  | none => s
  | some x =>
    let out := (portOf s (c.mid / 64)).np.any fun n => !n.discard && (match n.purpose with
      | .table d _ _ _ => d = c
      | _ => false)
    if x.twant ≠ [] || out then s else tableArrive s c (x.tgot.map (·.2)).flatten

end Sys2Proof.Machine
end

