-- ==== Sys2Proof/Machine/HqeCmd.lean ====
section
/-! DEFINITION. The life of a command between its fetch and its completion entry (R93, R98, R106 to R117, R134, R136, R483): the checks when an entry
arrives, the features and log pages that no row of the table names, host completions, power protection and posting. -/

namespace Sys2Proof.Machine

/-! ### What a function may issue -/

/-- Admin opcodes the controller supports (R106, and the Computational Programs command set of R403, R405). -/
def adminOpcode (o : Nat) : Bool :=
  [0x00, 0x01, 0x02, 0x04, 0x05, 0x06, 0x08, 0x09, 0x0A, 0x0C, 0x0D, 0x10, 0x11, 0x15, 0x80, 0x85, 0x88, 0x89, 0xC4, 0xC5, 0xC6, 0xC9].contains o

/-- I/O opcodes of a command set (R105, R211, R404, R405). COPY is among them: its row answers it. -/
def ioOpcode (k : NsKind) (o : Nat) : Bool := match k with
  | .nvm => [0x00, 0x01, 0x02, 0x04, 0x05, 0x08, 0x09, 0x0C, 0x0D, 0x0E, 0x11, 0x15, 0x19, 0x1D].contains o
  | .memory => [0x01, 0x02, 0x05].contains o
  | .compute => o = 0x01

/-- An admin command is for this function and this state of the device (R106, R134, R483). -/
def adminMay (s : State) (mid : Nat) (q : Sqe) : Bool :=
  if !adminOpcode q.opc then false
  else if q.opc = 0x10 || q.opc = 0x11 || q.opc = 0xC5 || q.opc = 0xC6 || q.opc = 0xC9 then
    mgmtFn s mid && (!s.dev.dormant || q.opc = 0x10 || q.opc = 0x11)
  else if s.dev.dormant then q.opc = 0x06 || q.opc = 0x0A || (q.opc = 0x02 && (Word.fld q.cdw10 7 0 = 0xC0 || Word.fld q.cdw10 7 0 = 0xC3))
  else if q.opc = 0x0D || q.opc = 0x15 then fnTenant s mid = 0
  else true

/-! ### Features and logs that no row names -/

/-- Descriptor of a feature value: dword 0 and data. -/
structure FeatVal where
  dw0 : Nat := 0
  data : List Byte := []

/-- Features with rows of their own in the table, for Set and for Get. -/
def setHasRow (fid : Nat) : Bool := [0x01, 0x02, 0x04, 0x05, 0x07, 0x0D, 0x0E, 0x1D, 0xC1, 0xC2, 0xC4].contains fid
def getHasRow (fid : Nat) : Bool := [0x05, 0xC1, 0xC2, 0xC4].contains fid

/-- The RTC of a controller in milliseconds (R468): the RTC, or its own offset. -/
def tsOf (s : State) (mid : Nat) : Nat := (s.dev.rtc * 1000 + (ctrlOf s mid).tsOff) % 2 ^ 48

/-- The current value of a feature, or its default. -/
def featVal (s : State) (mid : Nat) (q : Sqe) (dflt : Bool) : Option FeatVal :=
  let c : Ctrl := if dflt then {} else ctrlOf s mid
  match Word.fld q.cdw10 7 0 with
  | 0x01 => some { dw0 := c.arb.toNat }
  | 0x02 => some { dw0 := c.psReq }
  | 0x04 =>
    let k := Word.fld q.cdw11 19 16
    if 4 ≤ k then none else if 2 ≤ Word.fld q.cdw11 21 20 then none
    else some { dw0 := (if Word.fld q.cdw11 21 20 = 0 then c.overK else c.underK).getD k 0 }
  | 0x07 =>
    let n := rdF s 0x0D (0x1800 + 4 * mid) 12 0 - 1
    some { dw0 := n + n * 65536 }
  | 0x0B => some { dw0 := c.aec.toNat }
  | 0x0C => some { dw0 := c.autoPs.toNat, data := (c.apst.map fun w => leBytes 8 w).flatten ++ List.replicate 216 0 }
  | 0x0D => if mid = mgmtPf s then some { dw0 := c.hmbOn.toNat } else none
  | 0x0E => some { data := leBytes 6 (if dflt then 0 else tsOf s mid) ++ [if c.tsSet then 2 else 0, 0] }
  | 0x1D => some { dw0 := if dflt then 0 else (Tbl.getD s.ten.fdp ((q.cdw11.toNat % 65536) - 1) false).toNat }
  | 0x81 => some { data := leBytes (if Word.bit q.cdw11 0 then 16 else 8) c.hostId }
  | 0x83 => match nsOf s q.nsid with
    | some n => some { dw0 := if dflt then 0 else n.ptpl.toNat }
    | none => none
  | _ => none

/-- Get Features (R87: Save and Select): current, default, saved (the default: nothing but TLER is saved), and what the feature supports. -/
def getFeature (s : State) (x : Ctx) : State :=
  let sel := Word.fld x.sqe.cdw10 10 8
  match featVal s x.id.mid x.sqe (sel = 1 || sel = 2) with
  | none => complete s x.id stInvalidField
  | some v =>
    if 4 ≤ sel then complete s x.id stInvalidField
    else if sel = 3 then complete s x.id stOk 4
    else if v.data = [] then complete s x.id stOk v.dw0
    else complete (ctxUpd s x.id fun y => { y with data := v.data, moved := true }) x.id stOk v.dw0

/-- Set Features of the features that no row names: they are not saveable. -/
def setFeature (s : State) (x : Ctx) : State :=
  let c := ctrlOf s x.id.mid
  let ok (s : State) : State := complete s x.id stOk
  if Word.bit x.sqe.cdw10 31 then complete s x.id ⟨1, 0x0D⟩
  else match Word.fld x.sqe.cdw10 7 0 with
  | 0x0B => ok (setCtrl s x.id.mid { c with aec := x.sqe.cdw11 })
  | 0x0C => ok (setCtrl s x.id.mid { c with autoPs := Word.bit x.sqe.cdw11 0, apst := (List.range 5).map fun i => leNat ((x.data.drop (8 * i)).take 8) })
  | 0x81 => ok (setCtrl s x.id.mid { c with hostId := leNat x.data })
  | 0x83 =>
    let f (s : State) (k : Nat) : State := match nsOf s k with
      | some n => setNs s k { n with ptpl := Word.bit x.sqe.cdw11 0 }
      | none => s
    let f (s : State) (k : Nat) : State := journalNs (f s k) k
    if x.sqe.nsid = 0xFFFFFFFF then completeMeta (((s.ten.nss.filter fun n => n.2.attached.contains x.id.mid).map (·.1)).foldl f s) x.id
    else match nsOf s x.sqe.nsid with
      | some n => if n.attached.contains x.id.mid then completeMeta (f s x.sqe.nsid) x.id else complete s x.id stInvalidNs
      | none => complete s x.id stInvalidNs
  | _ => complete s x.id stInvalidField

/-- Error Information (R290): the newest entries first; the log counts every entry. -/
def errorLog (s : State) : List Byte :=
  let n := s.hqe.errLog.length
  ((s.hqe.errLog.zipIdx.reverse.take 64).map fun e =>
    leBytes 8 (e.2 + 1) ++ leBytes 2 e.1.1.sqid ++ leBytes 2 (e.1.1.cid % 65536) ++ leBytes 2 ((e.1.2.1.sct * 256 + e.1.2.1.sc) * 2) ++ leBytes 2 0
      ++ leBytes 8 e.1.2.2 ++ List.replicate 40 0).flatten ++ List.replicate (64 * (64 - min n 64)) 0

/-- A part of a log page: the bytes from the offset of CDW12 and CDW13, as many as NUMD asks for; past its end zeros. An offset beyond the page is an
invalid field. -/
def logPart (s : State) (c : CmdId) (q : Sqe) (d : List Byte) : State :=
  let o := cdw64 q.cdw12 q.cdw13
  if d.length < o || o % 4 ≠ 0 then complete s c stInvalidField
  else completeData s c (((d.drop o).take (numd q)) ++ List.replicate (numd q - (d.length - o)) 0)

/-- Bytes of fields in order. -/
def egWords (l : List (Nat × Nat)) : List Byte := (l.map fun f => leBytes f.1 f.2).flatten

/-- Endurance Group Information (R215, R234): the device's wear figures, the group's own data units. Layouts of this and the next four pages: NVMe's (PRESUMED,
entry 128). -/
def egInfoLog (s : State) (t : Nat) : List Byte :=
  let e := Tbl.getD s.cpc.eg t {}
  let cw := (s.cpc.dsets ≠ [] && availSpare s < rdF s 0x0F 0x148 15 8 : Bool).toNat + (s.cpc.lost || s.cpc.retiredDies ≠ [] : Bool).toNat * 4 + (s.cpc.readOnly ≠ 0 : Bool).toNat * 8
  padTo 512 (egWords [(1, cw), (1, 0), (1, 0), (1, availSpare s), (1, rdF s 0x0F 0x148 15 8), (1, pctUsed s), (26, 0), (16, 0), (16, ceilDiv e.rd 1000000000), (16, ceilDiv e.wr 1000000000)
    , (16, ceilDiv (e.media * 4096) 1000000000), (16, e.rdCmds), (16, e.wrCmds), (16, e.errors), (16, s.hqe.errLog.length)])

/-- FDP Configurations (R215): the one configuration. -/
def fdpConfigLog (s : State) : List Byte :=
  let d := egWords [(2, 96), (1, 0x86), (1, 0), (4, s.cpc.dsets.length), (2, 8), (2, 127), (4, 4096), (8, ruData s * 4096), (4, 0), (28, 0), (8, 0)] ++ ((List.range 8).map fun _ => leBytes 4 2).flatten
  egWords [(2, 0), (1, 0), (1, 0), (4, 16 + d.length), (8, 0)] ++ d

/-- Reclaim Unit Handle Usage (R215): every handle is named by the host. -/
def ruhUsageLog : List Byte := egWords [(2, 8), (6, 0)] ++ ((List.range 8).map fun _ => leBytes 8 1).flatten

/-- FDP Statistics (R215, R221): host bytes, media bytes, bytes of erased RUs. -/
def fdpStatLog (s : State) (t : Nat) : List Byte :=
  let e := Tbl.getD s.cpc.eg t {}
  egWords [(16, e.wr), (16, e.media * 4096), (16, e.erased * 4096), (16, 0)]

/-- FDP Events (R215): Reclaim Unit Not Fully Written, Invalid Placement Identifier, Media Reallocated. -/
def fdpEventLog (s : State) (t : Nat) : List Byte :=
  let l := (s.cpc.fdpEvents.filter (·.2 = t)).map fun e => if e.1 = 0 then 0x00 else if e.1 = 1 then 0x03 else 0x80
  egWords [(4, l.length), (60, 0)] ++ (l.map fun k => leBytes 64 k).flatten

/-- The log pages of endurance groups and of FDP, the group in CDW11[31:16]: a function reads its tenant's, one of tenant 0 any. -/
def egLog (s : State) (x : Ctx) (f : Nat) : Except Status (List Byte) :=
  let g := Word.fld x.sqe.cdw11 31 16
  let mine := fnTenant s x.id.mid = 0 || fnTenant s x.id.mid = g - 1
  if g = 0 || 512 < g || !mine then .error stInvalidField
  else if f = 0x09 then if ownsNs s (g - 1) then .ok (egInfoLog s (g - 1)) else .error stInvalidField
  else if f = 0x20 then .ok (fdpConfigLog s)
  else if !Tbl.getD s.ten.fdp (g - 1) false then .error ⟨0, 0x29⟩
  else if f = 0x21 then .ok ruhUsageLog
  else if f = 0x22 then .ok (fdpStatLog s (g - 1))
  else .ok (fdpEventLog s (g - 1))

/-- A command that no row of the table carries out is completed once it is ready: the other features, the Error Information, Endurance Group and FDP logs, unsupported log pages, reserved
operations. -/
def finishPlain (s : State) (c : CmdId) : State :=
  match ctxOf s c with
  | none => s
  | some x =>
    if !x.admin || x.stage ≠ .ready then s
    else
      let f := Word.fld x.sqe.cdw10 7 0
      match x.sqe.opc with
      | 0x09 => if setHasRow f then s else setFeature s x
      | 0x0A => if getHasRow f then s else getFeature s x
      | 0x02 =>
        if f = 0x01 then logPart s c x.sqe (errorLog s)
        else if [0x02, 0x03, 0xC0, 0xC2, 0xC3, 0xC4, 0xC5].contains f then s
        else if [0x09, 0x20, 0x21, 0x22, 0x23].contains f then match egLog s x f with
          | .ok d => logPart s c x.sqe d
          | .error st => complete s c st
        else complete s c ⟨1, 0x09⟩
      | 0x0D => if 1 < Word.fld x.sqe.cdw10 3 0 then complete s c stInvalidField else s
      | 0xC6 => if 1 < Word.fld x.sqe.cdw10 3 0 then complete s c stInvalidField else s
      | 0xC9 => if f = 0 || 0x0C < f then complete s c stInvalidField else s
      | _ => s

/-! ### Arrival -/

/-- A command identifier for a context; one equal to that of a command of the same SQ that holds a context is told apart above the 16 bits of CID (R107). -/
def ctxIdFor (s : State) (mid sqid cid : Nat) : CmdId :=
  ⟨mid, sqid, (((List.range (s.hqe.ctxs.length + 2)).map fun k => cid % 65536 + 65536 * k).find? fun i =>
    !(s.hqe.ctxs.any fun x => x.id.mid = mid && x.id.sqid = sqid && (x.id.cid = i || (i < 65536 && x.id.cid % 65536 = i)))).getD cid⟩

/-- Commands that write or read a namespace, for reservations (R136). -/
def writesNs (o : Nat) : Bool := [0x00, 0x01, 0x04, 0x08, 0x09, 0x19].contains o
def readsNs (o : Nat) : Bool := [0x02, 0x05, 0x0C].contains o

/-- Commands that name a range of LBAs by SLBA and NLB. -/
def rangeOpc (o : Nat) : Bool := [0x01, 0x02, 0x04, 0x05, 0x08, 0x0C].contains o

/-- Commands that use the namespace's data or key (R415, R418). -/
def keyOpc (o : Nat) : Bool := rangeOpc o || o = 0x09

/-- SEC counts the KEY_ACCESS refusals (R137, R439). -/
def countAccess (s : State) (st : Status) : State := if st = stAccessDenied then bump s 0x0A 0x11C 1 else s

/-- The status of an I/O command that fails before its data pointers are read, by the checks of its namespace. -/
def ioCheck (s : State) (x : Ctx) : Option Status :=
  let q := x.sqe
  if q.opc = 0x00 && q.nsid = 0xFFFFFFFF then none
  else match nsOf s q.nsid with
  | none => some (if [NsKind.nvm, .memory, .compute].any fun k => ioOpcode k q.opc then stInvalidNs else stInvalidOpcode)
  | some n =>
    if !ioOpcode n.kind q.opc then some stInvalidOpcode
    else if !n.attached.contains x.id.mid || n.deleting.isSome then some stInvalidNs
    else if n.notReady then some stNsNotReady
    else if n.kind ≠ .nvm then none
    else match if keyOpc q.opc then nsKeyStatus s (fnTenant s x.id.mid) q.nsid else none with
    | some st => some st
    | none =>
      if rangeOpc q.opc && n.lbas < cdw64 q.cdw10 q.cdw11 + sqeNlb q then some stLbaRange
      else if (writesNs q.opc && resvConflict n (ctrlOf s x.id.mid).hostId true) || (readsNs q.opc && resvConflict n (ctrlOf s x.id.mid).hostId false) then
        some stResvConflict
      else if s.cpc.readOnly ≠ 0 && writesNs q.opc && q.opc ≠ 0x00 then some stNsWriteProt
      else none

/-- The bits of dwords 10 to 15 that NVMe defines for an admin command; the rest are reserved (log entry 109). The opcodes of Computational Programs and of
Tenant Configure check their own fields. -/
def adminBits (o : Nat) : List Word := match o with
  | 0x00 | 0x04 => [0xFFFF]
  | 0x01 => [0xFFFFFFFF, 0xFFFF0007, 0xFFFF]
  | 0x02 => [0xFFFFFFFF, 0xFFFFFFFF, 0xFFFFFFFF, 0xFFFFFFFF, 0xFF80007F]
  | 0x05 => [0xFFFFFFFF, 0xFFFF0003]
  | 0x06 => [0xFFFF00FF, 0xFF00FFFF, 0, 0, 0x7F]
  | 0x08 => [0xFFFFFFFF]
  | 0x09 => [0x800000FF, 0xFFFFFFFF, 0xFFFFFFFF, 0xFFFFFFFF, 0x7F, 0xFFFFFFFF]
  | 0x0A => [0x7FF, 0xFFFFFFFF, 0, 0, 0x7F]
  | 0x0C => []
  | 0x0D => [0xF, 0xFF000000]
  | 0x10 => [0x8000003F]
  | 0x11 => [0xFFFFFFFF, 0xFFFFFFFF]
  | 0x15 => [0xF]
  | 0x80 => [0x3FFF]
  | 0xC4 => [0xFFFF, 0xFFFF]
  | _ => List.replicate 6 0xFFFFFFFF

/-- The same for a command of the NVM command set. -/
def nvmBits (o : Nat) : List Word := match o with
  | 0x00 => []
  | 0x01 => [0xFFFFFFFF, 0xFFFFFFFF, 0xFDFFFFFF, 0xFFFF00FF, 0xFFFFFFFF, 0xFFFFFFFF]
  | 0x02 => [0xFFFFFFFF, 0xFFFFFFFF, 0xFD0FFFFF, 0xFF, 0xFFFFFFFF, 0xFFFFFFFF]
  | 0x04 => [0xFFFFFFFF, 0xFFFFFFFF, 0xF0FFFF, 0xFFFF0000]
  | 0x05 | 0x0C => [0xFFFFFFFF, 0xFFFFFFFF, 0xFD0FFFFF, 0, 0xFFFFFFFF, 0xFFFFFFFF]
  | 0x08 => [0xFFFFFFFF, 0xFFFFFFFF, 0xFFFFFFFF, 0xFFFF0000, 0xFFFFFFFF, 0xFFFFFFFF]
  | 0x09 => [0xFF, 7]
  | 0x0D => [0xC000000F]
  | 0x0E => [0xFFFFFFFF, 1]
  | 0x11 | 0x15 => [0xFF0F]
  | 0x1D => [0xFFFF00FF]
  | _ => List.replicate 6 0xFFFFFFFF

/-- A reserved field of the entry is not zero (R107). -/
def sqeReserved (s : State) (x : Ctx) : Bool :=
  let q := x.sqe
  let m := if x.admin then adminBits q.opc else match nsOf s x.nsid with
    | some n => if n.kind = .nvm then nvmBits q.opc else List.replicate 6 0xFFFFFFFF
    | none => nvmBits q.opc
  q.rsvd || ([q.cdw10, q.cdw11, q.cdw12, q.cdw13, q.cdw14, q.cdw15].zipIdx).any fun p => (p.1 &&& ~~~(m.getD p.2 0)) ≠ 0

/-- The checks of an arriving entry (R105 to R107), and the start of its command. Copy is refused by its row, whatever else it holds. An I/O command waits until replay
has ended (R189). -/
def dispatch (s : State) (c : CmdId) : State :=
  match ctxOf s c with
  | none => s
  | some x =>
    let q := x.sqe
    let len := xferOf s x
    if 65536 ≤ c.cid then complete s c stCidConflict
    else if !x.admin && q.opc = 0x19 then ctxUpd s c fun y => { y with stage := .ready }
    else if !x.admin && s.ftl.replayDue then s
    else if x.admin && !adminMay s c.mid q then complete s c stInvalidOpcode
    else match if x.admin then none else ioCheck s x with
    | some st => complete (countAccess s st) c st
    | none =>
      if q.fuse ≠ 0 || q.psdt = 3 || sqeReserved s x then complete s c stInvalidField
      else if 2 ^ 21 < max len.ofHost len.toHost then complete s c stInvalidField
      else finishPlain (walkStart s c) c

/-- SQ_ENTRY_ARRIVAL (R91, R96, R98, R107, R176): the next entry of a fetch takes its context, with the class and the source drawn for it; a write or a
deallocation takes its write sequence. -/
def sqEntryArrival (s : State) (p tag : Nat) (e : Sqe) : State :=
  match (portOf s p).np.find? (·.tag = tag) with
  | none => s
  | some n => match n.purpose with
    | .table _ _ _ _ => s
    | .data _ _ _ _ => s
    | .entries mid sqid idx draws =>
      match draws with
      | [] => setPort s p { portOf s p with np := (portOf s p).np.filter (·.tag ≠ tag) }
      | (cls, src) :: t =>
        let size := match sqOf s mid sqid with
          | some q => q.size
          | none => 1
        let rest : NpReq := { n with purpose := .entries mid sqid ((idx + 1) % size) t }
        let np := (portOf s p).np.flatMap fun y => if y.tag ≠ tag then [y] else if t = [] then [] else [rest]
        let s := setPort s p { portOf s p with np := np }
        if n.discard || s.dev.fault then s
        else
          let id := ctxIdFor s mid sqid e.cid
          let takes := sqid ≠ 0 && [0x01, 0x04, 0x08, 0x09].contains e.opc
          let nlb := if rangeOpc e.opc then sqeNlb e else 0
          let x : Ctx := {
            id := id, tenant := fnTenant s mid, idx := idx, cls := cls, src := src, admin := sqid = 0, sqe := e
            wseq := if takes || e.opc = 0x00 then s.ftl.wseq else 0, nsid := e.nsid, lba := cdw64 e.cdw10 e.cdw11, nlb := nlb }
          let s := { s with hqe := { s.hqe with ctxs := s.hqe.ctxs ++ [x] }, ftl := { s.ftl with wseq := s.ftl.wseq + takes.toNat } }
          dispatch s id

def execSqEntryArrival (p : Fin 8) (tag : Nat) (e : Sqe) (s : State) : Out := fin (sqEntryArrival s p tag e)

/-! ### Completions from the host -/

/-- Remove a request of a port. -/
def npDel (s : State) (p tag : Nat) : State := setPort s p { portOf s p with np := (portOf s p).np.filter (·.tag ≠ tag) }

/-- A completion that contains the port (R75, R76, R95): the command tied to it fails, entries are fetched again after the release. `cause` as in
PRT_CONTAIN. -/
def npContain (s : State) (p : Nat) (n : NpReq) (cause hdr : Nat) : State :=
  let s := portContain s p cause (n.mid % 64) hdr
  if n.discard then npDel s p n.tag
  else match n.purpose with
  | .entries _ _ _ _ => npLost s p fun y => y.tag = n.tag
  | .table c _ _ _ => failTransfer (npDel s p n.tag) c
  | .data c _ _ _ => failTransfer (npDel s p n.tag) c

/-- A fetch of entries that ends with Unsupported Request or Completer Abort (R95, R96): its first entry is the faulty one. Its command, whose identifier was not
read, takes the context drawn for it and completes with Malformed Entry (log entry 78). -/
def entryFault (s : State) (mid sqid idx : Nat) (draws : List (Cls × CtxSrc)) : State :=
  match draws with
  | [] => queueError s mid sqid 5 idx 0 none
  | (cls, src) :: _ =>
    let id := ctxIdFor s mid sqid 0xFFFF
    let x : Ctx := { id := id, tenant := fnTenant s mid, idx := idx, cls := cls, src := src, admin := sqid = 0, sqe := { opc := 0, cid := 0xFFFF } }
    queueError { s with hqe := { s.hqe with ctxs := s.hqe.ctxs ++ [x] } } mid sqid 5 idx 0 (some id)

/-- HOST_COMPLETION_RECEIVED (R68, R73, R75, R76, R80, R95): a completion of a device-issued read; in Fault what it brings is discarded, so that a write received
in part stays so (R575). One that no outstanding request waits for is an Unexpected
Completion, logged in PF0 of the port. -/
def hostCompletion (s : State) (p tag : Nat) (r : HostCpl) : State :=
  match (portOf s p).np.find? (·.tag = tag) with
  | none => if (portOf s p).dlActive then aerHost s (p * 64) 16 true else s
  | some n =>
    let fault (s : State) : State :=
      if n.discard then npDel s p tag
      else match n.purpose with
      | .entries mid sqid idx l => resumeCheck (entryFault (npDel s p tag) mid sqid idx l) mid sqid
      | .table c _ _ _ => match ctxOf s c with
        | some x => queueError (npDel s p tag) c.mid c.sqid 5 x.idx (match x.seg with
          | some (a, _, _) => a
          | none => 0) (some c)
        | none => npDel s p tag
      | .data c _ _ _ => failTransfer (npDel s p tag) c
    match r with
    | .poisoned hdr => npContain (aerRec s n.mid 12 hdr false) p n 1 hdr
    | .malformed hdr => npContain (aerRec s n.mid 18 hdr false) p n 2 hdr
    | .ur => portPump (fault s) p
    | .ca => portPump (fault s) p
    | .ok b =>
      if n.discard || s.dev.fault then npDel s p tag
      else match n.purpose with
      | .entries _ _ _ _ => s
      | .table c off _ len =>
        if b.length ≠ len then s
        else portPump (finishPlain (tablePiece (npDel s p tag) c off b) c) p
      | .data c off _ len =>
        if b.length ≠ len then s
        else portPump (finishPlain (dataDone (ctxUpd (npDel s p tag) c fun x => { x with got := Tbl.put x.got off b }) c) c) p

def execHostCompletionReceived (p : Fin 8) (tag : Nat) (r : HostCpl) (s : State) : Out := fin (hostCompletion s p tag r)

/-! ### Power protection -/

/-- Commands of an SQ in the order of their fetch. -/
def sqCtxs (s : State) (mid sqid : Nat) : List Ctx := s.hqe.ctxs.filter fun x => x.id.mid = mid && x.id.sqid = sqid

/-- The SQ of a command is ordered (R113). -/
def isOrdered (s : State) (c : CmdId) : Bool := match sqOf s c.mid c.sqid with
  | some q => q.ordered
  | none => false

/-- The command is the oldest of its SQ that holds a context. -/
def isOldest (s : State) (c : CmdId) : Bool := match sqCtxs s c.mid c.sqid with
  | y :: _ => y.id = c
  | [] => false

/-- Commands that change what a namespace holds. -/
def changesLbas (o : Nat) : Bool := [0x01, 0x04, 0x08, 0x09].contains o

/-- Two commands of one namespace touch an LBA in common; the ranges of Dataset Management are not known before its data has arrived. -/
def overlap (x y : Ctx) : Bool :=
  x.nsid = y.nsid && (x.sqe.opc = 0x09 || y.sqe.opc = 0x09 || (x.lba < y.lba + y.nlb && y.lba < x.lba + x.nlb))

/-- A command of the same SQ that was fetched earlier, overlaps, and has not yet taken effect (R112, R114). -/
def earlierWrite (s : State) (x : Ctx) : Bool :=
  ((sqCtxs s x.id.mid x.id.sqid).takeWhile fun y => y.id ≠ x.id).any fun y => !y.admin && changesLbas y.sqe.opc && overlap x y
    && (y.stage = .fetched || y.stage = .ready || y.stage = .waitBuf || y.stage = .dataIn || y.stage = .received)

/-- On an ordered SQ an effect on the map waits for every earlier command (R114). -/
def mapWaits (s : State) (c : CmdId) : Bool := isOrdered s c && !isOldest s c

/-- WRITE_POWER_PROTECTED (R108, R109, R112, R114, R453): a fully received write is counted and enters the pending-write table; a write that would take
PWR_WB_USED past wb_share waits, and so does one behind an earlier overlapping write of its SQ. -/
def writeProtected (s : State) (c : CmdId) : State :=
  match ctxOf s c with
  | none => s
  | some x => match nsOf s x.nsid with
    | none => s
    | some n =>
      if x.stage ≠ .received || s.pwr.pl || earlierWrite s x then s
      else if !fitsShare s x n then s
      else if !pwtRoom s (muRange n x.lba x.nlb).length then pwtFull s
      else
        let (l, s) := writeEnter s x n (mapWaits s c)
        if sqeFua x.sqe then ctxUpd s c fun y => { y with stage := .waitClose, cover := l } else complete s c stOk

def execWritePowerProtected (c : CmdId) (s : State) : Out := finMedia (writeProtected s c)

/-! ### Posting -/

/-- What a command's data brings to the host: Bit Bucket fragments are passed over (R94). -/
def hostData : List (Nat × Nat × Bool) → List Byte → List Byte
  | [], d => d
  | (_, n, b) :: t, d => (if b then [] else d.take n) ++ hostData t (d.drop n)

/-- A later command of a frozen SQ ends with 7h/C0h (R115): its buffered data is discarded. -/
def freezeOne (s : State) (x : Ctx) : State :=
  let s := pwtRemove s fun p => p.cmd = x.id && p.held
  let s := progAbort (dropCws s x.id false) x.id
  let s := { s with bpm := { s.bpm with waiters := s.bpm.waiters.filter fun w => w.purpose ≠ .cmd x.id } }
  ctxUpd s x.id fun y => { y with stage := .done, status := some stQueueFrozen, dw0 := 0, dw1 := 0, data := [], moved := false, want := [] }

/-- The SQ freezes after a failing command (R115), one that is Errored too. -/
def freezeSq (s : State) (x : Ctx) (st : Status) : State :=
  match sqOf s x.id.mid x.id.sqid with
  | none => s
  | some q =>
    if q.st = .frozen then s
    else
      let late := sqCtxs s x.id.mid x.id.sqid
      let h := match (portOf s (x.id.mid / 64)).np.findSome? fun n => match n.purpose with
          | .entries m k i _ => if m = x.id.mid && k = x.id.sqid && !n.discard then some i else none
          | _ => none with
        | some i => i
        | none => q.head
      let s := dropFetch s x.id.mid x.id.sqid
      let s := setSq s x.id.mid x.id.sqid { q with head := h }
      let s := latchSq s x.id.mid x.id.sqid .frozen { reason := 8, head := (x.idx + 1) % q.size, doorbell := q.tail, cid := x.id.cid % 65536, status := st }
      let s := late.foldl freezeOne s
      match sqOf s x.id.mid x.id.sqid with
      | some q => setSq s x.id.mid x.id.sqid { q with aborted := late.length }
      | none => s

/-- CQ_POST (R69, R74, R76, R93, R98, R114, R115): the completion entry of a command, after its data and before its MSI-X message, once the port may issue
and the CQ has a free slot; on an ordered SQ in the order of submission. The context returns. The answer holds the data that reached host memory, and 1 plus
the MSI-X vector where a message left. -/
def cqPost (s : State) (c : CmdId) : State :=
  match ctxOf s c with
  | none => s
  | some x => match sqOf s c.mid c.sqid, x.status with
    | some q, some st => match cqOf s c.mid q.cq with
      | none => s
      | some k =>
        if x.stage ≠ .done || !hostOpen s c.mid || s.pwr.pl || k.size ≤ k.entries.length + 1 || mapWaits s c then s
        else
          let e : Cqe := { sqid := c.sqid, sqhd := q.head, cid := c.cid % 65536, status := st, dw0 := x.dw0, dw1 := x.dw1, phase := k.phase }
          let t := (k.tail + 1) % k.size
          let s := setCq s c.mid q.cq { k with entries := k.entries ++ [e], tail := t, phase := if t = 0 then !k.phase else k.phase }
          let (msg, s) := if k.ien then msixSignal s c.mid k.vector else (false, s)
          let at_ := tlpAttr s c.mid
          let out := (if x.moved then [{ mid := c.mid, kind := .data, ro := at_.1, ido := at_.2 }] else []) ++ [{ mid := c.mid, kind := .cqe }]
            ++ (if msg then [{ mid := c.mid, kind := .msix k.vector }] else [])
          let s := { s with hqe := { s.hqe with lit := true }, resp := { code := .ok, data := if msg then 1 + k.vector else 0, bytes := if x.moved then hostData x.frags x.data else [], tlps := out } }
          let s := ctxDrop s x
          if !q.ordered then s
          else if st ≠ stOk then freezeSq s x st
          else match sqCtxs s c.mid c.sqid with
            | y :: _ => openHeld s y.id
            | [] => s
    | _, _ => s

def execCqPost (c : CmdId) (s : State) : Out := finMedia (cqPost s c)

end Sys2Proof.Machine
end

