-- ==== Sys2Proof/Machine/Port.lean ====
section
/-! DEFINITION. Events of the host ports (R50 to R82, R628, R629): training and loss of a link, resets, containment and its release, configuration requests, FLR,
Bus Master Enable, power states of a link, and the DOE mailbox. -/

namespace Sys2Proof.Machine

/-! ### Training -/

/-- RECEIVER_DETECTED (R58): a port in Detect that may train leaves it. A contained port keeps its PSTATE. -/
def receiverDetected (s : State) (p : Nat) : State :=
  let x := portOf s p
  if portMayTrain s p && (x.ltssm = .detect || x.ltssm = .hotReset || x.ltssm = .disabled) then
    setPort s p { x with ltssm := .polling, detActive := false, pstate := if x.pstate = .contained then .contained else .training }
  else s

def execReceiverDetected (p : Fin 8) (s : State) : Out := fin (receiverDetected s p)

/-- DETECT_INTERVAL_EXPIRY (R59): a port without a partner alternates Detect.Quiet and Detect.Active. -/
def detectInterval (s : State) (p : Nat) : State :=
  let x := portOf s p
  if portMayTrain s p && x.ltssm = .detect then setPort s p { x with detActive := !x.detActive } else s

def execDetectIntervalExpiry (p : Fin 8) (s : State) : Out := fin (detectInterval s p)

/-- Link-control fields in effect (R55, R84). -/
def linkProto (x : Port) : Nat := Word.fld x.link 3 2
def linkMaxRate (x : Port) : Nat := Word.fld x.link 7 5
def linkL1En (x : Port) : Bool := Word.bit x.link 8

/-- DL_ACTIVE_REACHED (R53, R56 to R58, R67, R628, R629): the partner offers a rate, a width, Flit mode, and CXL.mem with 256-byte flits. The port trains as CXL
only if it offers CXL; 64 GT/s needs Flit mode. The port advertises its credits, and what was held for the link goes on. -/
def dlActiveReached (s : State) (p rate width : Nat) (flit cxl : Bool) : State :=
  let x := portOf s p
  if !portMayTrain s p || !(x.ltssm = .polling || x.ltssm = .configuration) || width = 0 then s
  else
    let c := cxl && linkProto x = 0
    let f := flit || c
    let w := min width (portWidthOf (s.dev.straps % 16) p)
    let r := min (min rate (linkMaxRate x)) (if f then 5 else 4)
    let s := setPort s p { x with
      ltssm := .l0, dlActive := true, rate := r, width := w, trained := w, flit := f, cxl := c, replays := 0, credits := some rxCredits
      pstate := if x.pstate = .contained then .contained else .up }
    sendOwed (portPump (raiseInt s (portRgn p) 1) p) p

def execDlActiveReached (p : Fin 8) (rate : Fin 6) (width : Fin 17) (flit cxl : Bool) (s : State) : Out :=
  fin (dlActiveReached s p rate width flit cxl)

/-- TRAINING_RETURN_TO_DETECT (R58, R59): before L0. -/
def trainingFailed (s : State) (p : Nat) : State :=
  let x := portOf s p
  if x.ltssm ≠ .polling && x.ltssm ≠ .configuration then s
  else
    let s := enterDetect (trainFail s p) p
    setPort s p { portOf s p with pstate := if x.pstate = .contained then .contained else .down }

def execTrainingReturnToDetect (p : Fin 8) (s : State) : Out := fin (trainingFailed s p)

/-! ### Resets of a port -/

/-- PERST_ASSERT (R58, R72, R78). The level of the pin of a port without lanes, or before the straps are sampled, is kept. -/
def perstAssert (s : State) (p : Nat) : State :=
  let s := if portPresent s p then portReset s p .detect else s
  setPort s p { portOf s p with perst := true }

def execPerstAssert (p : Fin 8) (s : State) : Out := finMedia (perstAssert s p)

/-- PERST_DEASSERT (R55): an entry to Detect; one before step 4 of power-up ends takes effect then. -/
def perstDeassert (s : State) (p : Nat) : State :=
  if !(portOf s p).perst then s
  else
    let s := setPort s p { portOf s p with perst := false }
    if portPresent s p then enterDetect s p else s

def execPerstDeassert (p : Fin 8) (s : State) : Out := fin (perstDeassert s p)

/-- HOT_RESET_RECEIVED (R72): over a link that is up. -/
def hotReset (s : State) (p : Nat) : State := if (portOf s p).dlActive then portReset s p .hotReset else s

def execHotResetReceived (p : Fin 8) (s : State) : Out := finMedia (hotReset s p)

/-- LINK_DISABLE_RECEIVED (R58, R72). -/
def linkDisable (s : State) (p : Nat) : State := if (portOf s p).dlActive then portReset s p .disabled else s

def execLinkDisableReceived (p : Fin 8) (s : State) : Out := finMedia (linkDisable s p)

/-! ### PRT_LINK_CTL -/

/-- A write of PRT_LINK_CTL (R55, R84, R629): reserved values of PROTO and MAX_RATE are not stored (R9); RETRAIN, or a LINK_EN that goes to 0, forces a return to
Detect. A port that LINK_EN held in Detect enters Detect afresh when it is set (DESIGN CHOICE, entry 104). -/
def linkCtlWrite (s : State) (p : Nat) (v : Word) : State :=
  let old := rd s (portRgn p) 0x100
  let w := v &&& 0x3FFD
  let w := if 2 ≤ Word.fld v 3 2 then Word.setFld w 3 2 (Word.fld old 3 2) else w
  let w := if 6 ≤ Word.fld v 7 5 then Word.setFld w 7 5 (Word.fld old 7 5) else w
  let s := wr s (portRgn p) 0x100 w
  if Word.bit v 1 || (Word.bit old 0 && !Word.bit v 0) then forcedDetect s p
  else if !Word.bit old 0 && Word.bit v 0 && (portOf s p).ltssm = .detect then enterDetect s p
  else s

/-- LINK_RETRAIN: the written value has RETRAIN set. -/
def execLinkRetrain (who : Who) (p : Fin 8) (v : Word) (s : State) : Out :=
  fin (onWrite s who (portRgn p) 0x100 (v ||| 2) fun s => linkCtlWrite s p (v ||| 2))

/-- LINK_EN_CLEAR: the written value has LINK_EN clear. -/
def execLinkEnClear (who : Who) (p : Fin 8) (v : Word) (s : State) : Out :=
  fin (onWrite s who (portRgn p) 0x100 (v &&& 0xFFFFFFFE) fun s => linkCtlWrite s p (v &&& 0xFFFFFFFE))

/-- LINK_EN_SET: the written value has LINK_EN set, and the port trains once a receiver is detected. -/
def execLinkEnSet (who : Who) (p : Fin 8) (v : Word) (s : State) : Out :=
  fin (onWrite s who (portRgn p) 0x100 (v ||| 1) fun s => linkCtlWrite s p (v ||| 1))

/-! ### Link errors -/

/-- The CXL RAS capability of a port that carries CXL records an error (R341); the bits are those of CXL 3.1 (log entry 129). -/
def cxlRas (s : State) (p bit : Nat) : State :=
  if (portOf s p).cxl then setPort s p { portOf s p with ras := (portOf s p).ras ||| 2 ^ bit } else s

/-- An error of the link in PF0's AER registers (R80), and in the CXL RAS capability (R341). -/
def linkErr (s : State) (p : Nat) (e : LinkErr) : State := match e with
  | .receiver => aerCorr s p 0
  | .badTlp => aerCorr s p 6
  | .badDllp => aerCorr s p 7
  | .replayTimer => aerCorr s p 12
  | .protocol => aerRec s (p * 64) 4 0 false
  | .overflow => cxlRas (aerRec s (p * 64) 17 0 false) p 11
  | .encoding => cxlRas s p 9

/-- FLIT_CRC_FAIL (R61, R80, R84): FEC corrects the flit, or it is replayed; the fourth replay in a row of one flit takes the link to Recovery and is a Replay Num
Rollover. `e`: what the link found, as AER names it. -/
def flitCrcFail (s : State) (p : Nat) (fec again : Bool) (e : LinkErr) : State :=
  let x := portOf s p
  if !x.dlActive then s
  else if !x.flit then linkErr s p e
  else if fec then bumpF s (portRgn p) 0x10C 31 16 1
  else
    let s := bumpF (linkErr s p e) (portRgn p) 0x10C 15 0 1
    let n := if again then x.replays + 1 else 1
    if 4 ≤ n then
      let s := aerCorr (bumpF s (portRgn p) 0x108 31 16 1) p 8
      setPort s p { portOf s p with replays := 0, ltssm := .recovery }
    else setPort s p { portOf s p with replays := n }

def execFlitCrcFail (p : Fin 8) (fec again : Bool) (e : LinkErr) (s : State) : Out := fin (flitCrcFail s p fec again e)

/-- RECOVERY_END (R61): the link is in L0 again, from Recovery or on its way out of L1, or it goes down. -/
def recoveryEnd (s : State) (p : Nat) (ok : Bool) : State :=
  let x := portOf s p
  if x.ltssm ≠ .recovery && x.ltssm ≠ .l1 then s
  else if ok then setPort s p { x with ltssm := .l0, replays := 0 }
  else surpriseDown s p

def execRecoveryEnd (p : Fin 8) (ok : Bool) (s : State) : Out := fin (recoveryEnd s p ok)

/-- SURPRISE_DOWN (R75, R78). -/
def execSurpriseDown (p : Fin 8) (s : State) : Out := fin (if (portOf s p).dlActive then surpriseDown s p else s)

/-- POISONED_TLP_RECEIVED (R75, R76, R80): a write to a BAR with EP set; it is not performed. -/
def poisonedTlp (s : State) (p fn hdr : Nat) : State :=
  if !(portOf s p).dlActive then s else portContain (aerRec s (p * 64 + fn) 12 hdr false) p 1 fn hdr

def execPoisonedTlpReceived (p : Fin 8) (fn : Fin 64) (hdr : Nat) (s : State) : Out := fin (poisonedTlp s p fn hdr)

/-- MALFORMED_TLP_RECEIVED (R75, R80): logged in the function concerned, in PF0 if there is none. -/
def malformedTlp (s : State) (p : Nat) (fn : Option (Fin 64)) (hdr : Nat) : State :=
  let f := match fn with
    | some f => f.val
    | none => 0
  if !(portOf s p).dlActive then s else portContain (aerRec s (p * 64 + f) 18 hdr false) p 2 f hdr

def execMalformedTlpReceived (p : Fin 8) (fn : Option (Fin 64)) (hdr : Nat) (s : State) : Out := fin (malformedTlp s p fn hdr)

/-- COMPLETION_TIMEOUT (R71, R75, R76): while completion timeout is disabled nothing follows; a request that no one waits for gives up its tag. `hdr` is the
header of the request. -/
def completionTimeout (s : State) (p tag hdr : Nat) : State :=
  if (portOf s p).ctoOff then s
  else match (portOf s p).np.find? (·.tag = tag) with
  | none => s
  | some n => if n.discard then npDel s p tag else npContain (aerRec s n.mid 14 hdr false) p n 3 hdr

def execCompletionTimeout (p : Fin 8) (tag hdr : Nat) (s : State) : Out := fin (completionTimeout s p tag hdr)

/-! ### Release of containment -/

/-- The effect of a write of PRT_CONTAIN with RELEASE set (R77, R84). -/
def containRelease (s : State) (p : Nat) : State :=
  let x := portOf s p
  if x.pstate ≠ .contained then s else if x.dlActive then containEnd s p else blockErr s (portRgn p) 16 0

def execContainRelease (who : Who) (p : Fin 8) (s : State) : Out :=
  fin (onWrite s who (portRgn p) 0x110 2 fun s => containRelease s p)

/-! ### Configuration -/

/-- Bus Master Enable of a function is cleared (R74, R82, R175). -/
def bmeClear (s : State) (mid : Nat) : State :=
  if !(fnOf s mid).bme then s
  else
    let s := raiseInt (setFn s mid { fnOf s mid with bme := false }) (portRgn (mid / 64)) 5
    if mid = mgmtPf s then hmbLoss s (mid / 64) else s

/-- Bus Master Enable is set (R74). -/
def bmeSet (s : State) (mid : Nat) : State := portPump (setFn s mid { fnOf s mid with bme := true }) (mid / 64)

/-- A function enters D3hot: as if its BME were cleared (R74). -/
def d3hotEntry (s : State) (mid : Nat) : State :=
  if (fnOf s mid).d3hot then s
  else
    let s := setFn s mid { fnOf s mid with d3hot := true }
    let s := if (fnOf s mid).bme then raiseInt s (portRgn (mid / 64)) 5 else s
    if mid = mgmtPf s then hmbLoss s (mid / 64) else s

/-- The VFs of a port cease to exist: their commands end as under FLR (R72). -/
def vfsGone (s : State) (p : Nat) : State :=
  let mids := (portMids s p).filter fun m => m % 64 ≠ 0
  let s := mids.foldl ctrlClear s
  mids.foldl (fun s m => fnReset s m false) s

/-- The functions of an FLR: a PF takes its VFs with it (R72). -/
def flrMids (s : State) (mid : Nat) : List Nat := if mid % 64 = 0 then portMids s (mid / 64) else [mid]

/-- Initiate Function Level Reset (R72, R73): the function is silent, its writes received in full go to media, the rest of its commands end. -/
def flrInitiate (s : State) (mid : Nat) : State :=
  if !fnPresent s mid || (fnOf s mid).flrPend then s
  else
    let l := flrMids s mid
    let s := l.foldl (fun s m => setFn s m { fnOf s m with flrPend := true }) s
    l.foldl ctrlClear s

/-- The end of an FLR (R73 step 4). -/
def flrComplete (s : State) (mid : Nat) : State :=
  if !(fnOf s mid).flrPend then s
  else
    let l := flrMids s mid
    let s := l.foldl (fun s m => fnReset s m (m = mid)) s
    let s := if mid % 64 = 0 then setPort s (mid / 64) { portOf s (mid / 64) with vfEn := false, numVfs := 0, ctoEnc := 0, ctoOff := false, doe := {} } else s
    raiseInt s (portRgn (mid / 64)) 4

/-- The encodings of Completion Timeout Value that R71 lists. -/
def ctoMicros (e : Nat) : Option Nat := match e with
  | 0 => some 40000
  | 5 => some 20000
  | 6 => some 200000
  | 9 => some 800000
  | 10 => some 3000000
  | 13 => some 10000000
  | 14 => some 60000000
  | _ => none

/-- PRT_CTO_VAL (R71). -/
def ctoVal (x : Port) : Nat := if x.ctoOff then 0 else (ctoMicros x.ctoEnc).getD 40000

/-- FUNCTION_READY (R79). -/
def functionReady (s : State) (p fn : Nat) : State :=
  let mid := p * 64 + fn
  if (portOf s p).dlActive && fnPresent s mid && !(fnOf s mid).flrPend then setFn s mid { fnOf s mid with ready := true } else s

def execFunctionReady (p : Fin 8) (fn : Fin 64) (s : State) : Out := fin (functionReady s p fn)

/-- FLR_INITIATE (R73): its configuration write is completed at once. -/
def execFlrInitiate (p : Fin 8) (fn : Fin 64) (s : State) : Out :=
  finMedia (if (fnOf s (p * 64 + fn)).ready then hostAnswer (flrInitiate s (p * 64 + fn)) 0 else s)

def execFlrComplete (p : Fin 8) (fn : Fin 64) (s : State) : Out := fin (flrComplete s (p * 64 + fn))

def execBmeClear (p : Fin 8) (fn : Fin 64) (s : State) : Out := fin (bmeClear s (p * 64 + fn))

def execBmeSet (p : Fin 8) (fn : Fin 64) (s : State) : Out :=
  fin (if fnPresent s (p * 64 + fn) then bmeSet s (p * 64 + fn) else s)

def execD3hotEntry (p : Fin 8) (fn : Fin 64) (s : State) : Out :=
  fin (if fnPresent s (p * 64 + fn) then d3hotEntry s (p * 64 + fn) else s)

/-! ### Link power management -/

/-- L0P_REQUEST (R60, R84): the partner asks for a number of lanes; the port answers in Flit mode. -/
def l0pRequest (s : State) (p lanes : Nat) : State :=
  let x := portOf s p
  if !x.dlActive || !x.flit || lanes = 0 || x.trained < lanes || (x.ltssm ≠ .l0 && x.ltssm ≠ .l0p) then s
  else setPort s p { x with width := lanes, ltssm := if lanes = x.trained then .l0 else .l0p }

def execL0pRequest (p : Fin 8) (lanes : Fin 17) (s : State) : Out := fin (l0pRequest s p lanes)

/-- ASPM_L1_REQUEST (R60): answered 1 where the port accepts; CXL mode, or L1_EN 0, refuses. -/
def aspmL1Request (s : State) (p : Nat) : State :=
  let x := portOf s p
  if !x.dlActive || x.ltssm ≠ .l0 then s
  else if x.cxl || !linkL1En x then hostAnswer s 0 0
  else hostAnswer (setPort s p { x with ltssm := .l1 }) 0 1

def execAspmL1Request (p : Fin 8) (s : State) : Out := fin (aspmL1Request s p)

/-! ### DOE -/

/-- The protocols of R81: vendor and type. -/
def doeProtocols : List (Nat × Nat) := [(1, 0), (1, 1), (1, 2), (0x1E98, 2)]

/-- The trained link rate in MB/s of payload direction (R340): lanes times the rate. -/
def linkMBps (x : Port) : Nat := ([250, 500, 1000, 2000, 4000, 8000].getD x.rate 0) * x.trained

/-- A DSMAS and its DSLBIS entries of a partition (R340). Field layouts are those of the CDAT specification. -/
def cdatPart (x : Port) (h base len : Nat) (nv : Bool) : List (List Byte) :=
  let bw := min (linkMBps x) 190000
  let lb (typ val unit : Nat) : List Byte :=
    leBytes 1 1 ++ leBytes 1 0 ++ leBytes 2 24 ++ leBytes 1 h ++ leBytes 1 0 ++ leBytes 1 typ ++ leBytes 1 0 ++ leBytes 8 unit ++ leBytes 2 val ++ leBytes 6 0
  [leBytes 1 0 ++ leBytes 1 0 ++ leBytes 2 24 ++ leBytes 1 h ++ leBytes 1 (if nv then 4 else 0) ++ leBytes 2 0 ++ leBytes 8 base ++ leBytes 8 len,
   lb 1 250 1000, lb 2 200 1000, lb 4 (bw / 100) 100, lb 5 (bw / 100) 100]

/-- The CDAT entries of a port: one group for each partition that is not empty (R303, R340). -/
def cdatEntries (s : State) (p : Nat) : List (List Byte) :=
  let l := match Tbl.find s.win.layouts p with
    | some l => l
    | none => layoutNow s (portTenant s p)
  let v := l.vol.length * 2 ^ 28
  let k := l.per.length * 2 ^ 28
  (if v = 0 then [] else cdatPart (portOf s p) 0 0 v false) ++ (if k = 0 then [] else cdatPart (portOf s p) 1 v k true)

/-- The CDAT with its header; the checksum makes the sum of all bytes zero. -/
def cdatTable (s : State) (p : Nat) : List (List Byte) :=
  let e := cdatEntries s p
  let n := 16 + sumOf (fun b => b.length) e
  let h (ck : Nat) : List Byte := leBytes 4 n ++ leBytes 1 1 ++ leBytes 1 ck ++ List.replicate 6 0 ++ leBytes 4 0
  let t := sumOf (fun b => b.toNat) (h 0 ++ e.flatten) % 256
  h ((256 - t) % 256) :: e

/-- The answer to a data object that the mailbox serves itself (R81): discovery by its index, and CDAT entries by their handle. -/
def doeAnswer (s : State) (p vendor typ : Nat) (d : List Byte) : Option (List Byte) :=
  if vendor = 1 && typ = 0 then
    let i := leNat (d.take 1)
    match doeProtocols[i]? with
    | some (v, t) => some (leBytes 2 v ++ leBytes 1 t ++ leBytes 1 (if i + 1 < doeProtocols.length then i + 1 else 0))
    | none => some (leBytes 2 0xFFFF ++ leBytes 2 0)
  else if vendor = 0x1E98 && typ = 2 then
    if !(portOf s p).cxl then some []
    else
      let t := cdatTable s p
      let i := leNat ((d.drop 2).take 2)
      match t[i]? with
      | some e => some (leBytes 1 0 ++ leBytes 1 0 ++ leBytes 2 (if i + 1 < t.length then i + 1 else 0xFFFF) ++ e)
      | none => some []
  else none

/-- The mailbox of a PF changes state (R81): an answer stands, or an error does; with its interrupt enabled it signals the vector that its interrupt message number,
0, names. -/
def doeSignal (s : State) (p : Nat) (d : Doe) : State :=
  let s := setPort s p { portOf s p with doe := { d with intSts := true } }
  if !d.intEn then s
  else match msixSignal s (p * 64) 0 with
    | (true, s) => { s with resp := { s.resp with tlps := s.resp.tlps ++ [{ mid := p * 64, kind := .msix 0 }] } }
    | (false, s) => s

/-- DOE_REQUEST (R81): a data object of at most 1,024 DW is written to PF0's mailbox. CMA/SPDM and secured SPDM wait for the responder (SPDM_REQUEST); an object of
no listed protocol is discarded; a mailbox that is busy, or an object that is too long, is an error. A response that has not been read is replaced (DESIGN CHOICE,
entry 99). -/
def doeRequest (s : State) (p vendor typ : Nat) (d : List Byte) : State :=
  let x := portOf s p
  if !x.dlActive || !(fnOf s (p * 64)).ready then s
  else if x.doe.busy || 4088 < d.length then doeSignal s p { x.doe with error := true }
  else if vendor = 1 && (typ = 1 || typ = 2) then setPort s p { x with doe := { x.doe with busy := true } }
  else match doeAnswer s p vendor typ d with
    | some r => doeSignal s p { x.doe with response := leBytes 2 vendor ++ leBytes 2 typ ++ leBytes 4 (ceilDiv (r.length + 8) 4) ++ r }
    | none => s

/-- DOE Abort (R81): the mailbox is as after reset, but for its interrupt enable. -/
def doeAbort (s : State) (p : Nat) : State := setPort s p { portOf s p with doe := { intEn := (portOf s p).doe.intEn } }

def execDoeRequest (p : Fin 8) (vendor : Fin 65536) (typ : Fin 256) (d : List Byte) (s : State) : Out :=
  fin (doeRequest { s with resp := {} } p vendor typ d)

/-- DOE_ABORT (R81). -/
def execDoeAbort (p : Fin 8) (s : State) : Out := fin (doeAbort s p)

/-! ### Configuration space -/

/-- The capability structures in which a function's configuration registers lie (R63 to R66, R71, R80, R81). Offsets: log entry 105. -/
def extCaps (pf : Bool) : List (Nat × Nat × Nat) :=
  [(0x100, 0x01, 2), (0x148, 0x0D, 1)] ++ if pf then
    [(0x150, 0x10, 1), (0x190, 0x03, 1), (0x1A0, 0x19, 1), (0x1D0, 0x25, 1), (0x1E0, 0x26, 1), (0x210, 0x2A, 1), (0x240, 0x31, 1), (0x260, 0x27, 1)
    , (0x2B0, 0x1E, 1), (0x2D0, 0x32, 1), (0x300, 0x2E, 1), (0x320, 0x23, 1), (0x360, 0x23, 1), (0x3A0, 0x23, 1), (0x3D0, 0x23, 1)] else []

/-- The header of the extended capability at an offset: identifier, version, and where the next one lies. -/
def capHeader : List (Nat × Nat × Nat) → Nat → Nat
  | [], _ => 0
  | (o, id, v) :: t, off => if o = off then id + v * 2 ^ 16 + (t.map (·.1)).headD 0 * 2 ^ 20 else capHeader t off

/-- The dwords inside link capabilities whose contents the PCI Express specification gives and this part does not (log entry 105). -/
def cfgOpen (pf : Bool) (off : Nat) : Bool :=
  pf && (extCaps true).any fun c => [0x19, 0x25, 0x26, 0x2A, 0x31, 0x27, 0x32].contains c.2.1 && c.1 < off && off < c.1 + (match c.2.1 with
    | 0x25 => 0x0C
    | 0x31 => 0x20
    | 0x27 => 0x48
    | 0x19 => 0x2C
    | _ => 0x30)

/-- L1 PM Substates that a port supports (R60): none without a CLKREQ# assignment, and none in CXL mode. -/
def l1Subs (x : Port) : Nat := if Word.bit x.link 13 && !x.cxl then 0x1F else 0

/-- The writable bits of a configuration dword that is plain storage. -/
def cfgMask (s : State) (mid off : Nat) : Nat :=
  if mid % 64 ≠ 0 then (match off with
    | 0x04 => 0x0004 | 0x78 => 0x0F1F | 0x98 => 0x0300 | 0x14C => 0x7F0000 | _ => 0)
  else match off with
    | 0x04 => 0x0546 | 0x0C => 0xFF | 0x10 => 0xFFFF0000 | 0x14 => 0xFFFFFFFF
    | 0x18 => if mid = mgmtPf s then 0xFF800000 else 0
    | 0x1C => if mid = mgmtPf s then 0xFFFFFFFF else 0
    | 0x20 => 0xFFFC0000 | 0x24 => 0xFFFFFFFF | 0x3C => 0xFF | 0x78 => 0x0F1F | 0x80 => 0x1CB | 0x98 => 0x1300 | 0xA0 => 0x1FFF
    | 0x14C => 0x7F0000 | 0x158 => 0x18 | 0x170 => 0x553 | 0x174 => 0xFFFF0000 | 0x178 => 0xFFFFFFFF | 0x184 => 0xFFFFF000 | 0x188 => 0xFFFFFFFF
    | 0x2B8 => l1Subs (portOf s (mid / 64)) % 16 | 0x32C => 4 | _ => 0

/-- What a DVSEC holds (R66, R335): vendor, length and identifier, then its own fields. -/
def dvsecDword (off : Nat) : Nat := match off with
  | 0x324 => 0x1E98 + 0x3C * 2 ^ 20 + 2 ^ 16 | 0x328 => 0x00160000 | 0x32C => 2
  | 0x364 => 0x1E98 + 0x20 * 2 ^ 20 + 2 ^ 17 | 0x368 => 7 + 6 * 2 ^ 16
  | 0x3A4 => 0x1E98 + 0x1C * 2 ^ 20 | 0x3A8 => 8 | 0x3AC => 4 + 1 * 256 + 0x10000 | 0x3B4 => 4 + 3 * 256 + 0x20000
  | 0x3D4 => 0x1E98 + 0x10 * 2 ^ 20 | 0x3D8 => 5 + 10 * 2 ^ 16 | 0x3DC => 320000
  | _ => 0

/-- The dwords of the PCI Express capability of a port (R54, R56, R60, R68, R71). -/
def pcieDword (s : State) (mid off : Nat) : Nat :=
  let x := portOf s (mid / 64)
  let f := fnOf s mid
  let busy : Bool := x.np.any fun n => n.mid = mid
  match off with
  | 0x70 => 0x00020010
  | 0x74 => 2 + 2 ^ 5 + 2 ^ 15 + 2 ^ 28
  | 0x78 => f.mps * 32 + f.mrrs * 4096 + f.devSta * 2 ^ 16 + busy.toNat * 2 ^ 21
  | 0x7C => 6 + portWidthOf (s.dev.straps % 16) (mid / 64) * 16 + (linkL1En x && !x.cxl).toNat * 2 ^ 11 + (Word.bit x.link 13).toNat * 2 ^ 18 + 2 ^ 22
  | 0x80 => if mid % 64 = 0 then ((if x.dlActive then x.rate + 1 else 0) + (if x.dlActive then x.width else 0) * 16 + (!Word.bit x.link 4).toNat * 2 ^ 12) * 2 ^ 16 else 0
  | 0x94 => 0x0E + 2 ^ 4 + 3 * 2 ^ 16
  | 0x98 => if mid % 64 = 0 then x.ctoEnc + x.ctoOff.toNat * 16 else 0
  | 0x9C => 0x7E + (if Word.bit x.link 4 then 0x3F * 2 ^ 9 + 0x3F * 2 ^ 16 else 0)
  | _ => 0

/-- The AER dwords of a function (R80). -/
def aerDword (f : FnSt) (pf : Bool) (off : Nat) : Nat := match off with
  | 0x104 => f.aerUnc
  | 0x108 => if pf then f.aerMask.toNat else 0
  | 0x10C => if pf then f.aerSev.toNat else 0
  | 0x110 => f.aerCor
  | 0x114 => if pf then f.aerCorMask.toNat else 0
  | 0x118 => f.aerFirst
  | 0x11C => f.aerHdr % 2 ^ 32
  | 0x120 => f.aerHdr / 2 ^ 32 % 2 ^ 32
  | 0x124 => f.aerHdr / 2 ^ 64 % 2 ^ 32
  | 0x128 => f.aerHdr / 2 ^ 96 % 2 ^ 32
  | _ => 0

/-- The DOE dwords of a PF (R81). The mailbox shows the response dword by dword. -/
def doeDword (d : Doe) (off : Nat) : Nat := match off with
  | 0x304 => 1
  | 0x308 => d.intEn.toNat * 2
  | 0x30C => d.busy.toNat + d.intSts.toNat * 2 + d.error.toNat * 4 + (d.response ≠ [] : Bool).toNat * 2 ^ 31
  | 0x314 => leNat (d.response.take 4)
  | _ => 0

/-- The bits of a configuration dword that no plain storage holds (R1, R2, R60, R63 to R66, R71, R80, R81). -/
def cfgFixed (s : State) (mid off : Nat) : Nat :=
  let f := fnOf s mid
  let x := portOf s (mid / 64)
  let pf : Bool := mid % 64 = 0
  if 0x70 ≤ off && off < 0xAC then pcieDword s mid off
  else if 0x104 ≤ off && off ≤ 0x128 then aerDword f pf off
  else if 0x300 < off && off < 0x320 then (if pf then doeDword x.doe off else 0)
  else if 0x320 < off && off < 0x400 && capHeader (extCaps pf) off = 0 then (if pf then dvsecDword off else 0)
  else match off with
  | 0x00 => 0x1F3D + (if pf then 0x0960 else 0x0961) * 65536
  | 0x04 => f.bme.toNat * 4 + 2 ^ 20
  | 0x08 => 0xB1 + 0x010802 * 256
  | 0x10 => if pf then 4 else 0
  | 0x18 => if mid = mgmtPf s then 4 else 0
  | 0x20 => if pf then 4 else 0
  | 0x2C => s.ten.saved.subsys.toNat
  | 0x34 => 0x40
  | 0x40 => 0x00035001
  | 0x44 => 8 + if f.d3hot then 3 else 0
  | 0x50 => 0x7011 + (if pf then 2047 else 63) * 65536 + f.msixMask.toNat * 2 ^ 30 + f.msixEn.toNat * 2 ^ 31
  | 0x54 => 4
  | 0x58 => 4 + if pf then 0x8000 else 0x800
  | 0x14C => 0x7F
  | 0x158 => if pf then x.vfEn.toNat else 0
  | 0x15C => if pf then 63 + 63 * 65536 else 0
  | 0x160 => if pf then x.numVfs else 0
  | 0x164 => if pf then 1 + 65536 else 0
  | 0x168 => if pf then 0x0961 * 65536 else 0
  | 0x16C => if pf then 0x553 else 0
  | 0x174 => if pf then 4 else 0
  | 0x184 => if pf then 4 else 0
  | 0x194 => if pf then (Tbl.getD s.fus.eff 8 0).toNat else 0
  | 0x198 => if pf then (Tbl.getD s.fus.eff 9 0).toNat else 0
  | 0x2B4 => if pf then l1Subs x else 0
  | _ => capHeader (extCaps pf) off

/-- The offset of a configuration register that has a name. -/
def cfgOff : CfgReg → Nat
  | .ids => 0x00 | .command => 0x04 | .classRev => 0x08 | .pmcsr => 0x44 | .msix => 0x50 | .devCtl => 0x78 | .devCtl2 => 0x98 | .aerUnc => 0x104
  | .aerCor => 0x110 | .sriovCtl => 0x158 | .totalVfs => 0x15C | .numVfs => 0x160 | .serialLo => 0x194 | .serialHi => 0x198
  | .other off => off

/-- A configuration dword as read (R1, R63 to R66, R68, R71, R74, R80, R81). The bits lie as in the PCI Express specification. -/
def cfgRead (s : State) (mid : Nat) (r : CfgReg) : Nat := cfgFixed s mid (cfgOff r) ||| ((cfgSt (fnOf s mid) (cfgOff r)).toNat &&& cfgMask s mid (cfgOff r))

/-- Plain storage takes the writable bits. -/
def cfgStore (s : State) (mid off : Nat) (v : Word) : State :=
  let m := w32 (cfgMask s mid off)
  if m = 0 then s else setFn s mid { fnOf s mid with cfg := Tbl.put (fnOf s mid).cfg off (v &&& m) }

/-- The host writes a DOE register (R81): Abort, the interrupt enable, Go with what the write mailbox took; the interrupt status; a dword of the request; and a
write of the read mailbox, which takes a dword of the response away. -/
def doeWrite (s : State) (p off : Nat) (v : Word) : State :=
  let d := (portOf s p).doe
  let set (d : Doe) : State := setPort s p { portOf s p with doe := d }
  match off with
  | 0x308 =>
    if Word.bit v 0 then doeAbort s p
    else
      let s := set { d with intEn := Word.bit v 1 }
      if !Word.bit v 31 then s
      else
        let s := setPort s p { portOf s p with doe := { (portOf s p).doe with request := [] } }
        doeRequest s p (leNat (d.request.take 2)) (leNat ((d.request.drop 2).take 1)) (d.request.drop 8)
  | 0x30C => set { d with intSts := d.intSts && !Word.bit v 1 }
  | 0x310 => set { d with request := if 4096 ≤ d.request.length then d.request else d.request ++ leBytes 4 v.toNat }
  | 0x314 => set { d with response := d.response.drop 4 }
  | _ => s

/-- A configuration write (R9, R68, R71 to R74, R80, R81, R483). -/
def cfgWrite (s : State) (mid : Nat) (r : CfgReg) (v : Word) : State :=
  let f := fnOf s mid
  let p := mid / 64
  let x := portOf s p
  let pf : Bool := mid % 64 = 0
  match cfgOff r with
  | 0x04 =>
    let s := cfgStore s mid 0x04 (v &&& 0xFFFB)
    if Word.bit v 2 && !f.bme then bmeSet s mid else if !Word.bit v 2 && f.bme then bmeClear s mid else s
  | 0x44 => match Word.fld v 1 0 with
    | 3 => d3hotEntry s mid
    | 0 => portPump (setFn s mid { f with d3hot := false }) p
    | _ => s
  | 0x50 => msixFlush (setFn s mid { f with msixEn := Word.bit v 31, msixMask := Word.bit v 30 }) mid
  | 0x78 =>
    let f := { f with
      mps := if Word.fld v 7 5 ≤ 2 then Word.fld v 7 5 else f.mps
      mrrs := if Word.fld v 14 12 ≤ 5 then Word.fld v 14 12 else f.mrrs
      devSta := (List.range 4).foldl (fun n i => if n.testBit i && Word.bit v (16 + i) then n - 2 ^ i else n) f.devSta }
    let s := cfgStore (setFn s mid f) mid 0x78 v
    if Word.bit v 15 then flrInitiate s mid else s
  | 0x98 =>
    let s := cfgStore s mid 0x98 v
    if pf then setPort s p { portOf s p with ctoEnc := if (ctoMicros (Word.fld v 3 0)).isSome then Word.fld v 3 0 else x.ctoEnc, ctoOff := Word.bit v 4 } else s
  | 0x104 => setFn s mid { f with aerUnc := (w32 f.aerUnc &&& ~~~v).toNat }
  | 0x108 => if pf then setFn s mid { f with aerMask := v &&& 0x57F030 } else s
  | 0x10C => if pf then setFn s mid { f with aerSev := v &&& 0x57F030 } else s
  | 0x110 => setFn s mid { f with aerCor := (w32 f.aerCor &&& ~~~v).toNat }
  | 0x114 => if pf then setFn s mid { f with aerCorMask := v &&& 0xB1C1 } else s
  | 0x158 =>
    if !pf || s.dev.dormant then s
    else
      let s := if x.vfEn && !Word.bit v 0 then vfsGone s p else s
      cfgStore (setPort s p { portOf s p with vfEn := Word.bit v 0 }) mid 0x158 v
  | 0x160 => if pf && !x.vfEn && Word.fld v 15 0 ≤ 63 then setPort s p { x with numVfs := Word.fld v 15 0 } else s
  | off => if pf && 0x304 ≤ off && off ≤ 0x314 then doeWrite s p off v else cfgStore s mid off v

/-- CONFIG_REQUEST (R73, R76, R79, R80): RRS until the function is ready and while its FLR runs, Unsupported Request where there is no function. -/
def configRequest (s : State) (p fn : Nat) (r : CfgReg) (w : Option Word) : State :=
  let mid := p * 64 + fn
  if !(portOf s p).dlActive then s
  else if !fnPresent s mid then hostUr s (p * 64)
  else if !(fnOf s mid).ready || (fnOf s mid).flrPend then hostAnswer s 2
  else match w with
    | none =>
      if cfgOpen (fn = 0) (cfgOff r) then
        let (v, s) := takeFree s
        hostAnswer s 0 (v % 2 ^ 32)
      else hostAnswer s 0 (cfgRead s mid r)
    | some v => hostKeep (cfgWrite { s with resp := {} } mid r v)

def execConfigRequest (p : Fin 8) (fn : Fin 64) (r : CfgReg) (w : Option Word) (s : State) : Out := finMedia (configRequest s p fn r w)

/-! ### Checker failures -/

/-- The transmitters of a retired port go idle with receiver detection off; its commands end as for a surprise down (R578). -/
def portRetire (s : State) (p : Nat) : State :=
  let s := surpriseDown s p
  setPort (enterDetect s p) p { portOf (enterDetect s p) p with quiet := true }

/-- What a retired block takes with it (R578). -/
def checkerEffect (s : State) (rgn : Nat) : State :=
  match blkOf rgn with
  | none => s
  | some (b, i) => match b with
    | .prt => portRetire s i
    | .fch => (List.range 16).foldl (fun s d => let t := dieLost s (i * 16 + d) false; t) s
    | .grv => (List.range 16).foldl (fun s e => retireEngine s (i * 16 + e)) s
    | .xmv => (List.range 64).foldl (fun s c => { s with xmv := Tbl.put s.xmv c { xmvClear (Tbl.getD s.xmv c {}) with st := .error } }) s
    | .bst => { s with bst := {} }
    | _ => s

/-- The outcome of a retired block is Degraded (R578). -/
def degradesOnly (rgn : Nat) : Bool := match blkOf rgn with
  | some (b, _) => match b with
    | .prt | .fch | .grv | .pke | .xmv | .fus | .bst | .aon => true
    | _ => false
  | none => false

/-- CHECKER_FAILURE (R496, R578): the block is retired; the device is Degraded, with the block on the retirement list, or in Fault. -/
def checkerFailure (s : State) (rgn : Nat) : State :=
  if (blkOf rgn).isNone || blkRetired s rgn then s
  else
    let s := emit s 0x2002 sevError 0x05 none (leBytes 1 rgn)
    if degradesOnly rgn then
      let s := checkerEffect (setBlk s rgn { blkSt s rgn with st := .retired }) rgn
      { s with dev := { s.dev with retired := s.dev.retired ++ [retKey 6 rgn 0] } }
    else if rgn = 0x01 || rgn = 0x1B then enterFault s rgn
    else enterFault (setBlk s rgn { blkSt s rgn with st := .retired }) rgn

def execCheckerFailure (rgn : Fin 128) (s : State) : Out := finMedia (checkerFailure s rgn)

end Sys2Proof.Machine
end

