-- ==== Sys2Proof/Machine/HqeIo.lean ====
section
/-! DEFINITION. The NVM command set (R105, R108 to R112, R136, R181, R182, R211), Abort (R117) and Resume Queue (R116). -/

namespace Sys2Proof.Machine

/-! ### Reads and writes -/

/-- Run an I/O command of an NVM namespace: dispatched, or with the buffers it waited for. -/
def nvmCmd (s : State) (c : CmdId) (opc : Nat) (f : Ctx → Ns → State) : State :=
  match ctxOf s c with
  | none => s
  | some x => match nsOf s x.nsid with
    | none => s
    | some n =>
      let held := x.stage = .dataIn && x.bufs ≠ [] && x.need = 0 && x.want = [] && x.got = []
      if !x.admin && x.sqe.opc = opc && n.kind = .nvm && (x.stage = .ready || held) then f x n else s

/-- Sizes of the buffers that a transfer takes: pieces of at most 256 KiB. -/
def bufPieces (len : Nat) : List Nat := (List.range (ceilDiv len 262144)).map fun i => min 262144 (len - 262144 * i)

/-- Ask for a command's buffers (R99, R145): a command whose buffers are not free waits. -/
def askBufs (s : State) (x : Ctx) (len : Nat) : State :=
  let l := bufPieces len
  let s := ctxUpd s x.id fun y => { y with stage := .waitBuf, need := l.length, bufs := [] }
  l.foldl (fun s n => match classFor s n with
    | some k => bpmAlloc s ⟨ownerOf s x.tenant, k, false, .cmd x.id⟩
    | none => s) s

/-- The port, for the command's function, and SEC, where the namespace is encrypted, may reach the command's buffers in DRAM (R15, R142). -/
def bufsMay (s : State) (c : CmdId) : Bool × State :=
  match ctxOf s c with
  | none => (true, s)
  | some x =>
    let l := x.bufs.zip (bufPieces x.xlen)
    match dramMayAll s ⟨c.mid, x.tenant⟩ .write l with
    | (false, s) => (false, s)
    | (true, s) => match dramMayAll s ⟨c.mid, x.tenant⟩ .read l with
      | (false, s) => (false, s)
      | (true, s) => if (nsKey s x.nsid).isNone then (true, s) else dramMayAll s ⟨0x3A3, x.tenant⟩ .write l

/-- A command goes on with its buffers, or ends with Access Denied where Bark refuses them (R142). -/
def bufsGo (s : State) (c : CmdId) (f : State → State) : State :=
  match bufsMay s c with
  | (true, s) => f s
  | (false, s) => complete s c stAccessDenied

/-- Run a read-like command once it has its buffers. -/
def withBufs (s : State) (x : Ctx) (len : Nat) (f : State → State) : State :=
  if x.bufs ≠ [] then bufsGo s x.id f
  else
    let s := askBufs s x len
    match ctxOf s x.id with
    | some y => if y.stage = .dataIn then bufsGo s x.id f else s
    | none => s

/-- The MUs that a command reads. -/
def readMus (n : Ns) (x : Ctx) : List MuXfer := (muRange n x.lba x.nlb).map fun mu => { gmu := gmuOf n mu }

/-- Start the lookups of a read-like command. -/
def beginRead (s : State) (x : Ctx) (n : Ns) : State := startRead (ctxUpd s x.id fun y => { y with mus := readMus n x }) x.id

/-- On an ordered SQ a read waits for an earlier overlapping write that is not in the pending-write table yet (R114). -/
def readWaits (s : State) (x : Ctx) : Bool := isOrdered s x.id && earlierWrite s x

/-- The read whose buffers a read may share (R150): in flight for a tenant of the same owner, on the same namespace and mapping units, none of its data decrypted yet. The
share must give what a read of its own would find (R112; DEDUCED, entry 126): no pending write that the read sees, and the map entry that the other follows. -/
def shareWith (s : State) (x : Ctx) (n : Ns) : Option Ctx :=
  s.hqe.ctxs.find? fun y => y.stage = .reading && y.sqe.opc = 0x02 && !y.admin && y.leader.isNone && y.bufs ≠ [] && y.nsid = x.nsid && ownerOf s y.tenant = ownerOf s x.tenant
    && y.mus.map (·.gmu) = (readMus n x).map (·.gmu)
    && y.mus.all fun m => (pwtVisible s (some x.id) m.gmu).isNone && (match m.st with
      | .lookup | .page => true
      | .flash p => Tbl.getD (leafEntries s (m.gmu / 2048)) (m.gmu % 2048) 0 = entMapped p
      | .data | .failed _ => false)

/-- Take a share of every buffer of a list; none where one is saturated (R148, R150). -/
def takeShares (s : State) (t : Nat) : List Nat → Option State
  | [] => some s
  | b :: l => match bpmShare s b t with
    | (.ok _, s) => takeShares s t l
    | _ => none

/-- A read of its own, or one that shares (R150). -/
def readOrShare (s : State) (x : Ctx) (n : Ns) (own : State → State) : State :=
  match if x.bufs = [] then shareWith s x n else none with
  | none => own s
  | some y => match takeShares s x.tenant y.bufs with
    | none => own s
    | some t => ctxUpd t x.id fun z => { z with stage := .reading, bufs := y.bufs, leader := some y.id, mus := (readMus n x).map fun m => { m with st := .page } }

/-- READ (R109, R112, R114, R150): while VWC reads 1, a read with FUA first waits until the completed writes to its LBAs are closed on NAND. -/
def readCmd (s : State) (c : CmdId) : State :=
  nvmCmd s c 0x02 fun x n => if readWaits s x then s else readOrShare s x n fun s => withBufs s x (x.nlb * lbaBytes n) fun s =>
    let l := (readMus n x).map (·.gmu)
    let cover := (s.ftl.pwt.filter fun p => l.contains p.gmu && !p.held && !p.closed && !p.dead).map (·.wseq)
    if sqeFua x.sqe && s.hqe.vwc && cover ≠ [] then ctxUpd s c fun y => { y with stage := .waitClose, cover := cover, mus := readMus n x }
    else beginRead s x n

def execRead (c : CmdId) (s : State) : Out := finMedia (readCmd s c)

/-- VERIFY (R105): the read path without a transfer. -/
def verifyCmd (s : State) (c : CmdId) : State := nvmCmd s c 0x0C fun x n => if readWaits s x then s else withBufs s x (x.nlb * lbaBytes n) fun s => beginRead s x n

def execVerify (c : CmdId) (s : State) : Out := finMedia (verifyCmd s c)

/-- COMPARE (R105): the host's data has arrived; the comparison is made in the device. -/
def compareCmd (s : State) (c : CmdId) : State := nvmCmd s c 0x05 fun x n => if readWaits s x then s else withBufs s x (x.nlb * lbaBytes n) fun s => beginRead s x n

def execCompare (c : CmdId) (s : State) : Out := finMedia (compareCmd s c)

/-- WRITE (R99, R109): buffers, then the data from the host. -/
def writeCmd (s : State) (c : CmdId) : State :=
  match ctxOf s c with
  | none => s
  | some x =>
    if !isNvmWrite s x then s
    else if x.stage = .dataIn then bufsGo s c fun s => ctxIssue s x (x.want.length + 1)
    else if x.stage ≠ .ready then s
    else
      let l := cutFrags (128 * 2 ^ (fnOf s c.mid).mrrs) 0 x.frags
      let s := askBufs (ctxUpd s c fun y => { y with want := l, got := [] }) x x.xlen
      match ctxOf s c with
      | some y => if y.stage = .dataIn then bufsGo s c fun s => ctxIssue s y (l.length + 1) else s
      | none => s

def execWrite (c : CmdId) (s : State) : Out := fin (writeCmd s c)

/-! ### Flush -/

/-- Close the rows that hold covered writes, and those that will (R110, R211). -/
def forceCover (s : State) (cover : List Nat) : State :=
  let hit (it : Item) : Bool := match it.src with
    | .host _ w => cover.contains w
    | _ => false
  let s := { s with
    ftl := { s.ftl with pwt := s.ftl.pwt.map fun (p : Pwt) => if cover.contains p.wseq then { p with fua := true } else p }
    cpc := { s.cpc with queue := s.cpc.queue.map fun (it : Item) => if hit it then { it with force := true } else it } }
  s.cpc.rus.foldl (fun (s : State) (p : Nat × Ru) => p.2.open_.foldl (fun (s : State) (w : Nat × Row) =>
    if w.2.items.any hit && (!w.2.full || twoPass s p.2) then forceRow s p.1 w.1 else s) s) s

/-- FLUSH (R110): at once while VWC reads 0; else when every covered write is closed on NAND. It covers the writes fetched before it that have completed. -/
def flushCmd (s : State) (c : CmdId) : State :=
  match ctxOf s c with
  | none => s
  | some x =>
    if x.admin || x.sqe.opc ≠ 0x00 || x.stage ≠ .ready then s
    else if !s.hqe.vwc then complete s c stOk
    else
      let live (p : Pwt) : Bool := s.hqe.ctxs.any fun y => y.id = p.cmd && y.wseq = p.cmdSeq && y.stage ≠ .done
      let cover := (s.ftl.pwt.filter fun p =>
        (x.nsid = 0xFFFFFFFF || p.nsid = x.nsid) && p.cmdSeq < x.wseq && !p.held && !p.dead && !p.closed && !live p).map (·.wseq)
      let s := forceCover s cover
      ctxUpd s c fun y => { y with stage := .waitClose, cover := cover }

def execFlush (c : CmdId) (s : State) : Out := finMedia (flushCmd s c)

/-! ### Deallocation and Write Uncorrectable -/

/-- Pending writes of zeros for a run of LBAs; `lost` marks the covered LBAs unreadable. The sequences whose closing they need. -/
def zeroWrite (s : State) (x : Ctx) (n : Ns) (lba nlb : Nat) (lost : Bool) : List Nat × State :=
  let l := pwtMake n x.id x.nsid x.wseq lba nlb (List.replicate (nlb * lbaBytes n) 0) [] false (sqeFua x.sqe && x.sqe.opc = 0x08) 0 none
  pwtEnter s (l.map fun p => if lost then { p with lost := p.mask } else p)

/-- Apply a TRIM or UNCORR to a run of LBAs (R182): whole MUs are journalled, parts of an MU are written. -/
def deallocRun (s : State) (x : Ctx) (n : Ns) (t : JType) (lba nlb : Nat) : State :=
  let k := nsK n
  let (a, m) := muWhole n lba nlb
  let s := deallocate s t (gmuOf n a) m x.wseq
  let lost := t = .uncorr
  if m = 0 then (zeroWrite s x n lba nlb lost).2
  else
    let s := if lba < a * k then (zeroWrite s x n lba (a * k - lba) lost).2 else s
    if (a + m) * k < lba + nlb then (zeroWrite s x n ((a + m) * k) (lba + nlb - (a + m) * k) lost).2 else s

/-- A change of the map by a run of LBAs must wait (R112, R114, R177, R187): behind an earlier command, at the checkpoint limits, which stall its record, or for room in the
pending-write table for its partial units. -/
def deallocWaits (s : State) (c : CmdId) (x : Ctx) : Bool := mapWaits s c || earlierWrite s x || jStalled s
def partMus (n : Ns) (lba nlb : Nat) : Nat := (muRange n lba nlb).length - (muWhole n lba nlb).2

/-- WRITE_UNCORRECTABLE (R105, R182). -/
def writeUncorrectable (s : State) (c : CmdId) : State :=
  nvmCmd s c 0x04 fun x n =>
    if deallocWaits s c x then s
    else if !pwtRoom s (partMus n x.lba x.nlb) then pwtFull s
    else complete (deallocRun s x n .uncorr x.lba x.nlb) c stOk

def execWriteUncorrectable (c : CmdId) (s : State) : Out := finMedia (writeUncorrectable s c)

/-- WRITE_ZEROES (R105, R182): with DEAC the range is deallocated, else zeros are written; with FUA the zeros are closed on NAND first. -/
def writeZeroes (s : State) (c : CmdId) : State :=
  nvmCmd s c 0x08 fun x n =>
    if Word.bit x.sqe.cdw12 25 then
      (if deallocWaits s c x then s
       else if !pwtRoom s (partMus n x.lba x.nlb) then pwtFull s
       else complete (deallocRun s x n .trim x.lba x.nlb) c stOk)
    else if mapWaits s c || earlierWrite s x || !fitsShare s x n then s
    else if !pwtRoom s (muRange n x.lba x.nlb).length then pwtFull s
    else
      let (l, s) := zeroWrite s x n x.lba x.nlb false
      if sqeFua x.sqe then ctxUpd s c fun y => { y with stage := .waitClose, cover := l } else complete s c stOk

def execWriteZeroes (c : CmdId) (s : State) : Out := finMedia (writeZeroes s c)

/-- The ranges of Dataset Management: first LBA and length. -/
def dsmRanges (d : List Byte) : Nat → List (Nat × Nat)
  | 0 => []
  | k + 1 => (leNat ((d.drop 8).take 8), leNat ((d.drop 4).take 4)) :: dsmRanges (d.drop 16) k

/-- DATASET_MANAGEMENT (R105, R182): Deallocate only; other attributes have no effect. -/
def datasetMgmt (s : State) (c : CmdId) : State :=
  nvmCmd s c 0x09 fun x n =>
    let l := dsmRanges x.data (Word.fld x.sqe.cdw10 7 0 + 1)
    if l.any fun r => n.lbas < r.1 + r.2 then complete s c stLbaRange
    else if !Word.bit x.sqe.cdw11 2 then complete s c stOk
    else if deallocWaits s c x then s
    else if !pwtRoom s (sumOf (fun r => partMus n r.1 r.2) l) then pwtFull s
    else complete ((l.filter fun r => r.2 ≠ 0).foldl (fun s r => deallocRun s x n .trim r.1 r.2) s) c stOk

def execDatasetManagement (c : CmdId) (s : State) : Out := finMedia (datasetMgmt s c)

/-- COPY (R105). -/
def execCopy (c : CmdId) (s : State) : Out := fin (onCmd s c false 0x19 fun _ => complete s c stInvalidOpcode)

/-- RECLAIM_UNIT_HANDLE_UPDATE (R211, R215): each placement identifier's OPEN RU is padded and closes short. -/
def ruhUpdate (s : State) (c : CmdId) : State :=
  nvmCmd s c 0x1D fun x n =>
    let l := (List.range (Word.fld x.sqe.cdw10 31 16 + 1)).map fun i => leNat ((x.data.drop (2 * i)).take 2)
    if Word.fld x.sqe.cdw10 7 0 ≠ 1 then complete s c stOk
    else if !Tbl.getD s.ten.fdp n.owner false then complete s c ⟨0, 0x29⟩
    else if l.any fun d => 8 ≤ d % 1024 || (Tbl.find s.cpc.dsets (d / 1024)).isNone then complete s c stInvalidField
    else
      let s := l.foldl (fun s d => match Tbl.find s.cpc.opens (openKey n.owner (d % 1024) (d / 1024)) with
        | some i => if (ruAt s i).st = .opened then closeShort { s with cpc := { s.cpc with fdpEvents := s.cpc.fdpEvents ++ [(0, n.owner)] } } i else s
        | none => s) s
      complete s c stOk

def execReclaimUnitHandleUpdate (c : CmdId) (s : State) : Out := finMedia (ruhUpdate s c)

/-! ### Reservations (R136): as the NVMe specification states them -/

/-- The registration of a host. -/
def regOf (n : Ns) (host : Nat) : Option Registrant := n.regs.find? (·.hostId = host)

/-- Remove registrations; a reservation without its holder, or without any registrant, is released. -/
def dropRegs (n : Ns) (gone : Registrant → Bool) : Ns :=
  let regs := n.regs.filter fun r => !gone r
  let lost : Bool := if 5 ≤ n.rtype then regs.isEmpty else match n.holder with
    | some h => !regs.any (·.hostId = h)
    | none => false
  if lost then { n with regs := regs, rtype := 0, holder := none } else { n with regs := regs }

/-- The key a reservation command must name: the host's own, unless it is to be ignored. -/
def keyMatches (n : Ns) (host key : Nat) (ignore : Bool) : Bool := match regOf n host with
  | some r => ignore || r.key = key
  | none => false

/-- The namespace after a Reservation Register, or the status it fails with. -/
def resvRegister (n : Ns) (host mid : Nat) (q : Sqe) (d : List Byte) : Except Status Ns :=
  let cr := leNat (d.take 8)
  let nr := leNat ((d.drop 8).take 8)
  let ie := Word.bit q.cdw10 3
  let n := match Word.fld q.cdw10 31 30 with
    | 2 => { n with ptpl := false }
    | 3 => { n with ptpl := true }
    | _ => n
  match Word.fld q.cdw10 2 0 with
  | 0 => match regOf n host with
    | some r => if r.key = nr then .ok n else .error stResvConflict
    | none => .ok { n with regs := n.regs ++ [⟨host, mid, nr⟩], rgen := n.rgen + 1 }
  | 1 => if keyMatches n host cr ie then .ok { dropRegs n fun r => r.hostId = host with rgen := n.rgen + 1 } else .error stResvConflict
  | 2 =>
    if keyMatches n host cr ie then .ok { n with regs := n.regs.map fun r => if r.hostId = host then { r with key := nr } else r, rgen := n.rgen + 1 }
    else if ie && (regOf n host).isNone then .ok { n with regs := n.regs ++ [⟨host, mid, nr⟩], rgen := n.rgen + 1 }
    else .error stResvConflict
  | _ => .error stInvalidField

/-- The namespace after a Reservation Acquire, with the hosts it preempts. -/
def resvAcquire (n : Ns) (host : Nat) (q : Sqe) (d : List Byte) : Except Status (Ns × List Nat) :=
  let t := Word.fld q.cdw10 15 8
  let pr := leNat ((d.drop 8).take 8)
  let set (n : Ns) : Ns := { n with rtype := t, holder := if 5 ≤ t then none else some host }
  if Word.fld q.cdw10 2 0 ≤ 2 && (t = 0 || 6 < t) then .error stInvalidField
  else if !keyMatches n host (leNat (d.take 8)) (Word.bit q.cdw10 3) then .error stResvConflict
  else match Word.fld q.cdw10 2 0 with
  | 0 =>
    if n.rtype = 0 then .ok (set n, [])
    else if resvHolds n host && n.rtype = t then .ok (n, [])
    else .error stResvConflict
  | 1 | 2 =>
    let out (n : Ns) (gone : Registrant → Bool) : List Nat := (n.regs.filter gone).map (·.hostId)
    let named (r : Registrant) : Bool := r.key = pr && r.hostId ≠ host
    let all (r : Registrant) : Bool := r.hostId ≠ host
    let bumpGen (m : Ns) : Ns := { m with rgen := n.rgen + 1 }
    if n.rtype = 0 then .ok (bumpGen (dropRegs n named), out n named)
    else if 5 ≤ n.rtype then
      (if pr = 0 then .ok (bumpGen (set (dropRegs n all)), out n all)
       else if n.regs.any named then .ok (bumpGen (dropRegs n named), out n named) else .error stResvConflict)
    else
      let hk : Option Nat := match n.holder with
        | some h => (regOf n h).map (·.key)
        | none => none
      if hk = some pr then .ok (bumpGen (set (dropRegs n named)), out n named)
      else if n.regs.any named then .ok (bumpGen (dropRegs n named), out n named)
      else .error stResvConflict
  | _ => .error stInvalidField

/-- The namespace after a Reservation Release. -/
def resvRelease (n : Ns) (host : Nat) (q : Sqe) (d : List Byte) : Except Status Ns :=
  if !keyMatches n host (leNat (d.take 8)) (Word.bit q.cdw10 3) then .error stResvConflict
  else match Word.fld q.cdw10 2 0 with
  | 0 =>
    if n.rtype = 0 || !resvHolds n host then .ok n
    else if n.rtype ≠ Word.fld q.cdw10 15 8 then .error stInvalidField
    else .ok { n with rtype := 0, holder := none }
  | 1 => .ok { n with regs := [], rtype := 0, holder := none, rgen := n.rgen + 1 }
  | _ => .error stInvalidField

/-- Store a namespace's changed reservation state: it is journalled, and the command completes after that (R631). -/
def resvDone (s : State) (c : CmdId) (nsid : Nat) (n : Ns) : State := completeMeta (journalNs (setNs s nsid n) nsid) c

def execReservationRegister (c : CmdId) (s : State) : Out :=
  finMedia (nvmCmd s c 0x0D fun x n => match resvRegister n (ctrlOf s c.mid).hostId c.mid x.sqe x.data with
    | .ok m => resvDone s c x.nsid m
    | .error st => complete s c st)

/-- The report of Reservation Report, in the short or the extended form. -/
def resvReport (n : Ns) (ext : Bool) : List Byte :=
  let holds (r : Registrant) : Nat := (n.rtype ≠ 0 && resvHolds n r.hostId : Bool).toNat
  let h := leBytes 4 n.rgen ++ leBytes 1 n.rtype ++ leBytes 2 n.regs.length ++ leBytes 2 0 ++ leBytes 1 n.ptpl.toNat ++ List.replicate 14 0
  if ext then h ++ List.replicate 40 0 ++ (n.regs.map fun r =>
    leBytes 2 r.mid ++ leBytes 1 (holds r) ++ List.replicate 5 0 ++ leBytes 8 r.key ++ leBytes 16 r.hostId ++ List.replicate 32 0).flatten
  else h ++ (n.regs.map fun r => leBytes 2 r.mid ++ leBytes 1 (holds r) ++ List.replicate 5 0 ++ leBytes 8 r.hostId ++ leBytes 8 r.key).flatten

def execReservationReport (c : CmdId) (s : State) : Out :=
  fin (nvmCmd s c 0x0E fun x n =>
    let d := resvReport n (Word.bit x.sqe.cdw11 0)
    let k := (x.sqe.cdw10.toNat + 1) * 4
    completeData s c (d.take k ++ List.replicate (k - d.length) 0))

/-! ### Abort and Resume Queue -/

/-- What Abort does with its target (R117, R406): none where the target is not aborted. -/
def abortTarget (s : State) (x : Ctx) : Option State :=
  let early := x.stage = .fetched || x.stage = .ready || x.stage = .waitBuf || x.stage = .dataIn
  let exec := s.grv.execs.any fun e => e.cmd = x.id
  if x.admin || x.stage = .done || (x.sqe.opc = 0x00 && x.nsid = 0xFFFFFFFF) then none
  else if exec then
    some (match s.grv.execs.find? fun e => e.cmd = x.id with
      | some e => if e.engine.isSome then progAbort s x.id else complete (progAbort s x.id) x.id stAborted
      | none => s)
  else
    let nvm := match nsOf s x.nsid with
      | some n => n.kind = .nvm
      | none => false
    if nvm && x.sqe.opc = 0x00 then none
    else if early || x.stage = .reading || (nvm && x.sqe.opc = 0x02 && x.stage = .waitClose) then
      let ladder := s.ldc.cws.any fun y => match y.purpose with
        | .cmd d _ => d = x.id
        | _ => false
      let s := if ladder then bump s 0x1A 0x13C 1 else s
      let s := { dropCws s x.id false with bpm := { (dropCws s x.id false).bpm with waiters := (dropCws s x.id false).bpm.waiters.filter fun w => w.purpose ≠ .cmd x.id } }
      some (complete (ctxUpd s x.id fun y => { y with data := [], moved := false, want := [] }) x.id stAborted)
    else none

/-- Abort the commands of preempted hosts on a namespace. -/
def abortHosts (s : State) (nsid : Nat) (hosts : List Nat) : State :=
  (s.hqe.ctxs.filter fun x => x.nsid = nsid && hosts.contains (ctrlOf s x.id.mid).hostId).foldl (fun s x => (abortTarget s x).getD s) s

def execReservationAcquire (c : CmdId) (s : State) : Out :=
  finMedia (nvmCmd s c 0x11 fun x n => match resvAcquire n (ctrlOf s c.mid).hostId x.sqe x.data with
    | .ok (m, gone) =>
      let s := if Word.fld x.sqe.cdw10 2 0 = 2 then abortHosts s x.nsid gone else s
      resvDone s c x.nsid m
    | .error st => complete s c st)

def execReservationRelease (c : CmdId) (s : State) : Out :=
  finMedia (nvmCmd s c 0x15 fun x n => match resvRelease n (ctrlOf s c.mid).hostId x.sqe x.data with
    | .ok m => resvDone s c x.nsid m
    | .error st => complete s c st)

/-- ABORT (R87, R117). -/
def abortCmd (s : State) (c : CmdId) : State :=
  onCmd s c true 0x08 fun x =>
    let before := countOf (fun y => y.id.mid = c.mid && y.admin && y.sqe.opc = 0x08 && y.id ≠ c) (s.hqe.ctxs.takeWhile fun y => y.id ≠ c)
    if 8 ≤ before then complete s c ⟨1, 0x03⟩
    else match ctxOf s ⟨c.mid, Word.fld x.sqe.cdw10 15 0, Word.fld x.sqe.cdw10 31 16⟩ with
      | none => complete s c stOk 1
      | some t => match abortTarget s t with
        | some s => complete s c stOk 0
        | none => complete s c stOk 1

def execAbort (c : CmdId) (s : State) : Out := finMedia (abortCmd s c)

/-- RESUME_QUEUE (R97, R116): a restart head from the first restartable entry up to the tail; the command waits until every command fetched from the SQ
has posted its completion. A second one for an SQ on which one waits is out of sequence (DESIGN CHOICE, entry 110). -/
def resumeQueue (s : State) (c : CmdId) : State :=
  onCmd s c true 0xC4 fun x =>
    let q := Word.fld x.sqe.cdw10 15 0
    let h := Word.fld x.sqe.cdw11 15 0
    match sqOf s c.mid q with
    | none => complete s c stInvalidField
    | some k =>
      let first := if k.st = .frozen then (k.latch + k.size - 1) % k.size else k.latch
      let span := (k.tail + k.size - first) % k.size
      if q = 0 || k.st = .active || k.size ≤ h || span < (h + k.size - first) % k.size then complete s c stInvalidField
      else if k.resume.isSome then complete s c stSequence
      else resumeCheck (ctxUpd (setSq s c.mid q { k with resume := some (c, h) }) c fun y => { y with stage := .waiting }) c.mid q

def execResumeQueue (c : CmdId) (s : State) : Out := fin (resumeQueue s c)

end Sys2Proof.Machine
end

