-- ==== Sys2Proof/Machine/HqeAdmin.lean ====
section
/-! DEFINITION. Admin commands of a controller (R86 to R89, R100, R113, R120 to R123, R173, R215, R234, R235, R288, R342, R464, R468, R474, R539, R563, R573,
R617): queues, Identify, log pages and features. -/

namespace Sys2Proof.Machine

/-! ### Queues -/

/-- MSI-X vectors of a function (R64). -/
def msixVectors (mid : Nat) : Nat := if mid % 64 = 0 then 2048 else 64

/-- A controller's allotment (R88). -/
def allotOf (s : State) (mid : Nat) : Nat := rdF s 0x0D (0x1800 + 4 * mid) 12 0

/-- I/O queues of the device (HQE_Q_USED), and I/O SQs of a controller (QALLOT.USED). -/
def ioSqs (s : State) : Nat := countOf (fun q => q.1 % 65536 ≠ 0) s.hqe.sqs
def ioCqs (s : State) : Nat := countOf (fun q => q.1 % 65536 ≠ 0) s.hqe.cqs
def fnSqs (s : State) (mid : Nat) : Nat := countOf (fun q => q.1 / 65536 = mid && q.1 % 65536 ≠ 0) s.hqe.sqs

/-- CREATE_IO_CQ (R88, R89). -/
def createCq (s : State) (c : CmdId) : State :=
  onCmd s c true 0x05 fun x =>
    let q := Word.fld x.sqe.cdw10 15 0
    let n := Word.fld x.sqe.cdw10 31 16 + 1
    let v := Word.fld x.sqe.cdw11 31 16
    if q = 0 || allotOf s c.mid < q || (cqOf s c.mid q).isSome || 16384 ≤ ioCqs s then complete s c ⟨1, 0x01⟩
    else if n < 2 then complete s c ⟨1, 0x02⟩
    else if !Word.bit x.sqe.cdw11 0 then complete s c stInvalidField
    else if msixVectors c.mid ≤ v then complete s c ⟨1, 0x08⟩
    else complete (setCq s c.mid q { size := n, vector := v, ien := Word.bit x.sqe.cdw11 1, base := x.sqe.prp1 }) c stOk

def execCreateIoCq (c : CmdId) (s : State) : Out := fin (createCq s c)

/-- CREATE_IO_SQ (R88, R89, R113). -/
def createSq (s : State) (c : CmdId) : State :=
  onCmd s c true 0x01 fun x =>
    let q := Word.fld x.sqe.cdw10 15 0
    let n := Word.fld x.sqe.cdw10 31 16 + 1
    let cq := Word.fld x.sqe.cdw11 31 16
    if q = 0 || allotOf s c.mid < q || (sqOf s c.mid q).isSome || 16384 ≤ ioSqs s then complete s c ⟨1, 0x01⟩
    else if n < 2 then complete s c ⟨1, 0x02⟩
    else if !Word.bit x.sqe.cdw11 0 then complete s c stInvalidField
    else if cq = 0 || (cqOf s c.mid cq).isNone then complete s c ⟨1, 0x00⟩
    else complete (setSq s c.mid q { size := n, prio := Word.fld x.sqe.cdw11 2 1, cq := cq, base := x.sqe.prp1 }) c stOk

def execCreateIoSq (c : CmdId) (s : State) : Out := fin (createSq s c)

/-- DELETE_IO_SQ (R88, R97, R113, R116, R406): its commands end without completions, and its ordering setting and its latch go. -/
def deleteSq (s : State) (c : CmdId) : State :=
  onCmd s c true 0x00 fun x =>
    let q := Word.fld x.sqe.cdw10 15 0
    match sqOf s c.mid q with
    | none => complete s c ⟨1, 0x01⟩
    | some k =>
      if q = 0 then complete s c ⟨1, 0x01⟩
      else
        let s := dropFetch s c.mid q
        let s := setSq s c.mid q { k with resume := none }
        let s := (sqCtxs s c.mid q).foldl ctxEnd s
        let s := { s with hqe := { s.hqe with sqs := Tbl.del s.hqe.sqs (qKey c.mid q) } }
        let s := if k.st = .active then s else setCtrl s c.mid { ctrlOf s c.mid with c2hGen := (ctrlOf s c.mid).c2hGen + 1 }
        let s := match k.resume with
          | some (r, _) => complete s r stAborted
          | none => s
        complete s c stOk

def execDeleteIoSq (c : CmdId) (s : State) : Out := finMedia (deleteSq s c)

/-- DELETE_IO_CQ (R89). -/
def deleteCq (s : State) (c : CmdId) : State :=
  onCmd s c true 0x04 fun x =>
    let q := Word.fld x.sqe.cdw10 15 0
    if q = 0 || (cqOf s c.mid q).isNone then complete s c ⟨1, 0x01⟩
    else if (sqsOf s c.mid).any fun k => k.2.cq = q then complete s c ⟨1, 0x0C⟩
    else complete { s with hqe := { s.hqe with cqs := Tbl.del s.hqe.cqs (qKey c.mid q) } } c stOk

def execDeleteIoCq (c : CmdId) (s : State) : Out := fin (deleteCq s c)

/-! ### Identify -/

/-- A structure of n bytes from its fields, in ascending order of their offsets; bytes between fields are zero. -/
def layFields (n : Nat) (l : List (Nat × List Byte)) : List Byte :=
  let b := l.foldl (fun (b : List Byte) (f : Nat × List Byte) => b ++ List.replicate (f.1 - b.length) 0 ++ f.2) []
  (b ++ List.replicate (n - b.length) 0).take n

/-- The revision in a slot's manifest; zero where the slot holds none that passes its format check (R539). -/
def slotRevision (s : State) (k : Nat) : List Byte :=
  if manifestOk (manifestOf s k) then manRevision (manifestOf s k) else List.replicate 8 0

/-- Power state descriptors (R463): maximum power in units of 0.01 W, NOPS, latencies. -/
def powerStates : List Byte :=
  ([(32000, 0, 0, 0), (20000, 0, 1000, 1000), (12000, 0, 1000, 1000), (3000, 2, 1000, 2000), (1200, 2, 131000, 110000)].map fun (p : Nat × Nat × Nat × Nat) =>
    leBytes 2 p.1 ++ leBytes 1 0 ++ leBytes 1 p.2.1 ++ leBytes 4 p.2.2.1 ++ leBytes 4 p.2.2.2 ++ List.replicate 20 0).flatten

/-- Identify Controller (R1, R86, R87, R94, R105, R173, R215, R401, R463, R483, R539, R617). `sn`: the serial and model numbers, whose text this part does not
state. -/
def identifyCtrl (s : State) (mid : Nat) (sn : List Byte) : List Byte :=
  let hmb (n : Nat) : Nat := if mid = mgmtPf s then n else 0
  layFields 4096 [
    (0, leBytes 2 0x1F3D), (2, leBytes 2 (Word.fld s.ten.saved.subsys 15 0)), (4, sn), (64, slotRevision s s.graft.running), (77, leBytes 1 9), (78, leBytes 2 mid)
    , (88, leBytes 4 2000000), (96, leBytes 4 0x80010), (111, leBytes 1 1), (256, leBytes 2 0x0E), (258, leBytes 1 7), (259, leBytes 1 7), (260, leBytes 1 4), (263, leBytes 1 4), (265, leBytes 1 1)
    , (266, leBytes 2 368), (268, leBytes 2 378), (272, leBytes 4 (hmb 16777216)), (276, leBytes 4 (hmb 262144)), (319, leBytes 1 1), (332, leBytes 4 (hmb 512))
    , (336, leBytes 2 (hmb 1024)), (340, leBytes 2 512), (512, leBytes 1 0x66), (513, leBytes 1 0x44), (516, leBytes 4 (if s.dev.dormant then 0 else 4096)), (520, leBytes 2 0xFF)
    , (522, leBytes 2 0), (525, leBytes 1 (s.hqe.vwc.toNat + 6)), (536, leBytes 4 0x90001), (2048, powerStates), (3072, leBytes 4 (rd s 0x40 0x10C).toNat)]

/-- Identify Namespace (R105, R134, R136, R154, R155, R215). -/
def identifyNs (s : State) (n : Ns) : List Byte :=
  layFields 4096 [
    (0, leBytes 8 n.lbas), (8, leBytes 8 n.lbas), (16, leBytes 8 (if n.kind = .nvm then nuse s n else 0)), (25, leBytes 1 1), (26, leBytes 1 n.lbaf)
    , (30, leBytes 1 (n.sharers ≠ [] : Bool).toNat), (31, leBytes 1 0x7F), (33, leBytes 1 1), (102, leBytes 2 (n.owner + 1)), (128, leBytes 4 (12 * 65536)), (132, leBytes 4 (9 * 65536))]

/-- A list of identifiers of `w` bytes each, in 4,096 bytes. -/
def idList (w : Nat) (l : List Nat) : List Byte := layFields 4096 [(0, ((l.take (4096 / w)).map (leBytes w)).flatten)]

/-- IDENTIFY (R87). -/
def identify (s : State) (c : CmdId) : State :=
  onCmd s c true 0x06 fun x =>
    let id := x.sqe.nsid
    let ids (f : Ns → Bool) : List Nat := (s.ten.nss.filter fun n => id < n.1 && f n.2).map (·.1)
    match Word.fld x.sqe.cdw10 7 0 with
    | 0x00 => match nsOf s id with
      | some n => completeData s c (if n.attached.contains c.mid then identifyNs s n else List.replicate 4096 0)
      | none => if id = 0xFFFFFFFF then completeData s c (identifyNs s {}) else if id = 0 || 4096 < id then complete s c stInvalidNs else completeData s c (List.replicate 4096 0)
    | 0x01 =>
      let (b, s) := freeBytes s 60
      completeData s c (identifyCtrl s c.mid b)
    | 0x02 => completeData s c (idList 4 (ids fun n => n.attached.contains c.mid))
    | 0x10 => completeData s c (idList 4 (ids fun _ => true))
    | 0x11 => match nsOf s id with
      | some n => completeData s c (identifyNs s n)
      | none => complete s c stInvalidNs
    | 0x12 => match nsOf s id with
      | some n =>
        let l := n.attached.filter (Word.fld x.sqe.cdw10 31 16 ≤ ·)
        completeData s c (idList 2 (l.length :: l))
      | none => complete s c stInvalidNs
    | 0x13 =>
      let l := (List.range 512).filter fun m => fnPresent s m && Word.fld x.sqe.cdw10 31 16 ≤ m
      completeData s c (idList 2 (l.length :: l))
    | _ => complete s c stInvalidField

def execIdentify (c : CmdId) (s : State) : Out := fin (identify s c)

/-! ### Asynchronous events -/

/-- ASYNC_EVENT_REQUEST (R87, R573): the ninth one outstanding is refused. -/
def asyncEvent (s : State) (c : CmdId) : State :=
  onCmd s c true 0x0C fun _ =>
    let k := ctrlOf s c.mid
    if 8 ≤ k.aers.length then complete s c ⟨1, 0x05⟩
    else ctxUpd (setCtrl s c.mid { k with aers := k.aers ++ [c.cid] }) c fun y => { y with stage := .waiting }

def execAsyncEventRequest (c : CmdId) (s : State) : Out := fin (asyncEvent s c)

/-! ### Log pages -/

/-- Run a Get Log Page of one page. -/
def onLog (s : State) (c : CmdId) (lid : Nat) (f : Ctx → State) : State :=
  onCmd s c true 0x02 fun x => if Word.fld x.sqe.cdw10 7 0 = lid then f x else s

/-- Dies present in die sets, and the lowest present width. -/
def diesInSets (s : State) : Nat := sumOf (fun d => d.2.present) s.cpc.dsets
def lowWidth (s : State) : Nat := match s.cpc.dsets.map fun d => d.2.present with
  | [] => 0
  | h :: t => t.foldl min h

/-- Dies that answered and are in service. -/
def diesPresent (s : State) : List Nat := (s.flash.dies.filter fun d => d.2.st = .present || d.2.st = .ready).map (·.1)

/-- Dies that identification or training excluded. -/
def diesExcluded (s : State) : List Nat := (s.flash.dies.filter fun d => d.2.st = .incompat || d.2.st = .failedTrain).map (·.1)

/-- Log page C0h (R235). The dies that R253 says it counts are among those outside any die set. -/
def logC0 (s : State) : List Byte :=
  let c := s.cpc
  let k (i : Nat) : Nat := Tbl.getD c.fcount i 0
  let inSet (d : Nat) : Bool := c.dsets.any fun e => e.2.members.any fun m => m.1 = d
  layFields 512 [
    (0, leBytes 2 1), (2, leBytes 1 (devState s)), (3, leBytes 1 c.readOnly), (4, leBytes 2 (diesPresent s).length), (6, leBytes 2 c.retiredDies.length)
    , (8, leBytes 2 c.dsets.length), (10, leBytes 1 (cpcWidth s)), (11, leBytes 1 (lowWidth s)), (12, leBytes 4 c.bad.length), (16, leBytes 4 c.grown.length), (20, leBytes 4 (k 0))
    , (24, leBytes 4 (k 1)), (28, leBytes 4 (spareLeft s)), (32, leBytes 4 c.spareInit), (36, leBytes 4 (ecMin s)), (40, leBytes 4 (ecAvg s)), (44, leBytes 4 (ecMax s))
    , (48, leBytes 2 (rdF s 0x0F 0x108 31 16)), (50, leBytes 2 (countOf (fun d => !inSet d) (diesPresent s ++ diesExcluded s))), (52, leBytes 4 c.rebuild.length), (56, leBytes 8 c.hostMus)
    , (64, leBytes 8 c.cwProg), (72, leBytes 8 c.relocMus), (80, leBytes 8 c.padSlots), (88, leBytes 8 c.refreshed), (96, leBytes 8 c.flushMus), (104, leBytes 8 (k 2))
    , (112, leBytes 8 (k 3)), (120, leBytes 8 (k 4)), (128, leBytes 8 s.hqe.mediaErrors), (136, leBytes 8 c.uncorrSet), (144, leBytes 4 s.ftl.leavesRebuilt)
    , (152, ((List.range 16).map fun i => leBytes 4 (Tbl.getD c.tempHist i 0)).flatten), (216, leBytes 2 c.hourIdx)
    , (224, ((List.range 72).map fun i => leBytes 2 (Tbl.getD c.hourly i (0, 0)).1 ++ leBytes 2 (Tbl.getD c.hourly i (0, 0)).2).flatten)]

def execGetLogPageC0h (c : CmdId) (s : State) : Out := fin (onLog s c 0xC0 fun x => logPart s c x.sqe (logC0 s))

/-- An entry of log page C2h (R123). -/
def c2hEntry (q : Nat × Sq) : List Byte :=
  let k := q.2
  leBytes 2 q.1 ++ leBytes 1 (if k.st = .frozen then 2 else 1) ++ leBytes 1 k.reason ++ leBytes 2 k.latch ++ leBytes 2 (if k.reason = 1 then k.doorbell else k.tail)
    ++ leBytes 2 k.cidFault ++ leBytes 2 k.stFault ++ leBytes 2 k.aborted ++ leBytes 2 0 ++ leBytes 8 k.frag ++ leBytes 8 (k.opsec % 2 ^ 40)

/-- Log page C2h: the controller's own SQs. -/
def logC2 (s : State) (mid : Nat) : List Byte :=
  let l := (sqsOf s mid).filter fun q => q.2.st ≠ .active
  leBytes 8 (ctrlOf s mid).c2hGen ++ leBytes 4 l.length ++ List.replicate 20 0 ++ (l.map c2hEntry).flatten

def execGetLogPageC2h (c : CmdId) (s : State) : Out := fin (onLog s c 0xC2 fun x => logPart s c x.sqe (logC2 s c.mid))

/-- GET_LOG_PAGE_C3H (R562, R563). -/
def getLogC3 (s : State) (c : CmdId) : State :=
  onLog s c 0xC3 fun x =>
    if fnTenant s c.mid ≠ 0 then complete s c ⟨1, 0x09⟩
    else match ringsLog s c.mid (Word.bit x.sqe.cdw10 8) (cdw64 x.sqe.cdw12 x.sqe.cdw13) (numd x.sqe) with
      | (.ok b, s) => completeData s c b
      | (.error st, s) => complete s c st

def execGetLogPageC3h (c : CmdId) (s : State) : Out := fin (getLogC3 s c)

/-- CSTATE as PWR_STS reports it (R446). -/
def cstateCode (c : CState) : Nat := match c with
  | .off => 0 | .softStart => 1 | .charging => 2 | .protected_ => 3 | .flush => 4 | .bleed => 5

/-- Log page C4h (R474). -/
def logC4 (s : State) : List Byte :=
  let p := s.pwr
  layFields 512 [
    (0, leBytes 2 1), (2, leBytes 1 (cstateCode p.cstate)), (3, leBytes 1 ((p.cause = 0 : Bool).toNat + p.cause * 16)), (4, leBytes 4 p.c), (8, leBytes 2 p.esr)
    , (10, leBytes 2 (vsetMv s)), (12, leBytes 2 (vstopMv s)), (14, leBytes 2 p.vhold), (16, leBytes 4 (eUse s)), (20, leBytes 4 (grantMib s)), (24, leBytes 4 (wbShare s))
    , (28, leBytes 4 (winShare s)), (32, leBytes 4 (wbUsed s / 2 ^ 20)), (36, leBytes 4 (dirtyCount s / 16)), (40, leBytes 4 (commitMj s)), (44, leBytes 2 (flushFixed s / 10))
    , (46, leBytes 2 (flushPerGib s / 10)), (48, leBytes 8 p.lastMeasRtc), (56, leBytes 4 p.meas), (60, leBytes 4 p.flushes), (64, leBytes 1 p.lastFlush), (68, leBytes 4 p.last.dur)
    , (72, leBytes 8 p.last.musDone), (80, leBytes 4 p.last.gransDone), (84, leBytes 4 p.lastUncorr), (88, leBytes 4 p.lastGransLost), (92, leBytes 4 p.last.vhold)
    , (128, ((p.history.take 8).map fun h => leBytes 8 h.1 ++ leBytes 4 h.2.1 ++ leBytes 2 h.2.2 ++ leBytes 2 0).flatten)]

def execGetLogPageC4h (c : CmdId) (s : State) : Out := fin (onLog s c 0xC4 fun x => logPart s c x.sqe (logC4 s))

/-- Log page C5h for a tenant (R342). -/
def logC5 (s : State) (t : Nat) : List Byte :=
  let w := s.win
  let all : List (Nat × List Byte) := if t ≠ 0 then [] else [
    (4, leBytes 4 (countOf (sliceEn s) (List.range (sliceCount s)))), (8, leBytes 4 (dirtyCap s)), (12, leBytes 4 (dirtyCount s))
    , (16, leBytes 4 (countOf (fun g => g.2.st = .trickling) w.grans)), (20, leBytes 4 (restoreLeft s)), (24, leBytes 8 w.trickled)
    , (32, leBytes 8 w.poison.length), (40, leBytes 4 w.dsc), (44, leBytes 4 w.sf.length), (48, leBytes 4 w.forced), (52, leBytes 4 w.tmos), (56, leBytes 8 w.holds)]
  let l := layoutNow s t
  layFields 512 ([(0, leBytes 2 1), (2, leBytes 1 w.state)] ++ all ++ [
    (64, leBytes 2 t), (68, leBytes 4 l.per.length), (72, leBytes 4 l.vol.length)
    , (76, leBytes 4 (tenDirty s t)), (80, leBytes 4 (countOf (fun e => e.2.tenant = t) w.sf))])

def execGetLogPageC5h (c : CmdId) (s : State) : Out :=
  fin (onLog s c 0xC5 fun x => logPart s c x.sqe (logC5 s (fnTenant s c.mid)))

/-- The temperatures of the sensors by TMPSEL in kelvin (R617): composite, 1, 2, 3. A sensor that has not reported yet reads 0. -/
def temps (s : State) : List Nat := [rdF s 0x00 0x118 15 0, rdF s 0x00 0x118 15 0, s.pwr.conv, s.aon.temp]

/-- Critical Warning bit 1 of a controller (R617). -/
def tempWarns (s : State) (c : Ctrl) : Bool :=
  (List.range 4).any fun i =>
    let t := (temps s).getD i 0
    t ≠ 0 && (c.overK.getD i 378 < t || t < c.underK.getD i 268)

/-- Critical Warning (R111, R233, R234, R617). -/
def critWarn (s : State) (c : Ctrl) : Nat :=
  (s.cpc.dsets ≠ [] && availSpare s < rdF s 0x0F 0x148 15 8 : Bool).toNat + (tempWarns s c).toNat * 2
    + (s.cpc.lost || s.cpc.retiredDies ≠ [] : Bool).toNat * 4 + (s.cpc.readOnly ≠ 0 : Bool).toNat * 8 + s.hqe.vwc.toNat * 16

/-- Bit 1 of Critical Warning is evaluated: a change raises a SMART / Health event on the controllers that enable it (R617). -/
def tempSettle (s : State) : State :=
  let w := s.hqe.ctrls.any fun c => tempWarns s c.2
  if w = s.hqe.warmed then s else raiseSmart { s with hqe := { s.hqe with warmed := w } } 1 1

/-- SMART / Health Information (R234, R617). Busy time and unsafe shutdowns, which this part does not define, are free: `f`. -/
def logSmart (s : State) (mid : Nat) (f : List Byte) : List Byte :=
  let t := temps s
  layFields 512 [
    (0, leBytes 1 (critWarn s (ctrlOf s mid))), (1, leBytes 2 (t.getD 0 0)), (3, leBytes 1 (availSpare s)), (4, leBytes 1 (rdF s 0x0F 0x148 15 8)), (5, leBytes 1 (pctUsed s))
    , (32, leBytes 16 (ceilDiv s.hqe.unitsRead 512000)), (48, leBytes 16 (ceilDiv s.hqe.unitsWritten 512000)), (64, leBytes 16 s.hqe.readCmds), (80, leBytes 16 s.hqe.writeCmds)
    , (96, f.take 16), (112, leBytes 16 s.aon.pwrcyc), (128, leBytes 16 (s.dev.opsec / 3600)), (144, (f.drop 16).take 16), (160, leBytes 16 s.hqe.mediaErrors)
    , (176, leBytes 16 s.hqe.errLog.length), (192, leBytes 4 s.dev.warnMin), (196, leBytes 4 s.dev.critMin), (200, leBytes 2 (t.getD 1 0) ++ leBytes 2 (t.getD 2 0) ++ leBytes 2 (t.getD 3 0))]

def execGetLogPageSmart (c : CmdId) (s : State) : Out :=
  fin (onLog s c 0x02 fun x =>
    let (f, s) := freeBytes s 32
    logPart s c x.sqe (logSmart s c.mid f))

/-- The slot committed for the next reset (R539, R544): the other slot, if it holds a COMMIT ticket that counts. -/
def nextSlot (s : State) : Nat :=
  let k := otherSlot s.graft.running
  if (ticketsOf s k).any fun t => t.typ = 1 then k + 1 else 0

/-- Firmware Slot Information (R539). Slots are numbered from 1. -/
def logFwSlot (s : State) : List Byte :=
  layFields 512 [(0, leBytes 1 (s.graft.running + 1 + nextSlot s * 16)), (8, slotRevision s 0), (16, slotRevision s 1)]

def execGetLogPageFwSlot (c : CmdId) (s : State) : Out := fin (onLog s c 0x03 fun x => logPart s c x.sqe (logFwSlot s))

/-! ### Features -/

/-- Run a Set Features or a Get Features of one feature. A feature that is not saveable refuses SV. -/
def onSet (s : State) (c : CmdId) (fid : Nat) (saveable : Bool) (f : Ctx → State) : State :=
  onCmd s c true 0x09 fun x =>
    if Word.fld x.sqe.cdw10 7 0 ≠ fid then s else if Word.bit x.sqe.cdw10 31 && !saveable then complete s c ⟨1, 0x0D⟩ else f x

def onGet (s : State) (c : CmdId) (fid : Nat) (f : Ctx → State) : State :=
  onCmd s c true 0x0A fun x => if Word.fld x.sqe.cdw10 7 0 = fid then f x else s

/-- SET_FEATURES_NUMBER_OF_QUEUES (R88): NSQA and NCQA, 0's based. An allotment of 0, which they cannot express, is returned as 0 (DESIGN CHOICE, entry 111). -/
def execSetFeaturesNumberOfQueues (c : CmdId) (s : State) : Out :=
  fin (onSet s c 0x07 false fun _ => complete s c stOk ((allotOf s c.mid - 1) * 65537))

/-- SET_FEATURES_ARBITRATION (R100). -/
def execSetFeaturesArbitration (c : CmdId) (s : State) : Out :=
  fin (onSet s c 0x01 false fun x => complete (setCtrl s c.mid { ctrlOf s c.mid with arb := x.sqe.cdw11 &&& 0xFFFFFF07 }) c stOk)

/-- SET_FEATURES_ORDERED_QUEUE (R113). -/
def setOrdered (s : State) (c : CmdId) : State :=
  onSet s c 0xC1 false fun x =>
    let q := Word.fld x.sqe.cdw11 15 0
    match sqOf s c.mid q with
    | none => complete s c stInvalidField
    | some k =>
      let busy := sqCtxs s c.mid q ≠ [] || entriesDue s c.mid q
      if q = 0 then complete s c stInvalidField
      else if busy || k.st ≠ .active then complete s c stSequence
      else complete (setSq s c.mid q { k with ordered := Word.bit x.sqe.cdw11 16 }) c stOk

def execSetFeaturesOrderedQueue (c : CmdId) (s : State) : Out := fin (setOrdered s c)

/-- GET_FEATURES_ORDERED_QUEUE (R113). -/
def execGetFeaturesOrderedQueue (c : CmdId) (s : State) : Out :=
  fin (onGet s c 0xC1 fun x => match sqOf s c.mid (Word.fld x.sqe.cdw11 15 0) with
    | some k => if Word.fld x.sqe.cdw11 15 0 = 0 then complete s c stInvalidField else complete s c stOk k.ordered.toNat
    | none => complete s c stInvalidField)

/-- SET_FEATURES_URGENT_BUDGET (R120). -/
def execSetFeaturesUrgentBudget (c : CmdId) (s : State) : Out :=
  fin (onSet s c 0xC2 false fun x =>
    if fnTenant s c.mid ≠ 0 || Word.fld x.sqe.cdw12 31 24 = 0 then complete s c stInvalidField
    else complete (wr s 0x0D (0x2008 + 32 * Word.fld x.sqe.cdw11 8 0) x.sqe.cdw12) c stOk)

/-- GET_FEATURES_URGENT_BUDGET (R120). -/
def execGetFeaturesUrgentBudget (c : CmdId) (s : State) : Out :=
  fin (onGet s c 0xC2 fun x =>
    let t := if fnTenant s c.mid = 0 then Word.fld x.sqe.cdw11 8 0 else fnTenant s c.mid
    completeData s c (leBytes 4 (urgRate s t) ++ leBytes 1 (urgBurst s t) ++ leBytes 3 0 ++ leBytes 8 (rd s 0x0D (0x2010 + 32 * t)).toNat))

/-- Byte i of a pair of dwords. -/
def cdwByte (a b : Word) (i : Nat) : Nat := cdw64 a b / 256 ^ i % 256

/-- SET_FEATURES_PORT_WEIGHTS (R121): all of them or none. The status for another function is Invalid Field (DESIGN CHOICE, entry 112). -/
def execSetFeaturesPortWeights (c : CmdId) (s : State) : Out :=
  fin (onSet s c 0xC4 false fun x =>
    let w := (List.range 8).map (cdwByte x.sqe.cdw11 x.sqe.cdw12)
    if c.mid ≠ mgmtPf s || w.contains 0 then complete s c stInvalidField
    else complete ((List.range 8).foldl (fun s p => wr s 0x0D (0x1000 + 16 * p) (w32 (w.getD p 1))) s) c stOk)

/-- GET_FEATURES_PORT_WEIGHTS (R121). -/
def execGetFeaturesPortWeights (c : CmdId) (s : State) : Out :=
  fin (onGet s c 0xC4 fun _ =>
    let dw (k : Nat) : Nat := sumOf (fun i => portWeight s (4 * k + i) * 256 ^ i) (List.range 4)
    complete s c stOk (dw 0) (dw 1))

/-- SET_FEATURES_HOST_MEMORY_BUFFER (R173, R175): the descriptor list that the host's memory holds is given by the sizes of its buffers in 4 KiB pages. -/
def setHmb (s : State) (c : CmdId) (sizes : List Nat) : State :=
  onSet s c 0x0D false fun x =>
    if Word.bit x.sqe.cdw11 0 then
      if c.mid ≠ mgmtPf s || sizes.sum < 262144 then complete s c stInvalidField
      else
        let mem := (sizes.foldl (fun (a : Nat × List (Nat × Nat)) n => (a.1 + 4 * n, a.2 ++ [(a.1, 4 * n)])) (0, [])).2
        let s := { s with ftl := { s.ftl with hmbMem := mem } }
        complete (setCtrl (wrF s 0x0E 0x148 0 0 1) c.mid { ctrlOf s c.mid with hmbOn := true }) c stOk
    else if c.mid ≠ mgmtPf s then complete s c stOk
    else complete (setCtrl (wrF (hmbDrop s) 0x0E 0x148 0 0 0) c.mid { ctrlOf s c.mid with hmbOn := false }) c stOk

def execSetFeaturesHostMemoryBuffer (c : CmdId) (sizes : List Nat) (s : State) : Out := finMedia (setHmb s c sizes)

/-- The TLER entry of a namespace (R300). -/
def tlerOff (nsid : Nat) : Nat := 0x1000 + 4 * (nsid - 1)

/-- SET_FEATURES_ERROR_RECOVERY (R288). -/
def setTler (s : State) (c : CmdId) : State :=
  onSet s c 0x05 true fun x =>
    let put (s : State) (k : Nat) : State :=
      let s := wr s 0x1A (tlerOff k) (w32 (Word.fld x.sqe.cdw11 15 0))
      if Word.bit x.sqe.cdw10 31 then { s with ten := { s.ten with savedTler := Tbl.put s.ten.savedTler k (w32 (Word.fld x.sqe.cdw11 15 0)) } } else s
    if Word.bit x.sqe.cdw11 16 then complete s c stInvalidField
    else if x.sqe.nsid = 0xFFFFFFFF then complete (((s.ten.nss.filter fun n => n.2.attached.contains c.mid).map (·.1)).foldl put s) c stOk
    else match nsOf s x.sqe.nsid with
      | some n => if n.attached.contains c.mid then complete (put s x.sqe.nsid) c stOk else complete s c stInvalidNs
      | none => complete s c stInvalidNs

def execSetFeaturesErrorRecovery (c : CmdId) (s : State) : Out := fin (setTler s c)

/-- GET_FEATURES_ERROR_RECOVERY (R87, R288, R300): current, default, saved, and what the feature supports (saveable, per namespace, changeable). -/
def execGetFeaturesErrorRecovery (c : CmdId) (s : State) : Out :=
  fin (onGet s c 0x05 fun x => match nsOf s x.sqe.nsid with
    | none => complete s c stInvalidNs
    | some n =>
      if !n.attached.contains c.mid then complete s c stInvalidNs
      else match Word.fld x.sqe.cdw10 10 8 with
      | 0 => complete s c stOk (rdF s 0x1A (tlerOff x.sqe.nsid) 15 0)
      | 1 => complete s c stOk 0
      | 2 => complete s c stOk (Tbl.getD s.ten.savedTler x.sqe.nsid 0).toNat
      | 3 => complete s c stOk 7
      | _ => complete s c stInvalidField)

/-- SET_FEATURES_POWER_MANAGEMENT (R463, R464). -/
def execSetFeaturesPowerManagement (c : CmdId) (s : State) : Out :=
  fin (onSet s c 0x02 false fun x =>
    let p := Word.fld x.sqe.cdw11 4 0
    if 4 < p then complete s c stInvalidField
    else
      let k := ctrlOf s c.mid
      complete (psSettle (setCtrl s c.mid { k with psReq := p, psLast := if p < 3 then p else k.psLast })) c stOk)

/-- SET_FEATURES_FDP (R215): of an endurance group that has no namespace; its identifier is its tenant plus 1. -/
def execSetFeaturesFdp (c : CmdId) (s : State) : Out :=
  fin (onSet s c 0x1D false fun x =>
    let g := Word.fld x.sqe.cdw11 15 0
    if g = 0 || 512 < g || Word.fld x.sqe.cdw12 15 8 ≠ 0 || (fnTenant s c.mid ≠ 0 && fnTenant s c.mid ≠ g - 1) then complete s c stInvalidField
    else if ownsNs s (g - 1) then complete s c stSequence
    else complete { s with ten := { s.ten with fdp := Tbl.put s.ten.fdp (g - 1) (Word.bit x.sqe.cdw12 0) } } c stOk)

/-- Replace element i of a list. -/
def setAt (l : List Nat) (i v : Nat) : List Nat := (l.take i) ++ (if i < l.length then v :: l.drop (i + 1) else [])

/-- SET_FEATURES_TEMP_THRESHOLD (R617): TMPSEL 0 to 3, over- or under-threshold. -/
def execSetFeaturesTempThreshold (c : CmdId) (s : State) : Out :=
  fin (onSet s c 0x04 false fun x =>
    let k := Word.fld x.sqe.cdw11 19 16
    let t := Word.fld x.sqe.cdw11 15 0
    let v := ctrlOf s c.mid
    if 4 ≤ k || 2 ≤ Word.fld x.sqe.cdw11 21 20 then complete s c stInvalidField
    else
      let v := if Word.fld x.sqe.cdw11 21 20 = 0 then { v with overK := setAt v.overK k t } else { v with underK := setAt v.underK k t }
      tempSettle (complete (setCtrl s c.mid v) c stOk))

/-- SET_FEATURES_TIMESTAMP (R468): milliseconds. The first one on PF0 of the management port sets the RTC; any other is kept for its controller as an offset from
the RTC. -/
def setTimestamp (s : State) (c : CmdId) : State :=
  onSet s c 0x0E false fun x =>
    let ms := leNat (x.data.take 6)
    let k := { ctrlOf s c.mid with tsSet := true }
    if c.mid = mgmtPf s && !s.aon.rtcValid then
      complete (setCtrl { s with dev := { s.dev with rtc := ms / 1000 }, aon := { s.aon with rtcValid := true } } c.mid { k with tsOff := 0 }) c stOk
    else complete (setCtrl s c.mid { k with tsOff := (ms + 2 ^ 48 - s.dev.rtc * 1000 % 2 ^ 48) % 2 ^ 48 }) c stOk

def execSetFeaturesTimestamp (c : CmdId) (s : State) : Out := fin (setTimestamp s c)

end Sys2Proof.Machine
end

