-- ==== Sys2Proof/Machine/Tenancy.lean ====
section
/-! DEFINITION. Tenancy (R88, R98, R125, R128, R130 to R136, R144, R403, R405, R407, R414): Tenant Configure, and the register writes that follow the
same rules. -/

namespace Sys2Proof.Machine

/-! ### Tenant Configure -/

/-- Tenant Configure commands take effect one at a time, in the order of their fetch (R132). -/
def tcFirst (s : State) (c : CmdId) : Bool :=
  match s.hqe.ctxs.find? fun x => x.admin && x.sqe.opc = 0xC9 && x.stage ≠ .done with
  | some x => x.id = c
  | none => false

/-- Every argument lies within its field (R107, R133): the bits each dword may use. -/
def tcFits (q : Sqe) (a b c d : Word) : Bool :=
  q.cdw10 &&& 0x7FFFFF00 = 0 && q.cdw11 &&& ~~~a = 0 && q.cdw12 &&& ~~~b = 0 && q.cdw13 &&& ~~~c = 0 && q.cdw14 &&& ~~~d = 0

/-- Run a Tenant Configure of one operation. -/
def onTc (s : State) (c : CmdId) (op : Nat) (fits : Sqe → Bool) (f : Ctx → State) : State :=
  onCmd s c true 0xC9 fun x =>
    if Word.fld x.sqe.cdw10 7 0 ≠ op || !tcFirst s c then s else if !fits x.sqe then complete s c stInvalidField else f x

/-- With SV = 1 the new values also go to the settings schema (R132). -/
def tcSave (s : State) (q : Sqe) (f : TenSettings → TenSettings) : State :=
  if Word.bit q.cdw10 31 then settingsSync { s with ten := { s.ten with saved := f s.ten.saved } } else s

/-- A register that the settings schema keeps. -/
def keepReg (rgn off : Nat) (v : Word) (t : TenSettings) : TenSettings := { t with regs := Tbl.put t.regs (regKey rgn off) v }

/-! ### Bindings -/

/-- The register of a function's tenant. -/
def fnTenantOff (mid : Nat) : Nat := 0x2000 + 4 * mid

/-- The controller of a function is enabled, ready, holds a context or has a namespace attached (R133). -/
def fnBusy (s : State) (mid : Nat) : Bool :=
  (ctrlOf s mid).en || (ctrlOf s mid).rdy || (ctxUses s).any (fun u => u.2.1 = mid) || s.ten.nss.any fun n => n.2.attached.contains mid

/-- TENANT_BIND_FUNCTION (R130, R132, R133). -/
def bindFunction (s : State) (c : CmdId) : State :=
  onTc s c 0x01 (tcFits · 0x1FF 0x1FF 0 0) fun x =>
    let m := Word.fld x.sqe.cdw11 8 0
    let t := Word.fld x.sqe.cdw12 8 0
    if m = mgmtPf s then complete s c stInvalidField
    else if fnBusy s m then complete s c stSequence
    else complete (tcSave (wr s 0x01 (fnTenantOff m) (w32 t)) x.sqe fun v => { v with fnTenant := Tbl.put v.fnTenant m t }) c stOk

def execTenantBindFunction (c : CmdId) (s : State) : Out := fin (bindFunction s c)

/-- TRK_FN_TENANT_WRITE (R130): PF0 of the management port keeps tenant 0. -/
def execTrkFnTenantWrite (who : Who) (mid : Fin 512) (v : Word) (s : State) : Out :=
  fin (onWrite s who 0x01 (fnTenantOff mid) v fun s =>
    if mid.val = mgmtPf s && Word.fld v 8 0 ≠ 0 then s else wr s 0x01 (fnTenantOff mid) (v &&& 0x1FF))

/-! ### Allotments and host limits -/

/-- An allotment keeps the rules of R88 and R125: at most 4,096, at least the queues created, and within what the device has left. -/
def allotOk (s : State) (mid v : Nat) : Bool := v ≤ 4096 && fnSqs s mid ≤ v && v - fnSqs s mid ≤ 16384 - ioSqs s

/-- The register of an allotment. -/
def allotOff (mid : Nat) : Nat := 0x1800 + 4 * mid

/-- TENANT_QUEUE_ALLOTMENT (R88, R132, R133). -/
def queueAllotment (s : State) (c : CmdId) : State :=
  onTc s c 0x02 (tcFits · 0x1FF 0x1FFF 0 0) fun x =>
    let m := Word.fld x.sqe.cdw11 8 0
    let v := Word.fld x.sqe.cdw12 12 0
    if !allotOk s m v then complete s c stInvalidField
    else complete (tcSave (wr s 0x0D (allotOff m) (w32 v)) x.sqe (keepReg 0x0D (allotOff m) (w32 v))) c stOk

def execTenantQueueAllotment (c : CmdId) (s : State) : Out := fin (queueAllotment s c)

/-- HQE_FN_QALLOT_WRITE (R88, R125, R127). -/
def execHqeFnQallotWrite (who : Who) (mid : Fin 512) (v : Word) (s : State) : Out :=
  fin (onWrite s who 0x0D (allotOff mid) v fun s =>
    if allotOk s mid (Word.fld v 12 0) then wr s 0x0D (allotOff mid) (v &&& 0x1FFF) else blockErr s 0x0D 16 0)

/-- The tenant table of HQE (R128). -/
def tenOff (t word : Nat) : Nat := 0x2000 + 32 * t + 4 * word

/-- Store a new CTX_MIN if the sum over the tenants stays within 49,152 (R98); else CTX_RANGE, and nothing is stored. -/
def putCtxMin (s : State) (t v : Nat) : Bool × State :=
  if ctxMinSum s - ctxMin s t + v ≤ 49152 then (true, noteCtxLow s (wr s 0x0D (tenOff t 0) (w32 v))) else (false, blockErr s 0x0D 17 0)

/-- TENANT_HOST_LIMITS (R98, R128, R132, R133). -/
def hostLimits (s : State) (c : CmdId) : State :=
  onTc s c 0x03 (tcFits · 0x1FF 0xFFFF 0x1FFFF 0xFFFFFFFF) fun x =>
    let t := Word.fld x.sqe.cdw11 8 0
    let mn := Word.fld x.sqe.cdw12 15 0
    let cap := Word.fld x.sqe.cdw13 16 0
    if cap = 0 || 65536 < cap || Word.fld x.sqe.cdw14 31 24 = 0 || 49152 < mn || cap < mn then complete s c stInvalidField
    else match putCtxMin s t mn with
      | (false, s) => complete s c stInvalidField
      | (true, s) =>
        let s := wr (wr s 0x0D (tenOff t 1) (w32 cap)) 0x0D (tenOff t 2) x.sqe.cdw14
        complete (tcSave s x.sqe fun v =>
          keepReg 0x0D (tenOff t 2) x.sqe.cdw14 (keepReg 0x0D (tenOff t 1) (w32 cap) (keepReg 0x0D (tenOff t 0) (w32 mn) v))) c stOk

def execTenantHostLimits (c : CmdId) (s : State) : Out := fin (hostLimits s c)

/-- HQE_TENANT_TABLE_WRITE (R9, R98, R128): CTX_MIN, CTX_CAP or the urgent budget. -/
def tenantTableWrite (s : State) (t word : Nat) (v : Word) : State :=
  match word with
  | 0 => (putCtxMin s t (Word.fld v 15 0)).2
  | 1 => if Word.fld v 16 0 = 0 || 65536 < Word.fld v 16 0 then s else wr s 0x0D (tenOff t 1) (v &&& 0x1FFFF)
  | _ => wr s 0x0D (tenOff t 2) (if Word.fld v 31 24 = 0 then Word.setFld v 31 24 (urgBurst s t) else v)

def execHqeTenantTableWrite (who : Who) (t : Fin 512) (word : Fin 3) (v : Word) (s : State) : Out :=
  fin (onWrite s who 0x0D (tenOff t word) v fun s => tenantTableWrite s t word v)

/-! ### Pool owners, limits and reserves -/

/-- The owning tenant of a namespace and its sharers (R135). -/
def Ns.party (n : Ns) : List Nat := n.owner :: n.sharers

/-- Why a tenant's pool owner may not change (R133): it shares a namespace with a tenant of another owner, it holds contexts, or one of its engines runs. -/
def ownerRefusal (s : State) (t o : Nat) : Option Status :=
  if s.ten.nss.any fun n => n.2.party.contains t && n.2.party.any fun u => u ≠ t && ownerOf s u ≠ o then some stInvalidField
  else if tenUsed s t ≠ 0 || s.grv.eng.any (fun e => e.2.st = .running && e.2.tenant = t) then some stSequence
  else none

/-- The register of a tenant's pool owner. -/
def ownerOff (t : Nat) : Nat := 0x3400 + 4 * t

/-- Move a tenant to another owner (R133, R152): the Canopy evicts its leaves from the old owner's chunks, a clean leaf now and a dirty one after its writeback. -/
def moveOwner (s : State) (t o : Nat) : State := if ownerOf s t = o then s else evictStale (wr s 0xC (ownerOff t) (w32 o))

/-- Leaves of a tenant's namespaces are still in chunks of an owner that the tenant has left. -/
def ownerLeft (s : State) (t : Nat) : Bool := s.ftl.frames.any fun p => leafTenant s p.2.leaf = t && p.2.owner ≠ ownerOf s t

/-- TENANT_POOL_OWNER (R132, R133, R135): it waits for the eviction, and the row then acts again. -/
def poolOwner (s : State) (c : CmdId) : State :=
  onTc s c 0x04 (tcFits · 0x1FF 0x3F 0 0) fun x =>
    let t := Word.fld x.sqe.cdw11 8 0
    let o := Word.fld x.sqe.cdw12 5 0
    if x.jmark.isSome then (if ownerLeft s t then evictStale s else complete s c stOk)
    else match ownerRefusal s t o with
    | some st => complete s c st
    | none =>
      let s := tcSave (moveOwner s t o) x.sqe (keepReg 0xC (ownerOff t) (w32 o))
      if ownerLeft s t then ctxUpd s c fun y => { y with jmark := some 0 } else complete s c stOk

def execTenantPoolOwner (c : CmdId) (s : State) : Out := finMedia (poolOwner s c)

/-- BPM_TEN_OWNER_WRITE (R152): the conditions of OP 04h. Where they fail it is not stored and records RSV_RANGE; the eviction follows the write. -/
def tenOwnerWrite (s : State) (t : Nat) (v : Word) : State :=
  match ownerRefusal s t (Word.fld v 5 0) with
  | some _ => blockErr s 0xC 17 0
  | none => moveOwner s t (Word.fld v 5 0)

def execBpmTenOwnerWrite (who : Who) (tenant : Fin 512) (v : Word) (s : State) : Out :=
  finMedia (onWrite s who 0xC (ownerOff tenant) v fun s => tenOwnerWrite s tenant v)

/-- TENANT_POOL_LIMITS (R132, R133, R144, R146). -/
def poolLimits (s : State) (c : CmdId) : State :=
  onTc s c 0x05 (tcFits · 0x73F 0xFFFFFFF 0xFFFFFFF 0) fun x =>
    let o := Word.fld x.sqe.cdw11 5 0
    let k := Word.fld x.sqe.cdw11 10 8
    let mn := x.sqe.cdw12
    let cap := x.sqe.cdw13
    let t := wr (wr s 0xC (minOff o k) mn) 0xC (minOff o k + 4) cap
    if 6 ≤ k || cap.toNat < mn.toNat then complete s c stInvalidField
    else if !rsvOk t then complete (blockErr s 0xC 17 0) c stInvalidField
    else
      let t := limitsChanged s t
      complete (tcSave t x.sqe fun v => keepReg 0xC (minOff o k + 4) cap (keepReg 0xC (minOff o k) mn v)) c stOk

def execTenantPoolLimits (c : CmdId) (s : State) : Out := finMedia (poolLimits s c)

/-- TENANT_INTERNAL_RESERVE (R132, R133, R144). -/
def internalReserve (s : State) (c : CmdId) : State :=
  onTc s c 0x06 (tcFits · 0x3F 0x3FFFFF 0 0) fun x =>
    let o := Word.fld x.sqe.cdw11 5 0
    let t := wr s 0xC (irsvOff o) x.sqe.cdw12
    if !rsvOk t then complete (blockErr s 0xC 17 0) c stInvalidField
    else complete (tcSave (limitsChanged s t) x.sqe (keepReg 0xC (irsvOff o) x.sqe.cdw12)) c stOk

def execTenantInternalReserve (c : CmdId) (s : State) : Out := finMedia (internalReserve s c)

/-! ### Namespaces -/

/-- The address of an SLM block (R405). -/
def slmBlockAddr (s : State) (k : Nat) : Nat := slmBase s 0 + k * 2 ^ 24

/-- Firmware writes the tag of an SLM block in every grove that takes it (R405, R412). -/
def slmTagAll (s : State) (k : Nat) (t : Option Nat) : State :=
  let h := match t with
    | some t => t + 2 ^ 15
    | none => 0
  (List.range 16).foldl (fun s g =>
    if refusesRegs s (0x40 + g) then s
    else wrF s (0x40 + g) (0x3000 + 4 * (k / 2)) (k % 2 * 16 + 15) (k % 2 * 16) h) s

/-- Firmware invalidates SLM blocks, so that they read zero (R362, R405). -/
def slmClear (s : State) (l : List Nat) : State :=
  l.foldl (fun s k => unwriteGranules s ((slmBlockAddr s k - dramBase) / 65536) 256) s

/-- TENANT_NAMESPACE_OWNER (R132 to R135, R405, R631). -/
def namespaceOwner (s : State) (c : CmdId) : State :=
  onTc s c 0x07 (tcFits · 0xFFFFFFFF 0x1FF 0 0) fun x =>
    let id := x.sqe.cdw11.toNat
    let t := Word.fld x.sqe.cdw12 8 0
    match nsOf s id with
    | none => complete s c stInvalidNs
    | some n =>
      if n.attached ≠ [] || (n.kind = .nvm && nuse s n ≠ 0) then complete s c stSequence
      else if n.sharers.any fun u => u ≠ t && ownerOf s u ≠ ownerOf s t then complete s c stInvalidField
      else
        let s := noteShort s (setNs s id { n with owner := t, sharers := n.sharers.filter (· ≠ t) }) t
        let s := if n.owner = t then s else n.blocks.foldl (fun s k => slmTagAll s k (some t)) (slmClear s n.blocks)
        completeMeta (journalNs (tcSave s x.sqe fun v => { v with
          nsOwner := Tbl.put v.nsOwner id t, nsShare := Tbl.adj v.nsShare id (·.filter (· ≠ t)) }) id) c

def execTenantNamespaceOwner (c : CmdId) (s : State) : Out := finMedia (namespaceOwner s c)

/-- A grant or a revocation in a list of sharers. -/
def shareChange (owner t : Nat) (grant : Bool) (l : List Nat) : List Nat :=
  if !grant then l.filter (· ≠ t) else if t = owner || l.contains t then l else l ++ [t]

/-- TENANT_NAMESPACE_SHARE (R132 to R136, R631): a grant to the owner or to a sharer changes nothing. With SV = 1 the settings schema takes this change
alone. -/
def namespaceShare (s : State) (c : CmdId) : State :=
  onTc s c 0x08 (tcFits · 0xFFFFFFFF 0x1FF 1 0) fun x =>
    let id := x.sqe.cdw11.toNat
    let t := Word.fld x.sqe.cdw12 8 0
    match nsOf s id with
    | none => complete s c stInvalidNs
    | some n =>
      let g := Word.bit x.sqe.cdw13 0
      if g && (ownerOf s t ≠ ownerOf s n.owner || 15 ≤ n.sharers.length) then complete s c stInvalidField
      else if !g && n.attached.any fun m => fnTenant s m = t then complete s c stSequence
      else
        let s := setNs s id { n with sharers := shareChange n.owner t g n.sharers }
        completeMeta (journalNs (tcSave s x.sqe fun v => { v with
          nsShare := Tbl.put v.nsShare id (shareChange n.owner t g (Tbl.getD v.nsShare id [])) }) id) c

def execTenantNamespaceShare (c : CmdId) (s : State) : Out := finMedia (namespaceShare s c)

/-! ### Key slots -/

/-- Two ranges of slots meet. -/
def rangesMeet (a n b m : Nat) : Bool := 0 < n && 0 < m && a < b + m && b < a + n

/-- TENANT_KEY_SLOTS (R132, R133, R414): a loaded slot whose tenant changes is zeroed. -/
def keySlots (s : State) (c : CmdId) : State :=
  onTc s c 0x09 (tcFits · 0x1FF 0xFFF 0x1FFF 0x1FFFF) fun x =>
    let t := Word.fld x.sqe.cdw11 8 0
    let l := [Word.fld x.sqe.cdw12 11 0, Word.fld x.sqe.cdw13 12 0, Word.fld x.sqe.cdw14 7 0, Word.fld x.sqe.cdw14 16 8]
    let g (r : List Nat) (i : Nat) : Nat := r.getD i 0
    if 4096 < g l 0 + g l 1 || 256 < g l 2 + g l 3
        || s.ten.keySlots.any (fun p => p.1 ≠ t && (rangesMeet (g l 0) (g l 1) (g p.2 0) (g p.2 1) || rangesMeet (g l 2) (g l 3) (g p.2 2) (g p.2 3))) then
      complete s c stInvalidField
    else
      let v := { s with ten := { s.ten with keySlots := Tbl.put s.ten.keySlots t l } }
      if s.sec.bind.any fun b => xtsTenant s b.2 ≠ xtsTenant v b.2 then complete s c stSequence
      else
        let v := { v with sec := { v.sec with
          xts := v.sec.xts.filter fun p => xtsTenant s p.1 = xtsTenant v p.1
          gcm := v.sec.gcm.filter fun p => gcmTenant s p.1 = gcmTenant v p.1 } }
        complete (tcSave v x.sqe fun w => { w with keySlots := Tbl.put w.keySlots t l }) c stOk

def execTenantKeySlots (c : CmdId) (s : State) : Out := fin (keySlots s c)

/-! ### Engines -/

/-- The tenant that an engine's ASSIGN register names. -/
def engAssigned (s : State) (e : Nat) : Option Nat :=
  let w := rd s (engRgn e) (0x1008 + 64 * (e % 16))
  if Word.bit w 15 then some (Word.fld w 8 0) else none

/-- TENANT_ENGINE_ASSIGNMENT (R132, R133, R403, R407): the row acts once, and again until the scrubs of the engines that leave have ended. -/
def engineAssignment (s : State) (c : CmdId) : State :=
  onTc s c 0x0A (tcFits · 0x1FF 0 0 0) fun x =>
    let t := Word.fld x.sqe.cdw11 8 0
    let map := leNat (x.data.take 32)
    let leaving (s : State) : Bool := s.grv.eng.any fun e => e.2.st = .scrubbing && e.2.tenant = t && e.2.leaving
    let want := (List.range 256).filter map.testBit
    let out := (List.range 256).filter fun e => inSet s e t && !map.testBit e
    if x.jmark.isSome then (if leaving s then s else complete s c stOk)
    else if (want.any fun e => match engAssigned s e with
        | some u => u ≠ t
        | none => !isReady s (engRgn e)) || out.any (fun e => (engOf s e).st = .running) then complete s c stSequence
    else
      let s := out.foldl (fun s e => (assignEngine s e none).getD s) s
      let s := (want.filter fun e => !inSet s e t).foldl (fun s e => (assignEngine s e (some t)).getD s) s
      let s := tcSave (ctxUpd s c fun y => { y with jmark := some 0 }) x.sqe fun v => { v with engines := Tbl.put v.engines t want }
      if leaving s then s else complete s c stOk

def execTenantEngineAssignment (c : CmdId) (s : State) : Out := finMedia (engineAssignment s c)

/-! ### Window slices -/

/-- The register of a window slice. -/
def sliceOff (k : Nat) : Nat := 0x1000 + 8 * k

/-- TENANT_WINDOW_SLICES (R132, R133, R301, R407): the range becomes the tenant's; slices that leave it go to tenant 0. A slice whose tenant changes must
not be mapped, and its lines are recalled. -/
def windowSlices (s : State) (c : CmdId) : State :=
  onTc s c 0x0B (tcFits · 0x1FF 0x1FF 0x3FF 0) fun x =>
    let t := Word.fld x.sqe.cdw11 8 0
    let a := Word.fld x.sqe.cdw12 8 0
    let n := Word.fld x.sqe.cdw13 9 0
    let inR (k : Nat) : Bool := a ≤ k && k < a + n
    let move := (List.range (sliceCount s)).filter fun k => (inR k && sliceTen s k ≠ t) || (!inR k && t ≠ 0 && sliceTen s k = t)
    if sliceCount s < a + n || move.any (fun k => inR k && sliceTen s k ≠ 0) then complete s c stInvalidField
    else if move.any (sliceMapped s) then complete s c stSequence
    else
      let s := move.foldl (fun s k => wr (winRecallSlice s k) 0x18 (sliceOff k) (Word.setFld (sliceWord s k) 10 2 (if inR k then t else 0))) s
      complete (tcSave s x.sqe fun v => { v with slices := (List.range (sliceCount s)).foldl (fun l k =>
        if inR k then Tbl.put l k t else if Tbl.find l k = some t && t ≠ 0 then Tbl.put l k 0 else l) v.slices }) c stOk

def execTenantWindowSlices (c : CmdId) (s : State) : Out := finMedia (windowSlices s c)

/-- TENANT_CLEAR_WINDOW_SLICES (R132, R133, R310, R324, R362): it waits for the trickles of the slices' granules, and the row then acts again. -/
def clearWindowSlices (s : State) (c : CmdId) : State :=
  onTc s c 0x0C (tcFits · 0x1FF 0x3FF 0 0) fun x =>
    let a := Word.fld x.sqe.cdw11 8 0
    let n := Word.fld x.sqe.cdw12 9 0
    let l := (List.range n).map (a + ·)
    if sliceCount s < a + n then complete s c stInvalidField
    else if l.any (sliceMapped s) then complete s c stSequence
    else
      let s := l.foldl winRecallSlice s
      if s.win.grans.any fun g => g.2.st = .trickling && l.contains (granSlice g.1) then s
      else complete (l.foldl sliceReset s) c stOk

def execTenantClearWindowSlices (c : CmdId) (s : State) : Out := finMedia (clearWindowSlices s c)

end Sys2Proof.Machine
end

