-- ==== Sys2Proof/Machine/NsAdmin.lean ====
section
/-! DEFINITION. Namespace Management, Namespace Attachment and Format NVM (R134, R154 to R156, R182, R403, R405, R418, R631). -/

namespace Sys2Proof.Machine

/-! ### Creation -/

/-- Mapping units of a namespace of some LBAs, and root entries for them (R154, R155). -/
def leavesFor (lbas lbaf : Nat) : Nat := ceilDiv (if lbaf = 0 then lbas else ceilDiv lbas 8) 2048

/-- Root entry r is free. -/
def rootFree (s : State) (a n : Nat) : Bool := !(s.ten.nss.any fun p => rangesMeet a n p.2.leafBase p.2.leafCount)

/-- The lowest free range of n root entries (R155): it starts at 0 or where a namespace's range ends. -/
def freeRoots (s : State) (n : Nat) : Option Nat :=
  let l := (0 :: s.ten.nss.map fun p => p.2.leafBase + p.2.leafCount).filter fun a => a + n ≤ rdEntries s && rootFree s a n
  match l with
  | [] => none
  | h :: t => some (t.foldl min h)

/-- The lowest free run of n SLM blocks (R405). -/
def freeBlocks (s : State) (n : Nat) : Option (List Nat) :=
  let used := s.ten.nss.flatMap fun p => p.2.blocks
  let run (a : Nat) : List Nat := (List.range n).map (a + ·)
  ((List.range (slmBlocks s 0 + 1 - n)).find? fun a => (run a).all fun k => !used.contains k).map run

/-- The lowest free namespace identifier (R134). -/
def freeNsid (s : State) : Option Nat := ((List.range 4096).map (· + 1)).find? fun k => (nsOf s k).isNone

/-- NAMESPACE_MGMT_CREATE (R134, R154, R155, R403, R405, R631): the namespace belongs to tenant 0, every MU reads as deallocated, and the identifier is in
dword 0. CDW11[31:24] is the command set: 0 NVM, 3 Subsystem Local Memory (its size in bytes), 4 Computational Programs. -/
def nsCreate (s : State) (c : CmdId) : State :=
  onCmd s c true 0x0D fun x =>
    if Word.fld x.sqe.cdw10 3 0 ≠ 0 then s
    else
      let size := leNat (x.data.take 8)
      let fmt := leNat ((x.data.drop 26).take 1) % 16
      match freeNsid s with
      | none => complete s c ⟨1, 0x16⟩
      | some id =>
        let made (s : State) (n : Ns) : State :=
          completeMeta (journalNs (noteShort s (wr (setNs s id n) 0x1A (tlerOff id) 0) n.owner) id) c id
        match Word.fld x.sqe.cdw11 31 24 with
        | 0 =>
          if size = 0 then complete s c stInvalidField
          else if 1 < fmt then complete s c ⟨1, 0x0A⟩
          else match freeRoots s (leavesFor size fmt) with
            | none => complete s c ⟨1, 0x15⟩
            | some a =>
              let s := (List.range (leavesFor size fmt)).foldl (fun s k => setRoot s (a + k) {}) s
              made s { lbas := size, lbaf := fmt, leafBase := a, leafCount := leavesFor size fmt }
        | 3 =>
          if size = 0 then complete s c stInvalidField
          else match freeBlocks s (ceilDiv size (2 ^ 24)) with
            | none => complete s c ⟨1, 0x15⟩
            | some l => made (l.foldl (fun s k => slmTagAll s k (some 0)) (slmClear s l)) { kind := .memory, lbas := size, blocks := l }
        | 4 => made s { kind := .compute }
        | _ => complete s c stInvalidField

def execNamespaceMgmtCreate (c : CmdId) (s : State) : Out := finMedia (nsCreate s c)

/-! ### Deletion -/

/-- Something still addresses a namespace that is being deleted (R155, R407): a command other than the deletion, or a stream. -/
def nsInUse (s : State) (nsid : Nat) (c : CmdId) : Bool :=
  s.hqe.ctxs.any (fun x => x.nsid = nsid && x.id ≠ c) || s.grv.eng.any fun e => e.2.streams.any fun k => k.2.nsid = nsid && k.2.typ = .lbaIn

/-- Forget what belongs to a namespace besides its map (R403, R405, R418). -/
def nsForget (s : State) (nsid : Nat) (n : Ns) : State :=
  let s := (s.grv.progs.filter fun p => p.1 / 64 = nsid).foldl (fun s p => p.2.bufs.foldl bpmFree s) s
  let s := n.blocks.foldl (fun s k => slmTagAll s k none) (slmClear s n.blocks)
  let s := wr s 0x1A (tlerOff nsid) 0
  settingsSync { s with
    sec := { s.sec with bind := Tbl.del s.sec.bind (nsid - 1) }
    grv := { s.grv with progs := s.grv.progs.filter fun p => p.1 / 64 ≠ nsid, rsets := s.grv.rsets.filter fun p => p.1 / 65536 ≠ nsid }
    ten := { s.ten with
      nss := Tbl.del s.ten.nss nsid
      savedTler := Tbl.del s.ten.savedTler nsid
      saved := { s.ten.saved with nsOwner := Tbl.del s.ten.saved.nsOwner nsid, nsShare := Tbl.del s.ten.saved.nsShare nsid } } }

/-- The deletion of a namespace goes on (R155, R182): once nothing addresses it, its range is returned, its frames and descriptors are dropped, and one
TRIM covers the whole of it. A record that would stall at the checkpoint limit keeps the deletion waiting (R187). -/
def nsDeleteGo (s : State) (nsid : Nat) : State :=
  match nsOf s nsid with
  | none => s
  | some n => match n.deleting with
    | none => s
    | some c =>
      if nsInUse s nsid c || (n.leafCount ≠ 0 && jStalled s) then s
      else
        let q := s.ftl.wseq
        let s := { s with ftl := { s.ftl with wseq := q + 1 } }
        let s := deallocate s .trim (n.leafBase * 2048) (n.leafCount * 2048) q
        let s := journalNs (nsForget s nsid n) nsid
        if s.ten.nss.any fun p => p.2.deleting = some c then s else completeMeta s c

/-- A command begins to delete a namespace that nothing deletes yet. -/
def nsDoom (s : State) (c : CmdId) (nsid : Nat) : State := match nsOf s nsid with
  | some n => if n.deleting.isNone then setNs s nsid { n with deleting := some c } else s
  | none => s

/-- NAMESPACE_MGMT_DELETE (R155): one namespace, or every one for NSID FFFFFFFFh. -/
def nsDelete (s : State) (c : CmdId) : State :=
  onCmd s c true 0x0D fun x =>
    if Word.fld x.sqe.cdw10 3 0 ≠ 1 then s
    else if x.sqe.nsid = 0xFFFFFFFF then
      let l := (s.ten.nss.filter fun p => p.2.deleting.isNone).map (·.1)
      if l = [] then complete s c stOk
      else l.foldl nsDeleteGo (l.foldl (nsDoom · c) (ctxUpd s c fun y => { y with stage := .waiting }))
    else match nsOf s x.sqe.nsid with
      | none => complete s c stInvalidNs
      | some n =>
        if n.deleting.isSome then complete s c stInvalidNs
        else nsDeleteGo (ctxUpd (nsDoom s c x.sqe.nsid) c fun y => { y with stage := .waiting }) x.sqe.nsid

def execNamespaceMgmtDelete (c : CmdId) (s : State) : Out := finMedia (nsDelete s c)

def execNamespaceDeleteResume (nsid : Nat) (s : State) : Out := finMedia (nsDeleteGo s nsid)

/-! ### Attachment -/

/-- The identifiers of a controller list: a count of 16 bits, then that many. -/
def ctrlList (d : List Byte) : List Nat :=
  (List.range (leNat (d.take 2))).map fun i => leNat ((d.drop (2 + 2 * i)).take 2)

/-- NAMESPACE_ATTACHMENT (R134): attach (0) only to controllers of the owner or of sharers, detach (1); all of the list or none of it. -/
def nsAttach (s : State) (c : CmdId) : State :=
  onCmd s c true 0x15 fun x =>
    match nsOf s x.sqe.nsid with
    | none => complete s c stInvalidNs
    | some n =>
      let l := (ctrlList x.data).eraseDups
      let sel := Word.fld x.sqe.cdw10 3 0
      if l = [] || 2047 < leNat (x.data.take 2) || l.any (fun m => 511 < m || !fnPresent s m) then complete s c ⟨2, 0x1C⟩
      else if sel = 0 then
        if n.deleting.isSome then complete s c stInvalidNs
        else if l.any fun m => !n.party.contains (fnTenant s m) then complete s c ⟨2, 0x1C⟩
        else if l.any n.attached.contains then complete s c ⟨1, 0x18⟩
        else complete (setNs s x.sqe.nsid { n with attached := (List.range 512).filter fun m => n.attached.contains m || l.contains m }) c stOk
      else if sel = 1 then
        if !(l.all n.attached.contains) then complete s c ⟨1, 0x1A⟩
        else complete (setNs s x.sqe.nsid { n with attached := n.attached.filter fun m => !l.contains m }) c stOk
      else complete s c stInvalidField

def execNamespaceAttachment (c : CmdId) (s : State) : Out := fin (nsAttach s c)

/-! ### Format -/

/-- A fresh key for the slot of a namespace (R418): CUR is replaced and PREV is zeroed. It fails where the DRBG does, or its output is not a key (R426). -/
def formatKey (s : State) (k : Nat) : Option State :=
  if !s.sec.drbgOk then none
  else
    let (m, s) := drbgGen (reseed s) 16
    if halvesEqual m then none
    else some (setXts s k { (xtsSlot s k) with cur := m, prev := [], cnt := 0, ref := tenEpoch s (xtsTenant s k), gseq := false, paused := false, limit := false })

/-- An earlier command of the namespace holds a context. -/
def earlierOnNs (s : State) (nsid : Nat) (c : CmdId) : Bool := (s.hqe.ctxs.takeWhile fun x => x.id ≠ c).any fun x => x.nsid = nsid

/-- FORMAT_NVM (R154, R182, R232, R418): the namespace takes the LBA format and every MU is deallocated. The command waits for the earlier
commands of the namespace. -/
def formatNvm (s : State) (c : CmdId) : State :=
  onCmd s c true 0x80 fun x =>
    let id := x.sqe.nsid
    let f := Word.fld x.sqe.cdw10 3 0
    let ses := Word.fld x.sqe.cdw10 11 9
    match nsOf s id with
    | none => complete s c stInvalidNs
    | some n =>
      if n.kind ≠ .nvm || !n.attached.contains c.mid || n.deleting.isSome then complete s c stInvalidNs
      else if 1 < f || Word.fld x.sqe.cdw10 8 4 ≠ 0 then complete s c ⟨1, 0x0A⟩
      else if 2 < ses || (ses = 2 && (nsKey s id).isNone) then complete s c stInvalidField
      else if s.cpc.readOnly ≠ 0 then complete s c stNsWriteProt
      else if earlierOnNs s id c || jStalled s then s
      else match if ses = 2 then formatKey s ((nsKey s id).getD 0) else some s with
        | none => complete s c stInternal
        | some s =>
          let lbas := if n.lbaf = f then n.lbas else if f = 1 then n.lbas * 8 else ceilDiv n.lbas 8
          let q := s.ftl.wseq
          let s := { s with ftl := { s.ftl with wseq := q + 1 }, cpc := { s.cpc with lost := false } }
          let s := deallocate s .trim (n.leafBase * 2048) (n.leafCount * 2048) q
          completeMeta (journalNs (setNs s id { n with lbaf := f, lbas := lbas }) id) c

def execFormatNvm (c : CmdId) (s : State) : Out := finMedia (formatNvm s c)

end Sys2Proof.Machine
end

