-- ==== Sys2Proof/Machine/CtlCmd.lean ====
section
/-! DEFINITION. Controllers: reset, enable, ready and shutdown (R86, R108, R119, R131, R480, R544, R576, R582). -/

namespace Sys2Proof.Machine

/-! ### Reset and enable -/

/-- CONTROLLER_RESET (R58, R73, R77, R119, R576): CC.EN 1 to 0. Queues and commands end, CSTS.RDY reads 0, and containment of the port ends if its link is up. -/
def controllerReset (s : State) (mid : Nat) : State := if (ctrlOf s mid).en then portPump (containEnd (ctrlClear s mid) (mid / 64)) (mid / 64) else s

def execControllerReset (mid : Fin 512) (s : State) : Out := finMedia (controllerReset s mid)

/-- CONTROLLER_ENABLE (R86, R119): CC.EN 0 to 1 with CC.AMS and CC.MPS, and AQA, ASQ and ACQ. The admin queues come from them. -/
def controllerEnable (s : State) (mid : Nat) (ams : Bool) (mps : Nat) (aqa : Word) (asq acq : Nat) : State :=
  if !fnPresent s mid || (ctrlOf s mid).en then s
  else
    let s := setCtrl s mid { ctrlOf s mid with
      en := true, rdy := false, ams := ams, mps := mps, aqa := aqa &&& 0x0FFF0FFF, asq := asq / 4096 * 4096, acq := acq / 4096 * 4096, shn := 0, shst := 0 }
    let s := setSq s mid 0 { size := Word.fld aqa 11 0 + 1, base := asq / 4096 * 4096 }
    setCq s mid 0 { size := Word.fld aqa 27 16 + 1, base := acq / 4096 * 4096 }

def execControllerEnable (mid : Fin 512) (ams : Bool) (mps : Fin 5) (aqa : Word) (asq acq : Nat) (s : State) : Out :=
  fin (controllerEnable s mid ams mps aqa asq acq)

/-! ### Ready -/

/-- Crown firmware detaches a namespace from controllers that its restored bindings no longer admit (R582). -/
def detachStrangers (s : State) : State :=
  s.ten.nss.foldl (fun (s : State) (p : Nat × Ns) =>
    let (stay, go) := p.2.attached.partition fun m => p.2.party.contains (fnTenant s m)
    if go = [] then s
    else go.foldl (fun s m => emitFree s 0x2008 0x00 none (leBytes 4 p.1 ++ leBytes 2 m)) (setNs s p.1 { p.2 with attached := stay })) s

/-- Crown firmware applies the settings schema (R131, R132, R300): bindings, allotments, limits, owners, namespace ownership and sharing, key slots, engines,
slices, and saved error recovery times. A namespace that the schema does not name is tenant 0's. -/
def applySettings (s : State) : State :=
  let v := s.ten.saved
  let s := v.fnTenant.foldl (fun s p => wr s 0x01 (fnTenantOff p.1) (w32 p.2)) s
  let s := v.regs.foldl (fun s p => wr s (p.1 / 65536) (p.1 % 65536) p.2) s
  let s := { s with ten := { s.ten with
    applied := true, keySlots := v.keySlots
    nss := s.ten.nss.map fun (p : Nat × Ns) => (p.1, { p.2 with owner := Tbl.getD v.nsOwner p.1 0, sharers := Tbl.getD v.nsShare p.1 [] }) } }
  let s := s.ten.nss.foldl (fun (s : State) (p : Nat × Ns) => p.2.blocks.foldl (fun s k => slmTagAll s k (some p.2.owner)) s) s
  let s := v.engines.foldl (fun s p => p.2.foldl (fun s e => (assignEngine s e (some p.1)).getD s) s) s
  let s := v.slices.foldl (fun s p => wr s 0x18 (sliceOff p.1) (Word.setFld (sliceWord s p.1) 10 2 p.2)) s
  let s := s.ten.savedTler.foldl (fun s p => wr s 0x1A (tlerOff p.1) p.2) s
  if s.graft.settingsLost then detachStrangers { s with graft := { s.graft with settingsLost := false } } else s

/-- Power-up has got so far that controllers may become ready (R480, R483): Crown firmware runs and DRAM is up, or the device is Dormant. -/
def powerUpDone (s : State) : Bool := s.dev.dormant || (s.dev.crown && dramUp s)

/-- CONTROLLER_READY (R119, R131, R480, R544, R576): CSTS.RDY reads 1. The first controller's readiness ends power-up after `ms` milliseconds from t0; before
it the tenant configuration is applied, and a trial boot writes its READY ticket. In Fault no controller becomes ready. -/
def controllerReady (s : State) (mid ms : Nat) : State :=
  if !(ctrlOf s mid).en || (ctrlOf s mid).rdy || s.dev.fault || !powerUpDone s then s
  else
    let s := if s.ten.applied || s.dev.dormant then s else applySettings s
    let s := if s.dev.ready then s
      else
        let s := wr { s with dev := { s.dev with ready := true } } 0x00 0x11C (w32 (min ms 65535))
        if s.graft.trial then addTicket s s.graft.running 2 (manifestDigest s s.graft.running) else s
    setCtrl s mid { ctrlOf s mid with rdy := true }

def execControllerReady (mid : Fin 512) (ms : Nat) (s : State) : Out := finMedia (controllerReady s mid ms)

/-! ### Shutdown -/

/-- SHUTDOWN_NOTIFICATION (R119): CC.SHN 01b or 10b stops fetching; while VWC reads 1 the buffered writes are closed. -/
def shutdownNotify (s : State) (mid kind : Nat) : State :=
  if !(ctrlOf s mid).en || kind = 0 then s
  else
    let s := setCtrl s mid { ctrlOf s mid with shn := kind, shst := 1 }
    if s.hqe.vwc then forceCover s ((s.ftl.pwt.filter openWrite).map (·.wseq)) else s

def execShutdownNotification (mid : Fin 512) (kind : Fin 3) (s : State) : Out := finMedia (shutdownNotify s mid kind)

/-- SHUTDOWN_COMPLETE (R119): CSTS.SHST reads 10b once every command has posted its completion (outstanding Asynchronous Event Requests stay), and, while VWC
reads 1, every buffered write is closed on NAND. -/
def shutdownComplete (s : State) (mid : Nat) : State :=
  let k := ctrlOf s mid
  let busy := s.hqe.ctxs.any fun x => x.id.mid = mid && !(x.admin && x.sqe.opc = 0x0C && x.stage = .waiting)
  if k.shst ≠ 1 || busy || (s.hqe.vwc && s.ftl.pwt.any openWrite) then s
  else setCtrl s mid { k with shst := 2 }

def execShutdownComplete (mid : Fin 512) (s : State) : Out := fin (shutdownComplete s mid)

end Sys2Proof.Machine
end

