-- ==== Sys2Proof/Machine/Thermal.lean ====
section
/-! DEFINITION. Temperature (R600, R617, R618, R620, R621). -/

namespace Sys2Proof.Machine

/-- A level that is entered at one temperature and left below another. -/
def thermLevel (was : Bool) (t enter leave : Nat) : Bool := if was then leave ≤ t else enter ≤ t

/-- TEMP_SENSOR_SAMPLE (R617, R618): TOP_TEMP and the converter stage in kelvin. Warning from 95 °C until below 90 °C, Critical from 105 °C until below
100 °C. -/
def sensorSample (s : State) (top conv : Nat) : State :=
  let s := wr s 0x00 0x118 (w32 (top % 65536))
  tempSettle { s with pwr := { s.pwr with
    conv := conv, thermWarn := thermLevel s.pwr.thermWarn (top % 65536) 368 363, thermCrit := thermLevel s.pwr.thermCrit (top % 65536) 378 373 } }

def execTempSensorSample (top conv : Nat) (s : State) : Out := fin (sensorSample s top conv)

/-- THERMAL_TRIP (R618, R620, R621): TOP_TEMP has held 115 °C for 1 ms. A flush that runs already goes on. -/
def thermalTrip (s : State) : State :=
  if s.pwr.pl || s.pwr.flush.isSome || s.pwr.cstate = .off || rdF s 0x00 0x118 15 0 < 388 then s
  else powerLoss { s with pwr := { s.pwr with trip := true } } 4 false

def execThermalTrip (s : State) : Out := finMedia (thermalTrip s)

end Sys2Proof.Machine
end

