-- ==== Sys2Proof/Machine/Spdm.lean ====
section
/-! DEFINITION. The SPDM responder (R81, R435 to R437, R564) and NVMe-MI (R576). Message codes are those of DSP0274; what a message carries that this part does
not state is free. -/

namespace Sys2Proof.Machine

/-- The responder serves requests once firmware or the Dormant boot ROM runs (R483, R576). -/
def spdmUp (s : State) : Bool := s.dev.crown || s.dev.dormant

/-- Answer a request: over MCTP as the command's bytes, through DOE in the mailbox of the port, if a request waits there. -/
def spdmAnswer (s : State) (via : Option (Fin 8)) (typ : Nat) (d : List Byte) : State :=
  match via with
  | none => answerBytes s d
  | some p => if (portOf s p).doe.busy then msixFlush (answerBytes (doeReply s p typ d) d) (p * 64) else s

/-- The request can be served: one through DOE has been taken by the mailbox. -/
def spdmHere (s : State) (via : Option (Fin 8)) : Bool := spdmUp s && match via with
  | none => true
  | some p => (portOf s p).doe.busy

/-- A response of a code and a free payload. -/
def spdmMsg (s : State) (via : Option (Fin 8)) (code n : Nat) : State :=
  let (b, s) := freeBytes s n
  spdmAnswer s via 1 (leBytes 1 0x13 ++ leBytes 1 code ++ leBytes 2 0 ++ b)

/-- An ERROR response: 01h invalid request, 05h unspecified, 0Ah session limit exceeded. -/
def spdmError (s : State) (via : Option (Fin 8)) (code : Nat) : State := spdmAnswer s via 1 ([0x13, 0x7F] ++ leBytes 2 code)

/-- A session. -/
def sessionOf (s : State) (id : Nat) : Option SpdmSession := s.sec.sessions.find? fun x => x.id = id

/-- Change a session. -/
def sessionUpd (s : State) (id : Nat) (f : SpdmSession → SpdmSession) : State :=
  { s with sec := { s.sec with sessions := s.sec.sessions.map fun x => if x.id = id then f x else x } }

/-- Load fresh direction keys in the slots of a session (R428, R435): their counts are 0. -/
def sessionKeys (s : State) (l : List Nat) : State :=
  l.foldl (fun s k =>
    let (b, s) := freeBytes s 44
    setGcm s k { key := b.take 32, fixed := (b.drop 32).take 4, mask := beNat (b.drop 36) }) s

/-- A session ends: its slots are zeroed. -/
def sessionEnd (s : State) (id : Nat) : State :=
  match sessionOf s id with
  | none => s
  | some x =>
    let s := x.gcm.foldl (fun s k => setGcm s k {}) s
    { s with sec := { s.sec with sessions := s.sec.sessions.filter fun y => y.id ≠ id } }

/-- Two empty GCM slots of tenant 0 (R435). -/
def freeGcm (s : State) : List Nat := ((List.range 256).filter fun k => gcmTenant s k = 0 && (gcmSlot s k).key = []).take 2

/-- KEY_EXCHANGE (R435): a session of the lowest free identifier, while fewer than 16 are open and two slots are free. -/
def keyExchange (s : State) (via : Option (Fin 8)) : State :=
  let l := freeGcm s
  if 16 ≤ s.sec.sessions.length || l.length < 2 then spdmError s via 0x0A
  else match (List.range 17).find? fun i => (sessionOf s (i + 1)).isNone with
    | none => s
    | some i =>
      let s := sessionKeys { s with sec := { s.sec with sessions := s.sec.sessions ++ [{ id := i + 1, gcm := l }] } } l
      spdmMsg s via 0x64 138

/-- SPDM_REQUEST (R435, R437, R578): signatures and key exchanges need PKE. -/
def spdmRequest (s : State) (via : Option (Fin 8)) (r : SpdmReq) : State :=
  if !spdmHere s via then s
  else
    let inS (id : Nat) (f : State) : State := if (sessionOf s id).isSome then f else spdmError s via 0x01
    match r with
    | .getVersion => spdmAnswer s via 1 [0x10, 0x04, 0, 0, 0, 2, 0, 0x12, 0, 0x13]
    | .getCapabilities => spdmMsg s via 0x61 16
    | .negotiate => spdmMsg s via 0x63 32
    | .getDigests => spdmMsg s via 0x01 48
    | .getCertificate _ => spdmMsg s via 0x02 1024
    | .challenge _ => if blkRetired s 0x0B then spdmError s via 0x05 else spdmMsg s via 0x03 176
    | .keyExchange _ => if blkRetired s 0x0B then spdmError s via 0x05 else keyExchange s via
    | .finish id root =>
      let op := match root with
        | some k => 1 ≤ k.val && s.fus.usable.contains k.val
        | none => false
      inS id (spdmMsg (sessionUpd s id fun x => { x with operator := op, alive := true }) via 0x65 0)
    | .heartbeat id => inS id (spdmMsg (sessionUpd s id fun x => { x with alive := true }) via 0x68 0)
    | .keyUpdate id => match sessionOf s id with
      | some x => spdmMsg (sessionKeys (sessionUpd s id fun y => { y with alive := true }) x.gcm) via 0x69 0
      | none => spdmError s via 0x01
    | .endSession id => inS id (spdmMsg (sessionEnd s id) via 0x6C 0)
    | .keyLimit id => sessionEnd s id
    | .other => spdmError s via 0x01

def execSpdmRequest (via : Option (Fin 8)) (r : SpdmReq) (s : State) : Out := fin (spdmRequest s via r)

/-- SPDM_HEARTBEAT_EXPIRY (R435): a session without a heartbeat for two periods ends. -/
def heartbeatExpiry (s : State) (id : Nat) : State :=
  match sessionOf s id with
  | some x => if x.alive then sessionUpd s id fun y => { y with alive := false } else sessionEnd s id
  | none => s

def execSpdmHeartbeatExpiry (session : Nat) (s : State) : Out := fin (heartbeatExpiry s session)

/-! ### Measurements -/

/-- The value of a measurement (R436): index 1 the boot ROM, 2 to 8 the parts of the running slot, 9 its manifest, each as a SHA-384 digest, 10 the lifecycle
state, the debug locks in effect, and the security version. Nothing is loaded in Dormant. -/
def measValue (s : State) (i : Nat) : List Byte :=
  let m := manifestOf s s.graft.running
  if i = 1 then sha384 (memReadN s 0x40000000 0x40000)
  else if i = 10 then leBytes 1 (lifecycle s) ++ leBytes 1 (Word.fld (Tbl.getD s.fus.eff 1 0) 3 0) ++ leBytes 4 (svnCount s.fus.eff)
  else if !s.dev.crown then List.replicate 48 0
  else if i = 9 then sha384 m
  else partDigest (partEnt m (i - 2))

/-- The DMTF type of a measurement: 0 immutable ROM, 1 mutable firmware, 3 configuration, 4 manifest, 82h raw hardware configuration. -/
def measType (i : Nat) : Nat := if i = 1 then 0 else if i = 10 then 0x82 else if i = 9 then 4 else if i = 6 || i = 8 then 3 else 1

/-- A measurement block. -/
def measBlock (s : State) (i : Nat) : List Byte :=
  let v := measValue s i
  leBytes 1 i ++ leBytes 1 1 ++ leBytes 2 (v.length + 3) ++ leBytes 1 (measType i) ++ leBytes 2 v.length ++ v

/-- GET_MEASUREMENTS (R436, R578): index 0 asks for the number of measurements, 255 for all of them. A signature needs PKE; its value is free. -/
def getMeasurements (s : State) (via : Option (Fin 8)) (i : Nat) (signed : Bool) : State :=
  if !spdmHere s via then s
  else if signed && blkRetired s 0x0B then spdmError s via 0x05
  else if 10 < i && i ≠ 255 then spdmError s via 0x01
  else
    let l := if i = 0 then [] else if i = 255 then (List.range 10).map (· + 1) else [i]
    let d := (l.map (measBlock s)).flatten
    let (nonce, s) := freeBytes s 32
    let (sig, s) := freeBytes s (if signed then 96 else 0)
    spdmAnswer s via 1 ([0x13, 0x60] ++ leBytes 1 (if i = 0 then 10 else 0) ++ leBytes 1 0 ++ leBytes 1 l.length ++ leBytes 3 d.length ++ d ++ nonce ++ leBytes 2 0 ++ sig)

def execGetMeasurements (via : Option (Fin 8)) (index : Fin 256) (signed : Bool) (s : State) : Out := fin (getMeasurements s via index signed)

/-! ### Clear Rings, NVMe-MI -/

/-- SPDM_CLEAR_RINGS (R437, R564, R565): only an operator session may clear; the ACK follows the clear. -/
def spdmClear (s : State) (via : Option (Fin 8)) (id upto : Nat) : State :=
  if !spdmHere s via then s
  else match sessionOf s id with
    | none => spdmError s via 0x01
    | some x =>
      if !x.operator then spdmError s via 0x01
      else ringsClear (answerBytes s (if via.isNone then spdmAck else [])) ⟨upto, 2, none, via.map (·.val)⟩

def execSpdmClearRings (via : Option (Fin 8)) (session : Nat) (upto : Nat) (s : State) : Out := fin (spdmClear s via session upto)

/-- NVME_MI_REQUEST (R576): log pages C0h, C3h and C4h, and a reset, which Crown firmware carries out. -/
def miRequest (s : State) (r : MiReq) : State :=
  if !spdmUp s then s
  else match r with
  | .logC0 => answerBytes s (logC0 s)
  | .logC3 snap off len => match ringsLog s 0xFFFF snap off len with
    | (.ok b, s) => answerBytes s b
    | (.error _, s) => answer s .decode
  | .logC4 => answerBytes s (logC4 s)
  | .reset => if s.dev.crown then resetFlush s 3 else s

def execNvmeMiRequest (r : MiReq) (s : State) : Out := finMedia (miRequest s r)

end Sys2Proof.Machine
end

