-- ==== Sys2Proof/Machine/Cp.lean ====
section
/-! DEFINITION. Computational Programs and Subsystem Local Memory (R399 to R405): Cesan images, program slots, Execute Program and its dispatch, range sets, and the
commands of memory namespaces. -/

namespace Sys2Proof.Machine

/-! ### Cesan images -/

/-- A program header of an image (ELF64). -/
structure Phdr where
  typ : Nat
  flags : Nat
  off : Nat
  vaddr : Nat
  paddr : Nat
  filesz : Nat
  memsz : Nat
  deriving DecidableEq, Repr

/-- The program headers. -/
def phdrs (m : List Byte) : List Phdr :=
  (List.range (leAt m 56 2)).map fun i =>
    let b := (m.drop (leAt m 32 8 + 56 * i)).take 56
    { typ := leAt b 0 4, flags := leAt b 4 4, off := leAt b 8 8, vaddr := leAt b 16 8, paddr := leAt b 24 8, filesz := leAt b 32 8, memsz := leAt b 40 8 }

/-- The loadable segments. -/
def loads (m : List Byte) : List Phdr := (phdrs m).filter fun p => p.typ = 1

/-- Notes of a note segment as type and descriptor (R400); nothing where one has another name. -/
def notesOf : Nat → List Byte → Option (List (Nat × List Byte))
  | 0, _ => some []
  | n + 1, b =>
    if b.length < 12 then some []
    else
      let d := leAt b 4 4
      if leAt b 0 4 ≠ 6 || (b.drop 12).take 8 ≠ [0x43, 0x65, 0x73, 0x61, 0x6E, 0, 0, 0] then none
      else match notesOf n (b.drop (20 + ceilDiv d 4 * 4)) with
        | some l => some ((leAt b 8 4, (b.drop 20).take d) :: l)
        | none => none

/-- The notes of an image. -/
def imageNotes (m : List Byte) : Option (List (Nat × List Byte)) :=
  match (phdrs m).find? fun p => p.typ = 4 with
  | some p => notesOf (p.filesz / 20 + 1) ((m.drop p.off).take p.filesz)
  | none => none

/-- The descriptor of a note type. -/
def noteOf (m : List Byte) (t : Nat) : List Byte := match imageNotes m with
  | some l => match l.find? fun n => n.1 = t with
    | some n => n.2
    | none => []
  | none => []

/-- Fields of the RES note (R400). -/
def resStack (m : List Byte) : Nat := leAt (noteOf m 3) 0 4
def resSections (m : List Byte) : Nat := leAt (noteOf m 3) 5 1
def resWindow (m : List Byte) : Nat := leAt (noteOf m 3) 6 1
def resUlim (m : List Byte) : Nat := leAt (noteOf m 3) 8 8

/-- The file keeps R399. -/
def imageOk (m : List Byte) : Bool :=
  let entry := leAt m 24 8
  m.take 6 = [0x7F, 0x45, 0x4C, 0x46, 2, 1] && leAt m 18 2 = 243 && leAt m 16 2 = 2 && (leAt m 48 4 = 4 || leAt m 48 4 = 5) && m.length ≤ 524288
    && leAt m 54 2 = 56 && leAt m 32 8 + 56 * leAt m 56 2 ≤ m.length
    && countOf (fun p => p.typ = 4) (phdrs m) = 1 && loads m ≠ [] && (phdrs m).all (fun p => (p.typ = 1 || p.typ = 4) && p.off + p.filesz ≤ m.length)
    && (loads m).all (fun p => p.vaddr = p.paddr && p.vaddr % 4096 = 0 && 0x1000 ≤ p.vaddr && p.vaddr + p.memsz ≤ 0x70000 && p.filesz ≤ p.memsz
      && !(p.flags.testBit 0 && p.flags.testBit 1))
    && (loads m).any (fun p => p.flags.testBit 0 && p.vaddr ≤ entry && entry < p.vaddr + p.memsz)
    && (loads m).all fun p => p.vaddr + p.memsz ≤ 0x70000 - resStack m || p.memsz = 0

/-- The notes keep R400. -/
def notesOk (m : List Byte) : Bool :=
  match imageNotes m with
  | none => false
  | some l =>
    let once (t n : Nat) : Bool := countOf (fun x => x.1 = t) l = 1 && (noteOf m t).length = n
    let v := leAt (noteOf m 2) 4 2
    once 1 4 && once 2 8 && once 3 16 && [0, 128, 256, 512].contains v && leAt (noteOf m 2) 6 2 ≤ 1
      && resStack m % 4096 = 0 && leAt (noteOf m 3) 4 1 ≤ 8 && resSections m ≤ 2 && resWindow m ≤ 1

/-- The runtime accepts the image's ABI (R401). -/
def abiOk (s : State) (m : List Byte) : Bool :=
  leAt (noteOf m 1) 2 2 = rdF s 0x40 0x10C 31 16 && leAt (noteOf m 1) 0 2 ≤ rdF s 0x40 0x10C 15 0

/-- Why an image is not loaded: 1 breaks R399, 2 breaks R400, 3 the ABI; 0 where it is accepted. -/
def imageRefusal (s : State) (m : List Byte) : Nat := if !imageOk m then 1 else if !notesOk m then 2 else if !abiOk s m then 3 else 0

/-! ### Program slots -/

/-- A program slot. -/
def progKey (nsid slot : Nat) : Nat := nsid * 64 + slot

/-- Run a command of a compute namespace that is attached to the controller (R403). -/
def onCompute (s : State) (c : CmdId) (admin : Bool) (opc : Nat) (f : Ctx → Ns → State) : State :=
  onCmd s c admin opc fun x => match nsOf s x.sqe.nsid with
    | some n =>
      if n.kind ≠ .compute then (if admin then complete s c stInvalidNs else s)
      else if !n.attached.contains c.mid || n.deleting.isSome then complete s c stInvalidNs
      else f x n
    | none => complete s c stInvalidNs

/-- Take n class-4 data buffers of an owner, or none of them (R145, R403). -/
def takeBufs (s : State) (owner : Nat) (acc : List Nat) : Nat → Option (List Nat) × State
  | 0 => (some acc, s)
  | n + 1 => match bpmTry s owner 4 false with
    | (some a, s) => takeBufs s owner (acc ++ [a]) n
    | (none, s) => (none, acc.foldl bpmFree s)

/-- LOAD_PROGRAM (R399 to R401, R403): CDW10[15:0] is the slot, CDW10[24] says that it is unloaded. A load whose buffers are not free waits. -/
def loadProgram (s : State) (c : CmdId) : State :=
  onCompute s c true 0x85 fun x n =>
    let k := Word.fld x.sqe.cdw10 15 0
    let key := progKey x.sqe.nsid k
    let old := match Tbl.find s.grv.progs key with
      | some p => p.bufs
      | none => []
    let active := match Tbl.find s.grv.progs key with
      | some p => p.active
      | none => false
    if 63 < k then complete s c stInvalidField
    else if active then complete s c stSequence
    else if Word.bit x.sqe.cdw10 24 then
      complete (old.foldl bpmFree { s with grv := { s.grv with progs := Tbl.del s.grv.progs key } }) c stOk
    else
      let why := imageRefusal s x.data
      if why ≠ 0 then complete (emitFree s 0xA002 0x40 (some n.owner) (leBytes 4 x.sqe.nsid ++ leBytes 1 k ++ leBytes 1 why)) c stInvalidField
      else match takeBufs s (ownerOf s n.owner) [] (ceilDiv x.data.length (2 ^ clsLog s 4)) with
        | (none, _) => s
        | (some l, s) => complete (old.foldl bpmFree { s with grv := { s.grv with
            progs := Tbl.put s.grv.progs key { image := x.data, bufs := l } } }) c stOk

def execLoadProgram (c : CmdId) (s : State) : Out := finMedia (loadProgram s c)

/-- PROGRAM_ACTIVATION_MANAGEMENT (R403): CDW10[19:16] is 1 to activate, 0 to deactivate. -/
def programActivation (s : State) (c : CmdId) : State :=
  onCompute s c true 0x88 fun x _ =>
    let key := progKey x.sqe.nsid (Word.fld x.sqe.cdw10 15 0)
    match Tbl.find s.grv.progs key with
    | none => complete s c stInvalidField
    | some p =>
      if 63 < Word.fld x.sqe.cdw10 15 0 || 1 < Word.fld x.sqe.cdw10 19 16 then complete s c stInvalidField
      else complete { s with grv := { s.grv with progs := Tbl.put s.grv.progs key { p with active := Word.fld x.sqe.cdw10 19 16 = 1 } } } c stOk

def execProgramActivationManagement (c : CmdId) (s : State) : Out := fin (programActivation s c)

/-! ### Execute Program -/

/-- The engines of a tenant's set that are not Retired (R403, R404). -/
def engSet (s : State) (t : Nat) : List Nat := (List.range 256).filter fun e => inSet s e t && (engOf s e).st ≠ .retired

/-- The key of a memory range set. -/
def rsetKey (nsid id : Nat) : Nat := nsid * 65536 + id

/-- EXECUTE_PROGRAM (R404): CDW10[15:0] is the slot, CDW10[31:16] the range set, 0 for none, CDW12 the length of the host output buffer. The command waits for an
engine of the set. -/
def executeProgram (s : State) (c : CmdId) (params : List Byte) : State :=
  onCompute s c false 0x01 fun x n =>
    let k := Word.fld x.sqe.cdw10 15 0
    let r := Word.fld x.sqe.cdw10 31 16
    let active := match Tbl.find s.grv.progs (progKey x.sqe.nsid k) with
      | some p => p.active
      | none => false
    if 63 < k || !active || 32 < params.length || (r ≠ 0 && (Tbl.find s.grv.rsets (rsetKey x.sqe.nsid r)).isNone) then complete s c stInvalidField
    else if engSet s n.owner = [] then complete s c stNsNotReady
    else
      let w : ExecCmd := { cmd := c, nsid := x.sqe.nsid, slot := k, params := params, rset := r, outLen := x.sqe.cdw12.toNat }
      ctxUpd { s with grv := { s.grv with execs := s.grv.execs ++ [w] } } c fun y => { y with stage := .waiting }

def execExecuteProgram (c : CmdId) (params : List Byte) (s : State) : Out := fin (executeProgram s c params)

/-- The position of the round robin over a tenant's engines. -/
def rrEng (t : Nat) : Nat := 0x10000 + t

/-- The address in the SLM area of a memory range: its namespace's first block and the offset (R402, R405). -/
def slmOff (s : State) (nsid off : Nat) : Nat := match nsOf s nsid with
  | some n => n.blocks.headD 0 * 2 ^ 24 + off
  | none => off

/-- The ranges of a set. -/
def rsetRanges (s : State) (nsid id : Nat) : List (Nat × Nat) :=
  match Tbl.find s.grv.rsets (rsetKey nsid id) with
  | some r => r.ranges.map fun x => (slmOff s x.1 x.2.1, x.2.2)
  | none => []

/-- The PMP entries of a program on an engine (R402). -/
def progPmp (s : State) (e : Nat) (m : List Byte) (rs : List (Nat × Nat)) : List PmpEnt :=
  let t := (engOf s e).tenant
  let secs := match resSections m with
    | 0 => []
    | 1 => [e % 16]
    | _ => (List.range 16).filter fun i => sectionTen s (e / 16) i = some t
  (loads m).map (fun p => ⟨p.vaddr, p.memsz, p.flags.testBit 2, p.flags.testBit 1, p.flags.testBit 0⟩)
    ++ [⟨0, 0x100, true, false, false⟩, ⟨0x70000 - resStack m, resStack m, true, true, false⟩]
    ++ secs.map (fun k => ⟨0x800000 + k * 0x80000, 0x80000, true, true, false⟩)
    ++ (if resWindow m = 1 then [⟨0x10000000000, 2 ^ 37, true, true, false⟩] else [])
    ++ rs.map fun r => ⟨0x20000000000 + r.1, r.2, true, true, false⟩

/-- The launch block (R402). -/
def launchBlock (s : State) (e : Nat) (w : ExecCmd) (rs : List (Nat × Nat)) : List Byte :=
  let d := leBytes 2 (rdF s (engRgn e) 0x10C 15 0) ++ leBytes 2 (rdF s (engRgn e) 0x10C 31 16) ++ leBytes 4 e ++ leBytes 4 w.slot ++ leBytes 4 0
    ++ w.params ++ List.replicate (32 - w.params.length) 0 ++ leBytes 8 w.outLen ++ leBytes 4 rs.length ++ leBytes 4 0
    ++ (rs.map fun r => leBytes 8 r.1 ++ leBytes 8 r.2).flatten
  d ++ List.replicate (256 - d.length) 0

/-- Enter a program on an engine (R381, R402, R404). A ULIM of 0 takes the tenant's default, which the spec does not state: a free value. -/
def progEnter (s : State) (e : Nat) (w : ExecCmd) (m : List Byte) (rs : List (Nat × Nat)) : State :=
  let x := engOf s e
  let (lim, s) := if resUlim m = 0 then takeFree s else (resUlim m, s)
  let s := (loads m).foldl (fun s p =>
    memWriteN s (tileBase e + p.vaddr) ((m.drop p.off).take p.filesz ++ List.replicate (p.memsz - p.filesz) 0)) s
  let s := memWriteN s (tileBase e) (launchBlock s e w rs)
  let s := setEng s e { x with
    st := .running, umode := true, halted := false, x := [(2, 0x70000)], f := [], v := [], vl := 0, vsew := 0, vill := true, pc := leAt m 24 8
    mip := x.mip % 2 ^ 17, ulim := lim % 2 ^ 64, ucyc := 0, pmp := progPmp s e m rs, streams := [], jobs := [], wait := none
    prog := some (w.nsid, w.slot, w.cmd), aborting := false, retiring := false, ending := none }
  { s with grv := { s.grv with execs := s.grv.execs.map fun y => if y.cmd = w.cmd then { y with engine := some e } else y } }

/-- A waiting Execute Program completes without running. -/
def execFails (s : State) (c : CmdId) (st : Status) : State :=
  complete { s with grv := { s.grv with execs := s.grv.execs.filter fun y => y.cmd ≠ c } } c st

/-- PROGRAM_DISPATCH (R382, R402, R404): an Execute Program that waits gets the next Assigned engine of the set, round robin in MID order. -/
def programDispatch (s : State) (c : CmdId) : State :=
  match s.grv.execs.find? fun w => w.cmd = c with
  | none => s
  | some w =>
    match nsOf s w.nsid, Tbl.find s.grv.progs (progKey w.nsid w.slot) with
    | some n, some p =>
      let free := (engSet s n.owner).filter fun e => (engOf s e).st = .assigned && engLive s e && isReady s (engRgn e)
      if w.engine.isSome then s
      else if engSet s n.owner = [] then execFails s c stNsNotReady
      else match rrFirst free (Tbl.getD s.grv.rr (rrEng n.owner) 0) with
        | none => s
        | some e =>
          let rs := rsetRanges s w.nsid w.rset
          if 16 < (progPmp s e p.image rs).length then execFails s c stInvalidField
          else progEnter { s with grv := { s.grv with rr := Tbl.put s.grv.rr (rrEng n.owner) (e + 1) } } e w p.image rs
    | _, _ => if w.engine.isSome then s else execFails s c stInvalidField

def execProgramDispatch (c : CmdId) (s : State) : Out := fin (programDispatch s c)

/-! ### Memory range sets -/

/-- A range of the data of Memory Range Set Management: NSID in bytes 0 to 3, length in bytes 4 to 7, offset in bytes 8 to 15. -/
def rangeAt (d : List Byte) (i : Nat) : Nat × Nat × Nat :=
  let b := d.drop (32 * i)
  (leAt b 0 4, leAt b 8 8, leAt b 4 4)

/-- A range lies in a memory namespace of the tenant, aligned to 4 KiB (R405). -/
def rangeOk (s : State) (t : Nat) (r : Nat × Nat × Nat) : Bool :=
  r.2.1 % 4096 = 0 && r.2.2 % 4096 = 0 && match nsOf s r.1 with
    | some n => n.kind = .memory && n.owner = t && r.2.1 + r.2.2 ≤ n.lbas
    | none => false

/-- MEMORY_RANGE_SET_MANAGEMENT (R405): CDW10[3:0] is 0 to create a set of CDW11[7:0] ranges, whose identifier is in dword 0, and 1 to delete the set of
CDW10[31:16]. -/
def rangeSetMgmt (s : State) (c : CmdId) : State :=
  onCompute s c true 0x89 fun x n =>
    let put (t : Tbl RangeSet) : State := { s with grv := { s.grv with rsets := t } }
    match Word.fld x.sqe.cdw10 3 0 with
    | 0 =>
      let k := Word.fld x.sqe.cdw11 7 0
      let l := (List.range k).map (rangeAt x.data)
      if 8 < k || !(l.all (rangeOk s n.owner)) then complete s c stInvalidField
      else match (List.range (s.grv.rsets.length + 1)).find? fun i => (Tbl.find s.grv.rsets (rsetKey x.sqe.nsid (i + 1))).isNone with
        | some i => complete (put (Tbl.put s.grv.rsets (rsetKey x.sqe.nsid (i + 1)) ⟨l⟩)) c stOk (i + 1)
        | none => s
    | 1 =>
      let key := rsetKey x.sqe.nsid (Word.fld x.sqe.cdw10 31 16)
      if (Tbl.find s.grv.rsets key).isNone then complete s c stInvalidField else complete (put (Tbl.del s.grv.rsets key)) c stOk
    | _ => complete s c stInvalidField

def execMemoryRangeSetManagement (c : CmdId) (s : State) : Out := fin (rangeSetMgmt s c)

/-! ### Memory namespaces -/

/-- The status of a command whose access to SLM in DRAM ends with a response that is not OK (R142, R405; a response but DENIED and POISON: log entry 131). -/
def slmStatus : TCode → Status
  | .denied => stAccessDenied
  | .poison => stUnrecRead
  | _ => stInternal

/-- Run a command of a memory namespace. -/
def onSlm (s : State) (c : CmdId) (opc : Nat) (f : Ctx → Ns → State) : State :=
  onCmd s c false opc fun x => match nsOf s x.nsid with
    | some n => if n.kind = .memory then f x n else s
    | none => s

/-- The address of a byte of a memory namespace. -/
def slmAddr (s : State) (n : Ns) (off : Nat) : Nat := slmBase s 0 + n.blocks.headD 0 * 2 ^ 24 + off

/-- SLM_READ (R405): CDW10 and CDW11 the first byte, CDW12 the length. -/
def slmReadCmd (s : State) (c : CmdId) : State :=
  onSlm s c 0x02 fun x n =>
    let o := cdw64 x.sqe.cdw10 x.sqe.cdw11
    let len := x.sqe.cdw12.toNat
    if n.lbas < o + len then complete s c stLbaRange
    else match busRead s ⟨c.mid, n.owner⟩ (slmAddr s n o) len with
      | (.ok, d, s) => completeData s c d
      | (r, _, s) => complete s c (slmStatus r)

def execSlmRead (c : CmdId) (s : State) : Out := finMedia (slmReadCmd s c)

/-- SLM_WRITE (R405). -/
def slmWriteCmd (s : State) (c : CmdId) : State :=
  onSlm s c 0x05 fun x n =>
    let o := cdw64 x.sqe.cdw10 x.sqe.cdw11
    let len := x.sqe.cdw12.toNat
    if n.lbas < o + len then complete s c stLbaRange
    else match busWrite s ⟨c.mid, n.owner⟩ (slmAddr s n o) (x.data.take len) with
      | (.ok, s) => complete s c stOk
      | (r, s) => complete s c (slmStatus r)

def execSlmWrite (c : CmdId) (s : State) : Out := finMedia (slmWriteCmd s c)

/-- A source range of Memory Copy: NSID in bytes 0 to 3, the number of LBAs less one in bytes 4 to 7, the first LBA in bytes 8 to 15. -/
def copyRange (d : List Byte) (i : Nat) : Nat × Nat × Nat :=
  let b := d.drop (32 * i)
  (leAt b 0 4, leAt b 8 8, leAt b 4 4 + 1)

/-- The namespace of a source range, where the controller may read the range (R405, R415). -/
def copySource (s : State) (c : CmdId) (r : Nat × Nat × Nat) : Except Status Ns :=
  match nsOf s r.1 with
  | none => .error stInvalidNs
  | some n =>
    if n.kind ≠ .nvm || !n.attached.contains c.mid || n.deleting.isSome then .error stInvalidNs
    else if n.notReady then .error stNsNotReady
    else if n.lbas < r.2.1 + r.2.2 then .error stLbaRange
    else match nsKeyStatus s (fnTenant s c.mid) r.1 with
      | some st => .error st
      | none => if resvConflict n (ctrlOf s c.mid).hostId false then .error stResvConflict else .ok n

/-- The parts of MUs that a source range asks for: NSID, global MU, offset and length. -/
def copyParts (s : State) (r : Nat × Nat × Nat) : List (Nat × Nat × Nat × Nat) := match nsOf s r.1 with
  | none => []
  | some n =>
    let lo := r.2.1 * lbaBytes n
    let hi := lo + r.2.2 * lbaBytes n
    (muRange n r.2.1 r.2.2).map fun mu => (r.1, gmuOf n mu, max lo (mu * 4096) % 4096, min hi (mu * 4096 + 4096) - max lo (mu * 4096))

/-- A Memory Copy ends. -/
def copyEnd (s : State) (c : CmdId) (st : Status) : State :=
  rdKillAll (complete { s with grv := { s.grv with copies := s.grv.copies.filter fun y => y.cmd ≠ c } } c st) (.copy c)

/-- Carry a Memory Copy on: what has arrived goes to its destination in order. After an unrecovered MU the whole destination is undefined: free bytes (R405). -/
def copyGo (m : Ns) (c : CmdId) : Nat → State → State
  | 0, s => s
  | fuel + 1, s =>
    match s.grv.copies.find? fun y => y.cmd = c with
    | none => s
    | some y => match rdsOf s (.copy c) with
      | [] => if y.todo = [] then copyEnd s c stOk else s
      | r :: _ => match r.st with
        | .failed st =>
          if st ≠ stUnrecRead then copyEnd s c st
          else
            let (b, s) := freeBytes s y.all.2
            copyEnd (busWrite s ⟨c.mid, m.owner⟩ (slmAddr s m y.all.1) b).2 c stUnrecRead
        | .data =>
          match busWrite s ⟨c.mid, m.owner⟩ (slmAddr s m y.dst) ((r.data.drop r.off).take r.len) with
          | (.ok, s) =>
          let s := { s with grv := { s.grv with copies := s.grv.copies.map fun z => if z.cmd = c then { z with dst := z.dst + r.len } else z } }
          copyGo m c fuel (copyAhead c 256 (rdDrop s r.id))
          | (w, s) => copyEnd s c (slmStatus w)
        | _ => s

/-- MEMORY_COPY (R392, R405): CDW10 and CDW11 the destination's first byte, CDW12[7:0] the number of source ranges less one. The command starts its reads, and carries
on with what has arrived for one that runs. -/
def memoryCopy (s : State) (c : CmdId) : State :=
  if s.grv.copies.any (·.cmd = c) then match (ctxOf s c).bind fun x => nsOf s x.nsid with
    | some m => copyGo m c (s.grv.reads.length + sumOf (fun y => y.todo.length) s.grv.copies + 1) s
    | none => s
  else onSlm s c 0x01 fun x m =>
    let o := cdw64 x.sqe.cdw10 x.sqe.cdw11
    let l := (List.range (Word.fld x.sqe.cdw12 7 0 + 1)).map (copyRange x.data)
    let bytes := sumOf (fun r => match nsOf s r.1 with
      | some n => r.2.2 * lbaBytes n
      | none => 0) l
    match l.findSome? fun r => match copySource s c r with
      | .error st => some st
      | .ok _ => none with
    | some st => complete (countAccess s st) c st
    | none =>
      if m.lbas < o + bytes then complete s c stLbaRange
      else
        let s := ctxUpd { s with grv := { s.grv with copies := s.grv.copies ++ [⟨c, l.flatMap (copyParts s), o, (o, bytes)⟩] } } c fun y => { y with stage := .reading }
        copyGo m c (sumOf (fun r => (copyParts s r).length) l + 1) (copyAhead c 256 s)

def execMemoryCopy (c : CmdId) (s : State) : Out := finMedia (memoryCopy s c)

end Sys2Proof.Machine
end

