-- ==== Sys2Proof/Machine/Cpc.lean ====
section
/-! DEFINITION. The commands of media management (R200 to R243): placement, reclaim, wear, patrol, the temperature history, the CPC
work ring and the tenant table. -/

namespace Sys2Proof.Machine

/-! ### Placement -/

/-- PAR finds an uncorrectable accumulator error before a row's emit: it recomputes the parity from the buffers, and records ACC_ECC (R207). -/
def accError (s : State) (err : Bool) : State := if err && s.cpc.accs ≠ [] then blockErr s 0x19 16 0 else s

def execCoppiceAssign (tenant : Fin 512) (ruh : Fin 13) (accErr : Bool) (s : State) : Out := finMedia (coppiceAssign (accError s accErr) tenant ruh)

/-- IDLE_CLOSURE_TIMEOUT (R211): the row that takes slots is padded and issued. -/
def idleClosure (s : State) (idx row : Nat) : State :=
  match rowOf s idx row with
  | some w => if w.fill = 0 then s else padRow s idx row
  | none => s

def execIdleClosureTimeout (ru row : Nat) (s : State) : Out := finMedia (idleClosure s ru row)

/-! ### Reclaim -/

/-- Capacity and score of a victim (R220). -/
def victimScore (s : State) (r : Ru) : Nat :=
  let cap := max 1 (ruCap s r)
  (cap - r.valid.length) * 1024 / cap + (if r.degraded || r.refresh then 2048 else 0) + min ((s.dev.rtc - r.progTime) / 86400) 64

/-- An RU that holds what the newest two checkpoints need: journal pages from their replay starts on, their snapshots, and the newest validity summary (R188). -/
def sysNeeded (s : State) (r : Ru) : Bool :=
  (s.flash.cells.any fun c =>
    (r.members.any fun m => m.die = puaDie c.1 && m.block = puaBlock c.1 && !m.skip) &&
      (match c.2 with
        | .journal recs _ => s.ftl.jpages.contains recs
        | .snapshot _ _ _ _ | .summary _ _ _ => mapLive s c.1
        | _ => false))

/-- The RUs Coppice chooses from: CLOSED RUs of the tenant (R220). FLUSH RUs are adopted (R214), BACKING RUs are re-trickled
(R316), and an RU that the checkpoints need is kept. -/
def victimCands (s : State) (t : Nat) : List Nat :=
  (s.cpc.rus.filter fun p => p.2.st = .closed && p.2.tenant = t && p.2.ruh ≠ ruhFlush && p.2.ruh ≠ ruhBacking
    && (s.cpc.readOnly = 0 || p.2.refresh || p.2.degraded) && !(t = 0 && sysNeeded s p.2)).map (·.1)

/-- The best candidates: the highest score, then the lowest erase count. -/
def bestVictims (s : State) (t : Nat) : List Nat :=
  let l := victimCands s t
  let m := (l.map fun i => victimScore s (ruAt s i)).foldl max 0
  let l := l.filter fun i => victimScore s (ruAt s i) = m
  let e := (l.map fun i => (ruAt s i).eraseCnt).foldl min ((l.map fun i => (ruAt s i).eraseCnt).headD 0)
  l.filter fun i => (ruAt s i).eraseCnt = e

/-- A data header found in an RU names another tenant than the RU (R241). -/
def tenantMismatch (s : State) (r : Ru) : Bool :=
  r.valid.any fun p => match Tbl.find s.flash.cells p with
    | some (Content.user _ _ t _ _ _ _) => t ≠ r.tenant
    | _ => false

/-- Make an RU the victim of its tenant (R220). -/
def takeVictim (s : State) (i : Nat) : State :=
  if tenantMismatch s (ruAt s i) then cpcBroken s
  else startVictim { s with cpc := { s.cpc with nextVictim := s.cpc.nextVictim.filter (· ≠ i) } } i false

/-- COPPICE_RECLAIM_START (R218, R220): the tenant has no victim yet, and its headroom is at or below FREE_TGT, an RU is named
next, or a refresh is due. -/
def reclaimStart (s : State) (t : Nat) : State :=
  if s.cpc.rus.any fun p => p.2.tenant = t && descBroken s p.1 then cpcBroken s
  else if s.cpc.rus.any fun p => p.2.st = .victim && p.2.tenant = t && !p.2.wear then s
  else
    match s.cpc.nextVictim.find? fun i => (ruAt s i).tenant = t && (ruAt s i).st = .closed with
    | some i => takeVictim s i
    | none =>
      let due := (victimCands s t).any fun i => (ruAt s i).refresh || (ruAt s i).degraded
      if headroom s t ≤ (freeTgt s t : Int) || due then
        match pick s (bestVictims s t) with
        | (some i, s) => takeVictim s i
        | (none, s) => s
      else s

def execCoppiceReclaimStart (tenant : Fin 512) (s : State) : Out := finMedia (reclaimStart s tenant)

/-- Every RELOC record of the RU has been applied and written to the flash journal (R180, R220). -/
def relocsSafe (s : State) (idx : Nat) : Bool :=
  let r := ruAt s idx
  r.relocs = [] && !((s.ftl.jbuf ++ s.ftl.jpending).any fun x => x.typ = .reloc && ruOfPua s x.a = some idx)
    && !(s.ftl.stalled.any fun x => x.typ = .reloc && ruOfPua s x.a = some idx)

/-- RELOCATION_SOURCE_ERASE (R188, R220): the victim holds nothing valid, nothing on its way and nothing that a checkpoint needs, and its records are safe: it is
FREE. -/
def sourceErase (s : State) (idx : Nat) : State :=
  let r := ruAt s idx
  if r.st = .victim && r.valid = [] && r.moving = [] && relocsSafe s idx && !sysNeeded s r then
    setRu (forgetCells s r) idx { r with
      st := .free, tenant := 0, ruh := 0, slc := false, degraded := false, short := false, refresh := false, wear := false
      moving := [], open_ := [], erased := [], reads := [], readMax := 0 }
  else s

def execRelocationSourceErase (ru : Nat) (s : State) : Out := finMedia (sourceErase s ru)

/-- STATIC_WEAR_LEVEL (R223). -/
def wearLevel (s : State) (k : Nat) : State :=
  match Tbl.find s.cpc.dsets k with
  | none => s
  | some d =>
    let ec := (setRus d).map fun i => (ruAt s i).eraseCnt
    if ec.foldl max 0 - ec.foldl min (ec.headD 0) ≤ rdF s 0x0F 0x134 15 0 || s.cpc.readOnly ≠ 0 then s
    else
      let l := (setRus d).filter fun i => (ruAt s i).st = .closed && (ruAt s i).ruh ≠ ruhBacking && !((ruAt s i).tenant = 0 && sysNeeded s (ruAt s i))
      let e := (l.map fun i => (ruAt s i).eraseCnt).foldl min ((l.map fun i => (ruAt s i).eraseCnt).headD 0)
      let l := l.filter fun i => (ruAt s i).eraseCnt = e
      let a := (l.map fun i => (ruAt s i).progTime).foldl min ((l.map fun i => (ruAt s i).progTime).headD 0)
      match pick s (l.filter fun i => (ruAt s i).progTime = a) with
      | (some i, s) => startVictim s i true
      | (none, s) => s

def execStaticWearLevel (dset : Fin 64) (s : State) : Out := finMedia (wearLevel s dset)

/-- READ_DISTURB_LIMIT (R224): the RU is flagged REFRESH; an OPEN RU closes short at its next row boundary. -/
def readDisturb (s : State) (idx : Nat) : State :=
  let r := ruAt s idx
  if rdF s 0x0F 0x144 23 0 ≤ r.readMax && (r.st = .closed || r.st = .opened || r.st = .victim) then
    let s := setRu s idx { r with refresh := true, closing := r.closing || r.st = .opened }
    if r.st = .opened && r.open_ = [] then closeRu s idx else s
  else s

def execReadDisturbLimit (ru : Nat) (s : State) : Out := finMedia (readDisturb s ru)

/-- A sampled codeword calls for a refresh (R225): it needed more than BER_PCT % of the hard decoder's 224 bits (R279), or a soft decode. -/
def patrolHot (s : State) (bits : Nat) (soft : Bool) : Bool := soft || rdF s 0x0F 0x13C 23 16 * 224 < 100 * bits

/-- Sample one CLOSED RU (R224, R225): the next word line of each member is read. `bits`: the most bits that a hard decode corrected; `soft`: one needed a soft decode. -/
def patrolOne (s : State) (idx : Nat) (bits : Nat) (soft : Bool) : State :=
  let r := ruAt s idx
  if r.st = .closed then
    let s := setRu s idx { r with
      refresh := r.refresh || patrolHot s bits soft || r.progTime + rdF s 0x0F 0x140 15 0 * 86400 < s.dev.rtc
      lastPatrol := s.clock, patrolRow := (r.patrolRow + 1) % max 1 (ruRows s r) }
    r.members.foldl (fun s m => if m.skip then s else countRead s (puaMk m.die 0 m.block (r.patrolRow * ruPpw s r) 0)) s
  else s

def execPatrolSample (ru bits : Nat) (soft : Bool) (s : State) : Out := fin (patrolOne s ru bits soft)

/-! ### Temperature history -/

/-- TEMP_HIST bin of a composite temperature in kelvin (R236). -/
def tempBin (k : Nat) : Nat := if k < 298 then 0 else if 368 ≤ k then 15 else (k - 298) / 5 + 1

/-- TEMP_HISTORY_SAMPLE (R236): once per minute of operating time. The minutes above WCTEMP and CCTEMP are counted (R618). -/
def tempSample (s : State) : State :=
  let k := rdF s 0x00 0x118 15 0
  let b := tempBin k
  let h := Tbl.getD s.cpc.hourly s.cpc.hourIdx (0, 0)
  let h' := (max h.1 k, if h = (0, 0) then k else min h.2 k)
  { s with
    cpc := { s.cpc with
      tempHist := Tbl.put s.cpc.tempHist b (Tbl.getD s.cpc.tempHist b 0 + 1), hourly := Tbl.put s.cpc.hourly s.cpc.hourIdx h' }
    dev := { s.dev with
      warnMin := s.dev.warnMin + (if 368 ≤ k && k < 378 then 1 else 0), critMin := s.dev.critMin + (if 378 ≤ k then 1 else 0) } }

def execTempHistorySample (s : State) : Out := fin (tempSample s)

/-- HOURLY_SLOT_ADVANCE (R236). -/
def hourAdvance (s : State) : State :=
  let i := (s.cpc.hourIdx + 1) % 72
  { s with cpc := { s.cpc with hourIdx := i, hourly := Tbl.put s.cpc.hourly i (0, 0) } }

def execHourlySlotAdvance (s : State) : Out := fin (hourAdvance s)

/-! ### The work ring -/

/-- Why a work entry is malformed (R241). -/
def cpcBad (s : State) (d : List Byte) : Nat :=
  let opc := (d.headD 0).toNat
  if opc = 0 || 8 < opc then 1
  else if !zeroBytes d 1 1 || !zeroBytes d 24 8 then 2
  else if (opc = 1 && rdF s 0x0F 0x120 6 0 ≤ entArg0 d) || ((opc = 2 || opc = 3) && 512 ≤ entArg0 d)
      || (opc = 3 && geomBlocks s ≤ entArg1 d) || (opc = 4 && rdF s 0x0F 0x114 17 0 ≤ entArg0 d)
      || (opc = 7 && rdF s 0x0F 0x114 17 0 < entArg0 d + entArg1 d)
      || (opc = 8 && entArg0 d ≠ 0xFFFFFFFF && rdF s 0x0F 0x114 17 0 ≤ entArg0 d) then 3
  else if (opc = 5 || opc = 6) && !inDram s (entArg2 d) 1 then 4
  else 0

/-- A write of CPC_WR_TAIL (R240, R241). -/
def cpcTailWrite (s : State) (v : Word) : State :=
  if ringSize s 0x0F ≤ Word.fld v 11 0 then
    ringFault { s with cpc := { s.cpc with ring := { s.cpc.ring with stopped := true } } } 0x0F (Word.fld v 11 0) 5
  else
    let s := wr s 0x0F 0x100C (v &&& 0xFFF)
    if !isEnabled s 0x0F then s
    else
      let (s, ring) := ringFetch cpcWho 0x0F 32 cpcBad s s.cpc.ring 4096
      { s with cpc := { s.cpc with ring := ring } }

def execCpcWorkTailWrite (who : Who) (v : Word) (s : State) : Out := fin (onWrite s who 0x0F 0x100C v fun s => cpcTailWrite s v)

/-- Perform the oldest fetched entry, if it is of an opcode; none in Fault (R241). -/
def cpcWork (s : State) (opc : Nat) (f : State → List Byte → State) : State :=
  if s.dev.fault then s
  else match ringTake s.cpc.ring opc with
  | none => s
  | some (d, r) => f { s with cpc := { s.cpc with ring := r } } d

/-- The die set that RU_INIT forms (R200, R201, R239, R253): the firmware's entry where it is VALID, else the default set. A die that is
absent or excluded is left out. -/
def dsetFrom (s : State) (k : Nat) (b : List Byte) : DieSet :=
  let absent (n : Nat) : Bool := match Tbl.find s.flash.dies n with
    | some d => d.st = .absent || d.st = .incompat || d.st = .failedTrain
    | none => true
  if Word.bit (w32 (b.getD 1 0).toNat) 0 then
    let w (m : Nat) : Nat := leNat ((b.drop (128 + 2 * m)).take 2)
    let n := max (b.headD 0).toNat (min 64 (cpcWidth s))
    { members := (List.range (min 64 n)).map fun m => (w m % 512, (w m).testBit 9, (w m).testBit 10 || absent (w m % 512))
      firstRu := leNat ((b.drop 4).take 4), rus := leNat ((b.drop 8).take 4) }
  else
    let rus := geomBlocks s - spareCount s
    { members := (defaultSet (cpcWidth s) k).map fun n => (n, s.cpc.retiredDies.contains n, absent n), firstRu := k * rus, rus := rus }

/-- RU_INIT (R200 to R204, R226): the RU descriptors of a die set are formed. `factory` is the factory markers read, in lifecycle
state Blank alone. -/
def ruInit (s : State) (d : List Byte) (factory : List (Nat × Nat)) : State :=
  let k := entArg0 d
  let base := Word.fld (rd s 0x0F 0x118) 31 6 * 64 + rdF s 0x0F 0x11C 15 0 * 2 ^ 32
  match busRead s cpcWho (base + 256 * k) 256 with
  | (.ok, b, s) =>
    let ds := dsetFrom s k b
    if ds.present < 8 then cpcDone s d 1 0
    else
      let blank := rdF s 0x04 0x104 2 0 = 0
      let bad := if blank then factory.filter fun x => ds.members.any fun m => m.1 = x.1 else []
      let s := { s with cpc := { s.cpc with
        bad := (s.cpc.bad ++ bad).eraseDups, dsets := Tbl.put s.cpc.dsets k ds
        rus := s.cpc.rus.filter fun p => !(ds.firstRu ≤ p.1 && p.1 < ds.firstRu + ds.rus) } }
      let fresh := sumOf (fun m => if m.2.1 || m.2.2 then 0 else (sparesLeft s m.1).length) ds.members
      let s := { s with cpc := { s.cpc with spareInit := s.cpc.spareInit + fresh } }
      let s := (List.range ds.members.length).foldl (fun s m =>
        match ds.members[m]? with
        | some x => (s.cpc.bad ++ s.cpc.grown).foldl (fun s q =>
            if q.1 = x.1 && q.2 < ds.rus && !(x.2.1 || x.2.2) then replaceMember s (ds.firstRu + q.2) m else s) s
        | none => s) s
      cpcDone (checkReadOnly s) d 0 ds.rus
  | (_, _, s) => enterFault s 0x0F

def execRuInit (factory : List (Nat × Nat)) (s : State) : Out := finMedia (cpcWork s 1 fun s d => ruInit s d factory)

def execDieRetire (s : State) : Out := finMedia (cpcWork s 2 fun s d => cpcDone (retireDie s (entArg0 d)) d 0 0)

def execBlockRetire (s : State) : Out := finMedia (cpcWork s 3 fun s d => cpcDone (checkReadOnly (growBad s (entArg0 d) (entArg1 d))) d 0 0)

def execRuRelocate (s : State) : Out := finMedia (cpcWork s 4 fun s d =>
  cpcDone { s with cpc := { s.cpc with nextVictim := s.cpc.nextVictim.filter (· ≠ entArg0 d) ++ [entArg0 d] } } d 0 0)

def execSummaryWrite (s : State) : Out := finMedia (cpcWork s 5 summaryWrite)

/-- SUMMARY_LOAD (R191, R240): an RU whose stored bitmap failed the ladder is flagged NOSUM. -/
def summaryLoad (s : State) (d : List Byte) (lost : List Nat) : State :=
  let s := { s with cpc := { s.cpc with rus := s.cpc.rus.map fun p => (p.1, { p.2 with nosum := lost.contains p.1 }) } }
  cpcDone s d 0 (s.cpc.rus.length - lost.length)

def execSummaryLoad (lost : List Nat) (s : State) : Out := finMedia (cpcWork s 6 fun s d => summaryLoad s d lost)

/-- FLUSH_ADOPT (R214): FLUSH RUs that hold data become victims, on the background budget. -/
def flushAdopt (s : State) (d : List Byte) : State :=
  let l := ((List.range (entArg1 d)).map (entArg0 d + ·)).filter fun i => (ruAt s i).ruh = ruhFlush && (ruAt s i).st = .closed
  cpcDone (l.foldl (fun s i => startVictim s i true) s) d 0 l.length

def execFlushAdopt (s : State) : Out := finMedia (cpcWork s 7 flushAdopt)

/-- PATROL_NOW (R240): one RU, or every RU, is sampled; `found` gives by RU what its sample found. -/
def patrolNow (s : State) (d : List Byte) (found : List (Nat × Nat × Bool)) : State :=
  let l := if entArg0 d = 0xFFFFFFFF then s.cpc.rus.map (·.1) else [entArg0 d]
  cpcDone (l.foldl (fun s i => patrolOne s i (Tbl.getD found i (0, false)).1 (Tbl.getD found i (0, false)).2) s) d 0 l.length

def execPatrolNow (found : List (Nat × Nat × Bool)) (s : State) : Out := finMedia (cpcWork s 8 fun s d => patrolNow s d found)

/-! ### The tenant table -/

/-- A write of CPC_TEN_RSV (R217). -/
def tenRsvWrite (s : State) (t : Nat) (v : Word) : State :=
  let s' := wr s 0x0F (0x2000 + 16 * t) (v &&& 0x3FFFF)
  if rsvOwed s' ≤ freeCount s then noteShort s s' t else blockErr s 0x0F 18 0

def execCpcTenRsvWrite (who : Who) (tenant : Fin 512) (v : Word) (s : State) : Out :=
  fin (onWrite s who 0x0F (0x2000 + 16 * tenant) v fun s => tenRsvWrite s tenant v)

/-- A write of CPC_TEN_CTL (R242): FREE_LOW and FREE_TGT are judged as one field. -/
def tenCtlWrite (s : State) (t : Nat) (v : Word) : State :=
  let low := Word.fld v 7 0
  let tgt := Word.fld v 15 8
  let ok := 1 ≤ low && low ≤ 32 && low < tgt && tgt ≤ 64
  let off := 0x2008 + 16 * t
  let s' := wr s 0x0F off (Word.mix (rd s 0x0F off) (if ok then 0xFFFFFFFF else 0xFFFF0000) v)
  noteShort s s' t

def execCpcTenCtlWrite (who : Who) (tenant : Fin 512) (v : Word) (s : State) : Out :=
  fin (onWrite s who 0x0F (0x2008 + 16 * tenant) v fun s => tenCtlWrite s tenant v)

end Sys2Proof.Machine
end

