-- ==== Sys2Proof/Machine/RegView.lean ====
section
/-! DEFINITION. What a register reads as (R33 to R49 and the register tables of the chapters): the common header, registers that report
state held elsewhere, and latched pairs. -/

namespace Sys2Proof.Machine

/-- A number from bits, the first least significant. -/
def bitsOf (l : List Bool) : Nat := l.foldr (fun b n => b.toNat + 2 * n) 0

/-- Bit k is f k, for k below n. -/
def bitmap (n : Nat) (f : Nat → Bool) : Nat := bitsOf ((List.range n).map f)

/-! ### The common header -/

/-- BLK_CAP[31:16] (R82, R272, R409). -/
def capSpecific (s : State) (b : Blk) (i : Nat) : Nat :=
  match b with
  | .prt =>
    (match portWidthOf (s.dev.straps % 16) i with
      | 0 => 0
      | 4 => 1
      | 8 => 2
      | _ => 3) + (decide (mgmtPort s = i)).toNat * 4 + 8
  | .fch => 0x9 + 16 * 16
  | .grv => 16
  | _ => 0

/-- A register of the common header (R35 to R44). -/
def headerView (s : State) (rgn : Nat) (b : Blk) (i off : Nat) : Word :=
  if off = 0x00 then w32 (rgnOf b * 2 ^ 24 + i * 2 ^ 16 + 0xB1 * 2 ^ 8)
  else if off = 0x04 then 0x00010000
  else if off = 0x08 then w32 (pagesOf b + intBitsOf b * 2 ^ 8 + (bcastOf b).toNat * 2 ^ 14 + (gateableOf b).toNat * 2 ^ 15 + capSpecific s b i * 2 ^ 16)
  else if off = 0x0C then blkCtlWord (blkSt s rgn)
  else if off = 0x10 then blkStsWord (blkSt s rgn)
  else if off = 0x18 ∨ off = 0x1C ∨ off = 0x24 ∨ (0x28 ≤ off ∧ off ≤ 0x3C) then rd s rgn off
  else 0

/-! ### TOP, TRK -/

/-- The GPIO that port p's link control names as its CLKREQ# (R598); the lowest-numbered port that names it holds it. -/
def clkreqOf (s : State) (p : Nat) : Option Nat :=
  let w := rd s (portRgn p) 0x100
  if portPresent s p && Word.bit w 13 then some (Word.fld w 12 9) else none

/-- A port holds GPIO n as its CLKREQ# (R598). -/
def gpioHeld (s : State) (n : Nat) : Bool := (List.range 8).any fun p => clkreqOf s p = some n

/-- The level that TOP drives on GPIO n (R598, R602): none for a held one, one whose OE bit is 0, and an open-drain one that is released. -/
def gpioDriven (s : State) (n : Nat) : Option Bool :=
  if gpioHeld s n || !Word.bit (rd s 0x00 0x124) n then none
  else if Word.bit (rd s 0x00 0x128) n && Word.bit (rd s 0x00 0x120) n then none
  else some (Word.bit (rd s 0x00 0x120) n)

/-- TOP_RGN_CTL and TOP_RGN_STS of a region (R41). -/
def rgnCtlView (s : State) (n : Nat) : Word := if (blkOf n).isSome then blkCtlWord (blkSt s n) &&& 0xC else 0
def rgnStsView (s : State) (n : Nat) : Word := if (blkOf n).isSome then blkStsWord (blkSt s n) else 0

def topView (s : State) (off : Nat) : Option Word :=
  if off = 0x100 then some (topDevSts s)
  else if off = 0x12C then some (w32 (bitmap 16 fun n => gpioDriven s n = some true))
  else if off = 0x130 then some (w32 (bitmap 16 (gpioHeld s)))
  else if 0x1000 ≤ off ∧ off < 0x1200 then some (rgnCtlView s ((off - 0x1000) / 4))
  else if 0x1200 ≤ off ∧ off < 0x1400 then some (rgnStsView s ((off - 0x1200) / 4))
  else none

/-- BARK_SEL, and whether the region it names has a table (R153). -/
def barkSel (s : State) : Nat := rdF s 0x01 0x108 6 0
def barkHas (s : State) : Bool := (blkOf (barkSel s)).isSome

/-- A word of an entry. -/
def BarkEntry.word (e : BarkEntry) (k : Nat) : Word := if k = 0 then e.w0 else if k = 1 then e.w1 else if k = 2 then e.w2 else e.w3

def trkView (s : State) (off : Nat) : Option Word :=
  if off = 0x10C then
    some (if barkHas s then w32 (1 + 2 * countOf (fun i => (barkEntry s (barkSel s) i).en) (List.range 64)) else 0)
  else if off = 0x110 then some (if barkHas s then w32 (Tbl.getD s.trunk.deny (barkSel s) 0) else 0)
  else if 0x1000 ≤ off ∧ off < 0x1400 then
    some (if barkHas s then (barkEntry s (barkSel s) ((off - 0x1000) / 16)).word (off % 16 / 4) else 0)
  else none

/-! ### PWR, AON, FUS, BST -/

/-- PWR_STS.CSTATE (R446). -/
def CState.code : CState → Nat
  | .off => 0 | .softStart => 1 | .charging => 2 | .protected_ => 3 | .flush => 4 | .bleed => 5

def pwrView (s : State) (off : Nat) : Option Word :=
  match off with
  | 0x100 => some (w32 (s.pwr.cstate.code + (ledgerValid s).toNat * 8 + s.pwr.cause * 16 + s.pwr.psEff * 256 + s.pwr.pl.toNat * 2048 + s.pwr.measAct.toNat * 4096))
  | 0x104 => some (w32 (min s.pwr.vin 0xFFFF))
  | 0x108 => some (w32 (min s.pwr.vhold 0xFFFF))
  | 0x10C => some (w32 (min s.pwr.inPower 0x3FF))
  | 0x110 => some (w32 (s.pwr.rails % 4096 + s.pwr.railFault % 4096 * 2 ^ 16))
  | 0x12C => some (w32 (min s.pwr.c 0xFFFFF))
  | 0x130 => some (w32 (min s.pwr.esr 0xFFFF))
  | 0x134 => some (w32 (min (measAge s) 0xFFFFFF))
  | 0x140 => some (w32 (min (eUse s) 0xFFFFF))
  | 0x144 => some (w32 (min (grantMib s) 0xFFFFF))
  | 0x154 => some (w32 (min (wbShare s) 0xFFFFF))
  | 0x158 => some (w32 (min (winShare s) 0xFFFFF))
  | 0x15C => some (w32 (min (wbUsed s) 0xFFFFF))
  | 0x160 => some (w32 (min (commitMj s) 0xFFFFF))
  | _ => none

/-- The types that hold a STICKY entry (R470, R477). -/
def stickyTypes (s : State) : Nat := bitmap 7 fun n => s.aon.ring.any fun e => cellType e.2 = n + 1 && cellSticky e.2

def aonView (s : State) (off : Nat) : Option Word :=
  if off = 0x100 then
    some (w32 (bitsOf [s.aon.rtcValid, s.aon.cntValid, s.aon.onCell, s.aon.latched.contains 5, s.aon.tamper0, s.aon.tamper1]
      + (if s.aon.wrapped then 128 else s.aon.ring.length) * 2 ^ 8 + stickyTypes s * 2 ^ 16))
  else if off = 0x104 then some (w32 (min s.aon.vbat 0xFFFF))
  else if off = 0x108 then some (w32 s.dev.rtc)
  else if off = 0x118 then some (w32 s.dev.opsec)
  else if off = 0x120 then some (w32 s.aon.pwrcyc)
  else if off = 0x134 then some (w32 (min s.aon.temp 0xFFFF))
  else if off = 0x144 then some (w32 (s.aon.pos % 128 + s.aon.wrapped.toNat * 128))
  else if 0x200 ≤ off ∧ off < 0xA00 then
    some (w32 (leNat (((Tbl.getD s.aon.ring ((off - 0x200) / 16) []).drop (off % 16)).take 4)))
  else none

/-- The device secret and its copy read as zero (R499). -/
def fuseHidden (w : Nat) : Bool := (0x10 ≤ w && w < 0x18) || (0x210 ≤ w && w < 0x218)

def fusView (s : State) (off : Nat) : Option Word :=
  if off = 0x100 then
    some (w32 (bitsOf [s.fus.sensed, s.fus.sensing, s.fus.prog.isSome, s.fus.secretOk] + bitmap 5 s.fus.usable.contains * 2 ^ 8))
  else if off = 0x104 then some (fusLifecycle s)
  else if off = 0x108 then
    some (w32 (bitmap 4 (debugLock s) + (jtagOpen s).toNat * 2 ^ 8 + (scanOpen s).toNat * 2 ^ 9 + s.fus.unlock % 4 * 2 ^ 10))
  else if off = 0x10C then some (w32 (svnCount s.fus.eff + svnCount s.fus.last * 256))
  else if off = 0x110 then some (Tbl.getD s.fus.eff 2 0 &&& 0x1F)
  else if off = 0x114 then some (w32 (countOf (fun c => c.2 = 1) s.fus.cls + countOf (fun c => c.2 = 2) s.fus.cls * 2 ^ 16))
  else if off = 0x130 then some (w32 (s.fus.prog.isSome.toNat + rdF s 0x04 0x130 7 4 * 16))
  else if 0x200 ≤ off ∧ off < 0x300 then
    let k := (off - 0x200) / 4
    some (w32 (sumOf (fun i => Tbl.getD s.fus.cls (16 * k + i) 0 * 4 ^ i) (List.range 16)))
  else if 0x1000 ≤ off ∧ off < 0x2000 then
    let w := (off - 0x1000) / 4
    some (if fuseHidden w then 0 else Tbl.getD s.fus.eff w 0)
  else none

def bstView (s : State) (off : Nat) : Option Word :=
  if off = 0x100 then some (bstSts s)
  else if off = 0x11C then
    some (match s.bst.slices with
      | [] => 0
      | x :: _ => w32 (x.rgn + x.unit * 2 ^ 8 + 2 ^ 31))
  else none

/-! ### EVR, MBX, TAP, XMV -/

def evrView (s : State) (off : Nat) : Option Word :=
  if off = 0x104 then
    some (w32 (evrUsed s + min 128 s.rings.opened.length * 2 ^ 16 + (decide (3584 ≤ evrUsed s)).toNat * 2 ^ 24 + (s.rings.drops.any (0 < ·)).toNat * 2 ^ 25))
  else if off = 0x108 then some (w32 s.rings.pages.length)
  else if off = 0x2000 then
    some (match s.rings.pages with
      | [] => 0
      | p :: _ => w32 (1 + p.length * 2))
  else if off = 0x2004 then
    some (match s.rings.pages with
      | (r :: _) :: _ => w32 r.seq
      | _ => 0)
  else if 0x2200 ≤ off ∧ off < 0x2400 then
    some (match s.rings.pages with
      | [] => 0
      | p :: _ => w32 (leNat (((pageImage p).drop (off - 0x2200)).take 4)))
  else none

/-- The core that a mailbox's events of a side go to (R515): side A's ACORE, and BCORE where a Crown core is side B. -/
def mbxCore (s : State) (m : Nat) (sideB : Bool) : Option Nat :=
  let w := rd s 0x07 (mbxOff m)
  if !sideB then some (Word.fld w 1 0) else if m < 4 ∨ 24 ≤ m then some (Word.fld w 3 2) else none

/-- An event of mailbox m for core k is pending (R528): a doorbell or an empty bit of the side that the core serves. -/
def mbxPendCore (s : State) (k m : Nat) : Bool :=
  (mbxCore s m false = some k && (Word.bit (rd s 0x07 0x104) m || Word.bit (rd s 0x07 0x108) m))
    || (mbxCore s m true = some k && (Word.bit (rd s 0x07 0x100) m || Word.bit (rd s 0x07 0x10C) m))

/-- MBX_CFG.PEER (R514, R529). -/
def mbxPeerKind (m : Nat) : Nat :=
  if m < 4 then 0 else if m = 4 then 1 else if m = 5 then 2 else if m < 8 then 0 else if m < 16 then 3 else if m < 20 then 4 else if m < 24 then 5 else 0

def mbxView (s : State) (off : Nat) : Option Word :=
  if 0x120 ≤ off ∧ off < 0x130 then some (w32 (bitmap 32 (mbxPendCore s ((off - 0x120) / 4))))
  else if 0x1000 ≤ off ∧ off < 0x1800 then
    let m := (off - 0x1000) / 64
    if off % 64 = 0 then some (w32 (rdF s 0x07 off 3 0 + mbxPeerKind m * 16))
    else if off % 64 = 4 then
      some (w32 (bitsOf [(mbxOf s m).full0, (mbxOf s m).full1, Word.bit (rd s 0x07 0x110) m, Word.bit (rd s 0x07 0x114) m, mbxPeerOff s m]))
    else none
  else none

/-- Milliseconds left in the current watchdog stage (R531): the model's clock runs in seconds. -/
def cwdLeft (s : State) (k : Nat) : Nat :=
  let c := coreOf s k
  let t23 := rd s 0x08 (cwdOff k + 8)
  let t := match c.stage with
    | 0 => rdF s 0x08 (cwdOff k + 4) 19 0
    | 1 => Word.fld t23 15 0
    | 2 => Word.fld t23 31 16
    | _ => 0
  if Word.bit (rd s 0x08 (cwdOff k)) 0 then min (t - (s.clock - c.since) * 1000) 0xFFFFF else 0

def tapView (s : State) (off : Nat) : Option Word :=
  if off = 0x100 then
    let op := match s.tap.run with
      | some o => 1 + tapBank o.addr * 2 + o.op * 4 + o.suspended.toNat * 16
      | none => 0
    some (w32 (op + (decide (s.tap.step ≠ 0)).toNat * 32))
  else if 0x1100 ≤ off ∧ off < 0x1180 ∧ off % 32 = 0x10 then
    let k := (off - 0x1100) / 32
    some (w32 ((coreOf s k).stage + cwdLeft s k * 4096))
  else none

/-- XMV_CH_STS.STATE (R533). -/
def XmvSt.code : XmvSt → Nat
  | .idle => 0 | .run => 1 | .waitPace => 2 | .stopping => 3 | .stopped => 4 | .error => 5

/-- A channel has an enabled interrupt pending (R532). -/
def xmvPend (s : State) (c : Nat) : Bool := rd s 0x09 (xmvOff c + 0x28) &&& rd s 0x09 (xmvOff c + 0x2C) ≠ 0

def xmvView (s : State) (off : Nat) : Option Word :=
  if off = 0x100 then some (w32 (xmvOutAll s + countOf (fun c => (xmvOf s c).st ≠ .idle) (List.range 64) * 2 ^ 16))
  else if off = 0x10C then some (w32 (bitmap 32 (xmvPend s)))
  else if off = 0x110 then some (w32 (bitmap 32 fun c => xmvPend s (32 + c)))
  else if 0x1000 ≤ off then
    let c := (off - 0x1000) / 64
    let x := xmvOf s c
    if off % 64 = 0x18 then some (w32 (x.st.code + x.reason * 2 ^ 8 + x.tcode * 2 ^ 12 + x.ovr.toNat * 2 ^ 15))
    else if off % 64 = 0x20 then some (w32 x.credits)
    else if off % 64 = 0x24 then some (w32 x.done)
    else if off % 64 = 0x30 then some (w32 x.out.length)
    else none
  else none

/-! ### SEC, PKE -/

/-- The slot that SEC_SLOT_SEL selects: target kind and number. -/
def slotSel (s : State) : Nat × Nat := (rdF s 0x0A 0x2020 13 12, rdF s 0x0A 0x2020 11 0)

/-- SEC_SLOT_STS (R419, R421, R440): WARN at half the limit. -/
def slotSts (s : State) : Nat :=
  let (t, k) := slotSel s
  match t with
  | 0 =>
    let x := xtsSlot s k
    xtsTenant s k + 2 ^ 9 * bitsOf [x.cur ≠ [], x.exportable, x.prev ≠ [], x.gseq, x.paused, decide (xtsLimit / 2 ≤ x.cnt), x.limit, slotBound s k]
  | 1 => let x := gcmSlot s k; gcmTenant s k + 2 ^ 9 * bitsOf [x.key ≠ [], x.exportable]
  | 2 => let x := kekSlot s k; 2 ^ 9 * bitsOf [x.key ≠ [], x.exportable]
  | _ => 0

def slotCnt (s : State) : Nat :=
  let (t, k) := slotSel s
  match t with
  | 0 => (xtsSlot s k).cnt
  | 1 => (gcmSlot s k).cnt
  | _ => 0

def slotRef (s : State) : Nat :=
  let (t, k) := slotSel s
  match t with
  | 0 => (xtsSlot s k).ref
  | 1 => (gcmSlot s k).ctr
  | _ => 0

def secView (s : State) (off : Nat) : Option Word :=
  match off with
  | 0x104 => some (w32 (bitsOf [s.sec.drbgOk, (kekSlot s 0).key ≠ [], s.sec.kop.isSome]))
  | 0x201C => some (w32 (s.sec.kop.isSome.toNat + rdF s 0x0A 0x201C 15 8 * 256))
  | 0x2024 => some (w32 (slotSts s))
  | 0x2028 => some (w32 (slotCnt s))
  | 0x2030 => some (w32 (slotRef s))
  | 0x2038 => some (if (slotSel s).1 = 1 then w32 (beNat (gcmSlot s (slotSel s).2).fixed) else 0)
  | 0x2044 => some (match Tbl.find s.sec.bind (rdF s 0x0A 0x2040 11 0) with
      | some k => w32 (k + 2 ^ 15)
      | none => 0)
  | 0x204C => some (w32 (tenEpoch s (rdF s 0x0A 0x2048 8 0) % 65536))
  | 0x2064 => some (rd s 0x0A 0x2064 &&& 0xE ||| w32 s.sec.drbgOk.toNat)
  | _ => none

def pkeView (s : State) (off : Nat) : Option Word :=
  match off with
  | 0x104 => some (w32 (s.sec.pkeOp.isSome.toNat + rdF s 0x0B 0x104 15 8 * 256))
  | 0x108 => some (w32 (bitmap 8 (fun k => (Tbl.find s.sec.pke k).isSome) + 256 * bitmap 8 fun k => match Tbl.find s.sec.pke k with
      | some x => x.1
      | none => false))
  | _ => none

/-! ### BPM, HQE -/

def bpmView (s : State) (off : Nat) : Option Word :=
  if off = 0x110 then some (w32 (chunksTotal s))
  else if off = 0x114 then some (w32 (chunksFree s))
  else if off = 0x118 then some (w32 (chunksRsv s))
  else if 0x1000 ≤ off ∧ off < 0x3000 then
    let o := (off - 0x1000) / 128
    let c := (off - 0x1000) % 128 / 16
    if off % 16 = 8 then some (w32 (usedOf s o c)) else if off % 16 = 0xC then some (w32 (heldOf s o c)) else none
  else if 0x3000 ≤ off ∧ off < 0x3400 then
    let o := (off - 0x3000) / 16
    if off % 16 = 4 then some (w32 (iusedOf s o))
    else if off % 16 = 8 then
      some (w32 (bitmap 8 (fun c => s.bpm.waiters.any fun w => w.owner = o && w.cls = c)
        + (s.bpm.waiters.any fun w => w.owner = o && w.internal).toNat * 256))
    else none
  else none

/-- A queue of the port waits for a context, or for a buffer (R127). -/
def portWaits (s : State) (p : Nat) (f : Nat → Nat → Bool) : Bool :=
  s.hqe.sqs.any fun q => q.1 / 65536 / 64 = p && ctlFetches s (q.1 / 65536) && sqWaits s (q.1 / 65536) (q.1 % 65536) q.2 && f (q.1 / 65536) (q.1 % 65536)

def hqeView (s : State) (off : Nat) : Option Word :=
  if off = 0x100 then some (w32 (s.hqe.vwc.toNat + s.dev.fault.toNat * 2))
  else if off = 0x104 then some (w32 (ctxUsed s))
  else if off = 0x108 then some (w32 (sharedFree s))
  else if off = 0x10C then some (w32 (ioSqs s + countOf (fun q => q.1 % 65536 ≠ 0) s.hqe.cqs * 2 ^ 16))
  else if off = 0x110 then some (w32 (countOf (fun q => q.2.st ≠ SqState.active) s.hqe.sqs))
  else if 0x1000 ≤ off ∧ off < 0x1080 then
    let p := (off - 0x1000) / 16
    if off % 16 = 4 then some (w32 (resUsed s p + sharedUsed s p * 2 ^ 16))
    else if off % 16 = 0xC then
      some (w32 (bitsOf [
        portWaits s p fun mid qid => (drawOne s mid (qid = 0) []).isNone,
        portWaits s p (fun mid _ => !bufferCan s mid) || s.hqe.ctxs.any (fun x => x.id.mid / 64 = p && x.stage = .waitBuf),
        s.hqe.cqs.any fun q => q.1 / 65536 / 64 = p && (q.2.tail + 1) % q.2.size = q.2.head]))
    else none
  else if 0x1800 ≤ off ∧ off < 0x2000 then some (rd s 0x0D off &&& 0x1FFF ||| w32 (fnSqs s ((off - 0x1800) / 4) * 2 ^ 16))
  else if 0x2000 ≤ off ∧ off % 32 = 0x0C then some (w32 (tenUsed s ((off - 0x2000) / 32)))
  else none

/-! ### FTL, CPC, PAR, LDC -/

def ftlView (s : State) (off : Nat) : Option Word :=
  match off with
  | 0x154 => some (w32 (jUsed s))
  | 0x158 => some (w32 s.ftl.dirtySince.length)
  | 0x15C => some (w32 (resGran s))
  | 0x160 => some (w32 (dirtyGran s))
  | 0x164 => some (w32 s.ftl.pwt.length)
  | 0x168 => some (w32 s.ftl.jseq)
  | 0x170 => some (w32 s.ftl.wseq)
  | _ => none

/-- CPC_TEN_STS (R218, R242). -/
def tenSts (s : State) (t : Nat) : Nat :=
  heldRus s t + 2 ^ 18 * bitsOf [tenShort s t, s.cpc.waits.contains t, s.cpc.rus.any fun r => r.2.st = .victim && r.2.tenant = t]

def cpcView (s : State) (off : Nat) : Option Word :=
  if off = 0x14C then
    some (w32 ((decide (s.cpc.readOnly ≠ 0)).toNat + s.cpc.readOnly % 4 * 2 + (cpcDegraded s).toNat * 8 + (!s.cpc.rebuild.isEmpty).toNat * 16
      + min 100 (availSpare s) * 2 ^ 8 + pctUsed s * 2 ^ 16))
  else if off = 0x150 then some (w32 (freeCount s))
  else if off = 0x154 then some (w32 (unrsvRus s))
  else if off = 0x158 then some (w32 s.cpc.rebuild.length)
  else if 0x2000 ≤ off ∧ off % 16 = 0x0C then some (w32 (tenSts s ((off - 0x2000) / 16)))
  else none

def parView (s : State) (off : Nat) : Option Word :=
  if off = 0x104 then some (w32 (s.cpc.accs.length + rebuildsActive s))
  else if off = 0x108 then some (w32 (sumOf (fun r => countOf (fun w => w.2.parityBuf ≠ 0) r.2.open_) s.cpc.rus)) else none

/-! ### PRT, WIN -/

def Ltssm.code : Ltssm → Nat
  | .detect => 0 | .polling => 1 | .configuration => 2 | .l0 => 3 | .recovery => 4 | .l0p => 5 | .l1 => 6 | .disabled => 7 | .hotReset => 8 | .loopback => 9

def PState.code : PState → Nat
  | .down => 0 | .training => 1 | .up => 2 | .contained => 3

/-- PRT_FN_STS (R85). -/
def fnStsView (s : State) (mid : Nat) : Word :=
  let f := fnOf s mid
  w32 (bitsOf [fnPresent s mid, f.bme, f.flrPend, s.hqe.ctxs.any fun x => x.id.mid = mid && ctxHeld s x, f.d3hot] + fnTenant s mid * 2 ^ 5)

def prtView (s : State) (p off : Nat) : Option Word :=
  let x := portOf s p
  if off = 0x104 then
    some (w32 (x.ltssm.code + x.rate * 2 ^ 4 + x.width * 2 ^ 7 + bitsOf [x.flit, x.cxl, x.dlActive] * 2 ^ 12 + x.pstate.code * 2 ^ 15 + x.perst.toNat * 2 ^ 17))
  else if off = 0x110 then some (w32 ((x.pstate == .contained).toNat + x.cause % 8 * 4 + x.causeFn % 64 * 32))
  else if off = 0x124 then some (w32 (ctoVal x))
  else if off = 0x128 then some (w32 (npOut s p))
  else if off = 0x12C then some (w32 (cxlOut s p))
  else if off = 0x130 then some (w32 (countOf (fun c => c.id.mid / 64 = p && ctxHeld s c) s.hqe.ctxs))
  else if 0x1000 ≤ off ∧ off < 0x1100 then some (fnStsView s (p * 64 + (off - 0x1000) / 4))
  else none

/-- The decoders and layouts as WIN shows them (R347). -/
def winDecView (s : State) (off : Nat) : Word :=
  let d := decOf s ((off - 0x6000) / 128) ((off - 0x6000) % 128 / 16)
  match off % 16 with
  | 0 => w32 (d.committed.toNat + d.iwl % 8 * 2 + d.igl % 16 * 16 + d.err % 8 * 256)
  | 4 => w32 (d.dpaBase % 1024)
  | 8 => w32 (d.size % 1024)
  | _ => 0

def winView (s : State) (off : Nat) : Option Word :=
  if off = 0x120 then some (w32 (dirtyCount s))
  else if off = 0x124 then some (w32 (countOf (fun g => g.2.st = GranSt.trickling) s.win.grans))
  else if off = 0x12C then
    some (w32 (s.win.state + s.win.memActive.toNat * 4 + (s.win.queue.any (·.held) || s.win.pends.any (·.late)).toNat * 8 + restoreLeft s % 2 ^ 22 * 256))
  else if off = 0x134 then some (w32 (bisnpOut s))
  else if off = 0x138 then some (w32 s.win.sf.length)
  else if off = 0x13C then some (w32 (countOf (fun l => winPoisoned s l.1) s.win.poison))
  else if off = 0x140 then some (w32 s.win.dsc)
  else if 0x1000 ≤ off ∧ off < 0x2000 ∧ off % 8 = 4 then
    let k := (off - 0x1000) / 8
    some (w32 (countOf (fun g => (g.2.st = .dirty || g.2.st = .trickling) && granSlice g.1 = k) s.win.grans))
  else if 0x2000 ≤ off ∧ off < 0x6000 then
    let t := (off - 0x2000) / 32
    if off % 32 = 0x0C then some (w32 (sfUsed s t)) else if off % 32 = 0x10 then some (w32 (tenDirty s t)) else none
  else if 0x6000 ≤ off ∧ off < 0x6400 then some (winDecView s off)
  else if 0x6400 ≤ off ∧ off < 0x6440 then
    some (match Tbl.find s.win.layouts ((off - 0x6400) / 8) with
      | some l => if off % 8 = 0 then w32 (l.vol.length + l.per.length * 2 ^ 16) else 1
      | none => 0)
  else none

/-! ### DMC, FCH, GRV -/

def dmcView (s : State) (off : Nat) : Option Word :=
  if off = 0x108 then some (w32 (s.dmc.tstate + rdF s 0x1B 0x108 15 8 * 2 ^ 8 + (dmcMarked s).toNat * 2 ^ 16))
  else if off = 0x114 then some (w32 (s.dmc.scrubLine / 1024))
  else if off = 0x134 then some (w32 (countOf (fun g => g.2) s.dmc.valid))
  else if off = 0x14C then some (w32 s.dmc.inval.isSome.toNat)
  else if (0x1000 ≤ off ∧ off < 0x1400) ∨ (0x1400 ≤ off ∧ off < 0x1440) then
    let k := if off < 0x1400 then (off - 0x1000) / 64 else (off - 0x1400) / 4
    if entryOff s (k / 2) (k % 2) then some 0 else none
  else none

def fchView (s : State) (c off : Nat) : Option Word :=
  if off = 0x108 then some (fchStsWord s c)
  else if off = 0x10C then some (fchExclWord s c)
  else if off = 0x158 then some (w32 (chanQueued s c))
  else if 0x2000 ≤ off ∧ off < 0x2100 then
    let d := dieOf s (c * 16 + (off - 0x2000) / 16)
    match off % 16 with
    | 0 => some (fchDieStsWord d)
    | 4 => some d.idWord
    | 8 => some (w32 (min d.tmo 0xFFFF + min d.suspCnt 255 * 2 ^ 16))
    | _ => none
  else if off = 0x3408 then some (ucCrc s c)
  else none

def EngSt.code : EngSt → Nat
  | .free => 0 | .assigned => 1 | .running => 2 | .scrubbing => 3 | .testing => 4 | .retired => 5

/-- Engines of a grove in a state. -/
def engCount (s : State) (g : Nat) (st : EngSt) : Nat := countOf (fun e => (engOf s (g * 16 + e)).st = st) (List.range 16)

/-- GRV_ENG_STS (R411): the tenant carried (R18), open streams and jobs outstanding. -/
def engStsView (s : State) (e : Nat) : Word :=
  let x := engOf s e
  let st := if resOut s 0 (engRgn e) (e % 16) && x.st ≠ .retired then EngSt.testing else x.st
  w32 (st.code + carriedTenant s (engWho s e) * 2 ^ 3 + x.umode.toNat * 2 ^ 12 + bitmap 8 (fun k => (Tbl.find x.streams k).isSome) * 2 ^ 13
    + min 4 (countOf (fun j => j.2.result.isNone) x.jobs) * 2 ^ 21)

def grvView (s : State) (g off : Nat) : Option Word :=
  if off = 0x114 then some (w32 (engCount s g .free + engCount s g .running * 2 ^ 8 + engCount s g .retired * 2 ^ 16))
  else if off = 0x118 then some (w32 (countOf (fun (r : InnerRead) => match r.who with
    | .stream e _ => e / 16 = g
    | .copy _ => false) s.grv.reads))
  else if off = 0x11C then some (w32 (gDirtyCount s g))
  else if 0x1000 ≤ off ∧ off < 0x1400 then
    let e := g * 16 + (off - 0x1000) / 64
    let x := engOf s e
    match off % 64 with
    | 0x00 => some (engStsView s e)
    | 0x18 => some (w32 x.ucyc)
    | 0x20 => some (w32 x.ulim)
    | 0x28 => some (match x.prog with
        | some (n, k, _) => if x.st = .running then w32 ((n - 1) % 4096 + k % 64 * 2 ^ 16 + 2 ^ 31) else 0
        | none => 0)
    | _ => none
  else none

/-! ### Reading -/

/-- The registers that report state held elsewhere. -/
def blkView (s : State) (b : Blk) (i off : Nat) : Option Word :=
  match b with
  | .top => topView s off
  | .trk => trkView s off
  | .pwr => pwrView s off
  | .aon => aonView s off
  | .fus => fusView s off
  | .bst => bstView s off
  | .evr => evrView s off
  | .mbx => mbxView s off
  | .tap => tapView s off
  | .xmv => xmvView s off
  | .sec => secView s off
  | .pke => pkeView s off
  | .bpm => bpmView s off
  | .hqe => hqeView s off
  | .ftl => ftlView s off
  | .cpc => cpcView s off
  | .prt => prtView s i off
  | .win => winView s off
  | .par => parView s off
  | .ldc => if off = 0x118 then some (ldcStsWord s) else none
  | .dmc => dmcView s off
  | .fch => fchView s i off
  | .grv => grvView s i off

/-- What a 4-byte read of a register returns. An offset that holds no register reads zero (R33), and so do write-only fields (R8). -/
def viewReg (s : State) (rgn off : Nat) : Word :=
  match blkOf rgn with
  | none => 0
  | some (b, i) =>
    if off < 0x100 then headerView s rgn b i off
    else match descOf b off with
      | none => 0
      | some d => match blkView s b i off with
        | some w => w
        | none => rd s rgn off &&& ~~~d.wo

/-- The high words of the latched pairs (R198, R411, R440, R477, R568, R570): the pair's value above its low word. -/
def latchedHi (s : State) (rgn off : Nat) : Option Nat :=
  match blkOf rgn with
  | some (.aon, _) => if off = 0x108 then some (s.dev.rtc / 2 ^ 32 % 256) else if off = 0x118 then some (s.dev.opsec / 2 ^ 32 % 256) else none
  | some (.evr, _) =>
    if off = 0x10C then some (seqNext s / 2 ^ 32)
    else if off = 0x2004 then match s.rings.pages with
      | (r :: _) :: _ => some (r.seq / 2 ^ 32)
      | _ => some 0
    else none
  | some (.ftl, _) => if off = 0x168 then some (s.ftl.jseq / 2 ^ 32) else if off = 0x170 then some (s.ftl.wseq / 2 ^ 32) else none
  | some (.sec, _) => if off = 0x2028 then some (slotCnt s / 2 ^ 32) else if off = 0x2030 then some (slotRef s / 2 ^ 32) else none
  | some (.grv, g) =>
    if 0x1000 ≤ off ∧ off < 0x1400 ∧ off % 64 = 0x18 then some ((engOf s (g * 16 + (off - 0x1000) / 64)).ucyc / 2 ^ 32)
    else if 0x1000 ≤ off ∧ off < 0x1400 ∧ off % 64 = 0x20 then some ((engOf s (g * 16 + (off - 0x1000) / 64)).ulim / 2 ^ 32)
    else none
  | _ => none

/-- The levels of the GPIO pins that nothing in the part drives come from the board: their bits are free (entry 137). -/
def freeBits (s : State) (rgn off : Nat) : Nat :=
  match rgn, off with
  | 0x00, 0x12C => bitmap 16 fun n => gpioDriven s n = none
  | _, _ => 0

/-- SEC_RNG_DATA is filled afresh at each read (R434). -/
def isRngData (rgn off : Nat) : Bool := rgn = 0x0A && off = 0x2060

/-- A 4-byte read of a register: the value, and the state with what the read does: a latched pair is captured, and counters that a read clears are
cleared (R8) unless the read comes through an aperture (R47). -/
def readReg (s : State) (rgn off : Nat) (clear : Bool) : Nat × State :=
  if isRngData rgn off then
    if s.sec.drbgOk then let (b, s) := drbgGen s 1; (leNat b, s) else (0, s)
  else
    let hiOf := Tbl.find s.latch (regKey rgn off)
    let isHi := (latchedHi s rgn (off - 4)).isSome && 4 ≤ off
    let v := if isHi then (hiOf.getD 0).toNat else (viewReg s rgn off).toNat
    let (v, s) := if freeBits s rgn off = 0 then (v, s) else let (n, s) := takeFree s; (v ||| (n &&& freeBits s rgn off), s)
    let s := match latchedHi s rgn off with
      | some h => { s with latch := Tbl.putC 0 s.latch (regKey rgn (off + 4)) (w32 h) }
      | none => s
    let s := if !clear then s
      else if rgn = 0x01 ∧ off = 0x110 then
        (if barkHas s then { s with trunk := { s.trunk with deny := Tbl.put s.trunk.deny (barkSel s) 0 } } else s)
      else match blkOf rgn with
        | some (b, _) => match descOf b off with
          | some d => if d.rc = 0 then s else wr s rgn off (rd s rgn off &&& ~~~d.rc)
          | none => s
        | none => s
    (v, s)

end Sys2Proof.Machine
end

