-- ==== Sys2Proof/Machine/Gate.lean ====
section
/-! DEFINITION. BLK_CTL and what it commands: enabling, soft reset, isolation and power of a block (R38 to R42, R270, R408, R516, R585, R623 to R625,
R633). -/

namespace Sys2Proof.Machine

/-! ### What a reset of a block does to its registers -/

/-- Registers that a SOFT_RESET keeps: SCRATCH, and those that R625 and R633 name; the watchdog enables and the released cores stay until device reset
(R502, R503). -/
def keptReg (rgn off : Nat) : Bool :=
  off = 0x3C
    || (rgn = 0x01 && 0x2000 ≤ off && off < 0x2800)
    || (rgn = 0x0C && 0x100 ≤ off && off < 0x4000)
    || (rgn = 0x08 && (off = 0x1000 || (0x1100 ≤ off && off < 0x1180 && off % 32 = 0)))

/-- The value of a register after a reset of its block (R39, R42): an RWL field keeps its value while LOCK is 1. -/
def resetValue (s : State) (rgn off : Nat) : Word :=
  let r := resetAt rgn off
  if keptReg rgn off then rd s rgn off
  else if (blkSt s rgn).lock then
    match blkOf rgn with
    | some (b, _) => match descOf b off with
      | some d => Word.mix r d.rwl (rd s rgn off)
      | none => r
    | none => r
  else r

/-- Every register of a block returns to its reset value, apart from the exceptions of R39. -/
def resetRegs (s : State) (rgn : Nat) : State :=
  let mine := s.regs.filter fun p => p.1 / 65536 = rgn
  mine.foldl (fun (t : State) (p : Nat × Word) => wr t rgn (p.1 % 65536) (resetValue s rgn (p.1 % 65536)))
    { s with latch := s.latch.filter fun p => p.1 / 65536 ≠ rgn }

/-- What a reset does to state that stands behind registers: the channels of XMV, the slots of MBX, the sequence of TAP, an allocation of firmware that
waits at BPM (R633), the start-up tests of SEC (R433), the training state of DMC and FCH, and the engines of a grove. -/
def resetHeld (s : State) (rgn : Nat) : State :=
  if rgn = 0x09 then { s with xmv := [], xmvTurn := [] }
  else if rgn = 0x01 then { s with trunk := { s.trunk with deny := [] } }
  else if rgn = 0x07 then { s with mbx := [] }
  else if 0x10 ≤ rgn && rgn < 0x18 then portRegsReset s (rgn - 0x10)
  else if rgn = 0x08 then tapIdle s
  else if rgn = 0x0C then { s with bpm := { s.bpm with waiters := s.bpm.waiters.filter fun w => match w.purpose with
    | .fw _ => false
    | _ => true } }
  else if rgn = 0x0A then wrF { s with sec := { s.sec with drbgOk := false } } 0x0A 0x2064 3 3 1
  else if rgn = 0x1B then { s with dmc := { s.dmc with tstate := 0 } }
  else if 0x20 ≤ rgn && rgn < 0x40 then setTs s (rgn - 0x20) 0
  else if 0x40 ≤ rgn && rgn < 0x50 then renewEngines s (rgn - 0x40)
  else s
where
  /-- The registers of a port are the state of its link, functions and containment: they return as at a hot reset, and the history of containment goes with them
  (DESIGN CHOICE, entry 107). -/
  portRegsReset (s : State) (p : Nat) : State :=
    let s := portReset s p .detect
    wr (setPort s p { portOf s p with cause := 0, causeFn := 0 }) (portRgn p) 0x18 0
  /-- Every engine of a grove is initialised afresh and Free, but a Retired one (R408). -/
  renewEngines (s : State) (g : Nat) : State :=
    (List.range 16).foldl (fun s i =>
      if (engOf s (g * 16 + i)).st = .retired then s else wr (setEng s (g * 16 + i) {}) (0x40 + g) (0x1008 + 64 * i) 0) s

/-- The reset of a block (R39): its registers, BLK_CTL among them: ENABLE unless LOCK holds it, POWER_REQ, and ISOLATE unless the block stays Isolated
(log entry 16). -/
def blockReset (s : State) (rgn : Nat) : State :=
  let s := resetHeld (resetRegs s rgn) rgn
  let b := blkSt s rgn
  setBlk s rgn { b with enable := b.enable && b.lock, isolate := b.isolate && b.st = .isolated, powerReq := true, busy := false }

/-! ### Coming back, isolation, power -/

/-- The block begins Init where ENABLE reads 1, with the bring-up of its chapter; else it stands in Reset (R39, R623, R624). -/
def blockStart (s : State) (rgn : Nat) : State :=
  let b := blkSt s rgn
  let s := setBlk s rgn { b with st := if b.enable then .init else .reset, busy := false, lostPower := false }
  if b.enable then enableBlock.bringUp s rgn
  else if rgn = 0x1B then { s with dmc := { s.dmc with tstate := 0 } }
  else if 0x20 ≤ rgn && rgn < 0x40 then setTs s (rgn - 0x20) 0
  else s

/-- A gated block comes back (R408, R624): with registers at reset values where power was removed, ENABLE among them unless LOCK holds it. -/
def blockReturn (s : State) (rgn : Nat) : State :=
  let b := blkSt s rgn
  let s := if b.lostPower then setBlk (resetHeld (resetRegs s rgn) rgn) rgn { b with enable := b.enable && b.lock } else s
  let s := if 0x40 ≤ rgn && rgn < 0x50 then resetHeld.renewEngines s (rgn - 0x40) else s
  mbxReturn (blockStart s rgn) rgn

/-- The supplies of a flash power group, as bits of PWR_RAIL_STS (R270, R476). -/
def groupRails (s : State) (g : Nat) (on : Bool) : State :=
  let n := s.pwr.rails
  let bit (k n : Nat) : Nat := if n.testBit k = on then n else if on then n + 2 ^ k else n - 2 ^ k
  { s with pwr := { s.pwr with rails := bit (8 + g) (bit (4 + g) n) } }

/-- What follows when a block's power goes (R270): the supplies of a flash group fall with its eighth channel; the link of a port is gone. -/
def powerGone (s : State) (rgn : Nat) : State :=
  if 0x20 ≤ rgn && rgn < 0x40 then
    let g := (rgn - 0x20) / 8
    if (List.range 8).all fun i => (blkSt s (0x20 + 8 * g + i)).st = .off then groupRails s g false else s
  else if 0x10 ≤ rgn && rgn < 0x18 then surpriseDown s (rgn - 0x10)
  else s

/-- An absent port stays Off (R51). -/
def heldOff (s : State) (rgn : Nat) : Bool := 0x10 ≤ rgn && rgn < 0x18 && !portPresent s (rgn - 0x10)

/-- A block that stands Isolated or Off follows ISOLATE and POWER_REQ (R624). -/
def gateSettle (s : State) (rgn : Nat) : State :=
  let b := blkSt s rgn
  if heldOff s rgn then s
  else
    match b.st with
    | .isolated =>
      if !b.isolate then blockReturn s rgn
      else if !b.powerReq then powerGone (setBlk s rgn { b with st := .off, lostPower := true }) rgn
      else s
    | .off =>
      if !b.powerReq then s
      else
        let s := if 0x20 ≤ rgn && rgn < 0x40 then groupRails s ((rgn - 0x20) / 8) true else s
        let s := setBlk s rgn { b with st := .isolated }
        if b.isolate then s else blockReturn s rgn
    | _ => s

/-! ### Fences and drains -/

/-- A fence is set (R39, R585, R623): the block drains. A fence of a mailbox peer withdraws its notices (R516); clearing ENABLE sets none. -/
def fence (s : State) (rgn : Nat) (why : DrainWhy) : State :=
  let s := setBlk s rgn { blkSt s rgn with st := .draining, busy := true, why := why }
  if why = .disable then s else mbxWithdraw s rgn

/-- Every request that the block accepted has completed (R585). -/
def drained (s : State) (rgn : Nat) : Bool :=
  (blkSt s rgn).accepted = 0 &&
    match blkOf rgn with
    | some (.fch, c) => chanQueued s c = 0 && (List.range 16).all fun d => (dieOf s (c * 16 + d)).run.isNone && (dieOf s (c * 16 + d)).susp.isNone
    | some (.sec, _) => s.sec.queues.all (fun q => q.2.isEmpty) && s.sec.waits.isEmpty && s.sec.kop.isNone && s.sec.ring.fetched.isEmpty
    | some (.ftl, _) => s.ftl.ring.fetched.isEmpty
    | some (.cpc, _) => s.cpc.ring.fetched.isEmpty
    | some (.win, _) => s.win.queue.isEmpty
    | some (.dmc, _) => s.dmc.fills.isEmpty
    | some (.pke, _) => s.sec.pkeOp.isNone
    | some (.xmv, _) => s.xmv.all fun x => x.2.desc.isNone
    | some (.tap, _) => s.tap.run.isNone
    | some (.fus, _) => s.fus.prog.isNone
    | _ => true

/-- A grove's cache is written back, and its snoop-filter holder bits are cleared (R408). -/
def groveEmpty (s : State) (g : Nat) : State :=
  (s.grv.lineTen.filter fun l => l.1 / 2 ^ 32 = g).foldl (fun s l =>
    let line := l.1 % 2 ^ 32
    sfDrop (gDrop (gWriteBack s g line) g line) line (8 + g)) s

/-- DRAIN_END (R585, R623, R624): the last accepted request has completed. -/
def drainEnd (s : State) (rgn : Nat) : State :=
  let b := blkSt s rgn
  if b.st ≠ .draining || b.why = .softReset || !drained s rgn then s
  else if b.isolate || b.why = .isolate then
    let s := if 0x40 ≤ rgn && rgn < 0x50 then groveEmpty s (rgn - 0x40) else s
    gateSettle (setBlk s rgn { blkSt s rgn with st := .isolated, busy := false }) rgn
  else blockStart s rgn

def execDrainEnd (rgn : Fin 128) (s : State) : Out := finMedia (drainEnd s rgn)

/-- SOFT_RESET_END (R39): the drain has ended; the block resets, and stands in Reset, or in Init where LOCK holds ENABLE. -/
def softResetEnd (s : State) (rgn : Nat) : State :=
  let b := blkSt s rgn
  if b.st ≠ .draining || b.why ≠ .softReset || !drained s rgn then s
  else mbxReturn (blockStart (blockReset s rgn) rgn) rgn

def execSoftResetEnd (rgn : Fin 128) (s : State) : Out := finMedia (softResetEnd s rgn)

/-- BLOCK_INIT_DONE (R250, R350, R623): a block in Init accepts work; a flash channel first reaches READY or EMPTY, and DMC READY. -/
def initDone (s : State) (rgn : Nat) : State :=
  let b := blkSt s rgn
  let up := match blkOf rgn with
    | some (.fch, c) => (chanOf s c).tstate = tsReady || (chanOf s c).tstate = tsEmpty
    | some (.dmc, _) => dramUp s
    | some _ => true
    | none => false
  if b.st = .init && up then setBlk s rgn { b with st := .ready } else s

def execBlockInitDone (rgn : Fin 128) (s : State) : Out := finMedia (initDone s rgn)

/-! ### The bits of BLK_CTL -/

/-- Record an error that an access caused (R44): its direction, size, address and master, and the Bark region that admitted it. -/
def captureAcc (s : State) (rgn bit info : Nat) (a : Acc) : State :=
  let a := carriedAcc s a
  captureErr s rgn bit (a.kind = .write) a.size (barkCheck s rgn a).1 info a.addr a.who

/-- ENABLE written (R151, R623): the caller has checked LOCK. -/
def enableWrite (s : State) (rgn : Nat) (v : Bool) : State :=
  let b := blkSt s rgn
  if b.enable = v then s
  else if v then
    let s := enableBlock s rgn
    if rgn = 0x0C && !areaValid s then blockErr s 0x0C 18 0 else s
  else
    let s := setBlk s rgn { b with enable := false }
    match b.st with
    | .init | .ready => fence s rgn .disable
    | _ => s

/-- The grove may be fenced (R408): every engine is Free or Retired. -/
def groveIdle (s : State) (rgn : Nat) : Bool :=
  rgn < 0x40 || 0x50 ≤ rgn || (List.range 16).all fun i =>
    let st := (engOf s ((rgn - 0x40) * 16 + i)).st
    st = .free || st = .retired

/-- ISOLATE written (R38, R408, R624). In STATE Testing and Retired, for which the spec says nothing, the bit is stored and has no further effect (log
entry 101). -/
def isolateWrite (s : State) (rgn : Nat) (v : Bool) : State :=
  let b := blkSt s rgn
  if !gateable rgn || b.isolate = v then s
  else if v && !groveIdle s rgn then blockErr s rgn 16 0
  else
    let s := setBlk s rgn { b with isolate := v }
    match b.st with
    | .reset | .init | .ready => if v then fence s rgn .isolate else s
    | .isolated | .off => if heldOff s rgn then s else gateSettle (setBlk s rgn { blkSt s rgn with busy := !v && b.st = .off }) rgn
    | _ => s

/-- POWER_REQ written (R38, R624). -/
def powerReqWrite (s : State) (rgn : Nat) (v : Bool) : State :=
  let b := blkSt s rgn
  if !gateable rgn || b.powerReq = v then s else gateSettle (setBlk s rgn { b with powerReq := v }) rgn

/-- SOFT_RESET written (R39), judged by the STATE that the write met: `viaTop` says through TOP_RGN_CTL. -/
def softResetWrite (s : State) (rgn : Nat) (met : BState) (viaTop : Bool) (a : Acc) : State :=
  match met with
  | .reset | .init | .ready => fence s rgn .softReset
  | .isolated => blockReset s rgn
  | _ => if viaTop then captureAcc s 0x00 3 rgn a else captureAcc s rgn 3 0 a

/-- ISOLATE, POWER_REQ and SOFT_RESET of a word written to BLK_CTL or TOP_RGN_CTL (R41). The spec gives the bits of one write no order: a SOFT_RESET of
an Isolated block acts first, that of any other last (log entry 101). -/
def gateWrite (s : State) (rgn : Nat) (v : Word) (met : BState) (viaTop : Bool) (a : Acc) : State :=
  let s := if Word.bit v 1 && met = .isolated then softResetWrite s rgn met viaTop a else s
  let s := isolateWrite s rgn (Word.bit v 2)
  let s := powerReqWrite s rgn (Word.bit v 3)
  if Word.bit v 1 && met ≠ .isolated then softResetWrite s rgn met viaTop a else s

/-- A write of BLK_CTL (R38, R42): ENABLE is RWL, LOCK stays set. -/
def blkCtlWrite (s : State) (a : Acc) (rgn : Nat) (v : Word) : State :=
  let b := blkSt s rgn
  let s :=
    if b.lock then (if Word.bit v 0 = b.enable then s else captureAcc s rgn 4 0 a)
    else enableWrite s rgn (Word.bit v 0)
  let s := if Word.bit v 31 then setBlk s rgn { blkSt s rgn with lock := true } else s
  gateWrite s rgn v b.st false a

/-- A write of TOP_RGN_CTL (R41): bits [3:1] are those of BLK_CTL; reserved and broadcast regions store nothing. -/
def topRgnWrite (s : State) (a : Acc) (n : Nat) (v : Word) : State := if (blkOf n).isSome then gateWrite s n v (blkSt s n).st true a else s

/-- A write of the common header; one of TAP's page 0 while a sequence is under way only breaks the sequence (R507). -/
def headerRow (s : State) (rgn : Nat) (eff : State → State) : State := if rgn = 0x08 && s.tap.step ≠ 0 then tapBreak s else eff s

/-- A word that a row writes to BLK_CTL, or to TOP_RGN_CTL: the register as it stands, with one bit as the row sets it. -/
def ctlRow (s : State) (who : Who) (rgn : Nat) (viaTop : Bool) (bit : Nat) (v : Bool) : State :=
  let w := Word.setBit (blkCtlWord (blkSt s rgn)) bit v
  if viaTop then onWrite s who 0x00 (0x1000 + 4 * rgn) w fun s => topRgnWrite s (wrAcc who 0x00 (0x1000 + 4 * rgn) w) rgn w
  else onWrite s who rgn 0x0C w fun s => headerRow s rgn fun s => blkCtlWrite s (wrAcc who rgn 0x0C w) rgn w

def execEnableSet (who : Who) (rgn : Fin 128) (s : State) : Out := finMedia (ctlRow s who rgn false 0 true)
def execEnableClear (who : Who) (rgn : Fin 128) (s : State) : Out := finMedia (ctlRow s who rgn false 0 false)
def execSoftReset (who : Who) (rgn : Fin 128) (viaTop : Bool) (s : State) : Out := finMedia (ctlRow s who rgn viaTop 1 true)
def execIsolateSet (who : Who) (rgn : Fin 128) (viaTop : Bool) (s : State) : Out := finMedia (ctlRow s who rgn viaTop 2 true)
def execIsolateClear (who : Who) (rgn : Fin 128) (viaTop : Bool) (s : State) : Out := finMedia (ctlRow s who rgn viaTop 2 false)
def execPowerReqClear (who : Who) (rgn : Fin 128) (viaTop : Bool) (s : State) : Out := finMedia (ctlRow s who rgn viaTop 3 false)
def execPowerReqSet (who : Who) (rgn : Fin 128) (viaTop : Bool) (s : State) : Out := finMedia (ctlRow s who rgn viaTop 3 true)
def execLockSet (who : Who) (rgn : Fin 128) (s : State) : Out := finMedia (ctlRow s who rgn false 31 true)

/-- INT_SET_WRITE (R43): bits at and above INT_BITS are discarded. INT_STS.ERR is set for test as the others are. -/
def intSet (s : State) (rgn : Nat) (v : Word) : State :=
  match blkOf rgn with
  | some (b, _) => wr s rgn 0x18 (rd s rgn 0x18 ||| (v &&& Word.mask (intBitsOf b - 1) 0))
  | none => s

def execIntSetWrite (who : Who) (rgn : Fin 128) (v : Word) (s : State) : Out :=
  finMedia (onWrite s who rgn 0x20 v fun s => headerRow s rgn fun s => intSet s rgn v)

end Sys2Proof.Machine
end

