-- ==== Sys2Proof/Machine/RegWrite.lean ====
section
/-! DEFINITION. What a write of a register does (R8, R9, R33, R43, R44 and the register tables): the masked store, and the registers whose write acts.
A register whose write has a row of its own acts here as that row does. -/

namespace Sys2Proof.Machine

/-! ### The masked store -/

/-- A field holds an encoding that is not reserved (R9). -/
def Enc.admits (e : Enc) (v : Word) : Bool :=
  let n := Word.fld v e.hi e.lo
  e.min ≤ n && n ≤ e.max && (n - e.min) % e.step = 0

/-- The word with every reserved encoding replaced by the value the field holds (R9). -/
def encFix (d : RegDesc) (old v : Word) : Word :=
  d.enc.foldl (fun w e => if e.admits w then w else Word.setFld w e.hi e.lo (Word.fld old e.hi e.lo)) v

/-- Reserved encodings that depend on another field (R9): NORM above BUDGET in FCH_SUSP_P, and NP outside 1 to 4 in word 0 of a threshold entry (R273, R276). -/
def fchFix (off : Nat) (old v : Word) : Word :=
  if off = 0x114 && Word.fld v 9 0 < Word.fld v 19 10 then Word.mix v 0xFFC00 old
  else if 0x3000 ≤ off && off < 0x3400 && off % 16 = 0 && (Word.fld v 15 8 = 0 || 4 < Word.fld v 15 8) then Word.mix v 0xFF00 old
  else v

/-- The word that a write stores: reserved encodings resolved, and RWL fields as they stand while LOCK is 1 (R9, R33). -/
def storedWord (s : State) (rgn : Nat) (b : Blk) (d : RegDesc) (off : Nat) (v : Word) : Word :=
  let old := rd s rgn off
  let w := encFix d old v
  let w := if b = .fch then fchFix off old w else w
  if (blkSt s rgn).lock then Word.mix w d.rwl old else w

/-- Store RW, RWL and WO fields, clear what W1C clears (R8). -/
def plainWrite (s : State) (rgn : Nat) (d : RegDesc) (off : Nat) (v w : Word) : State :=
  let old := rd s rgn off
  wr s rgn off (Word.mix old (d.rw ||| d.rwl ||| d.wo) w &&& ~~~(d.w1c &&& v))

/-- A locked field is written with another value (R33). -/
def lockBreach (s : State) (rgn : Nat) (d : RegDesc) (off : Nat) (v : Word) : Bool :=
  (blkSt s rgn).lock && (v ^^^ rd s rgn off) &&& d.rwl ≠ 0

/-! ### Registers that refuse a write (CFG) -/

/-- Configuration that must be written before ENABLE, with the bit that a later write records (R198, R238, R276, R299, R344, R371, R410, R439, R440). -/
def cfgBit (b : Blk) (off : Nat) : Option Nat :=
  match b with
  | .ftl => if 0x104 ≤ off && off ≤ 0x138 then some 18 else none
  | .cpc => if off = 0x100 || off = 0x104 || off = 0x108 || off = 0x10C || off = 0x110 || off = 0x118 || off = 0x11C || off = 0x124 || off = 0x128 then some 17 else none
  | .win => if 0x100 ≤ off && off ≤ 0x118 then some 16 else none
  | .dmc => if off = 0x100 then some 16 else none
  | .ldc => if off = 0x100 then some 16 else none
  | .grv => if 0x100 ≤ off && off ≤ 0x10C then some 16 else none
  | .sec => if off = 0x108 || off = 0x10C || off = 0x204C then some 17 else none
  | .fch => if off = 0x3400 || off = 0x3404 then some 17 else none
  | _ => none

/-- A write that its block's state refuses (R533, R568), with the bit that records it. -/
def busyBit (s : State) (b : Blk) (off : Nat) : Option Nat :=
  match b with
  | .evr => if (off = 0x10C || off = 0x110) && evrEn s then some 16 else none
  | .xmv =>
    if 0x1000 ≤ off && (off % 64 = 0 || off % 64 = 4 || off % 64 = 8 || off % 64 = 0x10) && xmvEn s ((off - 0x1000) / 64) then some 16 else none
  | _ => none

/-! ### Registers whose write acts, by block -/

def writeTop (s : State) (a : Acc) (off : Nat) (v : Word) : Option State :=
  if off = 0x108 then some (if Word.bit v 0 then resetFlush s 3 else s)
  else if 0x1000 ≤ off && off < 0x1200 then some (topRgnWrite s a ((off - 0x1000) / 4) v)
  else none

/-- BARK_ENTRY (R139, R153): words 0 to 2 go to the staging set; while BARK_SEL names a region without a table the writes commit nothing. -/
def barkStage (s : State) (word : Nat) (v : Word) : State :=
  { s with trunk := match word with
    | 0 => { s.trunk with stage0 := v }
    | 1 => { s.trunk with stage1 := v }
    | _ => { s.trunk with stage2 := v } }

/-- The commit (R139, R9, R138): reserved bits are dropped; a reserved TMODE keeps the entry's; LOCKED stays; a locked entry records LOCKED in TRK. -/
def barkCommit (s : State) (a : Acc) (entry : Nat) (v : Word) : State :=
  if !barkHas s then s
  else
    let sel := barkSel s
    let old := barkEntry s sel entry
    if old.locked then captureAcc s 0x01 4 0 a
    else
      let t := Word.fld v 26 25
      let v := if t = 3 || (t = 2 && sel ≠ 0x1B) then Word.setFld v 26 25 old.tmode else v
      setBark s sel entry ⟨s.trunk.stage0 &&& 0xFFFFFFC0, s.trunk.stage1 &&& 0x3FFFFFFF, s.trunk.stage2 &&& 0xFFFFFFC0, v⟩

def writeTrk (s : State) (a : Acc) (off : Nat) (v : Word) : Option State :=
  if 0x1000 ≤ off && off < 0x1400 then
    some (if off % 16 = 12 then barkCommit s a ((off - 0x1000) / 16) v else barkStage s (off % 16 / 4) v)
  else if 0x2000 ≤ off && off < 0x2800 then
    some (if (off - 0x2000) / 4 = mgmtPf s && Word.fld v 8 0 ≠ 0 then s else wr s 0x01 off (v &&& 0x1FF))
  else none

/-- PWR (R449, R464, R476): MEASURE; PS_CAP moves PS_EFF; an RWL value outside its range records CFG besides. -/
def writePwr (s : State) (d : RegDesc) (off : Nat) (v w : Word) : Option State :=
  if off = 0x128 then some (if Word.bit v 0 then measStart s else s)
  else if off = 0x164 then some (psSettle (plainWrite s 0x02 d off v w))
  else if d.rwl ≠ 0 && !(blkSt s 0x02).lock && !d.enc.all (·.admits v) then some (blockErr (plainWrite s 0x02 d off v w) 0x02 16 0)
  else none

def writeAon (s : State) (off : Nat) (v : Word) : Option State :=
  if off = 0x114 then some (rtcSet s v)
  else if off = 0x128 then some (opsecSet s v)
  else if off = 0x12C then some (pwrcycSet s v)
  else if off = 0x140 then some (if Word.bit v 0 then ringClr s else s)
  else none

def writeFus (s : State) (off : Nat) (v : Word) : Option State :=
  if off = 0x118 then some (if Word.bit v 0 then fuseSense s else s)
  else if off = 0x12C then some (match Word.fld v 1 0 with
    | 1 => fuseProgWord s
    | 2 => fuseSecret s
    | _ => s)
  else none

def writeEvr (s : State) (off : Nat) (v : Word) : Option State :=
  if off = 0x100 then some (evrCfgWrite s v)
  else if off = 0x11C then some (if Word.bit v 0 then sealAll s else s)
  else if 0x1000 ≤ off && off < 0x1100 && off % 64 = 0x20 then some (evrPost s ((off - 0x1000) / 64))
  else if off = 0x200C then some (drainAck s)
  else none

/-- MBX (R514, R515): the answer and the state. Slot registers belong to the sender's side; mailboxes 6 and 7 store nothing; OVR and WDRAW follow their
status registers. -/
def writeMbx (s : State) (d : RegDesc) (a : Acc) (off : Nat) (v w : Word) : Option (TCode × State) :=
  if off < 0x1000 then none
  else
    let m := (off - 0x1000) / 64
    let o := off % 64
    let slot := if o < 0x20 then 0 else 1
    if m = 6 || m = 7 then some (.ok, s)
    else if o = 0 then none
    else if o = 0x14 || o = 0x2C then
      let t := mbxPost (answer s .ok) m slot (some a.who) v
      some (t.resp.code, t)
    else if o = 0x18 || o = 0x30 then some (.ok, if Word.bit v 0 then mbxAck s m slot (some a.who) else s)
    else if o = 0x04 then none
    else some (.ok, if mbxSide s m slot (some a.who) then plainWrite s 0x07 d off v w else blockErr s 0x07 16 0)

/-- TAP (R502, R503, R507): the sequence registers; any other write of page 0 breaks a sequence under way, and has no other
effect. -/
def writeTap (s : State) (d : RegDesc) (a : Acc) (off : Nat) (v w : Word) : Option State :=
  if 0x104 ≤ off && off ≤ 0x110 then some (tapWrite s a.who.mid ((off - 0x104) / 4) v false)
  else if off < 0x1000 then some (if s.tap.step = 0 then plainWrite s 0x08 d off v w else tapBreak s)
  else if off = 0x1000 then some (crnRun s v)
  else if 0x1100 ≤ off && off < 0x1180 && off % 32 = 0 then some (cwdEnable s ((off - 0x1100) / 32) v)
  else if 0x1100 ≤ off && off < 0x1180 && off % 32 = 0x0C then some (cwdKick s ((off - 0x1100) / 32) v)
  else none

/-- XMV_CH_INT_EN (R532): INT_STS.CH follows when an enabled bit first stands. -/
def xmvIntEn (s : State) (c : Nat) (v : Word) : State :=
  let was := xmvPend s c
  let s := wr s 0x09 (xmvOff c + 0x2C) (v &&& 0xF)
  if !was && xmvPend s c then raiseInt s 0x09 1 else s

def writeXmv (s : State) (off : Nat) (v : Word) : Option State :=
  if off = 0x104 then some (xmvGo (xmvSwreq s v))
  else if off < 0x1000 then none
  else
    let c := (off - 0x1000) / 64
    match off % 64 with
    | 0x0C => some (xmvTailWrite s c v)
    | 0x14 => some (xmvEnWrite s c v)
    | 0x1C => some (xmvGo (xmvCredit s c (Word.fld v 7 0)))
    | 0x2C => some (xmvIntEn s c v)
    | _ => none

/-- SEC_KOP_CTL (R426, R440): the operation that OP names. -/
def kopByOp (s : State) (v : Word) : State := kopStart s v (if Word.fld v 3 0 = 8 then kopRekey else kopQuiet)

def writeSec (s : State) (off : Nat) (v : Word) : Option State :=
  if off = 0x100C then some (secTailWrite s v)
  else if off = 0x1020 then some (secPost (wr s 0x0A off (v &&& 0xFFF)))
  else if off = 0x2000 then some (kopByOp s v)
  else if off = 0x204C then
    some { s with sec := { s.sec with epochs := Tbl.put s.sec.epochs (rdF s 0x0A 0x2048 8 0) (Word.fld v 15 0) } }
  else if off = 0x2068 then some (if Word.bit v 0 && s.sec.drbgOk then reseed s else s)
  else none

/-- PKE_CMD (R429, R431, R441): a reserved OP ends with BAD_REQ. -/
def pkeByOp (s : State) (v : Word) : State :=
  let run (f : State → Word → PkeOp × State) : State :=
    if blkRetired s 0x0B then s
    else if s.sec.pkeOp.isSome then blockErr s 0x0B 16 0
    else
      let (p, s) := f (setPke (setPke s 0x1180 0) 0x11C0 0) v
      { s with sec := { s.sec with pkeOp := some p } }
  match Word.fld v 3 0 with
  | 1 => run pkeSign
  | 2 => run pkeVerify
  | 3 => run pkeEcdh
  | 4 => run pkeKeygen
  | 5 => run pkePubgen
  | 6 => run pkeValidate
  | _ => run fun s v => ({ op := Word.fld v 3 0, curve := pkeP384 v, status := 13 }, s)

def writePke (s : State) (off : Nat) (v : Word) : Option State :=
  if off = 0x100 then some (pkeByOp s v)
  else if off = 0x10C then some { s with sec := { s.sec with pke := s.sec.pke.filter fun p => p.1 < 2 || !Word.bit v p.1 } }
  else none

/-- BPM (R144, R146, R151, R152). -/
def writeBpm (s : State) (off : Nat) (v : Word) : Option State :=
  if 0x100 ≤ off && off < 0x110 then some (if (blkSt s 0x0C).lock then s else areaWrite s ((off - 0x100) / 4) v)
  else if 0x120 ≤ off && off < 0x140 then some (if (blkSt s 0x0C).lock then s else classWrite s ((off - 0x120) / 4) v)
  else if 0x1000 ≤ off && off < 0x3400 then some (limitWrite s off v)
  else if 0x3400 ≤ off && off < 0x3C00 then some (tenOwnerWrite s ((off - 0x3400) / 4) v)
  else if 0x4000 ≤ off && off < 0x4080 then
    let k := (off - 0x4000) / 32
    if off % 32 = 0 then some (fwAllocWrite s k v)
    else if off % 32 = 0x10 then some (fwRefWrite s k (rd s 0x0C (0x400C + 32 * k)) v)
    else none
  else none

def writeHqe (s : State) (off : Nat) (v : Word) : Option State :=
  if 0x1800 ≤ off && off < 0x2000 then
    let mid := (off - 0x1800) / 4
    some (if allotOk s mid (Word.fld v 12 0) then wr s 0x0D off (v &&& 0x1FFF) else blockErr s 0x0D 16 0)
  else if 0x2000 ≤ off && off % 32 < 0x0C then some (tenantTableWrite s ((off - 0x2000) / 32) (off % 32 / 4) v)
  else none

/-- Post what waits in FTL's completion ring (R193). -/
def ftlPostAll (s : State) : State := s.ftl.ring.done.foldl (fun s _ => ftlPost s) s

def writeFtl (s : State) (off : Nat) (v : Word) : Option State :=
  if off = 0x100C then some (ftlTailWrite s v)
  else if off = 0x1020 then some (ftlPostAll (wr s 0x0E off (v &&& 0xFFF)))
  else none

/-- CPC (R217, R240, R242): CPC_TEN_MAX below the reserve is a reserved encoding. -/
def writeCpc (s : State) (off : Nat) (v : Word) : Option State :=
  if off = 0x100C then some (cpcTailWrite s v)
  else if off = 0x1020 then some (cpcPost (wr s 0x0F off (v &&& 0xFFF)))
  else if 0x2000 ≤ off then
    let t := (off - 0x2000) / 16
    match off % 16 with
    | 0 => some (tenRsvWrite s t v)
    | 4 => some (if Word.fld v 17 0 < rdF s 0x0F (0x2000 + 16 * t) 17 0 then s else wr s 0x0F off (v &&& 0x3FFFF))
    | 8 => some (tenCtlWrite s t v)
    | _ => none
  else none

/-- PRT (R55, R77, R84): LINK_CTL and RELEASE. -/
def writePrt (s : State) (p off : Nat) (v : Word) : Option State :=
  if off = 0x100 then
    some (linkCtlWrite s p v)
  else if off = 0x110 then some (if Word.bit v 1 then containRelease s p else s)
  else none

/-- WIN (R302, R319, R346): a new cap lets held writes go on. -/
def writeWin (s : State) (off : Nat) (v : Word) : Option State :=
  if 0x1000 ≤ off && off < 0x2000 && off % 8 = 0 then some (winSliceWrite s ((off - 0x1000) / 8) v)
  else if 0x2000 ≤ off && off < 0x6000 && off % 32 < 0x0C then
    some (winTenWrite s ((off - 0x2000) / 32) (Fin.ofNat 3 (off % 32 / 4)) v)
  else if off = 0x11C then some (wRun (wr s 0x18 off (v &&& 0x3FFFFF)))
  else none

def writeDmc (s : State) (off : Nat) (v : Word) : Option State :=
  if off = 0x148 then some (invalWrite s v)
  else if off = 0x174 then some (flipWrite s v)
  else if 0x1400 ≤ off && off < 0x1440 then some (markWrite s ((off - 0x1400) / 8) ((off - 0x1400) / 4 % 2) v)
  else none

/-- Post what waits in a channel's completion ring (R274). -/
def fchPostAll (s : State) (c : Nat) : State := (chanOf s c).ring.done.foldl (fun s _ => postFch s c) s

def writeFch (s : State) (c off : Nat) (v : Word) : Option State :=
  if off = 0x104 then some (retrainWrite s c v)
  else if off = 0x100C then some (fchTailWrite s c v)
  else if off = 0x1020 then some (fchPostAll (wr s (fchRgn c) off (v &&& 0xFFF)) c)
  else if 0x2000 ≤ off && off < 0x2100 && off % 16 = 0x0C then some (dieRetireWrite s c ((off - 0x2000) / 16) v)
  else if off = 0x3404 then some (ucDataWrite s c v)
  else none

/-- GRV_ENG_CTL (R411): DOORBELL, KILL, RETIRE. -/
def engCtlWrite (s : State) (e : Nat) (v : Word) : State :=
  let s := if Word.bit v 0 then doorbell s e else s
  let s := if Word.bit v 1 then killEngine s e else s
  if Word.bit v 2 then retireWrite s e else s

def writeGrv (s : State) (g off : Nat) (v : Word) : Option State :=
  if 0x1000 ≤ off && off < 0x1400 then
    let e := g * 16 + (off - 0x1000) / 64
    match off % 64 with
    | 0x04 => some (engCtlWrite s e v)
    | 0x08 => some (engAssignWrite s e v)
    | _ => none
  else if 0x3000 ≤ off then some (slmTagWrite s g ((off - 0x3000) / 4) v)
  else none

/-- The registers whose write acts. `v` is the word written, `w` the word that a plain store keeps. -/
def writeActs (s : State) (a : Acc) (rgn : Nat) (b : Blk) (i : Nat) (d : RegDesc) (off : Nat) (v w : Word) : Option (TCode × State) :=
  let ok (r : Option State) : Option (TCode × State) := r.map fun s => (.ok, s)
  match b with
  | .top => ok (writeTop s a off v)
  | .trk => ok (writeTrk s a off v)
  | .pwr => ok (writePwr s d off v w)
  | .aon => ok (writeAon s off v)
  | .fus => ok (writeFus s off v)
  | .evr => ok (writeEvr s off v)
  | .mbx => writeMbx s d a off v w
  | .tap => ok (writeTap s d a off v w)
  | .xmv => ok (writeXmv s off v)
  | .sec => ok (writeSec s off v)
  | .pke => ok (writePke s off v)
  | .bpm => ok (writeBpm s off v)
  | .hqe => ok (writeHqe s off v)
  | .ftl => ok (writeFtl s off v)
  | .cpc => ok (writeCpc s off v)
  | .prt => ok (writePrt s i off v)
  | .win => ok (writeWin s off v)
  | .dmc => ok (writeDmc s off v)
  | .fch => ok (writeFch s i off v)
  | .grv => ok (writeGrv s i off v)
  | .bst | .par | .ldc => none

/-- A write of the common header (R35, R38, R43, R44). -/
def headerWrite (s : State) (a : Acc) (rgn : Nat) (b : Blk) (off : Nat) (v : Word) : State :=
  let bits := Word.mask (intBitsOf b - 1) 0
  if off = 0x0C then blkCtlWrite s a rgn v
  else if off = 0x18 then wr s rgn 0x18 (rd s rgn 0x18 &&& ~~~v)
  else if off = 0x1C then wr s rgn 0x1C (v &&& bits)
  else if off = 0x20 then intSet s rgn v
  else if off = 0x24 then wr s rgn 0x24 (v &&& 0x1F)
  else if off = 0x28 then wr s rgn 0x28 (rd s rgn 0x28 &&& ~~~v)
  else if off = 0x3C then wr s rgn 0x3C v
  else s

/-- The effect of one 4-byte write that R33 admits, with its response. -/
def writeReg (s : State) (a : Acc) (rgn off : Nat) (v : Word) : TCode × State :=
  match blkOf rgn with
  | none => (.decode, s)
  | some (b, i) =>
    if off < 0x100 then
      if b = .tap && s.tap.step ≠ 0 then (.ok, attrib s (tapBreak s) rgn a) else (.ok, attrib s (headerWrite s a rgn b off v) rgn a)
    else match descOf b off with
      | none => (.ok, if b = .tap && off < 0x1000 && s.tap.step ≠ 0 then tapBreak s else s)
      | some d =>
        let s := if lockBreach s rgn d off v then captureAcc s rgn 4 0 a else s
        match (if isEnabled s rgn then cfgBit b off else none), busyBit s b off with
        | some k, _ => (.ok, captureAcc s rgn k 0 a)
        | none, some k => (.ok, captureAcc s rgn k 0 a)
        | none, none =>
          let w := storedWord s rgn b d off v
          match writeActs s a rgn b i d off v w with
          | some (c, t) => (c, attrib s t rgn a)
          | none => (.ok, plainWrite s rgn d off v w)

/-- An admitted register access (R32): its response, the data read, and the state; an 8-byte access is two of 4 bytes, the lower offset first. `clear`
says that RC registers are cleared. -/
def regPerform (s : State) (a : Acc) (rgn off : Nat) (clear : Bool) : TCode × Nat × State :=
  if a.kind = .write then
    let (c, s) := writeReg s a rgn off (w32 a.data)
    if a.size = 4 || c ≠ .ok then (c, 0, s)
    else
      let (c, s) := writeReg s a rgn (off + 4) (w32 (a.data / 2 ^ 32))
      (c, 0, s)
  else
    let (lo, s) := readReg s rgn off clear
    if a.size = 4 then (.ok, lo, s)
    else
      let (hi, s) := readReg s rgn (off + 4) clear
      (.ok, lo + hi * 2 ^ 32, s)

/-- A register access (R33). -/
def regAccess (s : State) (a : Acc) (rgn off : Nat) (clear : Bool) : TCode × Nat × State :=
  match regAdmit s rgn off a with
  | some (c, s) => (c, 0, s)
  | none => regPerform s a rgn off clear

end Sys2Proof.Machine
end

