-- ==== Sys2Proof/Machine/Trunk.lean ====
section
/-! DEFINITION. The Trunk (R12 to R15, R19 to R21, R27, R574), register accesses (R32 to R34, R139), broadcast apertures (R45 to R49), BAR2 of the
management port (R62 to R65) and the movers' transfers (R523 to R526). -/

namespace Sys2Proof.Machine

/-! ### The register space -/

/-- The place of a register that an access names. -/
def regPlace (a : Acc) : Nat × Nat := ((a.addr - 0x100000000) / 65536, (a.addr - 0x100000000) % 65536)

/-- The access names a register. -/
def inRegs (a : Acc) : Bool := 0x100000000 ≤ a.addr && a.addr < 0x100800000

/-- The members of an aperture (R45): their regions. -/
def bcastMembers (s : State) (rgn : Nat) : List Nat :=
  if rgn = 0x60 then (List.range 32).map (0x20 + ·)
  else if 0x61 ≤ rgn && rgn ≤ 0x64 then ((List.range 32).map (0x20 + ·)).filter fun r => rdF s r 0x110 1 0 = rgn - 0x61
  else if rgn = 0x68 then (List.range 16).map (0x40 + ·)
  else if rgn = 0x70 then (List.range 8).map (0x10 + ·)
  else []

/-- The skip register of a member, with its bit (R49). -/
def skipReg (r : Nat) : Nat × Nat := if r < 0x18 then (0xF008, r - 0x10) else if r < 0x40 then (0xF000, r - 0x20) else (0xF004, r - 0x40)

/-- A member that is Isolated, Off or Testing is skipped and recorded (R46, R49). -/
def skipMember (s : State) (rgn off r : Nat) : State :=
  let (reg, bit) := skipReg r
  wr (wrF s 0x01 reg bit bit 1) 0x01 0xF00C (w32 (rgn + off / 4 * 256))

/-- What the members answered: how many there are, and how many were denied, declined and skipped, with the data read. -/
structure BcastRes where
  n : Nat := 0
  denied : Nat := 0
  declined : Nat := 0
  skipped : Nat := 0
  data : Nat := 0
  deriving DecidableEq, Repr

/-- One member of a broadcast access (R46, R47): Bark first, then the skip, then R33. -/
def bcastOne (a : Acc) (rgn off : Nat) (p : BcastRes × State) (r : Nat) : BcastRes × State :=
  let (x, s) := p
  let x := { x with n := x.n + 1 }
  let m := { a with addr := regAddr r off }
  let (idx, pass) := barkCheck s r m
  if !pass then ({ x with denied := x.denied + 1 }, recordDenied s r idx m)
  else if refusesRegs s r then ({ x with skipped := x.skipped + 1 }, skipMember s rgn off r)
  else
    let (c, d, s) := regAccess s m r off false
    if c = .decode then ({ x with declined := x.declined + 1 }, s)
    else if c = .domainOff then ({ x with skipped := x.skipped + 1 }, s)
    else ({ x with data := x.data ||| d }, s)

/-- The response of a broadcast access (R46). -/
def BcastRes.code (x : BcastRes) : TCode :=
  if 0 < x.denied then .denied else if 0 < x.declined then .decode else if x.skipped = x.n then .domainOff else .ok

/-- A broadcast access (R45 to R48): an aperture without members answers DECODE and reaches no block; so does a read of a width or alignment outside R32. -/
def broadcast (s : State) (a : Acc) : State :=
  let (rgn, off) := regPlace a
  let l := bcastMembers s rgn
  let odd := !((a.size = 4 && off % 4 = 0) || (a.size = 8 && off % 8 = 0))
  if !inRegs a || !isBcast rgn then s
  else if l = [] || (odd && a.kind ≠ .write) then answer s .decode
  else
    let (x, s) := l.foldl (bcastOne a rgn off) ({}, s)
    answer s x.code x.data

/-- The Trunk's answer to an access of the register space, broadcast apertures among it. -/
def regSpace (s : State) (a : Acc) : TCode × Nat × State :=
  if isBcast (regPlace a).1 then
    let s := broadcast s a
    (s.resp.code, s.resp.data, s)
  else regAccess s a (regPlace a).1 (regPlace a).2 true

/-! ### One request at its target -/

/-- Read an admitted request in pieces of a line. -/
def takeAll (who : Who) (s : State) (a n : Nat) (acc : List Byte) : Nat → TCode × List Byte × State
  | 0 => (.ok, acc, s)
  | fuel + 1 =>
    if n = 0 then (.ok, acc, s)
    else
      let k := min n (64 - a % 64)
      match takePiece s who a k with
      | (.ok, d, s) => takeAll who s (a + k) (n - k) (acc ++ d) fuel
      | (c, _, s) => (c, [], s)

/-- Write an admitted request in pieces of a line. -/
def putAll (who : Who) (s : State) (a : Nat) (d : List Byte) : Nat → State
  | 0 => s
  | fuel + 1 =>
    if d = [] then s
    else
      let k := min d.length (64 - a % 64)
      putAll who (putPiece s who a (d.take k)) (a + k) (d.drop k) fuel

/-- The request lies in one range of the address map; in the register space R32 and R33 judge it. -/
def oneRange (s : State) (a : Acc) : Bool :=
  let last := a.addr + a.size - 1
  match placeOf s a.addr, placeOf s last with
  | .taproot, .taproot | .rom, .rom | .sram, .sram | .dram, .dram => true
  | .grove g, .grove h => g = h
  | .reg _ _, _ => true
  | _, _ => false

/-- A request that its target has checked is performed (R16): the response code, the data, the state. -/
def trunkPerform (s : State) (a : Acc) : TCode × Nat × State :=
  match placeOf s a.addr with
  | .reg rgn off => regPerform s a rgn off true
  | .taproot =>
    if a.kind = .write then (.ok, 0, s)
    else
      let s := tapBankTake s a 0
      (s.resp.code, s.resp.data, s)
  | _ =>
    if a.kind = .write then (.ok, 0, putAll a.who s a.addr (leBytes a.size a.data) (a.size / 64 + 2))
    else
      let (c, d, s) := takeAll a.who s a.addr a.size [] (a.size / 64 + 2)
      (c, leNat d, s)

/-- A request reaches its target (R13, R15, R19, R27): the response code, the data, the state. -/
def trunkAccess (s : State) (a : Acc) : TCode × Nat × State :=
  if a.size = 0 || !oneRange s a then (.decode, 0, s)
  else
    match placeOf s a.addr with
    | .reg _ _ => regSpace s a
    | _ =>
      match busAdmit s a with
      | (.ok, s) => trunkPerform s a
      | (c, s) => (c, 0, s)

/-- The region of the block that issues a master's requests. -/
def masterRgn (mid : Nat) : Nat :=
  if mid < 0x200 then 0x10 + mid / 64
  else if mid < 0x300 then 0x40 + (mid - 0x200) / 16
  else if 0x380 ≤ mid && mid < 0x3A0 then 0x20 + (mid - 0x380)
  else match mid with
    | 0x3A0 => 0x0E
    | 0x3A1 => 0x0F
    | 0x3A2 => 0x18
    | 0x3A3 => 0x0A
    | 0x3A4 => 0x19
    | 0x3A5 => 0x0D
    | 0x3A6 => 0x0C
    | 0x3B0 => 0x05
    | _ => 0x01

/-- The masters whose refusal by a Bark table puts the device in Fault (R142, R574). -/
def refusalFaults (mid : Nat) : Bool := match midClass mid with
  | some 4 | some 6 | some 9 | some 11 | some 13 => true
  | _ => false

/-- The data-path masters, whose TIMEOUT puts the device in Fault (R574). -/
def timeoutFaults (mid : Nat) : Bool := match midClass mid with
  | some 4 | some 5 | some 6 | some 7 | some 8 | some 12 => true
  | _ => false

/-- The target block of a request. -/
def targetRgn (s : State) (a : Acc) : Option Nat := tableOf (placeOf s a.addr)

/-- A block has accepted a request that it has not answered, or has answered it (R585). -/
def holdAccepted (s : State) (a : Acc) (up : Bool) : State :=
  match targetRgn s a with
  | some r => setBlk s r { blkSt s r with accepted := if up then (blkSt s r).accepted + 1 else (blkSt s r).accepted - 1 }
  | none => s

/-- A request of a master is answered. -/
def trunkReply (a : Acc) (r : TCode × Nat × State) : State :=
  let (c, d, s) := r
  let s := if c = .denied && refusalFaults a.who.mid then enterFault s (masterRgn a.who.mid) else s
  let s := if c = .timeout && timeoutFaults a.who.mid then enterFault s (masterRgn a.who.mid) else s
  { s with resp := { code := c, data := d, bytes := if c = .ok && a.kind ≠ .write then leBytes a.size d else [] } }

/-- The target would admit the request: a request it refuses is always answered. -/
def trunkAdmits (s : State) (a : Acc) : Bool :=
  a.size ≠ 0 && oneRange s a &&
    match placeOf s a.addr with
    | .reg rgn off => (regAdmit s rgn off a).isNone
    | _ => (busAdmit s a).1 = .ok

/-- A request that its target accepts and does not answer (R14). -/
def trunkWait (s : State) (a : Acc) : State :=
  let t := s.trunk
  holdAccepted { s with trunk := { t with reqs := t.reqs ++ [{ id := t.nextId, acc := a }], nextId := t.nextId + 1 } } a true

/-! ### The answers to a host's BAR2 accesses -/

/-- PRT_MGMT_ERR captures a failed write of BAR2 (R65, R84): the first until VALID is cleared. -/
def mgmtErr (s : State) (c : TCode) (off : Nat) : State :=
  let r := portRgn (mgmtPort s)
  let s := emit s 0x3003 sevWarning r none (leBytes 1 (tcodeNum c) ++ leBytes 4 off)
  if Word.bit (rd s r 0x134) 0 then s
  else raiseInt (wr (wr s r 0x134 (w32 (1 + tcodeNum c * 2))) r 0x138 (w32 (off % 2 ^ 23))) r 7

/-- How a Trunk response appears to a host read (R65). -/
def bar2Ans (c : TCode) (d : Nat) : HostAns := match c with
  | .ok => { cpl := 0, data := d }
  | .decode => { cpl := 1 }
  | .poison => { cpl := 0, data := d, ep := true }
  | .denied | .domainOff | .timeout => { cpl := 4 }

/-- The completions that may leave (R70): in the order of the requests, up to the first read that has none. What remains of a read that timed out only waits for its late
response. -/
def bar2Ready : List Bar2 → List HostAns × List Bar2
  | [] => ([], [])
  | b :: t =>
    if b.timedOut then ((bar2Ready t).1, b :: (bar2Ready t).2)
    else match b.ans with
      | some a => (a :: (bar2Ready t).1, (bar2Ready t).2)
      | none => ([], b :: t)

/-- Completions leave the port (R70). -/
def bar2Settle (s : State) (p : Nat) : State :=
  let (a, l) := bar2Ready (portOf s p).bar2
  let s := setPort s p { portOf s p with bar2 := l }
  match a with
  | [] => s
  | h :: t => { s with resp := { code := .ok, data := h.data, cpl := h.cpl, ep := h.ep, more := t } }

/-- Errors that a port answers are logged by AER (R80). -/
def ansLog (s : State) (mid : Nat) (a : HostAns) : State := if a.cpl = 1 then aerHost s mid 20 true else if a.cpl = 4 then aerHost s mid 15 true else s

/-- The completion of a read of a BAR of a function, behind those of the port's earlier reads (R70). -/
def hostRead (s : State) (mid : Nat) (a : HostAns) : State :=
  let p := mid / 64
  let s := ansLog s mid a
  let b : Bar2 := { id := s.trunk.nextId, off := 0, size := 0, ans := some a }
  bar2Settle (setPort { s with trunk := { s.trunk with nextId := s.trunk.nextId + 1 } } p { portOf s p with bar2 := (portOf s p).bar2 ++ [b] }) p

/-- The completion of a read that the port has issued on the Trunk (R65, R70). -/
def bar2Cpl (s : State) (id : Nat) (a : HostAns) : State :=
  let p := mgmtPort s
  let s := ansLog s (mgmtPf s) a
  bar2Settle (setPort s p { portOf s p with bar2 := (portOf s p).bar2.map fun b => if b.id = id && b.ans.isNone && !b.timedOut then { b with ans := some a } else b }) p

/-- The BAR2 offset of a request of PF0 of the management port. -/
def bar2Off (a : Acc) : Nat := a.addr - 0x100000000

/-- The answer to an outstanding request (R13, R16): it was checked when it was accepted. One of BAR2 is answered to the host, unless its own timer has run
out: then the response is discarded and recorded (R62). -/
def trunkAnswered (s : State) (r : TrkReq) (rest : List TrkReq) : State :=
  let p := mgmtPort s
  let s := holdAccepted { s with trunk := { s.trunk with reqs := rest } } r.acc false
  let s := trunkReply r.acc (trunkPerform s r.acc)
  match takeFirst (fun b : Bar2 => b.id = r.id && b.ans.isNone) (portOf s p).bar2 with
  | some (b, l) =>
    if b.timedOut then emit (setPort s p { portOf s p with bar2 := l }) 0x4003 sevWarning 0x01 none (leBytes 2 r.acc.who.mid ++ leBytes 6 r.acc.addr)
    else bar2Cpl s r.id (bar2Ans s.resp.code s.resp.data)
  | none => if r.acc.who.mid = mgmtPf s && r.acc.kind = .write && s.resp.code ≠ .ok then mgmtErr s s.resp.code (bar2Off r.acc) else s

/-- TRUNK_REQUEST (R12 to R15, R18): the carried tenant is the master's own. With `answered` the target responds; an outstanding request with the same
fields is then the one that it answers. Without, an admitted request waits for its target. -/
def trunkRequest (s : State) (a : Acc) (answered : Bool) : State :=
  let a := carriedAcc s a
  match (if answered then takeFirst (fun r : TrkReq => r.acc = a) s.trunk.reqs else none) with
  | some (r, rest) => trunkAnswered s r rest
  | none => if answered || !trunkAdmits s a then trunkReply a (trunkAccess s a) else trunkWait s a

def execTrunkRequest (a : Acc) (answered : Bool) (s : State) : Out :=
  if (midClass a.who.mid).isNone then .fault .noSuchMaster else finMedia (trunkRequest s a answered)

/-! ### Timeouts, HOLD notices, late responses -/

/-- A write that timed out may or may not have taken effect (R14). -/
def maybeWrite (s : State) (a : Acc) : State :=
  if a.kind ≠ .write then s
  else
    let (n, s) := takeFree s
    if n % 2 = 1 then (trunkPerform s a).2.2 else s

/-- TRUNK_RESPONSE_TIMEOUT (R13, R14, R65, R574). -/
def trunkTimeout (s : State) (id : Nat) : State :=
  match takeFirst (fun r : TrkReq => r.id = id) s.trunk.reqs with
  | none => s
  | some (r, rest) =>
    let s := maybeWrite { s with trunk := { s.trunk with reqs := rest, late := s.trunk.late ++ [r] } } r.acc
    let s := if timeoutFaults r.acc.who.mid then enterFault s (masterRgn r.acc.who.mid) else s
    let p := mgmtPort s
    match takeFirst (fun b : Bar2 => b.id = id && b.ans.isNone) (portOf s p).bar2 with
    | some (b, l) =>
      if b.timedOut then answer (setPort s p { portOf s p with bar2 := l }) .timeout
      else bar2Cpl s id (bar2Ans .timeout 0)
    | none =>
      answer (if r.acc.who.mid = mgmtPf s && r.acc.kind = .write then mgmtErr s .timeout (bar2Off r.acc) else s) .timeout

def execTrunkResponseTimeout (id : Nat) (s : State) : Out := finMedia (trunkTimeout s id)

/-- The targets whose waits send HOLD notices (R14). -/
def holdsRequests (rgn : Nat) : Bool := rgn = 0x18 || rgn = 0x08 || rgn = 0x0C || rgn = 0x0A

/-- The target holds the request under a wait that sends notices (R14): a request on the Trunk to one of the four targets; a request that waits at the
window engine (R319, R322, R329), for a buffer (R145), at a usage limit or a full queue of SEC (R417, R419). -/
def isHeld (s : State) : HeldAt → Bool
  | .trunk id => match s.trunk.reqs.find? (fun r => r.id = id) with
    | some r => (targetRgn s r.acc).any holdsRequests
    | none => false
  | .win id => s.win.queue.any fun r => r.id = id
  | .bpm n => n < s.bpm.waiters.length
  | .sec id => s.sec.waits.any fun r => r.id = id

/-- HOLD_NOTICE (R14, R153): it restarts the requester's timer and is counted. -/
def holdNotice (s : State) (w : HeldAt) : State :=
  if isHeld s w then
    bump (match w with
      | .trunk id => { s with trunk := { s.trunk with reqs := s.trunk.reqs.map fun x => if x.id = id then { x with restarts := x.restarts + 1 } else x } }
      | _ => s) 0x01 0x114 1
  else s

def execHoldNotice (w : HeldAt) (s : State) : Out := fin (holdNotice s w)

/-- TRUNK_LATE_RESPONSE (R14, R153): the response is discarded at the requester's router, counted and recorded. -/
def lateResponse (s : State) (id : Nat) : State :=
  match takeFirst (fun r : TrkReq => r.id = id) s.trunk.late with
  | none => s
  | some (r, rest) =>
    let s := holdAccepted { s with trunk := { s.trunk with late := rest } } r.acc false
    emit (raiseInt (bump s 0x01 0x104 1) 0x01 1) 0x4003 sevWarning 0x01 none (leBytes 2 r.acc.who.mid ++ leBytes 6 r.acc.addr)

def execTrunkLateResponse (id : Nat) (s : State) : Out := fin (lateResponse s id)

/-! ### Register rows -/

/-- REGISTER_WRITE (R8, R9, R32 to R34): any register; one that has a row of its own acts as that row does. -/
def registerWrite (s : State) (a : Acc) : State :=
  if !inRegs a then s
  else
    let a := { a with kind := AccKind.write }
    let (c, _, s) := regSpace s a
    answer s c

def execRegisterWrite (a : Acc) (s : State) : Out := finMedia (registerWrite s a)

/-- RC_REGISTER_READ (R8, R34): the value is returned and the RC fields are cleared. An event that coincides follows as its own command. -/
def registerRead (s : State) (a : Acc) : State :=
  if !inRegs a then s
  else
    let a := { a with kind := AccKind.read }
    let (c, d, s) := regSpace s a
    answer s c d

def execRcRegisterRead (a : Acc) (s : State) : Out := finMedia (registerRead s a)

/-- The offset of a word of BARK_ENTRY (R153). -/
def barkOff (entry word : Nat) : Nat := 0x1000 + 16 * entry + 4 * word

def execBarkStageWrite (who : Who) (entry : Fin 64) (word : Fin 3) (v : Word) (s : State) : Out :=
  fin (onWrite s who 0x01 (barkOff entry word) v fun s => barkStage s word v)

def execBarkEntryCommit (who : Who) (entry : Fin 64) (v : Word) (s : State) : Out :=
  fin (onWrite s who 0x01 (barkOff entry 3) v fun s => barkCommit s (wrAcc who 0x01 (barkOff entry 3) v) entry v)

/-! ### Broadcast -/

def execBroadcastWrite (a : Acc) (s : State) : Out := finMedia (broadcast s { a with kind := .write })
def execBroadcastRead (a : Acc) (s : State) : Out := finMedia (broadcast s { a with kind := .read })

/-! ### BAR2 -/

/-- The host reaches BAR2 (R63, R64, R73): the management port's link is up and PF0 answers. -/
def bar2Up (s : State) : Bool :=
  (portOf s (mgmtPort s)).dlActive && (fnOf s (mgmtPf s)).ready && !(fnOf s (mgmtPf s)).flrPend

/-- A width and alignment that BAR2 takes (R65), inside its 8 MiB. -/
def bar2Fits (off size : Nat) : Bool := ((size = 4 && off % 4 = 0) || (size = 8 && off % 8 = 0)) && off + size ≤ 0x800000

/-- A BAR2 access as a Trunk request of PF0 (R65). -/
def bar2Acc (s : State) (off size data : Nat) (k : AccKind) : Acc := ⟨⟨mgmtPf s, 0⟩, 0x100000000 + off, size, k, data⟩

/-- A read of BAR2 (R62, R64, R65, R70). D3hot answers Unsupported Request. -/
def bar2Read (s : State) (off size : Nat) (answered : Bool) : State :=
  if !bar2Up s then s
  else if (fnOf s (mgmtPf s)).d3hot || !bar2Fits off size then hostRead s (mgmtPf s) { cpl := 1 }
  else
    let a := carriedAcc s (bar2Acc s off size 0 .read)
    if answered || isBcast (regPlace a).1 || !trunkAdmits s a then
      let (c, d, s) := regSpace s a
      hostRead s (mgmtPf s) (bar2Ans c d)
    else
      let p := mgmtPort s
      let b : Bar2 := { id := s.trunk.nextId, off := off, size := size }
      trunkWait (setPort s p { portOf s p with bar2 := (portOf s p).bar2 ++ [b] }) a

/-- A write of BAR2 (R65): posted; a response other than OK is captured. -/
def bar2Write (s : State) (off size data : Nat) (answered : Bool) : State :=
  if !bar2Up s then s
  else if (fnOf s (mgmtPf s)).d3hot || !bar2Fits off size then aerHost s (mgmtPf s) 20 false
  else
    let a := carriedAcc s (bar2Acc s off size data .write)
    if answered || isBcast (regPlace a).1 || !trunkAdmits s a then
      let (c, _, s) := regSpace s a
      if c = .ok then s else mgmtErr s c off
    else trunkWait s a

/-- BAR2_READ_TIMEOUT (R62, R65): 2.0 ms have passed without a Trunk response. What remains waits for the late one. -/
def bar2Timeout (s : State) (id : Nat) : State :=
  let p := mgmtPort s
  match (portOf s p).bar2.find? (fun b => b.id = id && b.ans.isNone && !b.timedOut) with
  | some b => bar2Cpl (setPort s p { portOf s p with bar2 := (portOf s p).bar2 ++ [{ b with timedOut := true, id := id }] }) id { cpl := 4 }
  | none => s

def execBar2ReadTimeout (id : Nat) (s : State) : Out := fin (bar2Timeout s id)

/-- BAR2_LATE_RESPONSE (R62): it is discarded and recorded as TRUNK_LATE. -/
def bar2Late (s : State) (id : Nat) : State :=
  let p := mgmtPort s
  match takeFirst (fun b : Bar2 => b.id = id && b.timedOut) (portOf s p).bar2, takeFirst (fun r : TrkReq => r.id = id) s.trunk.reqs with
  | some (_, l), some (r, rest) =>
    let s := setPort s p { portOf s p with bar2 := l }
    let s := holdAccepted { s with trunk := { s.trunk with reqs := rest } } r.acc false
    emit s 0x4003 sevWarning 0x01 none (leBytes 2 r.acc.who.mid ++ leBytes 6 r.acc.addr)
  | _, _ => s

def execBar2LateResponse (id : Nat) (s : State) : Out := fin (bar2Late s id)

/-! ### Xylem transfers -/

/-- The descriptor has moved whole (R524): it is written back, FULL is raised, and the head moves on. -/
def xmvFinish (s : State) (c : Nat) (d : XmvDesc) : State :=
  let stopping := (xmvOf s c).st = .stopping
  match xmvWriteBack s c 0 0 with
  | (.ok, s) =>
    let s := if d.ctrl / 8 % 2 = 1 then xmvInt s c 1 else s
    let s := xmvNext s c
    if stopping then xmvStopped s c else setXmv s c (xmvClear (xmvOf s c))
  | (r, s) => xmvError s c 4 (tcodeNum r)

/-- A response that is not OK ended the run (R526): the descriptor is written back with its STATUS, and the head stays. -/
def xmvFail (s : State) (c status code : Nat) : State := xmvError (xmvWriteBack s c status code).2 c (status + 1) code

/-- A response ends the descriptor, unless something ends it already (R526). -/
def xmvEnding (x : XmvCh) (status : Nat) (r : TCode) : XmvCh := { x with ending := x.ending.or (some (status, tcodeNum r)) }

/-- A read response: its bytes enter the funnel (R523). -/
def xmvReadDone (s : State) (c : Nat) (q : XmvReq) (r : TCode) (v : Nat) : State :=
  let x := xmvOf s c
  if x.desc.isNone then s
  else if r ≠ .ok then setXmv s c (xmvEnding x 2 r)
  else setXmv s c { x with got := x.got ++ ((leBytes q.size v).drop q.lo).take q.n }

/-- A write response: DONE advances, as long as no write before it failed; HALF is raised (R524). -/
def xmvWriteDone (s : State) (c : Nat) (q : XmvReq) (r : TCode) : State :=
  let x := xmvOf s c
  match x.desc with
  | none => s
  | some d =>
    if r ≠ .ok then setXmv s c { xmvEnding x 3 r with broken := true }
    else if x.broken then s
    else
      let s := setXmv s c { x with done := x.done + q.n }
      let half := (d.len + 1) / 2
      if d.ctrl / 4 % 2 = 1 && x.done < half && half ≤ x.done + q.n then xmvInt s c 0 else s

/-- Once no request is outstanding, the descriptor ends where it has to, or the channel waits for a credit (R522, R524, R526). -/
def xmvSettle (s : State) (c : Nat) : State :=
  let x := xmvOf s c
  match x.desc with
  | none => s
  | some d =>
    if x.out ≠ [] then s
    else match x.ending with
      | some (1, _) => xmvAborted s c
      | some (st, code) => xmvFail s c st code
      | none => if x.done = d.len then xmvFinish s c d else xmvWait s c

/-- XMV_RESPONSE (R522 to R526): the response to the oldest request of a channel arrives. -/
def xmvResponse (s : State) (c : Nat) : State :=
  match (xmvOf s c).out with
  | [] => s
  | q :: rest =>
    let s := setXmv s c { xmvOf s c with out := rest }
    let (r, v, s) := trunkAccess s ⟨xmvWho c, q.addr, q.size, if q.write then .write else .read, leNat q.data⟩
    let s := if q.write then xmvWriteDone s c q r else xmvReadDone s c q r v
    xmvSettle (xmvGo s) c

def execXmvResponse (ch : Fin 64) (s : State) : Out := finMedia (xmvResponse s ch)

end Sys2Proof.Machine
end

