-- ==== Sys2Proof/Machine/Bar.lean ====
section
/-! DEFINITION. Host accesses to the BARs of functions (R64, R65, R70, R86, R90): the controller registers and doorbells of BAR0, and the MSI-X table and pending bits of
BAR4. -/

namespace Sys2Proof.Machine

/-! ### BAR0: controller registers -/

/-- CAP (R86). The bits lie as in the NVMe specification. -/
def capLo : Nat := 0xFFFF + 2 ^ 16 + 2 ^ 17 + 60 * 2 ^ 24
def capHi : Nat := 2 ^ 5 + 2 ^ 11 + 4 * 2 ^ 20

/-- CC as read: EN, MPS, AMS and SHN, and the other bits that were written. -/
def ccWord (c : Ctrl) : Nat := (c.cc &&& 0x01FF0070).toNat + c.en.toNat + c.mps * 2 ^ 7 + c.ams.toNat * 2 ^ 11 + c.shn * 2 ^ 14

/-- CSTS (R119, R196): RDY, CFS in Fault, SHST. -/
def cstsWord (s : State) (c : Ctrl) : Nat := c.rdy.toNat + s.dev.fault.toNat * 2 + c.shst * 4

/-- A dword of BAR0 below the doorbells; an offset without a register reads zero. -/
def bar0Dword (s : State) (mid off : Nat) : Nat :=
  let c := ctrlOf s mid
  match off with
  | 0x00 => capLo
  | 0x04 => capHi
  | 0x08 => 0x00020000
  | 0x14 => ccWord c
  | 0x1C => cstsWord s c
  | 0x24 => c.aqa.toNat
  | 0x28 => c.asq % 2 ^ 32
  | 0x2C => c.asq / 2 ^ 32
  | 0x30 => c.acq % 2 ^ 32
  | 0x34 => c.acq / 2 ^ 32
  | _ => 0

/-- A write of CC (R86, R119): EN enables or resets the controller, with MPS and AMS; SHN notifies of a shutdown. A value of MPS or AMS that CAP does not
report is not taken. -/
def ccWrite (s : State) (mid : Nat) (v : Word) : State :=
  let c := ctrlOf s mid
  let s := setCtrl s mid { c with cc := v }
  if Word.bit v 0 && !c.en then
    controllerEnable s mid (if Word.fld v 13 11 ≤ 1 then Word.fld v 13 11 = 1 else c.ams) (if Word.fld v 10 7 ≤ 4 then Word.fld v 10 7 else c.mps) c.aqa c.asq c.acq
  else if !Word.bit v 0 && c.en then controllerReset s mid
  else if Word.fld v 15 14 ≠ 0 && Word.fld v 15 14 ≠ 3 then shutdownNotify s mid (Word.fld v 15 14)
  else s

/-- A dword written to BAR0 (R90): the tail doorbell of SQ y lies at 0x1000 + 8 y, the head doorbell of CQ y 4 bytes on. AQA, ASQ and ACQ are taken while the
controller is disabled. -/
def bar0Store (s : State) (mid off : Nat) (v : Word) : State :=
  let c := ctrlOf s mid
  if 0x1000 ≤ off then
    let y := (off - 0x1000) / 8
    if (off - 0x1000) % 8 = 0 then sqDoorbell s mid y (Word.fld v 15 0) else cqDoorbell s mid y (Word.fld v 15 0)
  else if off = 0x14 then ccWrite s mid v
  else if c.en then s
  else match off with
  | 0x24 => setCtrl s mid { c with aqa := v &&& 0x0FFF0FFF }
  | 0x28 => setCtrl s mid { c with asq := c.asq / 2 ^ 32 * 2 ^ 32 + v.toNat / 4096 * 4096 }
  | 0x2C => setCtrl s mid { c with asq := v.toNat * 2 ^ 32 + c.asq % 2 ^ 32 }
  | 0x30 => setCtrl s mid { c with acq := c.acq / 2 ^ 32 * 2 ^ 32 + v.toNat / 4096 * 4096 }
  | 0x34 => setCtrl s mid { c with acq := v.toNat * 2 ^ 32 + c.acq % 2 ^ 32 }
  | _ => s

/-! ### BAR4: MSI-X -/

/-- A dword of BAR4 (R64): the MSI-X table, whose vectors are masked until they are written, and the pending bits. -/
def bar4Dword (s : State) (mid off : Nat) : Nat :=
  let f := fnOf s mid
  let pba := if mid % 64 = 0 then 0x8000 else 0x800
  if off < 16 * msixVectors mid then (Tbl.getD f.msixTab (off / 4) (if off % 16 = 12 then 1 else 0)).toNat
  else if pba ≤ off && off < pba + msixVectors mid / 8 then bitsOf ((List.range 32).map fun i => f.pba.contains ((off - pba) * 8 + i))
  else 0

/-- A dword written to BAR4: an entry of the MSI-X table; a message that pends leaves when its vector is unmasked. -/
def bar4Store (s : State) (mid off : Nat) (v : Word) : State :=
  if 16 * msixVectors mid ≤ off then s
  else
    let w := if off % 16 = 0 then v &&& 0xFFFFFFFC else if off % 16 = 12 then v &&& 1 else v
    msixFlush (setFn s mid { fnOf s mid with msixTab := Tbl.put (fnOf s mid).msixTab (off / 4) w }) mid

/-! ### Accesses -/

/-- The size of BAR0 and BAR4 of a function (R64). -/
def barSize (mid : Nat) (four : Bool) : Nat := if !four then 0x10000 else if mid % 64 = 0 then 0x40000 else 0x1000

/-- A width and alignment that a BAR takes (R65). -/
def barFits (lim off size : Nat) : Bool := ((size = 4 && off % 4 = 0) || (size = 8 && off % 8 = 0)) && off + size ≤ lim

/-- A function answers memory requests: its link is up, and it is ready. -/
def barUp (s : State) (mid : Nat) : Bool := (portOf s (mid / 64)).dlActive && fnPresent s mid && (fnOf s mid).ready && !(fnOf s mid).flrPend

/-- The doorbells and the CXL blocks, whose reads this part does not define. -/
def barOpen (mid off : Nat) (four : Bool) : Bool := if four then mid % 64 = 0 && 0x10000 ≤ off && off < 0x21000 else 0x1000 ≤ off

/-- A read of BAR0 or BAR4 of a function (R64, R65, R70). -/
def barRead (s : State) (mid off size : Nat) (four : Bool) : State :=
  if !barUp s mid then s
  else if (fnOf s mid).d3hot || !barFits (barSize mid four) off size then hostRead s mid { cpl := 1 }
  else if barOpen mid off four then
    let (v, s) := takeFree s
    hostRead s mid { cpl := 0, data := v % 256 ^ size }
  else
    let w (o : Nat) : Nat := if four then bar4Dword s mid o else bar0Dword s mid o
    hostRead s mid { cpl := 0, data := w off + if size = 8 then w (off + 4) * 2 ^ 32 else 0 }

/-- A write of BAR0 or BAR4 of a function (R65, R90): one of 8 bytes is two, the lower first. -/
def barWrite (s : State) (mid off size data : Nat) (four : Bool) : State :=
  if !barUp s mid then s
  else if (fnOf s mid).d3hot || !barFits (barSize mid four) off size then aerHost s mid 20 false
  else
    let put (s : State) (o : Nat) (v : Word) : State := if four then bar4Store s mid o v else bar0Store s mid o v
    let s := put { s with resp := {} } off (w32 (data % 2 ^ 32))
    hostKeep (if size = 8 then put s (off + 4) (w32 (data / 2 ^ 32)) else s)

/-- BAR2_READ (R62, R64, R65, R86): a host read of BAR2, or of BAR0 or BAR4 of a function. -/
def execBar2Read (bar : HostBar) (off size : Nat) (answered : Bool) (s : State) : Out := finMedia (match bar with
  | .bar2 => bar2Read s off size answered
  | .bar0 m => barRead s m off size false
  | .bar4 m => barRead s m off size true)

/-- BAR2_WRITE (R65, R90): a host write of BAR2, or of BAR0 or BAR4 of a function. -/
def execBar2Write (bar : HostBar) (off size data : Nat) (answered : Bool) (s : State) : Out := finMedia (match bar with
  | .bar2 => bar2Write s off size data answered
  | .bar0 m => barWrite s m off size data false
  | .bar4 m => barWrite s m off size data true)

end Sys2Proof.Machine
end

