-- ==== Sys2Proof/Machine/BpmCmd.lean ====
section
/-! DEFINITION. The buffer commands of the pools (R143 to R153). -/

namespace Sys2Proof.Machine

def execBufferAlloc (owner : Fin 64) (size : Nat) (map internal : Bool) (work : Nat) (s : State) : Out :=
  fin (bufferAlloc s owner size map internal work)

def execBpmFwAllocWrite (who : Who) (core : Fin 4) (v : Word) (s : State) : Out :=
  fin (onWrite s who 0xC (0x4000 + 32 * core) v fun s => fwAllocWrite s core v)

def execBpmClassWrite (who : Who) (cls : Fin 8) (v : Word) (s : State) : Out :=
  fin (onWrite s who 0xC (0x120 + 4 * cls) v fun s =>
    if (blkSt s 0xC).lock then
      (if v = rd s 0xC (0x120 + 4 * cls) then s else captureErr s 0xC 4 true 4 0 0 (regAddr 0xC (0x120 + 4 * cls)) who)
    else classWrite s cls v)

def execBpmAreaWrite (who : Who) (word : Fin 4) (v : Word) (s : State) : Out :=
  fin (onWrite s who 0xC (0x100 + 4 * word) v fun s =>
    if (blkSt s 0xC).lock then
      (if v = rd s 0xC (0x100 + 4 * word) then s else captureErr s 0xC 4 true 4 0 0 (regAddr 0xC (0x100 + 4 * word)) who)
    else areaWrite s word v)

def execBpmLimitWrite (who : Who) (off : Nat) (v : Word) (s : State) : Out :=
  fin (onWrite s who 0xC off v fun s => limitWrite s off v)

/-- BUFFER_SHARE (R148, R149). -/
def execBufferShare (addr tenant : Nat) (s : State) : Out :=
  let r := bpmShare s addr tenant
  fin (answer r.2 .ok r.1.word)

/-- BUFFER_RELEASE (R148, R149). -/
def execBufferRelease (addr tenant : Nat) (s : State) : Out :=
  let r := bpmRelease s addr tenant
  fin (answer r.2 .ok r.1.word)

def execBpmFwRefWrite (who : Who) (core : Fin 4) (lo hi : Word) (s : State) : Out :=
  fin (onWrite s who 0xC (0x4010 + 32 * core) hi fun s => fwRefWrite s core lo hi)

end Sys2Proof.Machine
end

