-- ==== Sys2Proof/Machine/DmcCmd.lean ====
section
/-! DEFINITION. The DRAM commands (R349 to R372). -/

namespace Sys2Proof.Machine

/-- A data request to DMC while the block refuses data receives DOMAIN_OFF (R27, R623). -/
def dmcServes (s : State) (f : State → State) : State := if refusesData s 0x1B then answer s .domainOff else f s

/-- DRAM_WRITE (R357, R361, R367): a full line. -/
def execDramWrite (a : Acc) (poison : Bool) (s : State) : Out :=
  fin (dmcServes s fun s => dramWrite s ⟨{ a with kind := .write, size := 64, addr := a.addr / 64 * 64 }, poison⟩ [])

def execDmcInvalidate (who : Who) (v : Word) (s : State) : Out :=
  fin (onWrite s who 0x1B 0x148 v fun s => invalWrite s v)

def execDmcInvalidateDone (s : State) : Out := fin (dmcInvalidateDone s)

def execDmcFlipArm (who : Who) (v : Word) (s : State) : Out :=
  fin (onWrite s who 0x1B 0x174 v fun s => flipWrite s v)

/-- DRAM_REFRESH (R364): a refresh changes no contents and no register. -/
def execDramRefresh (_sub : Fin 8) (_rank : Fin 2) (_bank : Fin 4) (s : State) : Out := fin s

def execDmcTrainDone (fails : List TrainFail) (s : State) : Out := fin (dmcTrainDone s fails)

/-- DRAM_READ (R356, R360, R363). -/
def execDramRead (a : Acc) (errs : List SymErr) (bitmapErr : Bool) (s : State) : Out :=
  fin (dmcServes s fun s =>
    dramRead (if bitmapErr && dramUp s then bitmapWordError s (granuleOf (lineOf a.addr)) else s) { a with kind := .read } errs)

/-- DRAM_NARROW_WRITE (R359). -/
def execDramNarrowWrite (a : Acc) (errs : List SymErr) (s : State) : Out :=
  fin (dmcServes s fun s => dramWrite s ⟨{ a with kind := .write }, false⟩ errs)

def execGranuleFillDone (granule : Nat) (s : State) : Out := fin (granuleFillDone s granule)

def execDmcMarkWrite (who : Who) (sub : Fin 8) (rank : Fin 2) (v : Word) (s : State) : Out :=
  fin (onWrite s who 0x1B (markOff sub rank) v fun s => markWrite s sub rank v)

def execScrubAccess (errs : List SymErr) (superseded : Bool) (s : State) : Out := fin (scrubAccess s errs superseded)

end Sys2Proof.Machine
end

