-- ==== Sys2Proof/Machine/Dispatch.lean ====
section
/-! DEFINITION. The dispatch of the commands to their meanings: one arm per constructor of Instr. -/

namespace Sys2Proof.Machine

/-- The effect of a command on everything but the queue of waiting commands. -/
def exec (i : Instr) (s : State) : Host.Outcome State Fault Refusal :=
  match i with
  | .trunkRequest a answered => Sys2Proof.Machine.execTrunkRequest a answered s
  | .trunkResponseTimeout id => Sys2Proof.Machine.execTrunkResponseTimeout id s
  | .holdNotice w => Sys2Proof.Machine.execHoldNotice w s
  | .trunkLateResponse id => Sys2Proof.Machine.execTrunkLateResponse id s
  | .registerWrite a => Sys2Proof.Machine.execRegisterWrite a s
  | .rcRegisterRead a => Sys2Proof.Machine.execRcRegisterRead a s
  | .barkStageWrite who entry word v => Sys2Proof.Machine.execBarkStageWrite who entry word v s
  | .barkEntryCommit who entry v => Sys2Proof.Machine.execBarkEntryCommit who entry v s
  | .broadcastWrite a => Sys2Proof.Machine.execBroadcastWrite a s
  | .broadcastRead a => Sys2Proof.Machine.execBroadcastRead a s
  | .enableSet who rgn => Sys2Proof.Machine.execEnableSet who rgn s
  | .enableClear who rgn => Sys2Proof.Machine.execEnableClear who rgn s
  | .blockInitDone rgn => Sys2Proof.Machine.execBlockInitDone rgn s
  | .softReset who rgn viaTop => Sys2Proof.Machine.execSoftReset who rgn viaTop s
  | .softResetEnd rgn => Sys2Proof.Machine.execSoftResetEnd rgn s
  | .isolateSet who rgn viaTop => Sys2Proof.Machine.execIsolateSet who rgn viaTop s
  | .drainEnd rgn => Sys2Proof.Machine.execDrainEnd rgn s
  | .powerReqClear who rgn viaTop => Sys2Proof.Machine.execPowerReqClear who rgn viaTop s
  | .powerReqSet who rgn viaTop => Sys2Proof.Machine.execPowerReqSet who rgn viaTop s
  | .isolateClear who rgn viaTop => Sys2Proof.Machine.execIsolateClear who rgn viaTop s
  | .lockSet who rgn => Sys2Proof.Machine.execLockSet who rgn s
  | .intSetWrite who rgn v => Sys2Proof.Machine.execIntSetWrite who rgn v s
  | .receiverDetected p => Sys2Proof.Machine.execReceiverDetected p s
  | .detectIntervalExpiry p => Sys2Proof.Machine.execDetectIntervalExpiry p s
  | .dlActiveReached p rate width flit cxl => Sys2Proof.Machine.execDlActiveReached p rate width flit cxl s
  | .trainingReturnToDetect p => Sys2Proof.Machine.execTrainingReturnToDetect p s
  | .perstAssert p => Sys2Proof.Machine.execPerstAssert p s
  | .perstDeassert p => Sys2Proof.Machine.execPerstDeassert p s
  | .hotResetReceived p => Sys2Proof.Machine.execHotResetReceived p s
  | .linkDisableReceived p => Sys2Proof.Machine.execLinkDisableReceived p s
  | .linkRetrain who p v => Sys2Proof.Machine.execLinkRetrain who p v s
  | .linkEnClear who p v => Sys2Proof.Machine.execLinkEnClear who p v s
  | .linkEnSet who p v => Sys2Proof.Machine.execLinkEnSet who p v s
  | .flitCrcFail p fec again e => Sys2Proof.Machine.execFlitCrcFail p fec again e s
  | .recoveryEnd p ok => Sys2Proof.Machine.execRecoveryEnd p ok s
  | .surpriseDown p => Sys2Proof.Machine.execSurpriseDown p s
  | .poisonedTlpReceived p fn hdr => Sys2Proof.Machine.execPoisonedTlpReceived p fn hdr s
  | .malformedTlpReceived p fn hdr => Sys2Proof.Machine.execMalformedTlpReceived p fn hdr s
  | .completionTimeout p tag hdr => Sys2Proof.Machine.execCompletionTimeout p tag hdr s
  | .hostCompletionReceived p tag r => Sys2Proof.Machine.execHostCompletionReceived p tag r s
  | .containRelease who p => Sys2Proof.Machine.execContainRelease who p s
  | .bar2Read bar off size answered => Sys2Proof.Machine.execBar2Read bar off size answered s
  | .bar2Write bar off size data answered => Sys2Proof.Machine.execBar2Write bar off size data answered s
  | .bar2ReadTimeout id => Sys2Proof.Machine.execBar2ReadTimeout id s
  | .bar2LateResponse id => Sys2Proof.Machine.execBar2LateResponse id s
  | .configRequest p fn r w => Sys2Proof.Machine.execConfigRequest p fn r w s
  | .functionReady p fn => Sys2Proof.Machine.execFunctionReady p fn s
  | .flrInitiate p fn => Sys2Proof.Machine.execFlrInitiate p fn s
  | .flrComplete p fn => Sys2Proof.Machine.execFlrComplete p fn s
  | .hmbDropComplete => Sys2Proof.Machine.execHmbDropComplete s
  | .bmeClear p fn => Sys2Proof.Machine.execBmeClear p fn s
  | .bmeSet p fn => Sys2Proof.Machine.execBmeSet p fn s
  | .d3hotEntry p fn => Sys2Proof.Machine.execD3hotEntry p fn s
  | .l0pRequest p lanes => Sys2Proof.Machine.execL0pRequest p lanes s
  | .doeRequest p vendor typ d => Sys2Proof.Machine.execDoeRequest p vendor typ d s
  | .doeAbort p => Sys2Proof.Machine.execDoeAbort p s
  | .sqTailDoorbell mid qid v => Sys2Proof.Machine.execSqTailDoorbell mid qid v s
  | .cqHeadDoorbell mid qid v => Sys2Proof.Machine.execCqHeadDoorbell mid qid v s
  | .sqFetch => Sys2Proof.Machine.execSqFetch s
  | .sqEntryArrival p tag e => Sys2Proof.Machine.execSqEntryArrival p tag e s
  | .cqPost c => Sys2Proof.Machine.execCqPost c s
  | .writePowerProtected c => Sys2Proof.Machine.execWritePowerProtected c s
  | .flush c => Sys2Proof.Machine.execFlush c s
  | .write c => Sys2Proof.Machine.execWrite c s
  | .read c => Sys2Proof.Machine.execRead c s
  | .writeUncorrectable c => Sys2Proof.Machine.execWriteUncorrectable c s
  | .compare c => Sys2Proof.Machine.execCompare c s
  | .writeZeroes c => Sys2Proof.Machine.execWriteZeroes c s
  | .datasetManagement c => Sys2Proof.Machine.execDatasetManagement c s
  | .verify c => Sys2Proof.Machine.execVerify c s
  | .reservationRegister c => Sys2Proof.Machine.execReservationRegister c s
  | .reservationReport c => Sys2Proof.Machine.execReservationReport c s
  | .reservationAcquire c => Sys2Proof.Machine.execReservationAcquire c s
  | .reservationRelease c => Sys2Proof.Machine.execReservationRelease c s
  | .copy c => Sys2Proof.Machine.execCopy c s
  | .reclaimUnitHandleUpdate c => Sys2Proof.Machine.execReclaimUnitHandleUpdate c s
  | .createIoSq c => Sys2Proof.Machine.execCreateIoSq c s
  | .createIoCq c => Sys2Proof.Machine.execCreateIoCq c s
  | .deleteIoSq c => Sys2Proof.Machine.execDeleteIoSq c s
  | .deleteIoCq c => Sys2Proof.Machine.execDeleteIoCq c s
  | .identify c => Sys2Proof.Machine.execIdentify c s
  | .abort c => Sys2Proof.Machine.execAbort c s
  | .asyncEventRequest c => Sys2Proof.Machine.execAsyncEventRequest c s
  | .getLogPageC0h c => Sys2Proof.Machine.execGetLogPageC0h c s
  | .getLogPageC2h c => Sys2Proof.Machine.execGetLogPageC2h c s
  | .getLogPageC3h c => Sys2Proof.Machine.execGetLogPageC3h c s
  | .getLogPageC4h c => Sys2Proof.Machine.execGetLogPageC4h c s
  | .getLogPageC5h c => Sys2Proof.Machine.execGetLogPageC5h c s
  | .getLogPageSmart c => Sys2Proof.Machine.execGetLogPageSmart c s
  | .getLogPageFwSlot c => Sys2Proof.Machine.execGetLogPageFwSlot c s
  | .namespaceMgmtCreate c => Sys2Proof.Machine.execNamespaceMgmtCreate c s
  | .namespaceMgmtDelete c => Sys2Proof.Machine.execNamespaceMgmtDelete c s
  | .namespaceDeleteResume nsid => Sys2Proof.Machine.execNamespaceDeleteResume nsid s
  | .namespaceAttachment c => Sys2Proof.Machine.execNamespaceAttachment c s
  | .formatNvm c => Sys2Proof.Machine.execFormatNvm c s
  | .resumeQueue c => Sys2Proof.Machine.execResumeQueue c s
  | .setFeaturesNumberOfQueues c => Sys2Proof.Machine.execSetFeaturesNumberOfQueues c s
  | .setFeaturesArbitration c => Sys2Proof.Machine.execSetFeaturesArbitration c s
  | .setFeaturesOrderedQueue c => Sys2Proof.Machine.execSetFeaturesOrderedQueue c s
  | .getFeaturesOrderedQueue c => Sys2Proof.Machine.execGetFeaturesOrderedQueue c s
  | .setFeaturesUrgentBudget c => Sys2Proof.Machine.execSetFeaturesUrgentBudget c s
  | .getFeaturesUrgentBudget c => Sys2Proof.Machine.execGetFeaturesUrgentBudget c s
  | .setFeaturesPortWeights c => Sys2Proof.Machine.execSetFeaturesPortWeights c s
  | .getFeaturesPortWeights c => Sys2Proof.Machine.execGetFeaturesPortWeights c s
  | .setFeaturesHostMemoryBuffer c sizes => Sys2Proof.Machine.execSetFeaturesHostMemoryBuffer c sizes s
  | .setFeaturesErrorRecovery c => Sys2Proof.Machine.execSetFeaturesErrorRecovery c s
  | .getFeaturesErrorRecovery c => Sys2Proof.Machine.execGetFeaturesErrorRecovery c s
  | .setFeaturesPowerManagement c => Sys2Proof.Machine.execSetFeaturesPowerManagement c s
  | .setFeaturesFdp c => Sys2Proof.Machine.execSetFeaturesFdp c s
  | .setFeaturesTempThreshold c => Sys2Proof.Machine.execSetFeaturesTempThreshold c s
  | .setFeaturesTimestamp c => Sys2Proof.Machine.execSetFeaturesTimestamp c s
  | .controllerReset mid => Sys2Proof.Machine.execControllerReset mid s
  | .controllerEnable mid ams mps aqa asq acq => Sys2Proof.Machine.execControllerEnable mid ams mps aqa asq acq s
  | .controllerReady mid ms => Sys2Proof.Machine.execControllerReady mid ms s
  | .shutdownNotification mid kind => Sys2Proof.Machine.execShutdownNotification mid kind s
  | .shutdownComplete mid => Sys2Proof.Machine.execShutdownComplete mid s
  | .tenantBindFunction c => Sys2Proof.Machine.execTenantBindFunction c s
  | .tenantQueueAllotment c => Sys2Proof.Machine.execTenantQueueAllotment c s
  | .tenantHostLimits c => Sys2Proof.Machine.execTenantHostLimits c s
  | .tenantPoolOwner c => Sys2Proof.Machine.execTenantPoolOwner c s
  | .tenantPoolLimits c => Sys2Proof.Machine.execTenantPoolLimits c s
  | .tenantInternalReserve c => Sys2Proof.Machine.execTenantInternalReserve c s
  | .tenantNamespaceOwner c => Sys2Proof.Machine.execTenantNamespaceOwner c s
  | .tenantNamespaceShare c => Sys2Proof.Machine.execTenantNamespaceShare c s
  | .tenantKeySlots c => Sys2Proof.Machine.execTenantKeySlots c s
  | .tenantEngineAssignment c => Sys2Proof.Machine.execTenantEngineAssignment c s
  | .tenantWindowSlices c => Sys2Proof.Machine.execTenantWindowSlices c s
  | .tenantClearWindowSlices c => Sys2Proof.Machine.execTenantClearWindowSlices c s
  | .trkFnTenantWrite who mid v => Sys2Proof.Machine.execTrkFnTenantWrite who mid v s
  | .hqeTenantTableWrite who t word v => Sys2Proof.Machine.execHqeTenantTableWrite who t word v s
  | .hqeFnQallotWrite who mid v => Sys2Proof.Machine.execHqeFnQallotWrite who mid v s
  | .bufferAlloc owner size map internal work => Sys2Proof.Machine.execBufferAlloc owner size map internal work s
  | .bufferShare addr tenant => Sys2Proof.Machine.execBufferShare addr tenant s
  | .bufferRelease addr tenant => Sys2Proof.Machine.execBufferRelease addr tenant s
  | .bpmFwAllocWrite who core v => Sys2Proof.Machine.execBpmFwAllocWrite who core v s
  | .bpmFwRefWrite who core lo hi => Sys2Proof.Machine.execBpmFwRefWrite who core lo hi s
  | .bpmClassWrite who cls v => Sys2Proof.Machine.execBpmClassWrite who cls v s
  | .bpmAreaWrite who word v => Sys2Proof.Machine.execBpmAreaWrite who word v s
  | .bpmTenOwnerWrite who tenant v => Sys2Proof.Machine.execBpmTenOwnerWrite who tenant v s
  | .bpmLimitWrite who off v => Sys2Proof.Machine.execBpmLimitWrite who off v s
  | .pageInComplete root => Sys2Proof.Machine.execPageInComplete root s
  | .hmbMoveComplete root ok => Sys2Proof.Machine.execHmbMoveComplete root ok s
  | .hmbMoveTimeout root => Sys2Proof.Machine.execHmbMoveTimeout root s
  | .leafWritebackStart root => Sys2Proof.Machine.execLeafWritebackStart root s
  | .leafWritebackDone root => Sys2Proof.Machine.execLeafWritebackDone root s
  | .journalPageTimer => Sys2Proof.Machine.execJournalPageTimer s
  | .coppiceAssign tenant ruh accErr => Sys2Proof.Machine.execCoppiceAssign tenant ruh accErr s
  | .idleClosureTimeout ru row => Sys2Proof.Machine.execIdleClosureTimeout ru row s
  | .ftlWorkTailWrite who v => Sys2Proof.Machine.execFtlWorkTailWrite who v s
  | .nsInit => Sys2Proof.Machine.execNsInit s
  | .nsFree => Sys2Proof.Machine.execNsFree s
  | .leafWb => Sys2Proof.Machine.execLeafWb s
  | .ckptBegin => Sys2Proof.Machine.execCkptBegin s
  | .dirSnapshot => Sys2Proof.Machine.execDirSnapshot s
  | .ckptCommit => Sys2Proof.Machine.execCkptCommit s
  | .replay => Sys2Proof.Machine.execReplay s
  | .leafRebuild ends => Sys2Proof.Machine.execLeafRebuild ends s
  | .hmbAttach => Sys2Proof.Machine.execHmbAttach s
  | .hmbDetach => Sys2Proof.Machine.execHmbDetach s
  | .evictOwner => Sys2Proof.Machine.execEvictOwner s
  | .ftlCompletionPost => Sys2Proof.Machine.execFtlCompletionPost s
  | .coppiceReclaimStart tenant => Sys2Proof.Machine.execCoppiceReclaimStart tenant s
  | .relocationSourceErase ru => Sys2Proof.Machine.execRelocationSourceErase ru s
  | .staticWearLevel dset => Sys2Proof.Machine.execStaticWearLevel dset s
  | .readDisturbLimit ru => Sys2Proof.Machine.execReadDisturbLimit ru s
  | .patrolSample ru bits soft => Sys2Proof.Machine.execPatrolSample ru bits soft s
  | .tempHistorySample => Sys2Proof.Machine.execTempHistorySample s
  | .hourlySlotAdvance => Sys2Proof.Machine.execHourlySlotAdvance s
  | .cpcWorkTailWrite who v => Sys2Proof.Machine.execCpcWorkTailWrite who v s
  | .ruInit factory => Sys2Proof.Machine.execRuInit factory s
  | .dieRetire => Sys2Proof.Machine.execDieRetire s
  | .blockRetire => Sys2Proof.Machine.execBlockRetire s
  | .ruRelocate => Sys2Proof.Machine.execRuRelocate s
  | .summaryWrite => Sys2Proof.Machine.execSummaryWrite s
  | .summaryLoad lost => Sys2Proof.Machine.execSummaryLoad lost s
  | .flushAdopt => Sys2Proof.Machine.execFlushAdopt s
  | .patrolNow found => Sys2Proof.Machine.execPatrolNow found s
  | .cpcTenRsvWrite who tenant v => Sys2Proof.Machine.execCpcTenRsvWrite who tenant v s
  | .cpcTenCtlWrite who tenant v => Sys2Proof.Machine.execCpcTenCtlWrite who tenant v s
  | .fchPowerWaitDone c => Sys2Proof.Machine.execFchPowerWaitDone c s
  | .dieDetectTimeout c d => Sys2Proof.Machine.execDieDetectTimeout c d s
  | .fchIdentDone c pages ids tim0 tim1 => Sys2Proof.Machine.execFchIdentDone c pages ids tim0 tim1 s
  | .fchTrainDone c rates => Sys2Proof.Machine.execFchTrainDone c rates s
  | .zqCalibration c d => Sys2Proof.Machine.execZqCalibration c d s
  | .readDqRetrain c d ok => Sys2Proof.Machine.execReadDqRetrain c d ok s
  | .fchRetrain who c v => Sys2Proof.Machine.execFchRetrain who c v s
  | .fchRetrainDone c rates => Sys2Proof.Machine.execFchRetrainDone c rates s
  | .fchOpRead c o => Sys2Proof.Machine.execFchOpRead c o s
  | .fchOpReadSoft c o => Sys2Proof.Machine.execFchOpReadSoft c o s
  | .fchOpProg c o => Sys2Proof.Machine.execFchOpProg c o s
  | .fchOpProgFoggy c o => Sys2Proof.Machine.execFchOpProgFoggy c o s
  | .fchOpProgFine c o => Sys2Proof.Machine.execFchOpProgFine c o s
  | .fchOpErase c o => Sys2Proof.Machine.execFchOpErase c o s
  | .fchOpResetLun c o => Sys2Proof.Machine.execFchOpResetLun c o s
  | .fchOpReadId c o => Sys2Proof.Machine.execFchOpReadId c o s
  | .fchOpGetFeature c o => Sys2Proof.Machine.execFchOpGetFeature c o s
  | .fchOpSetFeature c o => Sys2Proof.Machine.execFchOpSetFeature c o s
  | .fchOpCancel c o => Sys2Proof.Machine.execFchOpCancel c o s
  | .dieOpStart die aged => Sys2Proof.Machine.execDieOpStart die aged s
  | .busBurstGrant die aged => Sys2Proof.Machine.execBusBurstGrant die aged s
  | .dieOpComplete die failed value bytes => Sys2Proof.Machine.execDieOpComplete die failed value bytes s
  | .opSuspend die => Sys2Proof.Machine.execOpSuspend die s
  | .opResume die => Sys2Proof.Machine.execOpResume die s
  | .dieHung die => Sys2Proof.Machine.execDieHung die s
  | .dieLost die burst => Sys2Proof.Machine.execDieLost die burst s
  | .fchWorkTailWrite who c v => Sys2Proof.Machine.execFchWorkTailWrite who c v s
  | .fchDieRetireWrite who c d v => Sys2Proof.Machine.execFchDieRetireWrite who c d v s
  | .fchUcDataWrite who c v => Sys2Proof.Machine.execFchUcDataWrite who c v s
  | .codewordDecodeDone id zeroSyndrome bits => Sys2Proof.Machine.execCodewordDecodeDone id zeroSyndrome bits s
  | .stripeRebuildDone id => Sys2Proof.Machine.execStripeRebuildDone id s
  | .busyHintReceived id => Sys2Proof.Machine.execBusyHintReceived id s
  | .recoveryTimeLimit c => Sys2Proof.Machine.execRecoveryTimeLimit c s
  | .bgRecoveryLimit pua => Sys2Proof.Machine.execBgRecoveryLimit pua s
  | .weakBlockExpire die block => Sys2Proof.Machine.execWeakBlockExpire die block s
  | .trackedThresholdUpdate c cls up dn => Sys2Proof.Machine.execTrackedThresholdUpdate c cls up dn s
  | .memrd port hpa m tag => Sys2Proof.Machine.execMemrd port hpa m tag s
  | .meminv port hpa tag => Sys2Proof.Machine.execMeminv port hpa tag s
  | .memrddata port hpa tag => Sys2Proof.Machine.execMemrddata port hpa tag s
  | .memwr port hpa m tag data poison => Sys2Proof.Machine.execMemwr port hpa m tag data poison s
  | .memwrptl port hpa m tag data mask poison => Sys2Proof.Machine.execMemwrptl port hpa m tag data mask poison s
  | .memclnevct port hpa tag => Sys2Proof.Machine.execMemclnevct port hpa tag s
  | .memspecrd port hpa tag => Sys2Proof.Machine.execMemspecrd port hpa tag s
  | .birsp port line rsp => Sys2Proof.Machine.execBirsp port line rsp s
  | .biconflict port line => Sys2Proof.Machine.execBiconflict port line s
  | .bisnpTimeout port line => Sys2Proof.Machine.execBisnpTimeout port line s
  | .heldWriteAdmit => Sys2Proof.Machine.execHeldWriteAdmit s
  | .groveRecall grove line => Sys2Proof.Machine.execGroveRecall grove line s
  | .hdmDecoderCommit port dec ways gran base size skip => Sys2Proof.Machine.execHdmDecoderCommit port dec ways gran base size skip s
  | .trickleStart => Sys2Proof.Machine.execTrickleStart s
  | .trickleComplete granule => Sys2Proof.Machine.execTrickleComplete granule s
  | .retrickleStart => Sys2Proof.Machine.execRetrickleStart s
  | .windowRestoreDone bad => Sys2Proof.Machine.execWindowRestoreDone bad s
  | .gpfPhase2 port => Sys2Proof.Machine.execGpfPhase2 port s
  | .getEventRecords port log => Sys2Proof.Machine.execGetEventRecords port log s
  | .clearEventRecords port log all handles => Sys2Proof.Machine.execClearEventRecords port log all handles s
  | .getEventInterruptPolicy port => Sys2Proof.Machine.execGetEventInterruptPolicy port s
  | .setEventInterruptPolicy port policy => Sys2Proof.Machine.execSetEventInterruptPolicy port policy s
  | .getTimestamp port => Sys2Proof.Machine.execGetTimestamp port s
  | .setTimestamp port ns => Sys2Proof.Machine.execSetTimestamp port ns s
  | .getSupportedLogs port => Sys2Proof.Machine.execGetSupportedLogs port s
  | .getLog port log => Sys2Proof.Machine.execGetLog port log s
  | .identifyMemoryDevice port => Sys2Proof.Machine.execIdentifyMemoryDevice port s
  | .getPartitionInfo port => Sys2Proof.Machine.execGetPartitionInfo port s
  | .setPartitionInfo port => Sys2Proof.Machine.execSetPartitionInfo port s
  | .getHealthInfo port => Sys2Proof.Machine.execGetHealthInfo port s
  | .getShutdownState port => Sys2Proof.Machine.execGetShutdownState port s
  | .setShutdownState port v => Sys2Proof.Machine.execSetShutdownState port v s
  | .getPoisonList port dpa len => Sys2Proof.Machine.execGetPoisonList port dpa len s
  | .injectPoison port dpa => Sys2Proof.Machine.execInjectPoison port dpa s
  | .clearPoison port dpa => Sys2Proof.Machine.execClearPoison port dpa s
  | .winSliceWrite who slice v => Sys2Proof.Machine.execWinSliceWrite who slice v s
  | .winTenWrite who tenant word v => Sys2Proof.Machine.execWinTenWrite who tenant word v s
  | .dmcTrainDone fails => Sys2Proof.Machine.execDmcTrainDone fails s
  | .dramRead a errs bitmapErr => Sys2Proof.Machine.execDramRead a errs bitmapErr s
  | .dramWrite a poison => Sys2Proof.Machine.execDramWrite a poison s
  | .granuleFillDone granule => Sys2Proof.Machine.execGranuleFillDone granule s
  | .dramNarrowWrite a errs => Sys2Proof.Machine.execDramNarrowWrite a errs s
  | .dmcMarkWrite who sub rank v => Sys2Proof.Machine.execDmcMarkWrite who sub rank v s
  | .dmcInvalidate who v => Sys2Proof.Machine.execDmcInvalidate who v s
  | .dmcFlipArm who v => Sys2Proof.Machine.execDmcFlipArm who v s
  | .scrubAccess errs superseded => Sys2Proof.Machine.execScrubAccess errs superseded s
  | .dramRefresh sub rank bank => Sys2Proof.Machine.execDramRefresh sub rank bank s
  | .engineMemoryAccess eng kind addr size data => Sys2Proof.Machine.execEngineMemoryAccess eng kind addr size data s
  | .wsOpen eng rd rs1 rs2 => Sys2Proof.Machine.execWsOpen eng rd rs1 rs2 s
  | .wsAvail eng rd rs1 => Sys2Proof.Machine.execWsAvail eng rd rs1 s
  | .wsWait eng rd rs1 rs2 => Sys2Proof.Machine.execWsWait eng rd rs1 rs2 s
  | .wsPop eng rd rs1 rs2 => Sys2Proof.Machine.execWsPop eng rd rs1 rs2 s
  | .wsPush eng rd rs1 rs2 => Sys2Proof.Machine.execWsPush eng rd rs1 rs2 s
  | .wsPtr eng rd rs1 => Sys2Proof.Machine.execWsPtr eng rd rs1 s
  | .wsClose eng rd rs1 => Sys2Proof.Machine.execWsClose eng rd rs1 s
  | .wsStat eng rd rs1 => Sys2Proof.Machine.execWsStat eng rd rs1 s
  | .wsJob eng rd rs1 rs2 => Sys2Proof.Machine.execWsJob eng rd rs1 rs2 s
  | .wsJwait eng rd rs1 => Sys2Proof.Machine.execWsJwait eng rd rs1 s
  | .wsVpop eng vd rs1 => Sys2Proof.Machine.execWsVpop eng vd rs1 s
  | .wsVpush eng rd vs2 rs1 vm => Sys2Proof.Machine.execWsVpush eng rd vs2 rs1 vm s
  | .wsWsync eng rd => Sys2Proof.Machine.execWsWsync eng rd s
  | .waisetWaitEnd eng => Sys2Proof.Machine.execWaisetWaitEnd eng s
  | .streamMuDelivered eng stream limit => Sys2Proof.Machine.execStreamMuDelivered eng stream limit s
  | .jobComplete grove unit => Sys2Proof.Machine.execJobComplete grove unit s
  | .ecallExit eng => Sys2Proof.Machine.execEcallExit eng s
  | .ecallLog eng => Sys2Proof.Machine.execEcallLog eng s
  | .uModeException eng cause interrupt => Sys2Proof.Machine.execUModeException eng cause interrupt s
  | .mModeException eng cause mepc => Sys2Proof.Machine.execMModeException eng cause mepc s
  | .csrWsnotifyWrite eng v => Sys2Proof.Machine.execCsrWsnotifyWrite eng v s
  | .csrWsulimWrite eng v => Sys2Proof.Machine.execCsrWsulimWrite eng v s
  | .csrWsipcWrite eng v => Sys2Proof.Machine.execCsrWsipcWrite eng v s
  | .uCycleLimit eng => Sys2Proof.Machine.execUCycleLimit eng s
  | .runtimeEndTimeout eng => Sys2Proof.Machine.execRuntimeEndTimeout eng s
  | .grvDoorbell who eng => Sys2Proof.Machine.execGrvDoorbell who eng s
  | .grvKill who eng => Sys2Proof.Machine.execGrvKill who eng s
  | .grvRetire who eng => Sys2Proof.Machine.execGrvRetire who eng s
  | .grvEngAssignWrite who eng v => Sys2Proof.Machine.execGrvEngAssignWrite who eng v s
  | .engineScrubDone eng => Sys2Proof.Machine.execEngineScrubDone eng s
  | .grvSlmTagWrite who grove k v => Sys2Proof.Machine.execGrvSlmTagWrite who grove k v s
  | .loadProgram c => Sys2Proof.Machine.execLoadProgram c s
  | .programActivationManagement c => Sys2Proof.Machine.execProgramActivationManagement c s
  | .executeProgram c params => Sys2Proof.Machine.execExecuteProgram c params s
  | .programDispatch c => Sys2Proof.Machine.execProgramDispatch c s
  | .memoryRangeSetManagement c => Sys2Proof.Machine.execMemoryRangeSetManagement c s
  | .memoryCopy c => Sys2Proof.Machine.execMemoryCopy c s
  | .slmRead c => Sys2Proof.Machine.execSlmRead c s
  | .slmWrite c => Sys2Proof.Machine.execSlmWrite c s
  | .secDataRequest tenant enc slot cls tweak data => Sys2Proof.Machine.execSecDataRequest tenant enc slot cls tweak data s
  | .kopGen who v => Sys2Proof.Machine.execKopGen who v s
  | .kopLoadClear who v => Sys2Proof.Machine.execKopLoadClear who v s
  | .kopUnwrap who v => Sys2Proof.Machine.execKopUnwrap who v s
  | .kopImportGcm who v => Sys2Proof.Machine.execKopImportGcm who v s
  | .kopWrap who v => Sys2Proof.Machine.execKopWrap who v s
  | .kopZero who v => Sys2Proof.Machine.execKopZero who v s
  | .kopBindNs who v => Sys2Proof.Machine.execKopBindNs who v s
  | .kopRekey who v => Sys2Proof.Machine.execKopRekey who v s
  | .kopResume who v => Sys2Proof.Machine.execKopResume who v s
  | .kopRelease who v => Sys2Proof.Machine.execKopRelease who v s
  | .kopRestore who v => Sys2Proof.Machine.execKopRestore who v s
  | .kopComplete => Sys2Proof.Machine.execKopComplete s
  | .prevDrained slot => Sys2Proof.Machine.execPrevDrained slot s
  | .secWorkTailWrite who v => Sys2Proof.Machine.execSecWorkTailWrite who v s
  | .gcmEnc => Sys2Proof.Machine.execGcmEnc s
  | .gcmDec => Sys2Proof.Machine.execGcmDec s
  | .xtsEnc => Sys2Proof.Machine.execXtsEnc s
  | .xtsDec => Sys2Proof.Machine.execXtsDec s
  | .entropyHealthFail apt => Sys2Proof.Machine.execEntropyHealthFail apt s
  | .maskReseed => Sys2Proof.Machine.execMaskReseed s
  | .drbgReseed => Sys2Proof.Machine.execDrbgReseed s
  | .secRngReseedWrite who v => Sys2Proof.Machine.execSecRngReseedWrite who v s
  | .secRngDataRead who => Sys2Proof.Machine.execSecRngDataRead who s
  | .pkeSign who v => Sys2Proof.Machine.execPkeSign who v s
  | .pkeVerify who v => Sys2Proof.Machine.execPkeVerify who v s
  | .pkeEcdh who v => Sys2Proof.Machine.execPkeEcdh who v s
  | .pkeKeygen who v => Sys2Proof.Machine.execPkeKeygen who v s
  | .pkePubgen who v => Sys2Proof.Machine.execPkePubgen who v s
  | .pkeValidate who v => Sys2Proof.Machine.execPkeValidate who v s
  | .pkeOpDone => Sys2Proof.Machine.execPkeOpDone s
  | .pkeKeyZeroWrite who v => Sys2Proof.Machine.execPkeKeyZeroWrite who v s
  | .spdmRequest via r => Sys2Proof.Machine.execSpdmRequest via r s
  | .getMeasurements via index signed => Sys2Proof.Machine.execGetMeasurements via index signed s
  | .spdmHeartbeatExpiry session => Sys2Proof.Machine.execSpdmHeartbeatExpiry session s
  | .spdmClearRings via session upto => Sys2Proof.Machine.execSpdmClearRings via session upto s
  | .vinStart vin => Sys2Proof.Machine.execVinStart vin s
  | .softStartDone straps => Sys2Proof.Machine.execSoftStartDone straps s
  | .vinPowerFail vin => Sys2Proof.Machine.execVinPowerFail vin s
  | .vinOverVoltage vin => Sys2Proof.Machine.execVinOverVoltage vin s
  | .flushComplete index written trailer vhold dur vin => Sys2Proof.Machine.execFlushComplete index written trailer vhold dur vin s
  | .vinReturnBleed vin => Sys2Proof.Machine.execVinReturnBleed vin s
  | .bleedEnd => Sys2Proof.Machine.execBleedEnd s
  | .railFault rail => Sys2Proof.Machine.execRailFault rail s
  | .bankCharged vhold => Sys2Proof.Machine.execBankCharged vhold s
  | .vholdSag vhold => Sys2Proof.Machine.execVholdSag vhold s
  | .chargerFault => Sys2Proof.Machine.execChargerFault s
  | .pwrMeasureWrite who => Sys2Proof.Machine.execPwrMeasureWrite who s
  | .bankMeasurePeriodic => Sys2Proof.Machine.execBankMeasurePeriodic s
  | .bankMeasureDone drop dt => Sys2Proof.Machine.execBankMeasureDone drop dt s
  | .apstTransition mid => Sys2Proof.Machine.execApstTransition mid s
  | .seedSample temp vbat => Sys2Proof.Machine.execSeedSample temp vbat s
  | .tamperAlarm input => Sys2Proof.Machine.execTamperAlarm input s
  | .vbatSwitchover toCell vin => Sys2Proof.Machine.execVbatSwitchover toCell vin s
  | .aonRtcSetWrite who v => Sys2Proof.Machine.execAonRtcSetWrite who v s
  | .aonOpsecSetWrite who v => Sys2Proof.Machine.execAonOpsecSetWrite who v s
  | .aonPwrcycSetWrite who v => Sys2Proof.Machine.execAonPwrcycSetWrite who v s
  | .aonRingClrWrite who => Sys2Proof.Machine.execAonRingClrWrite who s
  | .devRstNAssert => Sys2Proof.Machine.execDevRstNAssert s
  | .devRstNDeassert straps => Sys2Proof.Machine.execDevRstNDeassert straps s
  | .topDevRstWrite who => Sys2Proof.Machine.execTopDevRstWrite who s
  | .powerUpBistDone fails ms => Sys2Proof.Machine.execPowerUpBistDone fails ms s
  | .fuseSenseStart now => Sys2Proof.Machine.execFuseSenseStart now s
  | .fuseSenseDone l => Sys2Proof.Machine.execFuseSenseDone l s
  | .fuseProgramWord who => Sys2Proof.Machine.execFuseProgramWord who s
  | .fuseGenerateSecret who => Sys2Proof.Machine.execFuseGenerateSecret who s
  | .fuseProgramDone ok k b0 b1 => Sys2Proof.Machine.execFuseProgramDone ok k b0 b1 s
  | .debugUnlock level key ok => Sys2Proof.Machine.execDebugUnlock level key ok s
  | .jtagScanEnable => Sys2Proof.Machine.execJtagScanEnable s
  | .jtagStatus => Sys2Proof.Machine.execJtagStatus s
  | .jtagTrst => Sys2Proof.Machine.execJtagTrst s
  | .bistSliceStart kind rgn unit => Sys2Proof.Machine.execBistSliceStart kind rgn unit s
  | .bistSliceDone kind fail mem => Sys2Proof.Machine.execBistSliceDone kind fail mem s
  | .bistSliceAbandon => Sys2Proof.Machine.execBistSliceAbandon s
  | .checkerFailure rgn => Sys2Proof.Machine.execCheckerFailure rgn s
  | .crnRunWrite who v => Sys2Proof.Machine.execCrnRunWrite who v s
  | .cwdEnable who core v => Sys2Proof.Machine.execCwdEnable who core v s
  | .cwdKick who core v => Sys2Proof.Machine.execCwdKick who core v s
  | .watchdogStage1 core => Sys2Proof.Machine.execWatchdogStage1 core s
  | .watchdogStage2 core => Sys2Proof.Machine.execWatchdogStage2 core s
  | .watchdogStage3 core => Sys2Proof.Machine.execWatchdogStage3 core s
  | .tapSequenceWrite who reg v late => Sys2Proof.Machine.execTapSequenceWrite who reg v late s
  | .tapProgram who v => Sys2Proof.Machine.execTapProgram who v s
  | .tapErase who => Sys2Proof.Machine.execTapErase who s
  | .tapMargin who => Sys2Proof.Machine.execTapMargin who s
  | .tapOpComplete fail l h => Sys2Proof.Machine.execTapOpComplete fail l h s
  | .tapBankRead a ecc waits => Sys2Proof.Machine.execTapBankRead a ecc waits s
  | .tapOpResume => Sys2Proof.Machine.execTapOpResume s
  | .mailboxPost who m slot tag => Sys2Proof.Machine.execMailboxPost who m slot tag s
  | .mailboxAck who m slot => Sys2Proof.Machine.execMailboxAck who m slot s
  | .huhildHello m slot pairs => Sys2Proof.Machine.execHuhildHello m slot pairs s
  | .huhildHelloAck m slot pairs => Sys2Proof.Machine.execHuhildHelloAck m slot pairs s
  | .huhildMessage m slot typ => Sys2Proof.Machine.execHuhildMessage m slot typ s
  | .xmvChTailWrite who ch v => Sys2Proof.Machine.execXmvChTailWrite who ch v s
  | .xmvDescriptorArrival ch => Sys2Proof.Machine.execXmvDescriptorArrival ch s
  | .xmvResponse ch => Sys2Proof.Machine.execXmvResponse ch s
  | .xmvStop who ch => Sys2Proof.Machine.execXmvStop who ch s
  | .xmvAbort who ch => Sys2Proof.Machine.execXmvAbort who ch s
  | .xmvEnWrite who ch v => Sys2Proof.Machine.execXmvEnWrite who ch v s
  | .xmvStepWrite who ch v => Sys2Proof.Machine.execXmvStepWrite who ch v s
  | .xmvRequestLineEdge line => Sys2Proof.Machine.execXmvRequestLineEdge line s
  | .xmvSwreqWrite who v => Sys2Proof.Machine.execXmvSwreqWrite who v s
  | .firmwareImageDownload c fail => Sys2Proof.Machine.execFirmwareImageDownload c fail s
  | .firmwareCommit c secret => Sys2Proof.Machine.execFirmwareCommit c secret s
  | .commitGraftConfirm c => Sys2Proof.Machine.execCommitGraftConfirm c s
  | .commitGraftReject c => Sys2Proof.Machine.execCommitGraftReject c s
  | .trialConfirmTimeout => Sys2Proof.Machine.execTrialConfirmTimeout s
  | .clearRingsGetNonce c => Sys2Proof.Machine.execClearRingsGetNonce c s
  | .clearRingsClear c sig => Sys2Proof.Machine.execClearRingsClear c sig s
  | .nonceExpire => Sys2Proof.Machine.execNonceExpire s
  | .eventArrival => Sys2Proof.Machine.execEventArrival s
  | .recordCloseTimeout => Sys2Proof.Machine.execRecordCloseTimeout s
  | .pageSealTimeout => Sys2Proof.Machine.execPageSealTimeout s
  | .sealAll who => Sys2Proof.Machine.execSealAll who s
  | .evrPostGo who core => Sys2Proof.Machine.execEvrPostGo who core s
  | .evrDrainAck who => Sys2Proof.Machine.execEvrDrainAck who s
  | .evrEnable who v => Sys2Proof.Machine.execEvrEnable who v s
  | .tempSensorSample top conv => Sys2Proof.Machine.execTempSensorSample top conv s
  | .thermalTrip => Sys2Proof.Machine.execThermalTrip s
  | .aspmL1Request p => Sys2Proof.Machine.execAspmL1Request p s
  | .fchDetectDone c answered => Sys2Proof.Machine.execFchDetectDone c answered s
  | .secRequestDone queue => Sys2Proof.Machine.execSecRequestDone queue s
  | .dmcInvalidateDone => Sys2Proof.Machine.execDmcInvalidateDone s
  | .entropyStartupDone => Sys2Proof.Machine.execEntropyStartupDone s
  | .pwrMeasAgeExpiry => Sys2Proof.Machine.execPwrMeasAgeExpiry s
  | .bistPreconditionTimeout => Sys2Proof.Machine.execBistPreconditionTimeout s
  | .seedDomainPowerUp cellLost => Sys2Proof.Machine.execSeedDomainPowerUp cellLost s
  | .nvmeMiRequest r => Sys2Proof.Machine.execNvmeMiRequest r s

end Sys2Proof.Machine
end

