-- ==== Sys2Proof/Machine/PwrStates.lean ====
section
/-! DEFINITION. What Cambium gates in the non-operational power states (R463, R465): groves in PS3 and PS4, the flash groups in PS4. It acts as seconds
pass (DESIGN CHOICE, entry 68). -/

namespace Sys2Proof.Machine

/-- The rows that hold data (R211). -/
def openRows (s : State) : List (Nat × Nat) :=
  s.cpc.rus.flatMap fun p => (p.2.open_.filter fun w => w.2.fill ≠ 0).map fun w => (p.1, w.1)

/-- Nothing waits for the flash: no pending write, no dirty granule, no row with data, and a checkpoint has committed with no record since (R465). -/
def flashIdle (s : State) : Bool :=
  !(s.ftl.pwt.any openWrite) && dirtyCount s = 0 && openRows s = [] && s.cpc.queue = [] && s.pwr.ckptSeq = some s.ftl.jseq

/-- The channels that are Ready. -/
def readyChans (s : State) : List Nat := (List.range 32).filter fun c => (blkSt s (fchRgn c)).st = .ready

/-- Isolate a block and power it down (R270, R624): it drains first. -/
def gateOff (s : State) (rgn : Nat) (power : Bool) : State :=
  isolateWrite (setBlk s rgn { blkSt s rgn with powerReq := !power }) rgn true

/-- Entry to PS4 (R465): open rows are forced closed; once nothing waits for the flash, the groups are gated. -/
def enterPs4 (s : State) : State :=
  let s := (openRows s).foldl (fun (s : State) (r : Nat × Nat) => forceRow s r.1 r.2) s
  let l := readyChans s
  if flashIdle s && l ≠ [] then
    l.foldl (fun s c => gateOff s (fchRgn c) true) { s with pwr := { s.pwr with psGate := l, psBack := false } }
  else s

/-- Something needs the flash groups (R465): a write, a window write, a journal record, or an operation for one of their channels; or PS4 is left. -/
def groupsWanted (s : State) : Bool :=
  s.pwr.psEff ≠ 4 || s.ftl.stalled ≠ [] || s.ftl.jbuf ≠ [] || s.cpc.queue ≠ [] || s.hqe.ctxs.any (fun x => x.stage = .received) || s.win.queue.any (·.held)
    || s.win.pends.any (·.late) || s.pwr.psGate.any fun c => (chanOf s c).held ≠ []

/-- Return the groups (R270, R465). -/
def returnGroups (s : State) : State :=
  s.pwr.psGate.foldl (fun s c => isolateWrite (powerReqWrite s (fchRgn c) true) (fchRgn c) false) { s with pwr := { s.pwr with psBack := true } }

/-- The groups are back once each channel that went is Ready (R465). -/
def groupsBack (s : State) : State :=
  let l := s.pwr.psGate.filter fun c => (blkSt s (fchRgn c)).st ≠ .ready
  { s with pwr := { s.pwr with psGate := l, psBack := l ≠ [] } }

/-- The flash groups follow PS_EFF. -/
def turnGroups (s : State) : State :=
  if s.pwr.psGate = [] then (if s.pwr.psEff = 4 then enterPs4 s else s)
  else if s.pwr.psBack then groupsBack s
  else if groupsWanted s then returnGroups s
  else s

/-- Groves whose engines are all Free or Retired are isolated in PS3 and PS4, and return with PS_EFF (R463). -/
def turnGroves (s : State) : State :=
  if s.pwr.psEff < 3 then
    s.pwr.psGroves.foldl (fun s r => isolateWrite s r false) { s with pwr := { s.pwr with psGroves := [] } }
  else
    let l := ((List.range 16).map (0x40 + ·)).filter fun r => (blkSt s r).st = .ready && groveIdle s r && !(blkSt s r).isolate
    l.foldl (fun s r => gateOff s r false) { s with pwr := { s.pwr with psGroves := s.pwr.psGroves ++ l } }

/-- Cambium's turn in a second; after the power-loss signal it gates nothing. -/
def psTurn (s : State) : State := if s.pwr.pl || s.pwr.flush.isSome then s else turnGroups (turnGroves s)

end Sys2Proof.Machine
end

