-- ==== Sys2Proof/Machine/Tick.lean ====
section
/-! DEFINITION. The passing of one second (DESIGN CHOICE: the table has no row for a tick, so a step on an empty queue is one second of the clock): the
counters of R467, and what the spec refills or restarts by the second. What an expired time leads to is a row of its own. -/

namespace Sys2Proof.Machine

/-- The operating seconds advance in CSTATE Soft-start, Charging, Protected and Flush only (R467). -/
def opsecRuns (s : State) : Bool :=
  s.pwr.cstate = .softStart || s.pwr.cstate = .charging || s.pwr.cstate = .protected_ || s.pwr.cstate = .flush

/-- The urgent buckets refill at URG_RATE tokens per second, up to URG_BURST (R101). -/
def refillUrgent (s : State) : State :=
  { s with hqe := { s.hqe with tokens := s.hqe.tokens.map fun (p : Nat × Nat) => (p.1, min (urgBurst s p.1) (p.2 + urgRate s p.1)) } }

/-- PROG_BUDGET is a bucket of one second's depth (R219), and the trickle may take RATE MiB each second (R315): 16 granules to a MiB. -/
def refillBudgets (s : State) : State :=
  { s with cpc := { s.cpc with budget := [] }, win := { s.win with rate := rdF s 0x18 0x128 15 0 * 16 } }

/-- The heavy corrections of a device are counted in windows of WIN_S seconds (R358, R372). -/
def heavyWindow (s : State) : State :=
  if s.dmc.winSec + 1 < rdF s 0x1B 0x118 23 8 then { s with dmc := { s.dmc with winSec := s.dmc.winSec + 1 } }
  else
    let s := { s with dmc := { s.dmc with winSec := 0 } }
    (List.range 16).foldl (fun s i => (List.range 10).foldl (fun s d => wrF s 0x1B (0x1000 + 64 * i + 4 * d) 23 16 0) s) s

/-- The corrected lines of the running minute start again each minute (R370). -/
def minuteTurn (s : State) : State :=
  if s.clock % 60 = 0 then { s with dmc := { s.dmc with ceMinute := 0 } } else s

/-- DMC's initialisation ends and training begins (R350). -/
def dmcTurn (s : State) : State := if s.dmc.tstate = 1 then { s with dmc := { s.dmc with tstate := 2 } } else s

/-- LED_N[1] is lit for 20 ms after a completion or a response (R599): a second later it is dark (DESIGN CHOICE, entry 137). -/
def ledTurn (s : State) : State := { s with hqe := { s.hqe with lit := false }, win := { s.win with lit := false } }

/-- One second passes. -/
def tick (s : State) : State :=
  let s := { s with
    clock := s.clock + 1
    dev := { s.dev with rtc := s.dev.rtc + 1, opsec := if opsecRuns s then s.dev.opsec + 1 else s.dev.opsec } }
  tapServe (psTurn (ledTurn (dmcTurn (minuteTurn (heavyWindow (refillBudgets (refillUrgent s)))))))

end Sys2Proof.Machine
end

