-- ==== Sys2Proof/Machine/Step.lean ====
section
/-! DEFINITION. The step of the block: it takes the command at the front of the queue. -/

namespace Sys2Proof.Machine

/-- One step: the command at the front of the queue runs on the queue's rest; on an empty queue one second passes. -/
def step (s : State) : Host.Outcome State Fault Refusal :=
  match s.pending with
  | [] => .next (tick s)
  | c :: rest => exec c { s with pending := rest }

/-- The state with the command that a word spells at the front of its queue. No row of the table gives bits. -/
def State.withFetchWord (s : State) (nbits w : Nat) : State :=
  match Sys2Proof.decodeTableWord nbits w with
  | none => s
  | some c => { s with pending := c :: s.pending }

end Sys2Proof.Machine
end

