-- ==== Sys2Proof/Machine/Pins.lean ====
section
/-! DEFINITION. The levels of the output balls that follow from the state (R592, R595, R599, R600, R604). -/

namespace Sys2Proof.Machine

/-- The module's rails are up (R595, R604): outside Off, Soft-start and Bleed. -/
def pwrGood (s : State) : Bool := !(s.pwr.cstate = .off || s.pwr.cstate = .softStart || s.pwr.cstate = .bleed)

/-- What an LED shows: dark, lit, or blinking at 1 Hz. -/
inductive Led where
  | dark | lit | blink
  deriving DecidableEq, Repr

/-- LED k as TOP_LED_CTL sets it (R602): BLINK over ON. -/
def ledCtl (s : State) (k : Nat) : Led :=
  let w := rd s 0x00 0x134
  if Word.bit w (4 + k) then .blink else if Word.bit w k then .lit else .dark

/-- LED_N[3:0] (R599): with AUTO set, 0 to 2 follow the device. In reset and unpowered every LED is released (R604). -/
def ledN (s : State) (k : Nat) : Led :=
  if !pwrGood s || !s.dev.started then .dark
  else if !Word.bit (rd s 0x00 0x134) 8 then ledCtl s k
  else match k with
    | 0 => if devState s = 4 then .blink else if s.dev.step4 then .lit else .dark
    | 1 => if s.hqe.lit || s.win.lit then .lit else .dark
    | 2 => if devState s = 3 then .lit else if devState s = 1 || devState s = 2 then .blink else .dark
    | _ => ledCtl s k

/-- THERM_ALERT_N is asserted (R600): from the critical temperature until 5 °C below it; released while the module is unpowered. -/
def thermAlert (s : State) : Bool := pwrGood s && s.pwr.thermCrit

/-- WP_N of channel c is high (R592): while TSTATE is READY or RETRAIN, until the channel is Isolated or the rails go. -/
def wpHigh (s : State) (c : Nat) : Bool :=
  pwrGood s && (blkSt s (fchRgn c)).st ≠ .isolated && ((chanOf s c).tstate = tsReady || (chanOf s c).tstate = tsRetrain)

/-- DDR_RESET_N of every channel is high (R604): low unpowered, in reset and in Dormant, and until DMC initialises the DRAM. -/
def ddrRunning (s : State) : Bool := pwrGood s && s.dev.started && !s.dev.dormant && s.dmc.tstate ≠ 0

end Sys2Proof.Machine
end

