-- ==== Sys2Proof/WellFormed.lean ====
section
/-! DEFINITION. The well-formed commands: every operand lies in the range its field has in the spec. Operands of a finite type need no check. -/

namespace Sys2Proof

/-- MIDs have 12 bits and tenants 9 (R17, R18). -/
def Who.wf (w : Who) : Bool := decide (w.mid < 4096 ∧ w.tenant < 512)

/-- A Trunk size: a power of two from 1 to 256 bytes. -/
def sizeWf (n : Nat) : Bool := [1, 2, 4, 8, 16, 32, 64, 128, 256].contains n

/-- A Trunk request: a 48-bit address, a size, and data that fits the size (R13, R19). -/
def Acc.wf (a : Acc) : Bool := a.who.wf && decide (a.addr < 2 ^ 48) && sizeWf a.size && decide (a.data < 256 ^ a.size)

/-- A command of a host function: MID, queue identifier and command identifier (R17, R94). -/
def CmdId.wf (c : CmdId) : Bool := decide (c.mid < 512 ∧ c.sqid < 65536 ∧ c.cid < 65536)

/-- A submission queue entry by the widths of its fields (R94). -/
def Sqe.wf (e : Sqe) : Bool :=
  decide (e.opc < 256 ∧ e.fuse < 4 ∧ e.psdt < 4 ∧ e.cid < 65536 ∧ e.nsid < 2 ^ 32 ∧ e.cdw2 < 2 ^ 32 ∧ e.cdw3 < 2 ^ 32)
    && decide (e.mptr < 2 ^ 64 ∧ e.prp1 < 2 ^ 64 ∧ e.prp2 < 2 ^ 64)

/-- A completion from the host: the header of a bad TLP has 128 bits (R75). -/
def HostCpl.wf : HostCpl → Bool
  | .poisoned h | .malformed h => decide (h < 2 ^ 128)
  | .ok _ | .ur | .ca => true

/-- The symbols of a codeword are 0 to 79, each of 8 bits (R353). -/
def symErrsWf (l : List SymErr) : Bool := l.all fun e => decide (e.sym < 80 ∧ e.err < 256)

/-- A training failure names a subchannel, a rank, a device and a step (R351). -/
def trainFailsWf (l : List TrainFail) : Bool := l.all fun f => decide (f.sub < 8 ∧ f.rank < 2 ∧ f.dev < 10 ∧ f.step < 8)

/-- The fields of a flash operation by their widths (R255). -/
def FlashReq.wf (o : FlashReq) : Bool :=
  decide (o.tag < 65536 ∧ o.tenant < 512 ∧ o.pmask < 64 ∧ o.smask < 16 ∧ o.addr < 2 ^ 38 ∧ o.buf < 2 ^ 48 ∧ o.rtry < 64 ∧ o.arg < 2 ^ 48)

/-- A configuration register lies at a dword of the 4 KiB space. -/
def CfgReg.wf : CfgReg → Bool
  | .other off => decide (off < 4096 ∧ off % 4 = 0)
  | _ => true

/-- An optional issuer. -/
def whoWf : Option Who → Bool
  | none => true
  | some w => w.wf

/-- Lane counts of a link (R53). -/
def widthWf (w : Fin 17) : Bool := [1, 2, 4, 8, 16].contains w.val

/-- The well-formed commands. -/
def Instr.wf : Instr → Bool
  | .trunkRequest a _ => a.wf
  | .trunkResponseTimeout _ => true
  | .holdNotice _ => true
  | .trunkLateResponse _ => true
  | .registerWrite a => a.wf
  | .rcRegisterRead a => a.wf
  | .barkStageWrite who _ _ _ => who.wf
  | .barkEntryCommit who _ _ => who.wf
  | .broadcastWrite a => a.wf
  | .broadcastRead a => a.wf
  | .enableSet who _ => who.wf
  | .enableClear who _ => who.wf
  | .blockInitDone _ => true
  | .softReset who _ _ => who.wf
  | .softResetEnd _ => true
  | .isolateSet who _ _ => who.wf
  | .drainEnd _ => true
  | .powerReqClear who _ _ => who.wf
  | .powerReqSet who _ _ => who.wf
  | .isolateClear who _ _ => who.wf
  | .lockSet who _ => who.wf
  | .intSetWrite who _ _ => who.wf
  | .receiverDetected _ => true
  | .detectIntervalExpiry _ => true
  | .dlActiveReached _ _ width _ _ => widthWf width
  | .trainingReturnToDetect _ => true
  | .perstAssert _ => true
  | .perstDeassert _ => true
  | .hotResetReceived _ => true
  | .linkDisableReceived _ => true
  | .linkRetrain who _ _ => who.wf
  | .linkEnClear who _ _ => who.wf
  | .linkEnSet who _ _ => who.wf
  | .flitCrcFail _ _ _ _ => true
  | .recoveryEnd _ _ => true
  | .surpriseDown _ => true
  | .poisonedTlpReceived _ _ hdr => decide (hdr < 2 ^ 128)
  | .malformedTlpReceived _ _ hdr => decide (hdr < 2 ^ 128)
  | .completionTimeout _ tag hdr => decide (tag < 2 ^ 14) && decide (hdr < 2 ^ 128)
  | .hostCompletionReceived _ tag r => decide (tag < 2 ^ 14) && r.wf
  | .containRelease who _ => who.wf
  | .bar2Read _ off size _ => decide (off < 0x800000) && decide (size = 4 ∨ size = 8)
  | .bar2Write _ off size data _ => decide (off < 0x800000) && decide (size = 4 ∨ size = 8) && decide (data < 256 ^ size)
  | .bar2ReadTimeout _ => true
  | .bar2LateResponse _ => true
  | .configRequest _ _ r _ => r.wf
  | .functionReady _ _ => true
  | .flrInitiate _ _ => true
  | .flrComplete _ _ => true
  | .hmbDropComplete => true
  | .bmeClear _ _ => true
  | .bmeSet _ _ => true
  | .d3hotEntry _ _ => true
  | .l0pRequest _ lanes => widthWf lanes
  | .doeRequest _ _ _ _ => true
  | .doeAbort _ => true
  | .sqTailDoorbell _ _ _ => true
  | .cqHeadDoorbell _ _ _ => true
  | .sqFetch => true
  | .sqEntryArrival _ tag e => decide (tag < 2 ^ 14) && e.wf
  | .cqPost c => c.wf
  | .writePowerProtected c => c.wf
  | .flush c => c.wf
  | .write c => c.wf
  | .read c => c.wf
  | .writeUncorrectable c => c.wf
  | .compare c => c.wf
  | .writeZeroes c => c.wf
  | .datasetManagement c => c.wf
  | .verify c => c.wf
  | .reservationRegister c => c.wf
  | .reservationReport c => c.wf
  | .reservationAcquire c => c.wf
  | .reservationRelease c => c.wf
  | .copy c => c.wf
  | .reclaimUnitHandleUpdate c => c.wf
  | .createIoSq c => c.wf
  | .createIoCq c => c.wf
  | .deleteIoSq c => c.wf
  | .deleteIoCq c => c.wf
  | .identify c => c.wf
  | .abort c => c.wf
  | .asyncEventRequest c => c.wf
  | .getLogPageC0h c => c.wf
  | .getLogPageC2h c => c.wf
  | .getLogPageC3h c => c.wf
  | .getLogPageC4h c => c.wf
  | .getLogPageC5h c => c.wf
  | .getLogPageSmart c => c.wf
  | .getLogPageFwSlot c => c.wf
  | .namespaceMgmtCreate c => c.wf
  | .namespaceMgmtDelete c => c.wf
  | .namespaceDeleteResume nsid => decide (0 < nsid ∧ nsid < 2 ^ 32)
  | .namespaceAttachment c => c.wf
  | .formatNvm c => c.wf
  | .resumeQueue c => c.wf
  | .setFeaturesNumberOfQueues c => c.wf
  | .setFeaturesArbitration c => c.wf
  | .setFeaturesOrderedQueue c => c.wf
  | .getFeaturesOrderedQueue c => c.wf
  | .setFeaturesUrgentBudget c => c.wf
  | .getFeaturesUrgentBudget c => c.wf
  | .setFeaturesPortWeights c => c.wf
  | .getFeaturesPortWeights c => c.wf
  | .setFeaturesHostMemoryBuffer c _ => c.wf
  | .setFeaturesErrorRecovery c => c.wf
  | .getFeaturesErrorRecovery c => c.wf
  | .setFeaturesPowerManagement c => c.wf
  | .setFeaturesFdp c => c.wf
  | .setFeaturesTempThreshold c => c.wf
  | .setFeaturesTimestamp c => c.wf
  | .controllerReset _ => true
  | .controllerEnable _ _ _ _ _ _ => true
  | .controllerReady _ _ => true
  | .shutdownNotification _ _ => true
  | .shutdownComplete _ => true
  | .tenantBindFunction c => c.wf
  | .tenantQueueAllotment c => c.wf
  | .tenantHostLimits c => c.wf
  | .tenantPoolOwner c => c.wf
  | .tenantPoolLimits c => c.wf
  | .tenantInternalReserve c => c.wf
  | .tenantNamespaceOwner c => c.wf
  | .tenantNamespaceShare c => c.wf
  | .tenantKeySlots c => c.wf
  | .tenantEngineAssignment c => c.wf
  | .tenantWindowSlices c => c.wf
  | .tenantClearWindowSlices c => c.wf
  | .trkFnTenantWrite who _ _ => who.wf
  | .hqeTenantTableWrite who _ _ _ => who.wf
  | .hqeFnQallotWrite who _ _ => who.wf
  | .bufferAlloc _ size _ _ _ => decide (0 < size)
  | .bufferShare addr tenant => decide (addr < 2 ^ 48) && decide (tenant < 512)
  | .bufferRelease addr tenant => decide (addr < 2 ^ 48) && decide (tenant < 512)
  | .bpmFwAllocWrite who _ _ => who.wf
  | .bpmFwRefWrite who _ _ _ => who.wf
  | .bpmClassWrite who _ _ => who.wf
  | .bpmAreaWrite who _ _ => who.wf
  | .bpmTenOwnerWrite who _ _ => who.wf
  | .bpmLimitWrite who off _ => who.wf && decide (off < 65536 ∧ off % 4 = 0)
  | .pageInComplete _ => true
  | .hmbMoveComplete _ _ => true
  | .hmbMoveTimeout _ => true
  | .leafWritebackStart _ => true
  | .leafWritebackDone _ => true
  | .journalPageTimer => true
  | .coppiceAssign _ _ _ => true
  | .idleClosureTimeout _ _ => true
  | .ftlWorkTailWrite who _ => who.wf
  | .nsInit => true
  | .nsFree => true
  | .leafWb => true
  | .ckptBegin => true
  | .dirSnapshot => true
  | .ckptCommit => true
  | .replay => true
  | .leafRebuild _ => true
  | .hmbAttach => true
  | .hmbDetach => true
  | .evictOwner => true
  | .ftlCompletionPost => true
  | .coppiceReclaimStart _ => true
  | .relocationSourceErase _ => true
  | .staticWearLevel _ => true
  | .readDisturbLimit _ => true
  | .patrolSample _ _ _ => true
  | .tempHistorySample => true
  | .hourlySlotAdvance => true
  | .cpcWorkTailWrite who _ => who.wf
  | .ruInit _ => true
  | .dieRetire => true
  | .blockRetire => true
  | .ruRelocate => true
  | .summaryWrite => true
  | .summaryLoad _ => true
  | .flushAdopt => true
  | .patrolNow _ => true
  | .cpcTenRsvWrite who _ _ => who.wf
  | .cpcTenCtlWrite who _ _ => who.wf
  | .fchPowerWaitDone _ => true
  | .dieDetectTimeout _ _ => true
  | .fchIdentDone _ _ _ _ _ => true
  | .fchTrainDone _ _ => true
  | .zqCalibration _ _ => true
  | .readDqRetrain _ _ _ => true
  | .fchRetrain who _ _ => who.wf
  | .fchRetrainDone _ _ => true
  | .fchOpRead _ o => o.wf
  | .fchOpReadSoft _ o => o.wf
  | .fchOpProg _ o => o.wf
  | .fchOpProgFoggy _ o => o.wf
  | .fchOpProgFine _ o => o.wf
  | .fchOpErase _ o => o.wf
  | .fchOpResetLun _ o => o.wf
  | .fchOpReadId _ o => o.wf
  | .fchOpGetFeature _ o => o.wf
  | .fchOpSetFeature _ o => o.wf
  | .fchOpCancel _ o => o.wf
  | .dieOpStart _ _ => true
  | .busBurstGrant _ _ => true
  | .dieOpComplete _ _ _ _ => true
  | .opSuspend _ => true
  | .opResume _ => true
  | .dieHung _ => true
  | .dieLost _ _ => true
  | .fchWorkTailWrite who _ _ => who.wf
  | .fchDieRetireWrite who _ _ _ => who.wf
  | .fchUcDataWrite who _ _ => who.wf
  | .codewordDecodeDone _ _ bits => decide (bits < 65536)
  | .stripeRebuildDone _ => true
  | .busyHintReceived _ => true
  | .recoveryTimeLimit c => c.wf
  | .bgRecoveryLimit pua => decide (pua < 2 ^ 38)
  | .weakBlockExpire _ _ => true
  | .trackedThresholdUpdate _ _ _ _ => true
  | .memrd _ hpa _ tag => decide (hpa < 2 ^ 52 ∧ hpa % 64 = 0) && decide (tag < 65536)
  | .meminv _ hpa tag => decide (hpa < 2 ^ 52 ∧ hpa % 64 = 0) && decide (tag < 65536)
  | .memrddata _ hpa tag => decide (hpa < 2 ^ 52 ∧ hpa % 64 = 0) && decide (tag < 65536)
  | .memwr _ hpa _ tag data _ => decide (hpa < 2 ^ 52 ∧ hpa % 64 = 0) && decide (tag < 65536) && decide (data.length = 64)
  | .memwrptl _ hpa _ tag data mask _ => decide (hpa < 2 ^ 52 ∧ hpa % 64 = 0) && decide (tag < 65536) && decide (data.length = 64) && decide (mask < 2 ^ 64)
  | .memclnevct _ hpa tag => decide (hpa < 2 ^ 52 ∧ hpa % 64 = 0) && decide (tag < 65536)
  | .memspecrd _ hpa tag => decide (hpa < 2 ^ 52 ∧ hpa % 64 = 0) && decide (tag < 65536)
  | .birsp _ line _ => decide (line < 2 ^ 31)
  | .biconflict _ line => decide (line < 2 ^ 31)
  | .bisnpTimeout _ line => decide (line < 2 ^ 31)
  | .heldWriteAdmit => true
  | .groveRecall _ line => decide (line < 2 ^ 31)
  | .hdmDecoderCommit _ _ _ _ _ _ _ => true
  | .trickleStart => true
  | .trickleComplete _ => true
  | .retrickleStart => true
  | .windowRestoreDone _ => true
  | .gpfPhase2 _ => true
  | .getEventRecords _ _ => true
  | .clearEventRecords _ _ _ _ => true
  | .getEventInterruptPolicy _ => true
  | .setEventInterruptPolicy _ policy => decide (policy < 2 ^ 32)
  | .getTimestamp _ => true
  | .setTimestamp _ ns => decide (ns < 2 ^ 64)
  | .getSupportedLogs _ => true
  | .getLog _ log => decide (log.length = 16)
  | .identifyMemoryDevice _ => true
  | .getPartitionInfo _ => true
  | .setPartitionInfo _ => true
  | .getHealthInfo _ => true
  | .getShutdownState _ => true
  | .setShutdownState _ _ => true
  | .getPoisonList _ _ _ => true
  | .injectPoison _ _ => true
  | .clearPoison _ _ => true
  | .winSliceWrite who _ _ => who.wf
  | .winTenWrite who _ _ _ => who.wf
  | .dmcTrainDone fails => trainFailsWf fails
  | .dramRead a errs _ => a.wf && symErrsWf errs
  | .dramWrite a _ => a.wf
  | .granuleFillDone _ => true
  | .dramNarrowWrite a errs => a.wf && symErrsWf errs
  | .dmcMarkWrite who _ _ _ => who.wf
  | .dmcInvalidate who _ => who.wf
  | .dmcFlipArm who _ => who.wf
  | .scrubAccess errs _ => symErrsWf errs
  | .dramRefresh _ _ _ => true
  | .engineMemoryAccess _ _ addr size data => decide (addr < 2 ^ 48) && sizeWf size && decide (data < 256 ^ size)
  | .wsOpen _ _ _ _ => true
  | .wsAvail _ _ _ => true
  | .wsWait _ _ _ _ => true
  | .wsPop _ _ _ _ => true
  | .wsPush _ _ _ _ => true
  | .wsPtr _ _ _ => true
  | .wsClose _ _ _ => true
  | .wsStat _ _ _ => true
  | .wsJob _ _ _ _ => true
  | .wsJwait _ _ _ => true
  | .wsVpop _ _ _ => true
  | .wsVpush _ _ _ _ _ => true
  | .wsWsync _ _ => true
  | .waisetWaitEnd _ => true
  | .streamMuDelivered _ _ _ => true
  | .jobComplete _ _ => true
  | .ecallExit _ => true
  | .ecallLog _ => true
  | .uModeException _ _ _ => true
  | .mModeException _ _ mepc => decide (mepc < 2 ^ 64)
  | .csrWsnotifyWrite _ v => decide (v < 2 ^ 64)
  | .csrWsulimWrite _ v => decide (v < 2 ^ 64)
  | .csrWsipcWrite _ v => decide (v < 2 ^ 64)
  | .uCycleLimit _ => true
  | .runtimeEndTimeout _ => true
  | .grvDoorbell who _ => who.wf
  | .grvKill who _ => who.wf
  | .grvRetire who _ => who.wf
  | .grvEngAssignWrite who _ _ => who.wf
  | .engineScrubDone _ => true
  | .grvSlmTagWrite who _ _ _ => who.wf
  | .loadProgram c => c.wf
  | .programActivationManagement c => c.wf
  | .executeProgram c _ => c.wf
  | .programDispatch c => c.wf
  | .memoryRangeSetManagement c => c.wf
  | .memoryCopy c => c.wf
  | .slmRead c => c.wf
  | .slmWrite c => c.wf
  | .secDataRequest tenant _ _ _ tweak data => decide (tenant < 512) && decide (tweak < 2 ^ 128) && decide (data.length % 16 = 0)
  | .kopGen who _ => who.wf
  | .kopLoadClear who _ => who.wf
  | .kopUnwrap who _ => who.wf
  | .kopImportGcm who _ => who.wf
  | .kopWrap who _ => who.wf
  | .kopZero who _ => who.wf
  | .kopBindNs who _ => who.wf
  | .kopRekey who _ => who.wf
  | .kopResume who _ => who.wf
  | .kopRelease who _ => who.wf
  | .kopRestore who _ => who.wf
  | .kopComplete => true
  | .prevDrained _ => true
  | .secWorkTailWrite who _ => who.wf
  | .gcmEnc => true
  | .gcmDec => true
  | .xtsEnc => true
  | .xtsDec => true
  | .entropyHealthFail _ => true
  | .maskReseed => true
  | .drbgReseed => true
  | .secRngReseedWrite who _ => who.wf
  | .secRngDataRead who => who.wf
  | .pkeSign who _ => who.wf
  | .pkeVerify who _ => who.wf
  | .pkeEcdh who _ => who.wf
  | .pkeKeygen who _ => who.wf
  | .pkePubgen who _ => who.wf
  | .pkeValidate who _ => who.wf
  | .pkeOpDone => true
  | .pkeKeyZeroWrite who _ => who.wf
  | .spdmRequest _ _ => true
  | .getMeasurements _ _ _ => true
  | .spdmHeartbeatExpiry _ => true
  | .spdmClearRings _ _ _ => true
  | .vinStart _ => true
  | .softStartDone _ => true
  | .vinPowerFail _ => true
  | .vinOverVoltage _ => true
  | .flushComplete _ _ _ _ _ _ => true
  | .vinReturnBleed _ => true
  | .bleedEnd => true
  | .railFault _ => true
  | .bankCharged _ => true
  | .vholdSag _ => true
  | .chargerFault => true
  | .pwrMeasureWrite who => who.wf
  | .bankMeasurePeriodic => true
  | .bankMeasureDone _ _ => true
  | .apstTransition mid => decide (mid < 512)
  | .seedSample _ _ => true
  | .tamperAlarm _ => true
  | .vbatSwitchover _ _ => true
  | .aonRtcSetWrite who _ => who.wf
  | .aonOpsecSetWrite who _ => who.wf
  | .aonPwrcycSetWrite who _ => who.wf
  | .aonRingClrWrite who => who.wf
  | .devRstNAssert => true
  | .devRstNDeassert _ => true
  | .topDevRstWrite who => who.wf
  | .powerUpBistDone _ _ => true
  | .fuseSenseStart now => whoWf now
  | .fuseSenseDone _ => true
  | .fuseProgramWord who => who.wf
  | .fuseGenerateSecret who => who.wf
  | .fuseProgramDone _ _ _ _ => true
  | .debugUnlock _ _ _ => true
  | .jtagScanEnable => true
  | .jtagStatus => true
  | .jtagTrst => true
  | .bistSliceStart _ _ _ => true
  | .bistSliceDone _ _ _ => true
  | .bistSliceAbandon => true
  | .checkerFailure _ => true
  | .crnRunWrite who _ => who.wf
  | .cwdEnable who _ _ => who.wf
  | .cwdKick who _ _ => who.wf
  | .watchdogStage1 _ => true
  | .watchdogStage2 _ => true
  | .watchdogStage3 _ => true
  | .tapSequenceWrite who _ _ _ => who.wf
  | .tapProgram who _ => who.wf
  | .tapErase who => who.wf
  | .tapMargin who => who.wf
  | .tapOpComplete _ _ _ => true
  | .tapBankRead a _ _ => a.wf
  | .tapOpResume => true
  | .mailboxPost who _ _ _ => whoWf who
  | .mailboxAck who _ _ => whoWf who
  | .huhildHello _ _ _ => true
  | .huhildHelloAck _ _ _ => true
  | .huhildMessage _ _ _ => true
  | .xmvChTailWrite who _ _ => who.wf
  | .xmvDescriptorArrival _ => true
  | .xmvResponse _ => true
  | .xmvStop who _ => who.wf
  | .xmvAbort who _ => who.wf
  | .xmvEnWrite who _ _ => who.wf
  | .xmvStepWrite who _ _ => who.wf
  | .xmvRequestLineEdge _ => true
  | .xmvSwreqWrite who _ => who.wf
  | .firmwareImageDownload c _ => c.wf
  | .firmwareCommit c _ => c.wf
  | .commitGraftConfirm c => c.wf
  | .commitGraftReject c => c.wf
  | .trialConfirmTimeout => true
  | .clearRingsGetNonce c => c.wf
  | .clearRingsClear c _ => c.wf
  | .nonceExpire => true
  | .eventArrival => true
  | .recordCloseTimeout => true
  | .pageSealTimeout => true
  | .sealAll who => who.wf
  | .evrPostGo who _ => who.wf
  | .evrDrainAck who => who.wf
  | .evrEnable who _ => who.wf
  | .tempSensorSample _ _ => true
  | .thermalTrip => true
  | .aspmL1Request _ => true
  | .fchDetectDone _ _ => true
  | .secRequestDone _ => true
  | .dmcInvalidateDone => true
  | .entropyStartupDone => true
  | .pwrMeasAgeExpiry => true
  | .bistPreconditionTimeout => true
  | .seedDomainPowerUp _ => true
  | .nvmeMiRequest _ => true

end Sys2Proof
end

