-- ==== Sys2Proof/Safety.lean ====
section
/-! DEFINITION. The terms the statements use: the parts of the state, what a command leaves unchanged, how a command completes, and
when the conclusions the part draws from its condition are up to date. -/

namespace Sys2Proof.Machine

/-- The parts of the state. -/
inductive Part where
  | pending | freeCtr | clock | resp | regs | latch | blk | trunk | evq | mem | dev | ports | hqe | ten | bpm | dmc | ftl | cpc | flash
  | ldc | sec | win | grv | pwr | aon | fus | bst | cores | tap | mbx | xmv | graft | rings
  deriving DecidableEq, Repr

/-- A part is the same in two states. -/
def Part.same (s t : State) : Part → Prop
  | .pending => t.pending = s.pending
  | .freeCtr => t.freeCtr = s.freeCtr
  | .clock => t.clock = s.clock
  | .resp => t.resp = s.resp
  | .regs => t.regs = s.regs
  | .latch => t.latch = s.latch
  | .blk => t.blk = s.blk
  | .trunk => t.trunk = s.trunk
  | .evq => t.evq = s.evq
  | .mem => t.mem = s.mem
  | .dev => t.dev = s.dev
  | .ports => t.ports = s.ports
  | .hqe => t.hqe = s.hqe
  | .ten => t.ten = s.ten
  | .bpm => t.bpm = s.bpm
  | .dmc => t.dmc = s.dmc
  | .ftl => t.ftl = s.ftl
  | .cpc => t.cpc = s.cpc
  | .flash => t.flash = s.flash
  | .ldc => t.ldc = s.ldc
  | .sec => t.sec = s.sec
  | .win => t.win = s.win
  | .grv => t.grv = s.grv
  | .pwr => t.pwr = s.pwr
  | .aon => t.aon = s.aon
  | .fus => t.fus = s.fus
  | .bst => t.bst = s.bst
  | .cores => t.cores = s.cores
  | .tap => t.tap = s.tap
  | .mbx => t.mbx = s.mbx
  | .xmv => t.xmv = s.xmv ∧ t.xmvTurn = s.xmvTurn
  | .graft => t.graft = s.graft
  | .rings => t.rings = s.rings

/-- Every part but the listed ones is the same. -/
def KeepsBut (w : List Part) (s t : State) : Prop := ∀ p : Part, p ∉ w → p.same s t

/-- Every register but the listed ones, each a region and an offset, holds the same value. -/
def RegsOnly (l : List (Nat × Nat)) (s t : State) : Prop :=
  ∀ rgn off, off < 65536 → (rgn, off) ∉ l → rd t rgn off = rd s rgn off

/-- Every byte of memory outside a range reads the same. -/
def MemOnly (a n : Nat) (s t : State) : Prop := ∀ b, b < a ∨ a + n ≤ b → memRead t b = memRead s b

/-- The command completes: its own effect leads to a state of which `P` holds and in which every part but the listed ones is the same;
what follows for the device state and the ledger (R452, R573) is drawn from that state. -/
def Does (i : Instr) (s : State) (w : List Part) (P : State → Prop) : Prop :=
  ∃ u, exec i s = .next (settle u) ∧ KeepsBut w s u ∧ P u

/-- The command completes as in `Does`, and the media side then does what the effect lets it do before the conclusions are drawn. -/
def Serves (i : Instr) (s : State) (w : List Part) (P : State → Prop) : Prop :=
  ∃ u, exec i s = .next (settle (drain u)) ∧ KeepsBut w s u ∧ P u

/-- The conclusions are up to date: the reported device state is the one of R571, and the ledger's cause and shares are those of R452 and
R454. -/
def State.settled (s : State) : Bool :=
  decide (s.dev.shown = devState s) && decide (s.pwr.cause = ledgerCause s) && decide (s.pwr.wbShare = wbShare s)
    && decide (s.pwr.winShare = winShare s)

/-- R33 admits a write of a register. -/
abbrev Admits (s : State) (who : Who) (rgn off : Nat) (v : Word) : Prop := (regAdmit s rgn off (wrAcc who rgn off v)).isNone = true

/-- A row's write of one bit of BLK_CTL, or of TOP_RGN_CTL for a region that exists, is admitted; TAP's header is written while no sequence is under way
(R507). -/
abbrev CtlAdmits (s : State) (who : Who) (rgn : Fin 128) (top : Bool) (bit : Nat) (v : Bool) : Prop :=
  if top then (blkOf rgn).isSome = true ∧ Admits s who 0x00 (0x1000 + 4 * rgn) (Word.setBit (blkCtlWord (blkSt s rgn)) bit v)
  else Admits s who rgn 0x0C (Word.setBit (blkCtlWord (blkSt s rgn)) bit v) ∧ (rgn.val = 0x08 → s.tap.step = 0)

/-- DMC's table lets a master make an access to the first and the last line of a run of bytes (R15). -/
abbrev RunPasses (s : State) (who : Who) (kind : AccKind) (p : Nat × Nat) : Prop :=
  (barkCheck s 0x1B ⟨who, p.1, min p.2 64, kind, 0⟩).2 = true ∧ (barkCheck s 0x1B ⟨who, p.1 + p.2 - min p.2 64, min p.2 64, kind, 0⟩).2 = true

/-- The walker's accesses to DRAM for a leaf, or for the entry at one offset, pass the Bark table (R15, R169). -/
abbrev WalkPasses (s : State) (root : Nat) (off : Option Nat) (kind : AccKind) : Prop := ∀ p ∈ walkRuns s root off, RunPasses s ⟨0x3A0, leafTenant s root⟩ kind p

/-- What serving those who wait for a buffer can change, with the answer to whoever let them through. -/
abbrev poolParts : List Part := [.resp, .bpm, .regs, .freeCtr, .dmc, .mem, .hqe, .grv]

/-- What putting the device in Fault can change, with the answer to whoever caused it. -/
abbrev faultParts : List Part := [.resp, .regs, .evq, .dev, .graft, .ports]

/-- What the walker's giving back of leaves, buffers and units can change. -/
abbrev walkParts : List Part := [.ftl, .bpm, .cpc, .dmc, .mem, .regs, .freeCtr, .evq, .dev, .graft, .ports, .hqe, .grv, .trunk]

/-- What taking a die or an operation out can change: what is lost or must move follows. -/
abbrev moveParts : List Part := .ldc :: .flash :: walkParts

/-- What issuing flash operations, starting reads and putting the device in Fault can change. -/
abbrev mediaParts : List Part := [.cpc, .ldc, .flash, .ftl, .regs, .evq, .freeCtr, .dev, .graft, .ports]

/-- A completion ring takes no entry now (R193, R195). -/
abbrev RingFull (s : State) (rgn : Nat) : Prop := (rdF s rgn 0x101C 11 0 + 1) % ringSize s rgn = rdF s rgn 0x1020 11 0

/-- A tail write that R33 admits leaves one entry between head and tail of a running work ring, and the ring's master reads it. -/
abbrev OneEntry (s : State) (who m : Who) (rgn esize : Nat) (v : Word) (b : List Byte) : Prop :=
  Admits s who rgn 0x100C v ∧ Word.fld v 11 0 < ringSize s rgn ∧ isEnabled s rgn = true ∧ s.dev.fault = false
    ∧ rdF s rgn 0x1010 11 0 ≠ Word.fld v 11 0 ∧ (rdF s rgn 0x1010 11 0 + 1) % ringSize s rgn = Word.fld v 11 0
    ∧ busRead (wr s rgn 0x100C (v &&& 0xFFF)) m (baseAt s rgn 0x1000 + rdF s rgn 0x1010 11 0 * esize) esize = (.ok, b, wr s rgn 0x100C (v &&& 0xFFF))

/-- The tail is stored, and the head has come up to it. -/
abbrev Fetched (s t : State) (rgn : Nat) (v : Word) : Prop :=
  rd t rgn 0x100C = v &&& 0xFFF ∧ rd t rgn 0x1010 = w32 (Word.fld v 11 0) ∧ RegsOnly [(rgn, 0x100C), (rgn, 0x1010)] s t

/-- The ring's fault register names an entry and a reason, and the device is in Fault (R196, R199). -/
abbrev RingStops (t : State) (rgn idx reason : Nat) : Prop :=
  t.dev.fault = true ∧ rd t rgn 0x1024 = w32 (idx % 4096 + reason * 4096 + 2 ^ 31)

/-- The command completes as in `Does`, and the Xylem movers then issue what requests the effect lets them issue. -/
def Moves (i : Instr) (s : State) (w : List Part) (P : State → Prop) : Prop :=
  ∃ u, exec i s = .next (settle (xmvGo u)) ∧ KeepsBut w s u ∧ P u

/-- A counter register has counted one, and stops at its maximum. -/
abbrev Counted (s t : State) (rgn off : Nat) : Prop := rd t rgn off = w32 (min ((rd s rgn off).toNat + 1) 0xFFFFFFFF)

/-- A write of SEC_KOP_CTL is admitted, and no key operation runs (R426). -/
abbrev KopFree (s : State) (who : Who) (w : Word) : Prop := Admits s who 0x0A 0x2000 w ∧ s.sec.kop = none

/-- A key operation has started, with what the registers named; no slot or binding has changed. -/
abbrev KopStarts (s t : State) (w : Word) (st : Nat) : Prop := t.sec = { s.sec with kop := some (kopOf s w st) }

/-- A key operation runs: its number, the word that started it, and no status that ends it yet. -/
abbrev KopRuns (s : State) (op : Nat) (w : Word) : Prop := ∃ k, s.sec.kop = some k ∧ k.op = op ∧ w32 k.word = w ∧ k.status = 0

/-- A key operation has completed with a status: SEC_KOP_STS reports it, and INT_STS.KOP_DONE is set (R426). -/
abbrev KopEnds (t : State) (st : Nat) : Prop :=
  t.sec.kop = none ∧ rd t 0x0A 0x201C = w32 (st * 256) ∧ Word.bit (rd t 0x0A 0x18) 2 = true

/-- It has failed: no slot or binding has changed. -/
abbrev KopFails (s t : State) (st : Nat) : Prop := KopEnds t st ∧ t.sec = { s.sec with kop := none }

/-- It has ended with OK, and no other XTS slot has changed. -/
abbrev KopXts (s t : State) (w : Word) : Prop := KopEnds t 0 ∧ ∀ j, j ≠ kopSlot w → xtsSlot t j = xtsSlot s j

/-- REKEY has moved CUR of a slot to PREV and taken a new key, paused, with its REF (R421, R422); every other slot is as before. -/
abbrev KeySwaps (s t : State) (k : Nat) (m : List Byte) : Prop :=
  xtsSlot t k = { xtsSlot s k with
      prev := (xtsSlot s k).cur, cur := m, cnt := 0, limit := false, paused := true
      ref := if (xtsSlot s k).gseq then s.win.gseq else (tenEpoch s (xtsTenant s k) + 1) % 65536 }
    ∧ tenEpoch t (xtsTenant s k) = (if (xtsSlot s k).gseq then tenEpoch s (xtsTenant s k) else (tenEpoch s (xtsTenant s k) + 1) % 65536)
    ∧ ∀ j, j ≠ k → xtsSlot t j = xtsSlot s j

/-- A write of PKE_CMD is admitted, and no operation runs (R429). -/
abbrev PkeFree (s : State) (who : Who) (w : Word) : Prop :=
  Admits s who 0x0B 0x100 w ∧ s.sec.pkeOp = none ∧ blkRetired s 0x0B = false

/-- A public-key operation runs that will report a status, and no key slot has changed. -/
abbrev PkeRuns (s t : State) (op : Nat) (w : Word) (st : Nat) : Prop :=
  (∃ p, t.sec.pkeOp = some p ∧ p.op = op ∧ p.curve = pkeP384 w ∧ p.status = st) ∧ t.sec.pke = s.sec.pke

/-- A port carries CXL.mem, has a credit to give for a request (R28), and its link takes the answer (R629). -/
abbrev WinLinked (s : State) (p : Nat) : Prop := cxlUp s p = true ∧ cxlCredit s p = true ∧ (Tbl.getD s.ports p {}).dlActive = true

/-- A port carries CXL.mem, one of its decoders maps the address to a line (R306), and the window serves a request to that line at once: no request
waits, it does not restore, no transaction of the line is pending, and the port has not answered a snoop of the line with I. -/
abbrev WinQuiet (s : State) (p : Fin 8) (hpa line : Nat) : Prop :=
  WinLinked s p ∧ hpaLine s p hpa = some line ∧ s.win.queue = [] ∧ s.win.state ≠ 0 ∧ pendOf s line = none ∧ (line, p.val) ∉ s.win.saidI

/-- The holders of a line other than one (R326), and whether its entry is in state A. -/
def sfOthers (s : State) (line h : Nat) : List Nat := match sfOf s line with
  | some e => e.holders.filter (· ≠ h)
  | none => []
def sfA (s : State) (line : Nat) : Bool := match sfOf s line with
  | some e => e.a
  | none => false

/-- A line has an entry, or one may be made for the tenant without a recall (R327). -/
abbrev SfPlace (s : State) (line t : Nat) : Prop :=
  (sfOf s line).isSome = true ∨ (sfUsed s t < sfMax s t ∧ countOf (fun e => sfSet s e.1 = sfSet s line) s.win.sf < 16)

/-- The bytes that a read of a line gets (R312): zeros while its granule is Unwritten, else what DRAM returns. -/
abbrev WinBytes (s : State) (line : Nat) (d : List Byte) : Prop :=
  ((granOf s (lineGran line)).st = .unwritten ∧ d = List.replicate 64 0)
    ∨ ((granOf s (lineGran line)).st ≠ .unwritten ∧ ∀ w, busRead { s with win := w } (winWho s line) (winAddr s line) 64 = (.ok, d, { s with win := w }))

/-- A store of a line's bytes reaches DRAM. -/
abbrev WinStores (s : State) (line : Nat) (b : List Byte) (t : State) : Prop :=
  KeepsBut [.mem, .dmc, .regs] s t ∧ RegsOnly [(0x1B, 0x12C), (0x1B, 0x130)] s t
    ∧ ∀ w, busWrite { s with win := w } (winWho s line) (winAddr s line) b = (.ok, { t with win := w })

/-- R318 lets a write to the line proceed. -/
abbrev WinAdmitted (s : State) (line : Nat) : Prop := winHolds s (lineGran line) = false

/-- The engine has sent these responses, and nothing else of it has changed but the entry of one line and its clocks. -/
abbrev WinServed (s t : State) (line : Nat) (l : List WOut) : Prop :=
  t.win = { s.win with out := l, sf := t.win.sf, stamp := t.win.stamp, nextId := t.win.nextId, saidI := t.win.saidI, lit := true }
    ∧ ∀ k, k ≠ line → sfOf t k = sfOf s k

/-- A line's granule after a write (R310, R311), every other granule and the poison of every other line as before. -/
abbrev WinWrote (s t : State) (line : Nat) (poison : Bool) : Prop :=
  t.win = { s.win with out := t.win.out, sf := t.win.sf, stamp := t.win.stamp, nextId := t.win.nextId, grans := t.win.grans, poison := t.win.poison, lit := true } ∧
  Tbl.find t.win.poison line = (if poison then some true else none)
    ∧ (granOf t (lineGran line)).st = (if slicePersist s (lineSlice line) = false then .clean
        else if (granOf s (lineGran line)).st = .trickling then .trickling else .dirty)
    ∧ ((granOf s (lineGran line)).st = .trickling → slicePersist s (lineSlice line) = true → (granOf t (lineGran line)).redirty = true)
    ∧ (∀ g, g ≠ lineGran line → granOf t g = granOf s g) ∧ ∀ k, k ≠ line → Tbl.find t.win.poison k = Tbl.find s.win.poison k

/-- A codeword of a granule copy on its way to a BACKING RU (R313, R314), of a slice without a key. -/
abbrev backItem (g k gseq tenant poison : Nat) (d : List Byte) : Item :=
  { tenant := 0, ruh := ruhBacking, src := .backing g k, content := .backing g k gseq tenant poison (crc32c d) d }

/-- One request waits, and the engine has sent nothing. -/
abbrev WinWaits (s t : State) (line p : Nat) (pends : List Pend) : Prop :=
  t.win = { s.win with out := [], pends := pends, queue := t.win.queue, nextId := t.win.nextId, saidI := t.win.saidI }
    ∧ ∃ r, t.win.queue = [r] ∧ r.line = line ∧ r.holder = p

/-- Of the groves, at most one engine has changed. -/
abbrev EngOnly (s t : State) (e : Nat) : Prop := t.grv = { s.grv with eng := t.grv.eng } ∧ ∀ j, j ≠ e → engOf t j = engOf s j

/-- An engine executes, and no instruction of it waits. -/
abbrev WsReady (s : State) (e : Nat) : Prop := engLive s e = true ∧ (engOf s e).wait = none

/-- A Waiset instruction has given rd a value, and the pc has moved on; its engine has these streams and jobs, and nothing else of it has changed. -/
abbrev WsGives (s t : State) (e rd v : Nat) (strs : Tbl Stream) (jobs : Tbl Job) : Prop :=
  engOf t e = { engOf s e with x := (engOf t e).x, pc := ((engOf s e).pc + 4) % 2 ^ 64, streams := strs, jobs := jobs }
    ∧ (∀ r, xReg t e r = if r = rd ∧ r ≠ 0 then v % 2 ^ 64 else xReg s e r) ∧ ∀ j, j ≠ e → engOf t j = engOf s j

/-- The same with streams and jobs as they were. -/
abbrev WsJust (s t : State) (e rd v : Nat) : Prop := WsGives s t e rd v (engOf s e).streams (engOf s e).jobs

/-- The instruction waits; nothing else has changed (R385). -/
abbrev WsHolds (s t : State) (e : Nat) (w : Waiting) : Prop := engOf t e = { engOf s e with wait := some w } ∧ EngOnly s t e

/-- An M-mode exception has halted an engine that ran no program (R384). -/
abbrev EngHalts (s t : State) (e cause mepc : Nat) : Prop :=
  engOf t e = { engOf s e with halted := true, mcause := cause, mepc := mepc, wait := none } ∧ EngOnly s t e
    ∧ rd t (engRgn e) (0x1010 + 64 * (e % 16)) = w32 (cause % 256 + 2 ^ 31) ∧ rd t (engRgn e) (0x1014 + 64 * (e % 16)) = w32 mepc
    ∧ Word.bit (rd t (engRgn e) 0x18) 2 = true

/-- A program has ended (R382, R404): its engine is Assigned and runs nothing, and its command has completed. -/
abbrev ProgEnds (s t : State) (e : Nat) (c : CmdId) (st : Status) (dw0 dw1 : Nat) : Prop :=
  (engOf t e).st = .assigned ∧ (engOf t e).prog = none ∧ (engOf t e).umode = false ∧ (engOf t e).streams = [] ∧ t.grv.execs = s.grv.execs.filter (·.cmd ≠ c)
    ∧ (∀ j, j ≠ e → engOf t j = engOf s j) ∧ ∃ x, ctxOf t c = some x ∧ x.stage = .done ∧ x.status = some st ∧ x.dw0 = dw0 ∧ x.dw1 = dw1

/-- An engine runs the program of a command in U-mode, with no stream open and no window line dirty (R382, R404). -/
abbrev Runs (s : State) (e : Nat) (c : CmdId) : Prop :=
  s.dev.fault = false ∧ (engOf s e).st = .running ∧ (engOf s e).halted = false ∧ (engOf s e).umode = true ∧ (engOf s e).retiring = false ∧ (engOf s e).streams = [] ∧ s.grv.dirty = []
    ∧ s.win.queue = [] ∧ (∃ n k, (engOf s e).prog = some (n, k, c)) ∧ (∃ w, execOf s e = some w ∧ w.cmd = c) ∧ ∃ x, ctxOf s c = some x ∧ x.stage ≠ .done

/-- No output stream of an engine's grove but one has bytes that it may issue now (R393, R394). -/
abbrev OutCalm (s : State) (e k : Nat) : Prop := ∀ f m, f / 16 = e / 16 → (f ≠ e ∨ m ≠ k) → outReady s f m = false

/-- Of the input streams of a grove it is this one's turn (R394). -/
abbrev StrTurn (s : State) (e k : Nat) : Prop := nextTurn (e / 16) (Tbl.getD s.grv.inTurn (e / 16) 127) (inReady s) = some (e % 16 * 8 + k)

/-- It is an LBA_IN stream's turn, its tenant may read the namespace now, and this is its oldest read (R392, R394). -/
abbrev LbaTurn (s : State) (e k : Nat) (x : Stream) (r : InnerRead) : Prop :=
  strOf s e k = some x ∧ x.typ = .lbaIn ∧ strMay s e x = true ∧ strHead s e k = some r ∧ StrTurn s e k

/-- The state with another turn of the input streams (R394). -/
abbrev turned (s : State) (b : Tbl Nat) : State := { s with grv := { s.grv with inTurn := b } }

/-- The first LBA of the MU that an LBA_IN stream takes next. -/
abbrev strFirst (s : State) (x : Stream) : Nat :=
  (x.start * ((nsOf s x.nsid).map lbaBytes).getD 4096 + x.delivered) / 4096 * 4096 / ((nsOf s x.nsid).map lbaBytes).getD 4096

/-- HQE has dispatched a command with this opcode (R98, R107). -/
abbrev CmdReady (s : State) (c : CmdId) (admin : Bool) (opc : Nat) (x : Ctx) : Prop :=
  ctxOf s c = some x ∧ x.stage = .ready ∧ x.admin = admin ∧ x.sqe.opc = opc

/-- The same of a command on a compute namespace that is attached to its controller (R403). -/
abbrev CompReady (s : State) (c : CmdId) (admin : Bool) (opc : Nat) (x : Ctx) (n : Ns) : Prop :=
  CmdReady s c admin opc x ∧ nsOf s x.sqe.nsid = some n ∧ n.kind = .compute ∧ c.mid ∈ n.attached ∧ n.deleting = none

/-- A command has its status and dwords, and every other command is as it was. -/
abbrev Ends (s t : State) (c : CmdId) (x : Ctx) (st : Status) (dw0 dw1 : Nat) : Prop :=
  ctxOf t c = some { x with stage := .done, status := some st, dw0 := dw0, dw1 := dw1 } ∧ ∀ d, d ≠ c → ctxOf t d = ctxOf s d

/-- A command has succeeded with data for the host, and every other command is as it was. -/
abbrev Gives (s t : State) (c : CmdId) (x : Ctx) (d : List Byte) : Prop :=
  ctxOf t c = some { x with data := d, moved := true, stage := .done, status := some stOk, dw0 := 0, dw1 := 0 } ∧ ∀ e, e ≠ c → ctxOf t e = ctxOf s e

/-- HQE has dispatched a Set Features (0x09) or a Get Features (0x0A) of one feature. -/
abbrev FeatReady (s : State) (c : CmdId) (opc fid : Nat) (x : Ctx) : Prop := CmdReady s c true opc x ∧ Word.fld x.sqe.cdw10 7 0 = fid

/-- The same of a Set Features without Save. -/
abbrev SetReady (s : State) (c : CmdId) (fid : Nat) (x : Ctx) : Prop := FeatReady s c 0x09 fid x ∧ Word.bit x.sqe.cdw10 31 = false

/-- A command has succeeded, and of the controllers only its own has changed. -/
abbrev CtrlIs (s t : State) (c : CmdId) (x : Ctx) (k : Ctrl) : Prop := Ends s t c x stOk 0 0 ∧ ctrlOf t c.mid = k ∧ ∀ m, m ≠ c.mid → ctrlOf t m = ctrlOf s m

/-- The oldest outstanding Asynchronous Event Request of a controller completes with an event in dword 0; without one nothing does (R573). -/
abbrev AerSent (s t : State) (mid dw0 : Nat) : Prop :=
  ((ctrlOf s mid).aers = [] → t.hqe.ctxs = s.hqe.ctxs ∧ (ctrlOf t mid).aers = [])
    ∧ ∀ cid l, (ctrlOf s mid).aers = cid :: l → (ctrlOf t mid).aers = l ∧ ∀ x, ctxOf s ⟨mid, 0, cid⟩ = some x → x.stage ≠ .done → Ends s t ⟨mid, 0, cid⟩ x stOk dw0 0

/-- An SQ has been latched (R96, R115, R123, R126): its record, C2h's generation, HQE's capture unless it holds one already, the interrupt and the event. -/
abbrev SqLatched (s t : State) (mid qid : Nat) (q : Sq) (bit code sev : Nat) : Prop :=
  sqOf t mid qid = some q ∧ (ctrlOf t mid).c2hGen = (ctrlOf s mid).c2hGen + 1 ∧ Word.bit (rd t 0x0D 0x18) bit = true
    ∧ (Word.bit (rd s 0x0D 0x118) 31 = false → rd t 0x0D 0x114 = w32 (mid + qid * 65536) ∧ rd t 0x0D 0x118 = w32 (q.latch % 65536 + q.reason * 65536 + 2 ^ 31))
    ∧ (Word.bit (rd s 0x0D 0x118) 31 = true → rd t 0x0D 0x114 = rd s 0x0D 0x114 ∧ rd t 0x0D 0x118 = rd s 0x0D 0x118) ∧ RegsOnly [(0x0D, 0x114), (0x0D, 0x118), (0x0D, 0x18)] s t
    ∧ ∃ e, t.evq = s.evq ++ [e] ∧ e.code = code ∧ e.sev = sev ∧ e.tenant = some (fnTenant s mid) ∧ e.detail = leBytes 2 mid ++ leBytes 2 qid ++ leBytes 1 q.reason

/-- Of the ports, only one has changed, and now holds this. -/
abbrev PortIs (s t : State) (p : Nat) (x : Port) : Prop := portOf t p = x ∧ ∀ q, q ≠ p → portOf t q = portOf s q

/-- The context of an entry that has arrived (R91, R98, R176). -/
abbrev entryCtx (s : State) (mid sqid idx : Nat) (cls : Cls) (src : CtxSrc) (e : Sqe) : Ctx :=
  { id := ⟨mid, sqid, e.cid⟩, tenant := fnTenant s mid, idx := idx, cls := cls, src := src, admin := sqid = 0, sqe := e, nsid := e.nsid, lba := cdw64 e.cdw10 e.cdw11
    wseq := if (sqid ≠ 0 ∧ [0x01, 0x04, 0x08, 0x09].contains e.opc) ∨ e.opc = 0 then s.ftl.wseq else 0, nlb := if rangeOpc e.opc then sqeNlb e else 0 }

/-- An entry has arrived: what its request of the port still waits for, its context as the last one, and its write sequence taken (R98, R176). -/
abbrev Arrived (s t : State) (p : Fin 8) (l : List NpReq) (x : Ctx) : Prop :=
  t.hqe.ctxs = s.hqe.ctxs ++ [x] ∧ PortIs s t p { portOf s p with np := l }
    ∧ t.ftl = { s.ftl with wseq := s.ftl.wseq + if x.id.sqid ≠ 0 ∧ [0x01, 0x04, 0x08, 0x09].contains x.sqe.opc then 1 else 0 }

/-- The checks that come before the transfer let an entry pass (R105 to R107). -/
abbrev EntryPasses (s : State) (x : Ctx) : Prop :=
  (if x.admin then adminMay s x.id.mid x.sqe = true else s.ftl.replayDue = false ∧ x.sqe.opc ≠ 0x19 ∧ ioCheck s x = none)
    ∧ x.sqe.fuse = 0 ∧ x.sqe.psdt ≠ 3 ∧ sqeReserved s x = false

/-- A CQ with one more entry (R93). -/
abbrev postedTo (k : Cq) (c : CmdId) (x : Ctx) (q : Sq) (st : Status) : Cq :=
  { k with entries := k.entries ++ [{ sqid := c.sqid, sqhd := q.head, cid := c.cid % 65536, status := st, dw0 := x.dw0, dw1 := x.dw1, phase := k.phase }]
           tail := (k.tail + 1) % k.size, phase := if (k.tail + 1) % k.size = 0 then !k.phase else k.phase }

/-- A CQ's message leaves: its vector is enabled and not masked. -/
abbrev Signals (s : State) (mid : Nat) (k : Cq) : Prop := k.ien = true ∧ (fnOf s mid).msixEn = true ∧ vecMasked (fnOf s mid) k.vector = false

/-- HQE has dispatched a Tenant Configure of one operation, it is the oldest, and its arguments lie within their fields (R132, R133). -/
abbrev TcReady (s : State) (c : CmdId) (op : Nat) (a b d e : Word) (x : Ctx) : Prop :=
  CmdReady s c true 0xC9 x ∧ Word.fld x.sqe.cdw10 7 0 = op ∧ tcFirst s c = true ∧ tcFits x.sqe a b d e = true

/-- With SV the tenant settings are now these, here and in the copy of the settings that is in use; else they are as before (R132). -/
abbrev Saved (s t : State) (x : Ctx) (v : TenSettings) : Prop :=
  t.ten.saved = (if Word.bit x.sqe.cdw10 31 then v else s.ten.saved) ∧ t.graft = { s.graft with settings := t.graft.settings }
    ∧ (Word.bit x.sqe.cdw10 31 = false → t.graft.settings = s.graft.settings)
    ∧ (Word.bit x.sqe.cdw10 31 = true → ∀ k g, s.graft.copyUsed = some k → Tbl.find s.graft.settings k = some g → Tbl.find t.graft.settings k = some { g with data := v })

/-- A Tenant Configure has succeeded, and of tenancy outside the registers only the settings have changed. -/
abbrev TcDone (s t : State) (c : CmdId) (x : Ctx) (v : TenSettings) : Prop :=
  Ends s t c x stOk 0 0 ∧ Saved s t x v ∧ t.ten = { s.ten with saved := t.ten.saved }

/-- The journal has taken these records, and then an NSMETA record of a namespace with its payload (R183, R631). -/
abbrev NsRecord (s t : State) (l : List (JType × Nat × Nat)) (id : Nat) : Prop :=
  ∃ a r b, t.ftl.jbuf = s.ftl.jbuf ++ a ++ r :: b ∧ a.map (fun q => (q.typ, q.mu, q.a)) = l ∧ r.typ = .nsmeta ∧ r.mu = id ∧ r.c = b.length ∧ ∀ q ∈ b, q.typ = .payload

/-- A command that has changed a namespace has succeeded, or waits for the page of its records where the ledger is not valid (R631); every other namespace is as it
was, and the journal has taken a TRIM where a range is named, and the namespace's record. -/
abbrev NsEdit (s t : State) (c : CmdId) (x : Ctx) (id dw0 : Nat) (trim : Option (Nat × Nat)) : Prop :=
  (if ledgerValid s then Ends s t c x stOk dw0 0
      else ctxOf t c = some { x with stage := .waitClose, cover := [], jmark := some t.ftl.jseq, dw0 := dw0 } ∧ ∀ d, d ≠ c → ctxOf t d = ctxOf s d)
    ∧ (∀ k, k ≠ id → nsOf t k = nsOf s k) ∧ NsRecord s t (trim.map fun p => (JType.trim, p.1, p.2)).toList id

/-- Nothing keeps a namespace's map from being dropped at once: no write is under way, no buffer and no leaf is waited for, no leaf of it is being read, damaged or
newer than the journal, the walker may write each of them, and the journal takes records. -/
abbrev Droppable (s : State) (n : Ns) : Prop :=
  s.ftl.pwt = [] ∧ s.bpm.waiters = [] ∧ s.ftl.waits = [] ∧ (n.leafCount ≠ 0 → jStalled s = false) ∧ (n.leafCount ≤ 1 ∨ ∀ r, n.leafBase ≤ r → r < n.leafBase + n.leafCount → residentOf s r = none)
    ∧ ∀ r, n.leafBase ≤ r → r < n.leafBase + n.leafCount → (rootOf s r).busy = false ∧ (∀ m, (rootOf s r).tier ≠ .bad m) ∧ currentLseq s r < s.ftl.jseq ∧ WalkPasses s r none .write

/-- A command that has changed a namespace has its outcome, or waits for the page of its records (R631). -/
abbrev Edited (t : State) (c : CmdId) : Prop := ∃ y, ctxOf t c = some y ∧ (y.stage = .done ∨ y.stage = .waitClose)

/-- Every mapping unit of a namespace is deallocated. -/
abbrev RootsGone (t : State) (n : Ns) : Prop := ∀ r, n.leafBase ≤ r → r < n.leafBase + n.leafCount → rootOf t r = {}

/-- The range that a TRIM of a whole namespace covers. -/
abbrev wholeNs (n : Ns) : Option (Nat × Nat) := if n.leafCount = 0 then none else some (n.leafBase * 2048, n.leafCount * 2048)

/-- The namespace is gone, with its key binding, its saved settings and its map, and the command that deleted it has its outcome (R155, R418). -/
abbrev NsGone (s t : State) (c : CmdId) (x : Ctx) (id : Nat) (n : Ns) : Prop :=
  NsEdit s t c x id 0 (wholeNs n) ∧ nsOf t id = none ∧ RootsGone t n ∧ Tbl.find t.sec.bind (id - 1) = none ∧ Tbl.find t.ten.savedTler id = none ∧ Tbl.find t.ten.saved.nsOwner id = none
    ∧ Tbl.find t.ten.saved.nsShare id = none

/-- What a device reset can change: all but the queue, the clock and the answer. -/
abbrev resetParts : List Part :=
  [.freeCtr, .regs, .latch, .blk, .trunk, .evq, .mem, .dev, .ports, .hqe, .ten, .bpm, .dmc, .ftl, .cpc, .flash, .ldc, .sec, .win, .grv, .pwr, .aon, .fus, .bst,
    .cores, .tap, .mbx, .xmv, .graft, .rings]

/-- What a device reset leaves (R478): every register outside the Seed domain but the listed ones, RESET_CAUSE and INT_STS of PWR holds its reset value; DRAM, SRAM,
key slots, queues and contexts are lost, and PWR_FLUSH_STS shows a flush only where one has run. -/
abbrev ResetDone (t : State) (cause : Nat) (l : List (Nat × Nat)) : Prop :=
  (∀ rgn off, rgn ≠ 3 → off < 65536 → (rgn, off) ∉ (0, 0x104) :: (2, 0x18) :: l → rd t rgn off = rd State.reset rgn off) ∧ rd t 0 0x104 = w32 cause
    ∧ (∀ c ∈ t.mem, c.1 < 0x20000000) ∧ t.sec = {} ∧ t.grv = {} ∧ t.bpm = {} ∧ t.dmc = {} ∧ t.ldc = {} ∧ t.trunk = {} ∧ t.bst = {} ∧ t.tap = {} ∧ t.cores = [] ∧ t.mbx = [] ∧ t.xmv = []
    ∧ t.latch = [] ∧ t.hqe.ctxs = [] ∧ t.hqe.sqs = [] ∧ t.hqe.ctrls = [] ∧ t.ftl.pwt = [] ∧ t.ftl.frames = [] ∧ t.flash.dies = [] ∧ t.flash.chans = [] ∧ t.pwr.pl = false
    ∧ t.pwr.flush = none ∧ ∀ p ∈ t.ports, p.2.quiet = true ∧ p.2.pstate = .down

/-- A device reset has taken place, and what stays is as it was: flash, the Taproot store but for what its operation does to it (R511), the fuses, the namespaces, whose
reservations end as Persist Through Power Loss says (R136), the record store, the saved settings and the bank. -/
abbrev IsReset (s t : State) (cause : Nat) (l : List (Nat × Nat)) : Prop :=
  ResetDone t cause l ∧ t.mem = (tapReset s).mem.filter (fun c => c.1 < 0x20000000) ∧ t.flash.cells = s.flash.cells ∧ t.fus.blown = s.fus.blown
    ∧ t.ten.nss = s.ten.nss.map (fun p => (p.1, nsAfter cause p.2)) ∧ t.ten.saved = s.ten.saved ∧ t.graft.srec = s.graft.srec ∧ t.graft.settings = s.graft.settings
    ∧ t.ftl.jpages = s.ftl.jpages ∧ t.ftl.ckpts = s.ftl.ckpts ∧ t.pwr.c = s.pwr.c ∧ t.pwr.esr = s.pwr.esr ∧ t.pwr.measured = s.pwr.measured ∧ t.pwr.history = s.pwr.history

/-- DEV_RST_N is high and the rails are up: after a device reset the power-up timeline has begun (R480). -/
abbrev Starts (s t : State) : Prop :=
  t.dev.started = true ∧ t.dev.t0 = s.clock ∧ t.dev.straps = s.dev.pins ∧ rd t 0 0x110 = w32 s.dev.pins ∧ rd t 0 0x114 = 0x7FF ∧ t.fus.sensing = true

/-- Nothing runs that the power-loss signal ends: no flash operation, grove line, window request, host command, Taproot operation or self-test slice. -/
abbrev LossQuiet (s : State) : Prop :=
  (∀ p ∈ s.flash.dies, p.2.q = [] ∧ p.2.run = none ∧ p.2.susp = none) ∧ (∀ p ∈ s.flash.chans, p.2.held = []) ∧ s.grv.dirty = [] ∧ s.win.pends = [] ∧ s.win.queue = []
    ∧ s.hqe.ctxs = [] ∧ s.tap.run = none ∧ s.bst.slices = []

/-- A flush has begun (R457): links are down, engines are halted, commands have ended, and it has its index, with the pending writes in write-sequence order, or before DMC
is READY none to write (R460). -/
abbrev FlushBegins (s t : State) (f : FlushRec) (reset : Bool) (cause : Nat) (dramLost : Bool) : Prop :=
  t.flash.withdraw = true ∧ (∀ p ∈ t.ports, p.2.pstate = .down ∧ p.2.np = [] ∧ p.2.bar2 = []) ∧ (∀ e ∈ t.grv.eng, e.2.halted = true ∧ e.2.wait = none) ∧ t.grv.execs = []
    ∧ t.hqe.ctxs = [] ∧ t.sec = { s.sec with kop := none } ∧ t.pwr.flush = some f ∧ f.started = s.clock ∧ f.reset = reset ∧ f.cause = cause ∧ f.dramLost = dramLost
    ∧ f.void = !dramUp s ∧ f.mus.Perm ((s.ftl.pwt.filter openWrite).map fun p => (p.gmu, p.wseq)) ∧ f.mus.Pairwise (fun a b => a.2 ≤ b.2)
    ∧ f.grans = (s.win.grans.filter fun g => g.2.st = .dirty || g.2.st = .trickling).map (·.1)

/-- The power-loss signal has been raised, and the flush begins (R455 to R457). -/
abbrev LossBegins (s t : State) (why : Nat) (dramLost : Bool) : Prop :=
  t.pwr.pl = true ∧ t.pwr.plWhy = why ∧ t.pwr.cstate = .flush ∧ t.pwr.switchOpen = true ∧ t.pwr.measAct = false ∧ Word.bit (rd t 0x02 0x18) 1 = true
    ∧ (∀ p ∈ t.ports, p.2.quiet = true) ∧ ∃ f, FlushBegins s t f false 0 dramLost

/-- The signal while a reset flush runs (R455, R479): the flush goes on with the bank. -/
abbrev LossJoins (s t : State) (why : Nat) (f : FlushRec) : Prop :=
  t.pwr = { s.pwr with pl := true, plWhy := why, switchOpen := true, measAct := false, cstate := .flush, flush := some f, vin := t.pwr.vin, railFault := t.pwr.railFault
                       rails := t.pwr.rails }
    ∧ Word.bit (rd t 0x02 0x18) 1 = true ∧ ∀ p ∈ t.ports, p.2.quiet = true

/-- The device is in Fault; where it was not, this region put it there (R575). -/
abbrev FaultNow (s t : State) (rgn : Nat) : Prop := t.dev = { s.dev with fault := true, faultRgn := if s.dev.fault then s.dev.faultRgn else rgn }

/-- A rail is out, and the rail fault is signalled and recorded (R445). -/
abbrev RailOut (s t : State) (rail : Nat) : Prop :=
  t.pwr.rails.testBit rail = false ∧ Word.bit (rd t 0x02 0x18) 6 = true ∧ ∃ v, t.evq = s.evq ++ [v] ∧ v.code = 0x1001 ∧ v.sev = sevCritical

/-- A sequence or an operation of Taproot has ended with a result (R507, R508). -/
abbrev TapEnds (t : State) (code addr : Nat) : Prop := rd t 0x08 0x114 = w32 code ∧ rd t 0x08 0x118 = w32 addr ∧ Word.bit (rd t 0x08 0x18) 1 = true

/-- An operation of Taproot is over; the read units of what it changed have left the buffers (R513). -/
abbrev TapIdles (s t : State) (addr n : Nat) : Prop :=
  t.tap = { s.tap with run := none, pf := t.tap.pf, btc := t.tap.btc }
    ∧ (∀ u, u ∈ t.tap.pf ↔ u ∈ s.tap.pf ∧ (u * 32 + 32 ≤ addr ∨ addr + n ≤ u * 32)) ∧ ∀ u, u ∈ t.tap.btc ↔ u ∈ s.tap.btc ∧ (u * 32 + 32 ≤ addr ∨ addr + n ≤ u * 32)

/-- A read of the store is served (R27, R505): its table lets it pass, and TAP takes requests. -/
abbrev TapAdmits (s : State) (a : Acc) : Prop := a.addr < 0x20000000 ∧ a.kind ≠ .write ∧ (barkCheck s 0x08 a).2 = true ∧ refusesData s 0x08 = false

/-- A read of the store leads to a read of the array (R506). -/
abbrev TapArray (s : State) (a : Acc) : Prop := (tapLook s (tapBranch s a) (tapUnits a.addr a.size)).1 = true

/-- The register counters of the two read buffers. -/
abbrev tapHits : List (Nat × Nat) := [(0x08, 0x14C), (0x08, 0x150)]

/-- Of Taproot, only the read buffers and what the cores fetched last have changed, and which operation is suspended. -/
abbrev TapReads (s t : State) (run : Option TapOp) : Prop := t.tap = { s.tap with run := run, pf := t.tap.pf, btc := t.tap.btc, last := t.tap.last }

/-- A mailbox holds this, and every other is as before. -/
abbrev MbxIs (s t : State) (m : Nat) (x : Mbx) : Prop := mbxOf t m = x ∧ ∀ j, j ≠ m → mbxOf t j = mbxOf s j

/-- A channel of XMV holds this, and every other is as before. -/
abbrev XmvIs (s t : State) (c : Nat) (x : XmvCh) : Prop := xmvOf t c = x ∧ ∀ j, j ≠ c → xmvOf t j = xmvOf s j

/-- The response to a channel's oldest request: what the Trunk answers, with the state after it. -/
abbrev XmvTrunk (s : State) (c : Nat) (x : XmvCh) (q : XmvReq) (l : List XmvReq) (r : TCode) (v : Nat) (t : State) : Prop :=
  trunkAccess (setXmv s c { x with out := l }) ⟨xmvWho c, q.addr, q.size, if q.write then .write else .read, leNat q.data⟩ = (r, v, t) ∧ xmvOf t c = { x with out := l }

/-- A debug unlock of a level that this key hash may open now (R490, R491). -/
abbrev MayUnlock (s : State) (level : Fin 4) (key : Fin 5) : Prop :=
  s.fus.sensed = true ∧ s.fus.usable.contains key.val = true ∧ blkRetired s 0x0B = false ∧ s.sec.drbgOk = true ∧ debugLock s 0 = false
    ∧ (level = 1 ∨ (level = 2 ∧ debugLock s 1 = false))
    ∧ ((key = 0 ∧ (lifecycle s = 1 ∨ lifecycle s = 3) ∧ debugLock s 2 = false) ∨ (key ≠ 0 ∧ lifecycle s = 2 ∧ debugLock s 3 = false))

/-- In-service self-test may start a slice of a resource of this kind (R493, R495): it is enabled, no slice of the kind runs, and the resource is not retired. -/
abbrev SliceOpen (s : State) (kind rgn unit : Nat) : Prop :=
  Word.bit (rd s 0x05 0x118) 0 = true ∧ blkRetired s 0x05 = false ∧ bistPrecond s = true ∧ s.pwr.pl = false ∧ s.dev.step4 = true ∧ (∀ y ∈ s.bst.slices, y.kind ≠ kind)
    ∧ resRetired s kind rgn unit = false

/-- A slice has ended (R495, R500): the resource is back, and it is counted; once every resource has been visited the pass is complete. -/
abbrev SliceEnds (s t : State) (x : Slice) : Prop :=
  t.bst.slices = s.bst.slices.filter (· ≠ x) ∧ Counted s t 0x05 0x120
    ∧ ∀ v, v = retKey x.kind x.rgn x.unit :: s.bst.visited.filter (· ≠ retKey x.kind x.rgn x.unit) →
      t.bst.visited = (if sliceTotal t ≤ v.length then [] else v) ∧ (sliceTotal t ≤ v.length → Word.bit (rd t 0x05 0x18) 2 = true)

/-- What a fuse word gains from a program operation (R489): each of the first n words its data, the n-th the bits in a mask. -/
def fuseGain (p : FuseProg) (n : Nat) (mask : Word) (first w : Nat) : Word :=
  if first ≤ w ∧ w - first < n then p.data.getD (w - first) 0 else if w = first + n then p.data.getD n 0 &&& mask else 0

/-- What a command can change whose effect reaches every part: all but the queue and the clock. -/
abbrev anyParts : List Part := .resp :: resetParts

/-- What the power-loss signal can change when nothing runs that it ends. -/
abbrev lossParts : List Part := [.pwr, .regs, .ports, .grv, .win, .flash, .hqe, .sec]

/-- An error of a block is captured; while another is held it is recorded in Rings alone (R44). -/
abbrev Captured (s t : State) (rgn bit : Nat) : Prop :=
  (rd s rgn 0x28 = 0 → Word.bit (rd t rgn 0x28) bit = true ∧ Word.bit (rd t rgn 0x18) 0 = true ∧ t.evq = s.evq)
    ∧ (rd s rgn 0x28 ≠ 0 → rd t rgn 0x28 = rd s rgn 0x28 ∧ ∃ v, t.evq = s.evq ++ [v] ∧ v.code = 0x4004)

/-- The recorder has numbers for n more records. -/
abbrev SeqRoom (s : State) (n : Nat) : Prop := seqNext s + n < 2 ^ 64

/-- Records have closed, in this order (R557): each has the next SEQ, and its place behind those before it; while fewer than 512 pages wait no full page is left
unsealed (R559). -/
abbrev Closes (s t : State) (l : List Rec) : Prop :=
  t.rings.pages.flatten ++ t.rings.part = s.rings.pages.flatten ++ s.rings.part ++ List.zipWith (fun (x : Rec) i => { x with seq := seqNext s + i }) l (List.range l.length)
    ∧ seqNext t = seqNext s + l.length ∧ rd t 0x06 0x138 = w32 (min ((rd s 0x06 0x138).toNat + l.length) 0xFFFFFFFF)
    ∧ (s.rings.part.length < 8 ∨ 512 ≤ s.rings.pages.length → t.rings.part.length < 8 ∨ 512 ≤ t.rings.pages.length)

/-- The registers that closing a record can change. -/
abbrev seqRegs : List (Nat × Nat) := [(0x06, 0x18), (0x06, 0x10C), (0x06, 0x110), (0x06, 0x138)]

/-- An open record takes the repeats of this event (R556). -/
abbrev Folds (y : Rec) (code block inst : Nat) : Prop := y.single = false ∧ y.code = code ∧ y.block = block ∧ y.inst = inst

/-- A repeat has been folded into its open record (R556). -/
abbrev Folded (s t : State) (code block inst : Nat) : Prop :=
  Counted s t 0x06 0x134 ∧ t.rings = { s.rings with opened := t.rings.opened }
    ∧ t.rings.opened = s.rings.opened.map fun z => if Folds z code block inst then { z with count := min (z.count + 1) 0xFFFFFFFF, delta := min 1000 ((s.clock - z.at_) * 1000) } else z

/-- An event has been dropped and counted, and a DROPPED record is owed for it (R555). -/
abbrev Dropped (s t : State) (sev : Nat) : Prop :=
  t.rings.opened = s.rings.opened ∧ t.rings.part = s.rings.part ∧ t.rings.pages = s.rings.pages ∧ t.rings.dropTotal = s.rings.dropTotal + 1 ∧ t.rings.dropRec.isSome = true
    ∧ (∀ x, s.rings.dropRec = some x → t.rings.dropRec = some x) ∧ (s.rings.drops.length = 5 → t.rings.drops.getD sev 0 = s.rings.drops.getD sev 0 + 1)
    ∧ Counted s t 0x06 (0x120 + 4 * sev) ∧ Word.bit (rd t 0x06 0x18) 3 = true

/-- The use of the slots has gone up to 3,584, and INT_STS.STAGE_HIGH says so (R555, R570). -/
abbrev StageHigh (s t : State) : Prop := Word.bit (rd t 0x06 0x18) 2 = (Word.bit (rd s 0x06 0x18) 2 || (decide (evrUsed s < 3584) && decide (3584 ≤ evrUsed t)))

/-- What firmware has written to a post interface may be recorded (R569). -/
abbrev PostOk (s : State) (off : Nat) : Prop :=
  Word.fld (rd s 0x06 off) 18 16 < 5 ∧ Word.fld (rd s 0x06 off) 15 12 ≠ 0xD ∧ Word.fld (rd s 0x06 off) 15 12 ≠ 0xE
    ∧ (Word.fld (rd s 0x06 off) 15 12 = 0 → Word.fld (rd s 0x06 off) 15 0 = 4)

/-- A record holds what firmware wrote to a post interface, with the stamps of now, or those of the interface where SEED is set (R569). -/
abbrev Posted (s : State) (off : Nat) (x : Rec) : Prop :=
  x.code = Word.fld (rd s 0x06 off) 15 0 ∧ x.sev = Word.fld (rd s 0x06 off) 18 16 ∧ x.block = Word.fld (rd s 0x06 (off + 4)) 7 0 ∧ x.inst = Word.fld (rd s 0x06 (off + 4)) 15 8
    ∧ x.tenant = (if Word.bit (rd s 0x06 (off + 4)) 31 then some (Word.fld (rd s 0x06 (off + 4)) 24 16) else none) ∧ x.fw = true ∧ x.opsec = s.dev.opsec
    ∧ x.detail = (List.range 6).flatMap (fun i => leBytes 4 (rd s 0x06 (off + 8 + 4 * i)).toNat) ∧ x.seed = Word.bit (rd s 0x06 off) 20
    ∧ (x.seed = false → x.rtc = s.dev.rtc ∧ x.pwrcyc = s.aon.pwrcyc ∧ x.rtcValid = (s.aon.rtcValid && !blkRetired s 0x03))
    ∧ (x.seed = true → x.rtc = (rd s 0x06 (off + 0x28)).toNat + Word.fld (rd s 0x06 (off + 0x2C)) 7 0 * 2 ^ 32 ∧ x.pwrcyc = (rd s 0x06 (off + 0x30)).toNat ∧ x.rtcValid = true)

/-- The next blank page of the record store, from the page that the last one ended at (R560). -/
abbrev NextPage (s : State) (n : Nat) : Prop :=
  ∃ i, i < 1024 ∧ n = (s.rings.next + i) % storePages ∧ tapBlank s (storeAddr n) = true ∧ ∀ j, j < i → tapBlank s (storeAddr ((s.rings.next + j) % storePages)) = false

/-- Firmware has programmed this page of the store; where it is the first of its sector, the next sector is erased (R560). -/
abbrev PageStored (s t : State) (n : Nat) (p : List Rec) : Prop :=
  memReadN t (storeAddr n) 512 = pageImage p ∧ t.rings.next = (n + 1) % storePages
    ∧ (n % 512 = 0 → ∀ b, b < 0x40000 → memRead t (storeAddr ((n + 512) % storePages) + b) = 0xFF)
    ∧ ∀ b, (b < storeAddr n ∨ storeAddr n + 512 ≤ b) → (n % 512 = 0 → b < storeAddr ((n + 512) % storePages) ∨ storeAddr ((n + 512) % storePages) + 0x40000 ≤ b) → memRead t b = memRead s b

/-- Every good record in a sector of the store that holds bytes is at or below a floor (R565). -/
abbrev SectorOld (s : State) (floor k : Nat) : Prop := (∃ p ∈ storeUsed s, p / 512 = k) ∧ ∀ p ∈ storeUsed s, p / 512 = k → ∀ r ∈ storeAt s p, r.seq ≤ floor

/-- Rings have been cleared up to a floor (R564, R565): records at or below it are gone from staging, so are the sectors that hold no other, and a CLEARED record with
the floor and the route has taken the clear slot. -/
abbrev Cleared (s t : State) (floor route : Nat) : Prop :=
  clearFloor t = max (clearFloor s) floor ∧ t.rings.clearUsed = true
    ∧ (∀ k, SectorOld s floor k → ∀ b, b < 0x40000 → memRead t (storeAddr (512 * k) + b) = 0xFF)
    ∧ (∀ b, (∀ k, SectorOld s floor k → b < storeAddr (512 * k) ∨ storeAddr (512 * k) + 0x40000 ≤ b) → memRead t b = memRead s b)
    ∧ ∃ r, r.code = 3 ∧ r.sev = sevNotice ∧ r.detail.take 9 = leBytes 8 floor ++ [BitVec.ofNat 8 route] ∧ r.opsec = s.dev.opsec
      ∧ (evrEn s = true → SeqRoom s 1 → seqNext t = seqNext s + 1 ∧ t.rings.opened = s.rings.opened
        ∧ t.rings.pages.flatten ++ t.rings.part = (s.rings.pages.flatten ++ s.rings.part).filter (fun y => decide (floor < y.seq)) ++ [{ r with seq := seqNext s }])
      ∧ (evrEn s = false → seqNext t = seqNext s ∧ t.rings.opened = s.rings.opened ++ [r]
        ∧ t.rings.pages.flatten ++ t.rings.part = (s.rings.pages.flatten ++ s.rings.part).filter fun y => decide (floor < y.seq))

/-- A clear may take place now: the clear slot is free, no clear waits and no DROPPED record is owed; the floor is the highest SEQ named that has closed. -/
abbrev ClearsNow (s : State) (upto floor : Nat) : Prop :=
  upto < 2 ^ 64 ∧ s.rings.clearUsed = false ∧ s.rings.waitClear = [] ∧ s.rings.dropRec = none ∧ ∃ last, lastClosed s = some last ∧ floor = min upto last

/-- The SPDM responder has sent this, over MCTP or through the DOE mailbox of a port (R81, R437); no other port has changed. -/
abbrev Says (s t : State) (via : Option (Fin 8)) (typ : Nat) (d : List Byte) : Prop :=
  t.resp.code = .ok ∧ t.resp.bytes = d
    ∧ (∀ p, via = some p → (portOf t p).doe.busy = false ∧ (portOf t p).doe.intSts = true
        ∧ (portOf t p).doe.response = leBytes 2 1 ++ leBytes 2 typ ++ leBytes 4 (ceilDiv (d.length + 8) 4) ++ d)
    ∧ ∀ q, (∀ p : Fin 8, via = some p → q ≠ p.val) → portOf t q = portOf s q

/-- The same of a message whose code is given, and whose payload of n bytes this part does not state. -/
abbrev SaysMsg (s t : State) (via : Option (Fin 8)) (code n : Nat) : Prop :=
  ∃ b, b.length = n ∧ Says s t via 1 ([0x13, BitVec.ofNat 8 code, 0, 0] ++ b)

/-- The responder has refused a request with an ERROR code. -/
abbrev SaysError (s t : State) (via : Option (Fin 8)) (code : Nat) : Prop := Says s t via 1 [0x13, 0x7F, BitVec.ofNat 8 code, 0]

/-- A session is gone with its two key slots; every other is as before (R435). -/
abbrev SessionGone (s t : State) (id : Nat) (x : SpdmSession) : Prop :=
  sessionOf t id = none ∧ (∀ k ∈ x.gcm, gcmSlot t k = {}) ∧ (∀ k, k ∉ x.gcm → gcmSlot t k = gcmSlot s k) ∧ ∀ j, j ≠ id → sessionOf t j = sessionOf s j

/-- Of the sessions, only one has changed, and now holds this; the key slots are as before. -/
abbrev SessionIs (s t : State) (id : Nat) (x : SpdmSession) : Prop :=
  sessionOf t id = some x ∧ t.sec = { s.sec with sessions := t.sec.sessions } ∧ ∀ j, j ≠ id → sessionOf t j = sessionOf s j

/-- The cell ring has taken an entry (R470): in its next slot that no STICKY entry holds, STICKY as the first of its type; every other slot is as before. -/
abbrev CellTakes (s t : State) (typ value : Nat) : Prop :=
  t.aon.seq = (s.aon.seq + 1) % 256 ∧ cellSlot s < 128
    ∧ (∀ x, Tbl.find s.aon.ring (cellSlot s) = some x → cellSticky x = true → ∀ j, j < 128 → ∃ y, Tbl.find s.aon.ring j = some y ∧ cellSticky y = true)
    ∧ Tbl.find t.aon.ring (cellSlot s) = some (cellEntry s typ value (s.aon.ring.all fun e => decide (cellType e.2 ≠ typ)))
    ∧ ∀ j, j ≠ cellSlot s → Tbl.find t.aon.ring j = Tbl.find s.aon.ring j

/-- An alarm of the Seed domain has been raised (R469): while Cambium runs by an interrupt and a record, else by an entry of the cell ring; one that is not enabled, or of a
retired AON, by neither. -/
abbrev Alarms (s t : State) (typ value bit : Nat) : Prop :=
  (alarmOn s typ = true → blkRetired s 0x03 = false → s.pwr.cstate ≠ .off → t.aon.ring = s.aon.ring ∧ Word.bit (rd t 0x03 0x18) bit = true ∧ RegsOnly [(0x03, 0x18)] s t
      ∧ ∃ x, t.evq = s.evq ++ [x] ∧ x.code = 0x1006 ∧ x.sev = alarmSev typ ∧ x.detail = leBytes 1 typ ++ leBytes 2 value)
    ∧ (alarmOn s typ = true → blkRetired s 0x03 = false → s.pwr.cstate = .off → CellTakes s t typ value ∧ t.evq = s.evq ∧ RegsOnly [] s t)
    ∧ (alarmOn s typ = false ∨ blkRetired s 0x03 = true → t.aon.ring = s.aon.ring ∧ t.aon.seq = s.aon.seq ∧ t.evq = s.evq ∧ RegsOnly [] s t)

/-- The Seed domain has the sample (R466). -/
abbrev Sampled (s t : State) (temp vbat : Nat) (l : List Nat) : Prop :=
  t.aon = { s.aon with temp := temp, vbat := vbat, lost := s.aon.lost || (s.aon.onCell && decide (vbat < 2000)), latched := l, ring := t.aon.ring, pos := t.aon.pos
                       wrapped := t.aon.wrapped, seq := t.aon.seq }

/-- The temperature lies within its limits and the cell is not low: no alarm begins, and a latched one that needs more hysteresis than this is kept. -/
abbrev SeedCalm (s : State) (temp vbat : Nat) : Prop := tempLo s ≤ (temp : Int) ∧ (temp : Int) ≤ tempHi s ∧ 2300 ≤ vbat

/-- HQE has dispatched an I/O command of an NVM namespace (R105). -/
abbrev IoReady (s : State) (c : CmdId) (opc : Nat) (x : Ctx) (n : Ns) : Prop := CmdReady s c false opc x ∧ nsOf s x.nsid = some n ∧ n.kind = .nvm

/-- An I/O command of an NVM namespace has the buffers it waited for (R99). -/
abbrev IoBuffered (s : State) (c : CmdId) (opc : Nat) (x : Ctx) (n : Ns) : Prop :=
  ctxOf s c = some x ∧ x.stage = .dataIn ∧ x.bufs ≠ [] ∧ x.need = 0 ∧ x.want = [] ∧ x.got = [] ∧ x.admin = false ∧ x.sqe.opc = opc ∧ nsOf s x.nsid = some n ∧ n.kind = .nvm

/-- The same, or one that HQE has dispatched. -/
abbrev IoHere (s : State) (c : CmdId) (opc : Nat) (x : Ctx) (n : Ns) : Prop := IoReady s c opc x n ∨ IoBuffered s c opc x n

/-- A mapping unit that nothing maps, whose root entry the walker may read. -/
abbrev Unmapped (s : State) (g : Nat) : Prop := g / 2048 ∉ s.ftl.rebuilding ∧ rootOf s (g / 2048) = {} ∧ WalkPasses s (g / 2048) (some (g % 2048)) .read

/-- A mapping unit whose leaf is in the Canopy with this entry, which the walker may read. -/
abbrev Holds (s : State) (g e : Nat) : Prop :=
  g / 2048 ∉ s.ftl.rebuilding ∧ (rootOf s (g / 2048)).busy = false ∧ WalkPasses s (g / 2048) (some (g % 2048)) .read
    ∧ ∃ i f, residentOf s (g / 2048) = some (i, f) ∧ entPresent f (g % 2048) = true ∧ staleFrame s f = false ∧ Tbl.getD f.entries (g % 2048) 0 = e

/-- A command reads these bytes, and no other command shares its buffers: they are counted, and the command completes (R105, R290). -/
abbrev ReadEnds (s t : State) (c : CmdId) (x : Ctx) (n : Ns) (d : List Byte) : Prop :=
  t.hqe.readCmds = s.hqe.readCmds + 1 ∧ t.hqe.unitsRead = s.hqe.unitsRead + d.length ∧ (Tbl.getD t.cpc.eg n.owner {}).rd = (Tbl.getD s.cpc.eg n.owner {}).rd + d.length
    ∧ (∀ e, e ≠ c → ctxOf t e = ctxOf s e) ∧ ∃ y, ctxOf t c = some y ∧ y.stage = .done ∧ y.bufs = x.bufs
      ∧ y.status = some (if x.sqe.opc = 0x05 ∧ d ≠ x.data then stCompareFail else stOk) ∧ y.moved = (decide (x.sqe.opc = 0x02) || x.moved) ∧ y.data = if x.sqe.opc = 0x02 then d else x.data

/-- The leaf of a mapping unit is in the Canopy with its entry; no write is under way, no reclaim unit holds data, and the journal takes records. -/
abbrev LeafHere (s : State) (g i : Nat) (f : Frame) : Prop :=
  residentOf s (g / 2048) = some (i, f) ∧ (rootOf s (g / 2048)).busy = false ∧ f.raw = true ∧ entPresent f (g % 2048) = true ∧ s.cpc.rus = [] ∧ s.ftl.pwt = []
    ∧ s.ftl.pwtWait = [] ∧ s.ftl.waits = [] ∧ jStalled s = false ∧ f.lseq < s.ftl.jseq ∧ WalkPasses s (g / 2048) none .write

/-- One journal record of a type has changed one mapping unit's entry (R182). -/
abbrev LeafChanged (s t : State) (g i : Nat) (f : Frame) (ty : JType) (e : Nat) : Prop :=
  (∃ h, residentOf t (g / 2048) = some (i, h) ∧ h.lseq = s.ftl.jseq ∧ Tbl.getD h.entries (g % 2048) 0 = e ∧ ∀ o, o ≠ g % 2048 → Tbl.getD h.entries o 0 = Tbl.getD f.entries o 0)
    ∧ (rootOf t (g / 2048)).dirty = true ∧ ∃ r, t.ftl.jbuf = s.ftl.jbuf ++ [r] ∧ r.typ = ty ∧ r.mu = g ∧ r.a = 1 ∧ r.jseq = s.ftl.jseq

/-- A namespace's reservation state has changed, is journalled, and the command has succeeded (R136, R631). -/
abbrev ResvIs (s t : State) (c : CmdId) (x : Ctx) (n : Ns) : Prop :=
  (if ledgerValid s then Ends s t c x stOk 0 0
      else ctxOf t c = some { x with stage := .waitClose, cover := [], jmark := some t.ftl.jseq, dw0 := 0 } ∧ ∀ d, d ≠ c → ctxOf t d = ctxOf s d)
    ∧ nsOf t x.nsid = some n ∧ (∀ k, k ≠ x.nsid → nsOf t k = nsOf s k) ∧ NsRecord s t [] x.nsid

/-- No command of a port holds a context, no program runs, no message of a function pends, and the window owes the port no answer. -/
abbrev PortIdle (s : State) (p : Nat) : Prop :=
  (∀ x ∈ s.hqe.ctxs, x.id.mid / 64 ≠ p) ∧ s.grv.execs = [] ∧ (∀ f ∈ (portOf s p).fns, f.2.pba = []) ∧ s.win.owed = []

/-- Nothing of the window waits for a port, and the Canopy holds no leaf in host memory. -/
abbrev PortQuiet (s : State) (p : Nat) : Prop := PortIdle s p ∧ s.win.pends = [] ∧ s.win.sf = [] ∧ s.win.queue = [] ∧ s.ftl.hmbMem = []

/-- A function has been reset: its AER registers, which are sticky, are kept, and all else is as after device reset (R72, R73). -/
abbrev FnIsReset (f g : FnSt) : Prop :=
  g = { aerUnc := f.aerUnc, aerCor := f.aerCor, aerMask := f.aerMask, aerSev := f.aerSev, aerCorMask := f.aerCorMask, aerFirst := f.aerFirst, aerHdr := f.aerHdr }

/-- A port's link has gone down, and its data link layer with it; the control fields in effect are those of the register (R55, R58). -/
abbrev PortFalls (s t : State) (p : Nat) (x : Port) : Prop :=
  PortIs s t p { x with ltssm := .detect, detActive := false, dlActive := false, credits := none, link := rd t (portRgn p) 0x100 }

/-- PRT_LINK_CTL takes a written word (R9, R84): RETRAIN reads 0, and a reserved value of PROTO or MAX_RATE leaves that field as it was. -/
abbrev LinkStored (old new v : Word) : Prop :=
  new &&& 0xFFFFFF13 = v &&& 0x3F11 ∧ Word.fld new 3 2 = (if Word.fld v 3 2 < 2 then Word.fld v 3 2 else Word.fld old 3 2)
    ∧ Word.fld new 7 5 = if Word.fld v 7 5 < 6 then Word.fld v 7 5 else Word.fld old 7 5

/-- What the link found is logged in PF0's AER registers (R80), and, where the port carries CXL, in the CXL RAS capability (R341, log entry 129). -/
abbrev LinkLogged (s t : State) (p : Nat) (e : LinkErr) : Prop :=
  ((fnOf t (p * 64)).aerCor ||| 2 ^ 8 = (fnOf s (p * 64)).aerCor ||| 2 ^ 8 ||| match e with
    | .receiver => 1
    | .badTlp => 2 ^ 6
    | .badDllp => 2 ^ 7
    | .replayTimer => 2 ^ 12
    | .protocol | .overflow | .encoding => (fnOf t (p * 64)).aerCor &&& 2 ^ 15)
    ∧ ((fnOf t (p * 64)).aerUnc = (fnOf s (p * 64)).aerUnc ||| match e with
      | .protocol => 2 ^ 4
      | .overflow => 2 ^ 17
      | .receiver | .badTlp | .badDllp | .replayTimer | .encoding => 0)
    ∧ ((portOf t p).ras = (portOf s p).ras ||| match e, (portOf s p).cxl with
      | .overflow, true => 2 ^ 11
      | .encoding, true => 2 ^ 9
      | _, _ => 0)
    ∧ ∀ k, k ≠ p * 64 → fnOf t k = fnOf s k

/-- A read of a function's BAR completes to the host (R65, R70): at once where no earlier read of the port waits, else behind it. Errors are logged by AER (R80). -/
abbrev HostGets (s t : State) (mid : Nat) (a : HostAns) : Prop :=
  ((portOf s (mid / 64)).bar2 = [] → t.resp = { code := .ok, data := a.data, cpl := a.cpl, ep := a.ep } ∧ (portOf t (mid / 64)).bar2 = [])
    ∧ (∀ b l, (portOf s (mid / 64)).bar2 = b :: l → b.timedOut = false → b.ans = none →
        t.resp = s.resp ∧ (portOf t (mid / 64)).bar2 = b :: l ++ [{ id := s.trunk.nextId, off := 0, size := 0, ans := some a }])
    ∧ (fnOf t mid).aerUnc = (fnOf s mid).aerUnc ||| (if a.cpl = 1 then 2 ^ 20 else if a.cpl = 4 then 2 ^ 15 else 0) ∧ ∀ k, k ≠ mid → fnOf t k = fnOf s k

/-- What such a read can change. -/
abbrev readParts : List Part := [.resp, .ports, .trunk, .freeCtr]

/-- Of the functions, only one has changed, and now holds this. -/
abbrev FnIs (s t : State) (m : Nat) (f : FnSt) : Prop := fnOf t m = f ∧ ∀ k, k ≠ m → fnOf t k = fnOf s k

/-- A block is retired and on the retirement list, and the device goes on Degraded (R496, R578). -/
abbrev BlockOut (s t : State) (rgn : Nat) : Prop :=
  blkRetired t rgn = true ∧ t.dev = { s.dev with retired := s.dev.retired ++ [retKey 6 rgn 0] } ∧ ∃ v, t.evq = s.evq ++ [v] ∧ v.code = 0x2002 ∧ v.sev = sevError

/-- A port with its functions and controllers has been reset (R72, R78): its link is in a state, PERST# at a level, and containment, if any, has ended. -/
abbrev PortIsReset (s t : State) (p : Nat) (l : Ltssm) (perst : Bool) : Prop :=
  (∃ fns, PortIs s t p { portOf s p with
      pstate := .down, ltssm := l, perst := perst, link := rd s (portRgn p) 0x100, detActive := false, dlActive := false, np := [], bar2 := [], doe := {}, credits := none
      cxl := false, flit := false, rate := 0, width := 0, vfEn := false, numVfs := 0, ctoEnc := 0, ctoOff := false, fns := fns })
    ∧ (∀ f : Fin 64, FnIsReset (fnOf s (p * 64 + f)) (fnOf t (p * 64 + f)) ∧ (ctrlOf t (p * 64 + f)).en = false)
    ∧ (∀ q, q ∈ t.hqe.sqs ↔ q ∈ s.hqe.sqs ∧ (∀ f : Fin 64, (Tbl.find s.hqe.ctrls (p * 64 + f)).isSome = true ∨ f = 0 → q.1 / 65536 ≠ p * 64 + f)
        ∧ ∀ f : Fin 64, (Tbl.find (portOf s p).fns f).isSome = true → q.1 / 65536 ≠ p * 64 + f)
    ∧ (∀ d ∈ t.win.decs, d.1 / 8 ≠ p) ∧ (Word.bit (rd t (portRgn p) 0x18) 2 = ((portOf s p).dlActive || Word.bit (rd s (portRgn p) 0x18) 2))
    ∧ RegsOnly [(portRgn p, 0x18), (0x02, 0x18)] s t

/-- A host command has its status, and its completion entry waits to be posted (R98). -/
def Done (s : State) (c : CmdId) (st : Status) : Prop := ∃ x, ctxOf s c = some x ∧ x.stage = .done ∧ x.status = some st

/-- A decoder that serves the codeword may end (R279, R280). -/
abbrev Decodes (s : State) (x : Cw) : Prop := cwOf s x.id = some x ∧ x.decoding = true ∧ x.served = true

/-- A payload passes the checks of R278 items 2 to 4 as this content: of the kind and the leaf that the reader expects, or the user data it expects, whose plaintext
has the CRC of its header. -/
abbrev PayloadOk (s : State) (x : Cw) (c d : Content) : Prop :=
  (d = c.asRead ∧ d.kind = x.expect.kind ∧ d.kind ≠ 1 ∧ (d.kind = 2 → leafSlotOk x.expect d = true))
    ∨ ∃ lost wseq crc b, x.expect.kind = 1 ∧ c.asRead = .user x.expect.nsid x.expect.mu x.expect.tenant lost wseq crc b
        ∧ d = .user x.expect.nsid x.expect.mu x.expect.tenant lost wseq crc (decMu s x.expect.nsid x.expect.mu (epochOf s x.pua) b).1
        ∧ crc32c (decMu s x.expect.nsid x.expect.mu (epochOf s x.pua) b).1 = crc

/-- A codeword has reached step 5 (R285): its reader gets no payload, and the error is counted, signalled and recorded. -/
abbrev Unrecovered (s t : State) (x : Cw) : Prop :=
  (∃ y, y.id = x.id ∧ y.pua = x.pua ∧ y.step = 5 ∧ t.ldc.results = s.ldc.results ++ [(y, none)]) ∧ cwOf t x.id = none ∧ Counted s t 0x1A 0x134
    ∧ Word.bit (rd t 0x1A 0x18) 1 = true ∧ ∃ e ∈ t.evq, e.code = 0x7001

/-- An operation as the channel that is offered it numbers it; after the power-loss signal those of the flush are CLOSE (R269). -/
abbrev offered (s : State) (o : FOp) : FOp := { o with id := s.flash.nextOp, age := s.flash.nextOp, cls := if s.flash.withdraw then min o.cls 1 else o.cls }

/-- A channel takes operations of a submitter: its block serves, and after the power-loss signal or in Fault those of the flush alone (R250, R269, R270, R571). -/
abbrev Takes (s : State) (c : Nat) (sub : Submitter) : Prop :=
  ((blkSt s (fchRgn c)).st = .init ∨ (blkSt s (fchRgn c)).st = .ready) ∧ (s.flash.withdraw = false ∨ sub = .flush) ∧ (s.dev.fault = false ∨ sub = .flush)
    ∧ (chanOf s c).tstate ≠ tsEmpty

/-- It takes a well-formed operation into its die's queue at once (R257, R259). -/
abbrev Accepts (s : State) (c : Nat) (o : FOp) : Prop :=
  Takes s c o.sub ∧ ((chanOf s c).tstate < 5 ∨ dieUsable s (puaDie o.addr) = true)
    ∧ ((chanOf s c).held.any fun y => puaDie y.addr = puaDie o.addr && y.cls = (offered s o).cls) = false ∧ slotFits (dieOf s (puaDie o.addr)) (offered s o).cls = true

/-- A channel has searched its rates (R252, R253): each die that operations may run on is READY at its own rate or FAILED_TRAIN, the channel runs at the lowest of
those rates, or is EMPTY. -/
abbrev Trained (s t : State) (c : Fin 32) (r : Fin 16 → Nat) : Prop :=
  (∀ d : Fin 16, (dieOf t (c * 16 + d)).st = (if dieUsable s (c * 16 + d) then (if r d = 0 then .failedTrain else .ready) else (dieOf s (c * 16 + d)).st)
      ∧ (dieUsable s (c * 16 + d) = true → 0 < r d → (dieOf t (c * 16 + d)).maxRate = r d ∧ (chanOf t c).rate ≤ r d))
    ∧ ((∃ d : Fin 16, dieUsable s (c * 16 + d) = true ∧ 0 < r d) →
        (chanOf t c).tstate = tsReady ∧ ∃ d : Fin 16, dieUsable s (c * 16 + d) = true ∧ 0 < r d ∧ (chanOf t c).rate = r d)
    ∧ ((∀ d : Fin 16, dieUsable s (c * 16 + d) = true → r d = 0) → (chanOf t c).tstate = tsEmpty ∧ (chanOf t c).rate = 0)
    ∧ Word.bit (rd t (fchRgn c) 0x18) 1 = true ∧ Counted s t (fchRgn c) 0x154

/-- The highest rate of a die that passed, as a search reports it, within MAX_RATE (R252). -/
abbrev rateOf (s : State) (c : Fin 32) (rates : List (Fin 16 × Nat)) (d : Fin 16) : Nat :=
  min ((rates.find? fun p => p.1 = d).elim 0 (·.2)) (rdF s (fchRgn c) 0x100 3 0)

/-- A command whose issuer's MID stands in R17's table. -/
def Issued : Instr → Prop
  | .trunkRequest a _ => (midClass a.who.mid).isSome
  | _ => True

end Sys2Proof.Machine
end

