-- ==== Sys2Proof/Certificates/Slice0/Obligations.lean ====
section
/-! DEFINITION. The statements for the provers. -/

open Sys2Proof Sys2Proof.Machine

/-! ### The queue, the clock, the outcome -/

/-- A step at a state whose queue has the command `c` in front is `exec c` on the state with the queue's rest. -/
def Obligations.StepRunsFront : Prop :=
  ∀ (c : Instr) (rest : List Instr) (s : State), step { s with pending := c :: rest } = exec c { s with pending := rest }

/-- The model's choice (log entry 2): a step on an empty queue is one second of the clock. The two counters then move as R467 says. What Cambium gates in
PS3 and PS4 (R463, R465) it gates at the same seconds; the statement is of the others. -/
def Obligations.IdleIsOneSecond : Prop :=
  ∀ s : State, s.pending = [] → s.pwr.psGate = [] → (s.pwr.psEff < 3 ∨ s.pwr.psEff = 3 ∧ ∀ r, (blkSt s r).st ≠ .ready) → ∃ t, step s = .next t ∧ t.pending = [] ∧ t.clock = s.clock + 1 ∧ t.dev.rtc = s.dev.rtc + 1
    ∧ t.dev.opsec = (if s.pwr.cstate = .softStart ∨ s.pwr.cstate = .charging ∨ s.pwr.cstate = .protected_ ∨ s.pwr.cstate = .flush
        then s.dev.opsec + 1 else s.dev.opsec)

/-- Every command answers a next state; a request with a MID outside R17's table describes no event of the part. -/
def Obligations.EveryCommandAnswers : Prop :=
  (∀ (i : Instr) (s : State), Issued i → ∃ t, exec i s = .next t)
    ∧ ∀ (a : Acc) (b : Bool) (s : State), midClass a.who.mid = none → exec (.trunkRequest a b) s = .fault .noSuchMaster

/-- After every step that runs a command, the device state of R571 and the ledger of R452 and R454 are the reported ones. -/
def Obligations.StepSettles : Prop :=
  ∀ s t : State, s.pending ≠ [] → step s = .next t → t.settled = true

/-- The state after reset has the property that every command restores. -/
def Obligations.ResetSettled : Prop := State.reset.settled = true

/-- The register file and memory keep their canonical forms, and read as written. -/
def Obligations.StoresKeepForm : Prop :=
  (∀ (s : State) (rgn off : Nat) (v : Word), off < 65536 → Regs.wf s.regs = true →
      Regs.wf (wr s rgn off v).regs = true ∧ rd (wr s rgn off v) rgn off = v ∧ RegsOnly [(rgn, off)] s (wr s rgn off v))
    ∧ (∀ (s : State) (a : Nat) (d : List Byte), Memory.wf s.mem = true →
      Memory.wf (memWriteN s a d).mem = true ∧ memReadN (memWriteN s a d) a d.length = d ∧ MemOnly a d.length s (memWriteN s a d))
    ∧ ∀ (s : State) (a n : Nat), Memory.wf s.mem = true →
      Memory.wf (memForget s a n).mem = true ∧ MemOnly a n s (memForget s a n)
        ∧ ∀ b, a ≤ b → b < a + n → memRead (memForget s a n) b = memDefault b

/-- `settle` changes nothing beyond what R111, R320, R452 to R454 and R573 announce. -/
def Obligations.SettleFrame : Prop :=
  ∀ s : State, KeepsBut [.regs, .evq, .freeCtr, .dev, .pwr, .hqe, .win] s (settle s)
    ∧ RegsOnly [(0x00, 0x18), (0x02, 0x18), (0x0D, 0x18), (0x18, 0x18)] s (settle s)
    ∧ { (settle s).dev with shown := s.dev.shown } = s.dev
    ∧ { (settle s).pwr with cause := s.pwr.cause, wbShare := s.pwr.wbShare, winShare := s.pwr.winShare } = s.pwr
    ∧ { (settle s).win with state := s.win.state, devs := s.win.devs } = s.win
    ∧ (settle s).hqe.sqs = s.hqe.sqs ∧ (settle s).hqe.cqs = s.hqe.cqs

/-! ### Trunk requests -/

/-- TRUNK_REQUEST (R13, R15): an answered request into Crown SRAM. -/
def Obligations.TrunkRequestServed : Prop :=
  ∀ (s : State) (a : Acc), (midClass a.who.mid).isSome → s.trunk.reqs = [] → refusesData s 0 = false → a.size ≠ 0 → 0x50000000 ≤ a.addr →
    a.addr + a.size ≤ 0x50800000 →
    ((barkCheck s 0 a).2 = true → a.kind ≠ .write →
        Serves (.trunkRequest a true) s [.resp] fun u => u.resp.code = .ok ∧ u.resp.data = leNat (memReadN s a.addr a.size))
    ∧ ((barkCheck s 0 a).2 = true → a.kind = .write →
        Serves (.trunkRequest a true) s [.resp, .mem] fun u =>
          u.resp.code = .ok ∧ memReadN u a.addr a.size = leBytes a.size a.data ∧ MemOnly a.addr a.size s u)
    ∧ ((barkCheck s 0 a).2 = true →
        Serves (.trunkRequest a false) s [.trunk, .blk] fun u =>
          u.trunk = { s.trunk with reqs := [{ id := s.trunk.nextId, acc := carriedAcc s a }], nextId := s.trunk.nextId + 1 }
            ∧ (blkSt u 0).accepted = (blkSt s 0).accepted + 1 ∧ ∀ r, r ≠ 0 → blkSt u r = blkSt s r)
    ∧ ((barkCheck s 0 a).2 = false → refusalFaults a.who.mid = false → ∀ b : Bool,
        Serves (.trunkRequest a b) s [.resp, .regs, .trunk, .evq] fun u =>
          u.resp.code = .denied ∧ Tbl.getD u.trunk.deny 0 0 = min (Tbl.getD s.trunk.deny 0 0 + 1) 0xFFFFFFFF
            ∧ u.trunk.bark = s.trunk.bark ∧ s.evq.length < u.evq.length)

/-- The Bark check (R15). -/
def Obligations.BarkLowestRegion : Prop :=
  (∀ (s : State) (rgn : Nat) (a : Acc), barkFind s rgn (carriedAcc s a) = none → barkCheck s rgn a = (0x40, false))
    ∧ (∀ (s : State) (rgn : Nat) (a : Acc) (i : Nat), barkFind s rgn (carriedAcc s a) = some i →
        (barkEntry s rgn i).en = true ∧ (barkEntry s rgn i).base ≤ a.addr ∧ a.addr + a.size - 1 ≤ (barkEntry s rgn i).limit
        ∧ (∀ j, j < i → (barkEntry s rgn j).en = true → (barkEntry s rgn j).base ≤ a.addr → (barkEntry s rgn j).limit < a.addr + a.size - 1)
        ∧ ((barkCheck s rgn a).2 = true ↔ (∃ c, midClass a.who.mid = some c ∧ (barkEntry s rgn i).midmask.testBit c = true)
            ∧ tenantPass s rgn (barkEntry s rgn i) (carriedAcc s a) = true ∧ (barkEntry s rgn i).permits a.kind = true))

/-- TRUNK_RESPONSE_TIMEOUT, HOLD_NOTICE and TRUNK_LATE_RESPONSE (R14, R65, R153, R574). -/
def Obligations.TrunkTimeoutHoldLate : Prop :=
  (∀ (s : State) (id : Nat) (r : TrkReq) (rest : List TrkReq), takeFirst (fun r : TrkReq => r.id = id) s.trunk.reqs = some (r, rest) →
      (r.acc.kind ≠ .write → (portOf s (mgmtPort s)).bar2 = [] →
        Serves (.trunkResponseTimeout id) s [.resp, .trunk, .dev, .graft, .ports] fun u =>
          u.resp.code = .timeout ∧ u.trunk.reqs = rest ∧ u.trunk.late = s.trunk.late ++ [r]
            ∧ u.dev.fault = (s.dev.fault || timeoutFaults r.acc.who.mid))
      ∧ (r.acc.kind = .write → placeOf s r.acc.addr = .sram → (portOf s (mgmtPort s)).bar2 = [] → r.acc.who.mid ≠ mgmtPf s →
        Serves (.trunkResponseTimeout id) s [.resp, .trunk, .dev, .graft, .ports, .mem, .freeCtr] fun u =>
          u.resp.code = .timeout ∧ u.trunk.reqs = rest ∧ u.trunk.late = s.trunk.late ++ [r] ∧ MemOnly r.acc.addr r.acc.size s u
            ∧ (u.mem = s.mem ∨ memReadN u r.acc.addr r.acc.size = leBytes r.acc.size r.acc.data)
            ∧ u.dev.fault = (s.dev.fault || timeoutFaults r.acc.who.mid))
      ∧ (r.acc.kind ≠ .write → timeoutFaults r.acc.who.mid = false → ∀ b : Bar2, (portOf s (mgmtPort s)).bar2 = [b] → b.id = id → b.ans = none →
        b.timedOut = false →
        Serves (.trunkResponseTimeout id) s [.resp, .trunk, .ports] fun u =>
          u.resp.code = .ok ∧ u.resp.cpl = 4 ∧ u.trunk.reqs = rest ∧ u.trunk.late = s.trunk.late ++ [r] ∧ (portOf u (mgmtPort s)).bar2 = []))
    ∧ (∀ (s : State) (id : Nat), isHeld s (.trunk id) = true →
      Does (.holdNotice (.trunk id)) s [.trunk, .regs] fun u =>
        u.trunk.reqs = s.trunk.reqs.map (fun x => if x.id = id then { x with restarts := x.restarts + 1 } else x)
          ∧ rd u 0x01 0x114 = w32 (min ((rd s 0x01 0x114).toNat + 1) 0xFFFFFFFF) ∧ RegsOnly [(0x01, 0x114)] s u)
    ∧ (∀ (s : State) (w : HeldAt), isHeld s w = true → (∀ id, w ≠ .trunk id) →
      Does (.holdNotice w) s [.regs] fun u =>
        rd u 0x01 0x114 = w32 (min ((rd s 0x01 0x114).toNat + 1) 0xFFFFFFFF) ∧ RegsOnly [(0x01, 0x114)] s u)
    ∧ ∀ (s : State) (id : Nat) (r : TrkReq) (rest : List TrkReq), takeFirst (fun r : TrkReq => r.id = id) s.trunk.late = some (r, rest) →
      Does (.trunkLateResponse id) s [.trunk, .blk, .regs, .evq] fun u =>
        u.trunk.late = rest ∧ u.trunk.reqs = s.trunk.reqs ∧ rd u 0x01 0x104 = w32 (min ((rd s 0x01 0x104).toNat + 1) 0xFFFFFFFF)
          ∧ Word.bit (rd u 0x01 0x18) 1 = true ∧ (u.evq.getLast?.map (·.code)) = some 0x4003

/-! ### Registers -/

/-- REGISTER_WRITE of the common header and RC_REGISTER_READ (R8, R33, R35, R43, R44, R507). -/
def Obligations.HeaderRegisters : Prop :=
  (∀ (s : State) (a : Acc) (rgn off : Nat) (b : Blk) (k : Nat), blkOf rgn = some (b, k) → a.kind = .write → a.size = 4 →
      a.addr = regAddr rgn off → regAdmit s rgn off a = none →
      (b ≠ .tap ∨ s.tap.step = 0 →
        (off = 0x3C → Serves (.registerWrite a) s [.resp, .regs] fun u =>
          u.resp.code = .ok ∧ rd u rgn 0x3C = w32 a.data ∧ RegsOnly [(rgn, 0x3C)] s u)
        ∧ (off = 0x18 ∨ off = 0x28 → Serves (.registerWrite a) s [.resp, .regs] fun u =>
          u.resp.code = .ok ∧ rd u rgn off = rd s rgn off &&& ~~~(w32 a.data) ∧ RegsOnly [(rgn, off)] s u)
        ∧ (off ∈ [0x00, 0x04, 0x08, 0x10, 0x14, 0x2C, 0x30, 0x34, 0x38] → Serves (.registerWrite a) s [.resp] fun u => u.resp.code = .ok))
      ∧ (b = .tap → s.tap.step ≠ 0 → off < 0x100 → Serves (.registerWrite a) s [.resp, .regs, .tap] fun u =>
          u.resp.code = .ok ∧ u.tap = { s.tap with step := 0, words := [] } ∧ rd u 0x08 0x114 = 1 ∧ rd u 0x08 0x3C = rd s 0x08 0x3C))
    ∧ ∀ (s : State) (a : Acc) (rgn off : Nat) (b : Blk) (k : Nat) (d : RegDesc), blkOf rgn = some (b, k) → 0x100 ≤ off → off < 65536 →
      descOf b off = some d → blkView s b k off = none → latchedHi s rgn off = none → (latchedHi s rgn (off - 4)).isSome = false → freeBits s rgn off = 0 →
      isRngData rgn off = false → (rgn, off) ≠ (0x01, 0x110) → a.kind = .read → a.size = 4 → a.addr = regAddr rgn off → regAdmit s rgn off a = none →
      Serves (.rcRegisterRead a) s [.resp, .regs] fun u =>
        u.resp.code = .ok ∧ u.resp.data = (rd s rgn off &&& ~~~d.wo).toNat ∧ rd u rgn off = rd s rgn off &&& ~~~d.rc ∧ RegsOnly [(rgn, off)] s u

/-- The rows of R33 that do not perform the access, in their order. -/
def Obligations.RegisterAccessOutcome : Prop :=
  ∀ (s : State) (rgn off : Nat) (a : Acc),
    (blkOf rgn = none → regAdmit s rgn off a = some (.decode, s))
    ∧ ∀ (b : Blk) (k : Nat), blkOf rgn = some (b, k) →
      ((barkCheck s rgn a).2 = false → (regAdmit s rgn off a).map (·.1) = some .denied)
      ∧ ((barkCheck s rgn a).2 = true → refusesRegs s rgn = true → regAdmit s rgn off a = some (.domainOff, s))
      ∧ ((barkCheck s rgn a).2 = true → refusesRegs s rgn = false → pagesOf b ≤ off / 4096 → (regAdmit s rgn off a).map (·.1) = some .decode)
      ∧ ((barkCheck s rgn a).2 = true → refusesRegs s rgn = false → off / 4096 < pagesOf b →
          ¬ (a.size = 4 ∧ off % 4 = 0 ∨ a.size = 8 ∧ off % 8 = 0) → (regAdmit s rgn off a).map (·.1) = some .decode)
      ∧ ((barkCheck s rgn a).2 = true → refusesRegs s rgn = false → off / 4096 < pagesOf b →
          (a.size = 4 ∧ off % 4 = 0 ∨ a.size = 8 ∧ off % 8 = 0) → regAdmit s rgn off a = none)

/-- BARK_STAGE_WRITE and BARK_ENTRY_COMMIT (R138, R139). -/
def Obligations.BarkStageCommit : Prop :=
  (∀ (s : State) (who : Who) (entry : Fin 64) (word : Fin 3) (v : Word), Admits s who 0x01 (barkOff entry word) v →
      Does (.barkStageWrite who entry word v) s [.resp, .trunk] fun u =>
        u.trunk.stage0 = (if word.val = 0 then v else s.trunk.stage0) ∧ u.trunk.stage1 = (if word.val = 1 then v else s.trunk.stage1)
          ∧ u.trunk.stage2 = (if word.val = 2 then v else s.trunk.stage2) ∧ u.trunk.bark = s.trunk.bark ∧ u.resp.code = .ok)
    ∧ (∀ (s : State) (who : Who) (entry : Fin 64) (v : Word), Admits s who 0x01 (barkOff entry 3) v → barkHas s = true →
      (barkEntry s (barkSel s) entry).locked = false → Word.fld v 26 25 < 2 →
      Does (.barkEntryCommit who entry v) s [.resp, .trunk] fun u =>
        barkEntry u (barkSel s) entry = ⟨s.trunk.stage0 &&& 0xFFFFFFC0, s.trunk.stage1 &&& 0x3FFFFFFF, s.trunk.stage2 &&& 0xFFFFFFC0, v⟩
          ∧ (∀ rgn j, j < 64 → (rgn, j) ≠ (barkSel s, entry.val) → barkEntry u rgn j = barkEntry s rgn j) ∧ u.resp.code = .ok)
    ∧ (∀ (s : State) (who : Who) (entry : Fin 64) (v : Word), Admits s who 0x01 (barkOff entry 3) v → barkHas s = true →
      (barkEntry s (barkSel s) entry).locked = true →
      Does (.barkEntryCommit who entry v) s [.resp, .regs, .evq] fun u => u.trunk.bark = s.trunk.bark)
    ∧ (∀ (s : State) (who : Who) (entry : Fin 64) (v : Word), Admits s who 0x01 (barkOff entry 3) v → barkHas s = true →
      (barkEntry s (barkSel s) entry).locked = false → Word.fld v 26 25 = 3 ∨ Word.fld v 26 25 = 2 →
      Does (.barkEntryCommit who entry v) s [.resp, .trunk] fun u =>
        barkEntry u (barkSel s) entry = ⟨s.trunk.stage0 &&& 0xFFFFFFC0, s.trunk.stage1 &&& 0x3FFFFFFF, s.trunk.stage2 &&& 0xFFFFFFC0,
            if Word.fld v 26 25 = 2 ∧ barkSel s = 0x1B then v else Word.setFld v 26 25 (barkEntry s (barkSel s) entry).tmode⟩
          ∧ (∀ rgn j, j < 64 → (rgn, j) ≠ (barkSel s, entry.val) → barkEntry u rgn j = barkEntry s rgn j) ∧ u.resp.code = .ok)
    ∧ ∀ (s : State) (who : Who) (entry : Fin 64) (v : Word), Admits s who 0x01 (barkOff entry 3) v → barkHas s = false →
      Does (.barkEntryCommit who entry v) s [.resp] fun u => u.resp.code = .ok

/-- BROADCAST_WRITE and BROADCAST_READ (R45 to R47). -/
def Obligations.BroadcastMembers : Prop :=
  (∀ (s : State) (a : Acc) (rgn : Nat), isBcast rgn = true → bcastMembers s rgn ≠ [] → a.addr = regAddr rgn 0x3C → a.size = 4 →
      ((∀ r ∈ bcastMembers s rgn, regAdmit s r 0x3C { a with kind := .write, addr := regAddr r 0x3C } = none) →
        Serves (.broadcastWrite a) s [.resp, .regs] fun u => u.resp.code = .ok ∧ ∀ r ∈ bcastMembers s rgn, rd u r 0x3C = w32 a.data)
      ∧ ((∀ r ∈ bcastMembers s rgn, regAdmit s r 0x3C { a with kind := .read, addr := regAddr r 0x3C } = none) →
        Serves (.broadcastRead a) s [.resp] fun u =>
          u.resp.code = .ok ∧ u.resp.data = (bcastMembers s rgn).foldl (fun n r => n ||| (rd s r 0x3C).toNat) 0))
    ∧ ∀ (s : State) (a : Acc), inRegs a = true → isBcast (regPlace a).1 = true → bcastMembers s (regPlace a).1 = [] →
      Serves (.broadcastWrite a) s [.resp] (fun u => u.resp.code = .decode)
        ∧ Serves (.broadcastRead a) s [.resp] (fun u => u.resp.code = .decode)

/-! ### The gating of blocks -/

/-- ENABLE_SET, ENABLE_CLEAR, DRAIN_END and BLOCK_INIT_DONE (R42, R623, R624). What clearing ENABLE during a drain and setting it again does is the model's
choice (log entry 101). -/
def Obligations.EnableLife : Prop :=
  (∀ (s : State) (who : Who) (rgn : Fin 128), CtlAdmits s who rgn false 0 true → (blkSt s rgn).enable = false →
      ((blkSt s rgn).lock = false →
        ((blkSt s rgn).st = .reset → Serves (.enableSet who rgn) s [.resp, .blk, .regs, .evq, .dmc, .flash, .ftl] fun u =>
          (blkSt u rgn).st = .init ∧ (blkSt u rgn).enable = true ∧ ∀ r, r ≠ rgn.val → blkSt u r = blkSt s r)
        ∧ ((blkSt s rgn).st ≠ .reset → Serves (.enableSet who rgn) s [.resp, .blk, .regs, .evq] fun u =>
          blkSt u rgn = { blkSt s rgn with enable := true } ∧ ∀ r, r ≠ rgn.val → blkSt u r = blkSt s r))
      ∧ ((blkSt s rgn).lock = true → rd s rgn 0x28 = 0 → Serves (.enableSet who rgn) s [.resp, .blk, .regs] fun u =>
        rd u rgn 0x28 = 16 ∧ ∀ r, blkSt u r = blkSt s r))
    ∧ (∀ (s : State) (who : Who) (rgn : Fin 128), CtlAdmits s who rgn false 0 false → (blkSt s rgn).enable = true →
      ((blkSt s rgn).lock = false →
        ((blkSt s rgn).st = .init ∨ (blkSt s rgn).st = .ready → Serves (.enableClear who rgn) s [.resp, .blk] fun u =>
          (blkSt u rgn).st = .draining ∧ (blkSt u rgn).busy = true ∧ (blkSt u rgn).enable = false ∧ ∀ r, r ≠ rgn.val → blkSt u r = blkSt s r)
        ∧ ((blkSt s rgn).st ≠ .init → (blkSt s rgn).st ≠ .ready → Serves (.enableClear who rgn) s [.resp, .blk] fun u =>
          blkSt u rgn = { blkSt s rgn with enable := false } ∧ ∀ r, r ≠ rgn.val → blkSt u r = blkSt s r))
      ∧ ((blkSt s rgn).lock = true → rd s rgn 0x28 = 0 → Serves (.enableClear who rgn) s [.resp, .blk, .regs] fun u =>
        rd u rgn 0x28 = 16 ∧ ∀ r, blkSt u r = blkSt s r))
    ∧ (∀ (s : State) (rgn : Fin 128), (blkSt s rgn).st = .draining → (blkSt s rgn).why = .disable → (blkSt s rgn).isolate = false →
      drained s rgn = true →
      Serves (.drainEnd rgn) s [.blk, .dmc, .flash, .regs, .ftl] fun u =>
        (blkSt u rgn).st = (if (blkSt s rgn).enable then .init else .reset) ∧ (blkSt u rgn).busy = false ∧ ∀ r, r ≠ rgn.val → blkSt u r = blkSt s r)
    ∧ (∀ (s : State) (rgn : Fin 128), (blkSt s rgn).st = .draining → (blkSt s rgn).why ≠ .softReset → (blkSt s rgn).isolate = true →
      (blkSt s rgn).powerReq = true → drained s rgn = true → rgn.val < 0x40 →
      Serves (.drainEnd rgn) s [.blk] fun u =>
        blkSt u rgn = { blkSt s rgn with st := .isolated, busy := false } ∧ ∀ r, r ≠ rgn.val → blkSt u r = blkSt s r)
    ∧ (∀ (s : State) (rgn : Fin 128), (blkSt s rgn).st = .draining → (blkSt s rgn).why = .isolate → (blkSt s rgn).isolate = false →
      (blkSt s rgn).lostPower = false → drained s rgn = true → 0x20 ≤ rgn.val → rgn.val < 0x40 →
      Serves (.drainEnd rgn) s [.blk, .flash, .mbx, .regs] fun u =>
        (blkSt u rgn).st = (if (blkSt s rgn).enable then .init else .reset) ∧ (blkSt u rgn).busy = false ∧ ∀ r, r ≠ rgn.val → blkSt u r = blkSt s r)
    ∧ (∀ (s : State) (rgn : Fin 128), (blkSt s rgn).st = .draining → (blkSt s rgn).why ≠ .softReset → (blkSt s rgn).isolate = true →
      (blkSt s rgn).powerReq = true → drained s rgn = true → 0x40 ≤ rgn.val → rgn.val < 0x50 → s.grv.lineTen = [] →
      Serves (.drainEnd rgn) s [.blk] fun u =>
        blkSt u rgn = { blkSt s rgn with st := .isolated, busy := false } ∧ ∀ r, r ≠ rgn.val → blkSt u r = blkSt s r)
    ∧ ∀ (s : State) (rgn : Fin 128) (b : Blk) (k : Nat), blkOf rgn = some (b, k) → (blkSt s rgn).st = .init →
      (b = .fch → (chanOf s k).tstate = tsReady ∨ (chanOf s k).tstate = tsEmpty) → (b = .dmc → dramUp s = true) →
      Serves (.blockInitDone rgn) s [.blk] fun u => (blkSt u rgn).st = .ready ∧ ∀ r, r ≠ rgn.val → blkSt u r = blkSt s r

/-- SOFT_RESET and SOFT_RESET_END (R39, R42). The registers of a port, and SEC's report of its start-up tests, are apart (R433, log entry 107). -/
def Obligations.SoftResetLife : Prop :=
  (∀ (s : State) (who : Who) (rgn : Fin 128) (top : Bool), CtlAdmits s who rgn top 1 true →
      ((blkSt s rgn).st = .reset ∨ (blkSt s rgn).st = .init ∨ (blkSt s rgn).st = .ready →
        Serves (.softReset who rgn top) s [.resp, .blk, .mbx, .regs] fun u =>
          (blkSt u rgn).st = .draining ∧ (blkSt u rgn).why = .softReset ∧ (blkSt u rgn).busy = true ∧ ∀ r, r ≠ rgn.val → blkSt u r = blkSt s r)
      ∧ ((blkSt s rgn).st = .isolated → (blkSt s rgn).isolate = true → (blkSt s rgn).powerReq = true → 0x20 ≤ rgn.val →
        Serves (.softReset who rgn top) s [.resp, .blk, .regs, .latch, .flash, .grv] fun u =>
          (blkSt u rgn).st = .isolated ∧ (blkSt u rgn).isolate = true ∧ (blkSt u rgn).enable = ((blkSt s rgn).enable && (blkSt s rgn).lock)
            ∧ ((blkSt s rgn).lock = false → ∀ off, off < 65536 → keptReg rgn off = false → rd u rgn off = resetAt rgn off))
      ∧ ((blkSt s rgn).st = .draining ∨ (blkSt s rgn).st = .off ∨ (blkSt s rgn).st = .testing ∨ (blkSt s rgn).st = .retired →
        rd s (if top then 0x00 else rgn.val) 0x28 = 0 →
        Serves (.softReset who rgn top) s [.resp, .blk, .regs] fun u =>
          rd u (if top then 0x00 else rgn.val) 0x28 = 8 ∧ (top = true → Word.fld (rd u 0x00 0x2C) 31 16 = rgn.val) ∧ ∀ r, blkSt u r = blkSt s r))
    ∧ ∀ (s : State) (rgn : Fin 128), (blkSt s rgn).st = .draining → (blkSt s rgn).why = .softReset → drained s rgn = true →
      (rgn.val < 0x10 ∨ 0x18 ≤ rgn.val →
        Serves (.softResetEnd rgn) s [.blk, .regs, .latch, .xmv, .mbx, .tap, .bpm, .dmc, .flash, .sec, .trunk, .grv, .ftl] fun u =>
          (blkSt u rgn).enable = ((blkSt s rgn).enable && (blkSt s rgn).lock) ∧ (blkSt u rgn).lock = (blkSt s rgn).lock
            ∧ (blkSt u rgn).st = (if (blkSt s rgn).enable ∧ (blkSt s rgn).lock then .init else .reset)
            ∧ ((blkSt s rgn).lock = false → ∀ off, off < 65536 → keptReg rgn off = false → (rgn.val, off) ≠ (0x0A, 0x2064) → rd u rgn off = resetAt rgn off)
            ∧ ∀ off, off < 65536 → keptReg rgn off = true → rd u rgn off = rd s rgn off)
      ∧ (0x10 ≤ rgn.val → rgn.val < 0x18 →
        ∃ u, exec (.softResetEnd rgn) s = .next (settle (drain u)) ∧ (portOf u (rgn.val - 0x10)).pstate = .down ∧ (portOf u (rgn.val - 0x10)).ltssm = .detect
          ∧ (portOf u (rgn.val - 0x10)).np = [] ∧ (blkSt u rgn).st = (if (blkSt s rgn).enable ∧ (blkSt s rgn).lock then .init else .reset))

/-- ISOLATE_SET, ISOLATE_CLEAR, POWER_REQ_CLEAR, POWER_REQ_SET, LOCK_SET and INT_SET_WRITE (R38, R41 to R43, R270, R408, R624). A block that stands Isolated or Off is
reached through TOP_RGN_CTL alone (R33). -/
def Obligations.IsolatePowerLock : Prop :=
  (∀ (s : State) (who : Who) (rgn : Fin 128) (top : Bool), CtlAdmits s who rgn top 2 true → gateable rgn = true → (blkSt s rgn).isolate = false →
      ((blkSt s rgn).st = .reset ∨ (blkSt s rgn).st = .init ∨ (blkSt s rgn).st = .ready → groveIdle s rgn = true →
        Serves (.isolateSet who rgn top) s [.resp, .blk, .mbx, .regs] fun u =>
          (blkSt u rgn).st = .draining ∧ (blkSt u rgn).isolate = true ∧ (blkSt u rgn).busy = true ∧ ∀ r, r ≠ rgn.val → blkSt u r = blkSt s r)
      ∧ (groveIdle s rgn = false → Serves (.isolateSet who rgn top) s [.resp, .blk, .regs, .evq] fun u =>
          Word.bit (rd u rgn 0x28) 16 = true ∧ ∀ r, blkSt u r = blkSt s r)
      ∧ ((blkSt s rgn).st = .off → (blkSt s rgn).powerReq = false → heldOff s rgn = false → groveIdle s rgn = true →
        Serves (.isolateSet who rgn top) s [.resp, .blk] fun u =>
          blkSt u rgn = { blkSt s rgn with isolate := true, busy := false } ∧ ∀ r, r ≠ rgn.val → blkSt u r = blkSt s r)
      ∧ ((blkSt s rgn).st = .draining → groveIdle s rgn = true → Serves (.isolateSet who rgn top) s [.resp, .blk] fun u =>
          blkSt u rgn = { blkSt s rgn with isolate := true } ∧ ∀ r, r ≠ rgn.val → blkSt u r = blkSt s r))
    ∧ (∀ (s : State) (who : Who) (rgn : Fin 128) (top : Bool), CtlAdmits s who rgn top 3 false → gateable rgn = true → (blkSt s rgn).powerReq = true →
      ((blkSt s rgn).isolate = true → (blkSt s rgn).st = .isolated → 0x20 ≤ rgn.val →
        Serves (.powerReqClear who rgn top) s [.resp, .blk, .pwr] fun u =>
          (blkSt u rgn).st = .off ∧ (blkSt u rgn).powerReq = false ∧ (blkSt u rgn).lostPower = true ∧ ∀ r, r ≠ rgn.val → blkSt u r = blkSt s r)
      ∧ ((blkSt s rgn).isolate = true → (blkSt s rgn).st = .isolated → rgn.val < 0x20 → heldOff s rgn = false →
        ∃ u, exec (.powerReqClear who rgn top) s = .next (settle (drain u)) ∧ (blkSt u rgn).st = .off ∧ (blkSt u rgn).powerReq = false
          ∧ (portOf u (rgn.val - 0x10)).dlActive = ((portOf s (rgn.val - 0x10)).dlActive && decide ((portOf s (rgn.val - 0x10)).pstate = .down)))
      ∧ (heldOff s rgn = true ∨ (blkSt s rgn).st ≠ .isolated ∧ (blkSt s rgn).st ≠ .off →
        Serves (.powerReqClear who rgn top) s [.resp, .blk] fun u =>
          blkSt u rgn = { blkSt s rgn with powerReq := false } ∧ ∀ r, r ≠ rgn.val → blkSt u r = blkSt s r))
    ∧ (∀ (s : State) (who : Who) (rgn : Fin 128) (top : Bool), CtlAdmits s who rgn top 3 true → gateable rgn = true → (blkSt s rgn).powerReq = false →
      ((blkSt s rgn).isolate = true → (blkSt s rgn).st = .off → heldOff s rgn = false →
        Serves (.powerReqSet who rgn top) s [.resp, .blk, .pwr] fun u =>
          (blkSt u rgn).st = .isolated ∧ (blkSt u rgn).powerReq = true ∧ ∀ r, r ≠ rgn.val → blkSt u r = blkSt s r)
      ∧ ((blkSt s rgn).isolate = false → (blkSt s rgn).st = .off → (blkSt s rgn).lostPower = true → 0x20 ≤ rgn.val →
        Serves (.powerReqSet who rgn top) s [.resp, .blk, .pwr, .regs, .latch, .flash, .grv, .mbx] fun u =>
          (blkSt u rgn).st = (if (blkSt s rgn).enable ∧ (blkSt s rgn).lock then .init else .reset) ∧ (blkSt u rgn).lostPower = false
            ∧ ∀ r, r ≠ rgn.val → blkSt u r = blkSt s r)
      ∧ (heldOff s rgn = true ∨ (blkSt s rgn).st ≠ .isolated ∧ (blkSt s rgn).st ≠ .off →
        Serves (.powerReqSet who rgn top) s [.resp, .blk] fun u =>
          blkSt u rgn = { blkSt s rgn with powerReq := true } ∧ ∀ r, r ≠ rgn.val → blkSt u r = blkSt s r))
    ∧ (∀ (s : State) (who : Who) (rgn : Fin 128) (top : Bool), CtlAdmits s who rgn top 2 false → gateable rgn = true → (blkSt s rgn).isolate = true →
      ((blkSt s rgn).powerReq = true → (blkSt s rgn).st = .isolated → (blkSt s rgn).lostPower = false → heldOff s rgn = false →
        Serves (.isolateClear who rgn top) s [.resp, .blk, .grv, .regs, .flash, .mbx] fun u =>
          (blkSt u rgn).st = (if (blkSt s rgn).enable then .init else .reset) ∧ (blkSt u rgn).isolate = false ∧ ∀ r, r ≠ rgn.val → blkSt u r = blkSt s r)
      ∧ ((blkSt s rgn).powerReq = true → (blkSt s rgn).st = .isolated → (blkSt s rgn).lostPower = true → 0x20 ≤ rgn.val →
        Serves (.isolateClear who rgn top) s [.resp, .blk, .grv, .regs, .latch, .flash, .mbx] fun u =>
          (blkSt u rgn).st = (if (blkSt s rgn).enable ∧ (blkSt s rgn).lock then .init else .reset) ∧ (blkSt u rgn).isolate = false
            ∧ (blkSt u rgn).lostPower = false ∧ ∀ r, r ≠ rgn.val → blkSt u r = blkSt s r)
      ∧ ((blkSt s rgn).powerReq = false → (blkSt s rgn).st = .off → heldOff s rgn = false →
        Serves (.isolateClear who rgn top) s [.resp, .blk] fun u =>
          blkSt u rgn = { blkSt s rgn with isolate := false, busy := true } ∧ ∀ r, r ≠ rgn.val → blkSt u r = blkSt s r)
      ∧ ((blkSt s rgn).st = .draining →
        Serves (.isolateClear who rgn top) s [.resp, .blk] fun u =>
          blkSt u rgn = { blkSt s rgn with isolate := false } ∧ ∀ r, r ≠ rgn.val → blkSt u r = blkSt s r))
    ∧ (∀ (s : State) (who : Who) (rgn : Fin 128), CtlAdmits s who rgn false 31 true →
      Serves (.lockSet who rgn) s [.resp, .blk] fun u =>
        blkSt u rgn = { blkSt s rgn with lock := true } ∧ ∀ r, r ≠ rgn.val → blkSt u r = blkSt s r)
    ∧ ∀ (s : State) (who : Who) (rgn : Fin 128) (v : Word) (b : Blk) (k : Nat), blkOf rgn = some (b, k) → Admits s who rgn 0x20 v →
      (rgn.val = 0x08 → s.tap.step = 0) →
      Serves (.intSetWrite who rgn v) s [.resp, .regs] fun u =>
        rd u rgn 0x18 = rd s rgn 0x18 ||| (v &&& Word.mask (intBitsOf b - 1) 0) ∧ RegsOnly [(rgn.val, 0x18)] s u
/-! ### Leaf pools and DRAM -/

/-- BUFFER_ALLOC, BUFFER_SHARE and BUFFER_RELEASE (R144, R145, R148, R149). -/
def Obligations.BufferCounts : Prop :=
  (∀ (s : State) (o : Fin 64) (size work c : Nat) (map internal : Bool), (if map then some 5 else classFor s size) = some c → clsEn s c = true →
      Tbl.sorted s.bpm.chunks = true →
      ((internal = true ∨ usedOf s o c < bpmCap s o c) → slotChunks s o c internal ≠ [] →
        Does (.bufferAlloc o size map internal work) s [.bpm, .freeCtr] fun u => ∃ k i ch, k ∈ slotChunks s o c internal ∧ i < bpc s c
          ∧ Tbl.find s.bpm.chunks k = some ch ∧ Tbl.find ch.live i = none ∧ Tbl.find u.bpm.given work = some (slotAddr s k i c)
          ∧ Tbl.find u.bpm.chunks k = some { ch with live := Tbl.put ch.live i 1 })
      ∧ (internal = false → usedOf s o c < bpmCap s o c → slotChunks s o c false = [] → 0 < unreservedFree s →
        Does (.bufferAlloc o size map internal work) s poolParts fun u => ∃ k i, k < chunksTotal s ∧ i < bpc s c ∧ Tbl.find s.bpm.chunks k = none
          ∧ Tbl.find u.bpm.given work = some (slotAddr s k i c) ∧ Tbl.find u.bpm.chunks k = some { owner := o, cls := c, internal := false, live := [(i, 1)] })
      ∧ (internal = false → bpmCap s o c ≤ usedOf s o c →
        Does (.bufferAlloc o size map internal work) s [.bpm] fun u => u.bpm = { s.bpm with waiters := s.bpm.waiters ++ [⟨o, c, false, .work work⟩] }))
    ∧ (∀ (s : State) (addr tenant k i n : Nat) (ch : Chunk), bufAt s addr = some (k, ch, i, n) →
      (ch.owner = ownerOf s tenant →
        (n < 255 → Does (.bufferShare addr tenant) s [.bpm, .resp] fun u => u.resp.data = n + 1
          ∧ Tbl.find u.bpm.chunks k = some { ch with live := Tbl.put ch.live i (n + 1) })
        ∧ (255 ≤ n → Does (.bufferShare addr tenant) s [.resp] fun u => u.resp.data = 511)
        ∧ (1 < n → Does (.bufferRelease addr tenant) s [.bpm, .resp] fun u => u.resp.data = n - 1
          ∧ Tbl.find u.bpm.chunks k = some { ch with live := Tbl.put ch.live i (n - 1) })
        ∧ (n ≤ 1 → Does (.bufferRelease addr tenant) s poolParts fun u => u.resp.data = 0
          ∧ (s.bpm.waiters = [] → KeepsBut [.bpm, .resp] s u ∧ bufAt u addr = none)))
      ∧ (ch.owner ≠ ownerOf s tenant →
        Does (.bufferShare addr tenant) s faultParts (fun u => u.dev.fault = true ∧ u.resp.data = n + 512)
          ∧ Does (.bufferRelease addr tenant) s faultParts (fun u => u.dev.fault = true ∧ u.resp.data = n + 512)))
    ∧ ∀ (s : State) (addr tenant : Nat), bufAt s addr = none →
      Does (.bufferShare addr tenant) s faultParts (fun u => u.dev.fault = true ∧ u.resp.data = 512)
        ∧ Does (.bufferRelease addr tenant) s faultParts (fun u => u.dev.fault = true ∧ u.resp.data = 512)

/-- BPM_FW_ALLOC_WRITE, BPM_FW_REF_WRITE, BPM_CLASS_WRITE, BPM_AREA_WRITE, BPM_LIMIT_WRITE and BPM_TEN_OWNER_WRITE (R144, R146, R149, R151, R152; log entries 46,
116 and 117). -/
def Obligations.PoolRegisters : Prop :=
  (∀ (s : State) (who : Who) (k : Fin 4) (v : Word), Admits s who 0xC (0x4000 + 32 * k) v →
      ((s.bpm.waiters.any fun w => w.purpose = .fw k) = false →
        (Word.fld v 2 0 < 5 → clsEn s (Word.fld v 2 0) = true → Tbl.sorted s.bpm.chunks = true →
          (Word.bit v 16 = true ∨ usedOf s (Word.fld v 13 8) (Word.fld v 2 0) < bpmCap s (Word.fld v 13 8) (Word.fld v 2 0)) →
          slotChunks s (Word.fld v 13 8) (Word.fld v 2 0) (Word.bit v 16) ≠ [] →
          Does (.bpmFwAllocWrite who k v) s [.resp, .bpm, .regs, .freeCtr] fun u => Word.bit (rd u 0xC (0x4004 + 32 * k)) 0 = true
            ∧ Word.bit (rd u 0xC (0x4004 + 32 * k)) 1 = false ∧ u.bpm.waiters = s.bpm.waiters ∧ u.resp.code = .ok
            ∧ RegsOnly [(0xC, 0x4004 + 32 * k), (0xC, 0x4008 + 32 * k)] s u)
        ∧ (Word.fld v 2 0 < 5 → Word.bit v 16 = false → bpmCap s (Word.fld v 13 8) (Word.fld v 2 0) ≤ usedOf s (Word.fld v 13 8) (Word.fld v 2 0) →
          Does (.bpmFwAllocWrite who k v) s [.resp, .bpm, .regs] fun u => rd u 0xC (0x4004 + 32 * k) = 2 ∧ RegsOnly [(0xC, 0x4004 + 32 * k)] s u
            ∧ u.bpm = { s.bpm with waiters := s.bpm.waiters ++ [⟨Word.fld v 13 8, Word.fld v 2 0, false, .fw k⟩] })
        ∧ (5 ≤ Word.fld v 2 0 → Does (.bpmFwAllocWrite who k v) s [.resp, .regs] fun u =>
            rd u 0xC (0x4004 + 32 * k) = 0 ∧ RegsOnly [(0xC, 0x4004 + 32 * k)] s u))
      ∧ ((s.bpm.waiters.any fun w => w.purpose = .fw k) = true → rd s 0xC 0x28 = 0 →
        Does (.bpmFwAllocWrite who k v) s [.resp, .regs] fun u => rd u 0xC 0x28 = 2 ^ 19 ∧ rd u 0xC (0x4004 + 32 * k) = rd s 0xC (0x4004 + 32 * k)))
    ∧ (∀ (s : State) (who : Who) (k : Fin 4) (lo hi : Word), Admits s who 0xC (0x4010 + 32 * k) hi →
      (∀ (c i n : Nat) (ch : Chunk), bufAt s (Word.fld lo 31 9 * 512 + Word.fld hi 15 0 * 2 ^ 32) = some (c, ch, i, n) → ch.owner = ownerOf s 0 →
        (Word.bit lo 0 = false → Does (.bpmFwRefWrite who k lo hi) s [.resp, .bpm, .regs] fun u => RegsOnly [(0xC, 0x4014 + 32 * k)] s u
          ∧ rd u 0xC (0x4014 + 32 * k) = (if n < 255 then w32 (n + 1) else 511)
          ∧ (n < 255 → Tbl.find u.bpm.chunks c = some { ch with live := Tbl.put ch.live i (n + 1) }) ∧ (255 ≤ n → u.bpm = s.bpm))
        ∧ (Word.bit lo 0 = true → 1 < n → Does (.bpmFwRefWrite who k lo hi) s [.resp, .bpm, .regs] fun u =>
          rd u 0xC (0x4014 + 32 * k) = w32 (n - 1) ∧ RegsOnly [(0xC, 0x4014 + 32 * k)] s u
            ∧ Tbl.find u.bpm.chunks c = some { ch with live := Tbl.put ch.live i (n - 1) })
        ∧ (Word.bit lo 0 = true → n ≤ 1 → s.bpm.waiters = [] → Does (.bpmFwRefWrite who k lo hi) s [.resp, .bpm, .regs] fun u =>
          rd u 0xC (0x4014 + 32 * k) = 0 ∧ RegsOnly [(0xC, 0x4014 + 32 * k)] s u
            ∧ bufAt u (Word.fld lo 31 9 * 512 + Word.fld hi 15 0 * 2 ^ 32) = none))
      ∧ (bufAt s (Word.fld lo 31 9 * 512 + Word.fld hi 15 0 * 2 ^ 32) = none →
        Does (.bpmFwRefWrite who k lo hi) s faultParts fun u => u.dev.fault = true ∧ rd u 0xC (0x4014 + 32 * k) = 512))
    ∧ (∀ (s : State) (who : Who) (c : Fin 8) (v : Word) (t : State), Admits s who 0xC (0x120 + 4 * c) v → (blkSt s 0xC).lock = false →
      t = wr s 0xC (0x120 + 4 * c) (w32 ((if 9 ≤ Word.fld v 4 0 ∧ Word.fld v 4 0 ≤ 18 then Word.fld v 4 0 else clsLog s c) + Word.fld v 9 8 * 256)) →
      (6 ≤ c.val → Does (.bpmClassWrite who c v) s [.resp] fun u => u.resp.code = .ok)
      ∧ (c.val < 6 → ((List.range 5).all fun i => clsEn t i && (i = 4 || clsLog t i < clsLog t (i + 1))) = true → (Word.bit v 8 = true → c.val = 5) →
        (rd t 0xC (0x120 + 4 * c) = rd s 0xC (0x120 + 4 * c) ∨ (s.bpm.chunks.any fun p => p.2.cls = c) = false ∧ rsvOk t = true) →
        Does (.bpmClassWrite who c v) s poolParts fun u => rd u 0xC (0x120 + 4 * c) = rd t 0xC (0x120 + 4 * c)
          ∧ (s.bpm.waiters = [] → KeepsBut [.resp, .regs] s u ∧ RegsOnly [(0xC, 0x120 + 4 * c), (0xC, 0x18)] s u))
      ∧ (c.val < 6 → (((List.range 5).all fun i => clsEn t i && (i = 4 || clsLog t i < clsLog t (i + 1))) = false ∨ Word.bit v 8 = true ∧ c.val ≠ 5
          ∨ rd t 0xC (0x120 + 4 * c) ≠ rd s 0xC (0x120 + 4 * c) ∧ ((s.bpm.chunks.any fun p => p.2.cls = c) = true ∨ rsvOk t = false)) → rd s 0xC 0x28 = 0 →
        Does (.bpmClassWrite who c v) s [.resp, .regs] fun u => rd u 0xC (0x120 + 4 * c) = rd s 0xC (0x120 + 4 * c) ∧ rd u 0xC 0x28 = 2 ^ 18))
    ∧ (∀ (s : State) (who : Who) (w : Fin 4) (v : Word) (t : State), Admits s who 0xC (0x100 + 4 * w) v → (blkSt s 0xC).lock = false →
      t = wr s 0xC (0x100 + 4 * w) (v &&& (if w.val % 2 = 0 then 0xFFFC0000 else 0xFFFF)) →
      (s.bpm.chunks = [] → ¬(areaValid t = true ∧ rsvOk s = true ∧ rsvOk t = false) →
        Does (.bpmAreaWrite who w v) s (.evq :: poolParts) fun u => rd u 0xC (0x100 + 4 * w) = rd t 0xC (0x100 + 4 * w)
          ∧ (isEnabled s 0xC = false ∨ areaValid t = true → s.bpm.waiters = [] → KeepsBut [.resp, .regs] s u ∧ RegsOnly [(0xC, 0x100 + 4 * w), (0xC, 0x18)] s u))
      ∧ (s.bpm.chunks = [] → areaValid t = true → rsvOk s = true → rsvOk t = false → rd s 0xC 0x28 = 0 →
        Does (.bpmAreaWrite who w v) s [.resp, .regs] fun u => rd u 0xC (0x100 + 4 * w) = rd s 0xC (0x100 + 4 * w) ∧ rd u 0xC 0x28 = 2 ^ 17)
      ∧ (s.bpm.chunks ≠ [] → rd s 0xC 0x28 = 0 →
        Does (.bpmAreaWrite who w v) s [.resp, .regs] fun u => rd u 0xC (0x100 + 4 * w) = rd s 0xC (0x100 + 4 * w) ∧ rd u 0xC 0x28 = 2 ^ 18))
    ∧ (∀ (s : State) (who : Who) (off mask : Nat) (v : Word) (t : State), Admits s who 0xC off v → t = wr s 0xC off (v &&& w32 mask) →
      ((∃ o c, o < 64 ∧ c < 6 ∧ mask = 0xFFFFFFF ∧ (off = minOff o c ∧ rsvOk t = true ∨ off = minOff o c + 4))
          ∨ (∃ o, o < 64 ∧ mask = 0x3FFFFF ∧ off = irsvOff o ∧ rsvOk t = true) →
        Does (.bpmLimitWrite who off v) s poolParts fun u => rd u 0xC off = v &&& w32 mask
          ∧ (s.bpm.waiters = [] → KeepsBut [.resp, .regs] s u ∧ RegsOnly [(0xC, off), (0xC, 0x18)] s u))
      ∧ ((∃ o c, o < 64 ∧ c < 6 ∧ mask = 0xFFFFFFF ∧ off = minOff o c) ∨ (∃ o, o < 64 ∧ mask = 0x3FFFFF ∧ off = irsvOff o) → rsvOk t = false → rd s 0xC 0x28 = 0 →
        Does (.bpmLimitWrite who off v) s [.resp, .regs] fun u => rd u 0xC off = rd s 0xC off ∧ rd u 0xC 0x28 = 2 ^ 17)
      ∧ ((∃ o c, o < 64 ∧ 6 ≤ c ∧ c < 8 ∧ (off = minOff o c ∨ off = minOff o c + 4)) → Does (.bpmLimitWrite who off v) s [.resp] fun u => u.resp.code = .ok))
    ∧ ∀ (s : State) (who : Who) (t : Fin 512) (v : Word), Admits s who 0xC (ownerOff t) v →
      ((ownerRefusal s t (Word.fld v 5 0)).isSome = true → Serves (.bpmTenOwnerWrite who t v) s [.resp, .regs, .evq] fun u => ownerOf u t = ownerOf s t)
      ∧ (ownerRefusal s t (Word.fld v 5 0) = none →
        Serves (.bpmTenOwnerWrite who t v) s (.resp :: walkParts) fun u => ownerOf u t = Word.fld v 5 0 ∧ ∀ j, j ≠ t.val → ownerOf u j = ownerOf s j)

/-- DRAM_READ of a granule whose valid bit is 0 (R360). -/
def Obligations.UnwrittenReadsZero : Prop :=
  (∀ (s : State) (a : Acc) (errs : List SymErr), dramUp s = true → refusesData s 0x1B = false → Tbl.find s.dmc.fills (granuleOf (lineOf a.addr)) = none →
      granuleValid s (granuleOf (lineOf a.addr)) = false →
      Does (.dramRead a errs false) s [.resp] fun u => u.resp.code = .ok ∧ u.resp.bytes.length = a.size
        ∧ ∀ i, i < a.size → tablesOff s = true ∨ tableByte s (a.addr + i) = none → u.resp.bytes[i]? = some 0)
    ∧ (∀ g, granuleValid State.reset g = false) ∧ ∀ (s : State) (c : Nat) (flushed : Bool) (g : Nat), granuleValid (deviceReset s c flushed) g = false

/-- DRAM_READ, DRAM_WRITE, DRAM_NARROW_WRITE, GRANULE_FILL_DONE and DRAM_REFRESH (R355 to R357, R359, R361, R363, R364, R367). -/
def Obligations.DramAccess : Prop :=
  (∀ (s : State) (a : Acc) (oc : List SymErr → Nat), dramUp s = true → refusesData s 0x1B = false → Tbl.find s.dmc.fills (granuleOf (lineOf a.addr)) = none →
      granuleValid s (granuleOf (lineOf a.addr)) = true →
      (neverWritten s (lineOf a.addr) = false → flipArmed s (lineOf a.addr) 0 = false →
        (∀ errs, oc errs = outcomeOf (markOf s (subRank s (lineOf a.addr)).1 (subRank s (lineOf a.addr)).2) (isPoisoned s (lineOf a.addr))
          (meetErrs (Tbl.getD s.dmc.stored (lineOf a.addr) []) errs)) →
        (∀ (errs : List SymErr) (bitmapErr : Bool), Does (.dramRead a errs bitmapErr) s [.resp, .regs, .dmc, .evq] fun u =>
          (oc errs < 2 → u.resp.code = .ok ∧ u.resp.bytes.length = a.size
            ∧ ∀ i, i < a.size → tablesOff s = true ∨ tableByte s (a.addr + i) = none → u.resp.bytes[i]? = some (memRead s (a.addr + i)))
          ∧ (2 ≤ oc errs → u.resp.code = .poison ∧ u.resp.bytes = [])
          ∧ (oc errs = 1 → Counted s u 0x1B 0x120) ∧ (oc errs = 2 → Counted s u 0x1B 0x128) ∧ (oc errs = 3 → Counted s u 0x1B 0x124)
          ∧ (oc errs = 0 → bitmapErr = false → KeepsBut [.resp] s u))
        ∧ ∀ errs : List SymErr, a.size < 64 → Does (.dramNarrowWrite a errs) s [.resp, .mem, .dmc, .regs, .evq, .freeCtr, .ftl, .ten, .cpc] fun u => u.resp.code = .ok
          ∧ memReadN u a.addr a.size = leBytes a.size a.data ∧ MemOnly a.addr a.size s u ∧ Counted s u 0x1B 0x12C
          ∧ isPoisoned u (lineOf a.addr) = decide (2 ≤ oc errs))
      ∧ ∀ poison, Does (.dramWrite a poison) s [.resp, .mem, .dmc, .regs, .freeCtr, .ftl, .ten, .cpc] fun u => u.resp.code = .ok
          ∧ memReadN u (a.addr / 64 * 64) 64 = leBytes 64 a.data ∧ MemOnly (a.addr / 64 * 64) 64 s u ∧ isPoisoned u (lineOf a.addr) = poison
          ∧ (tablesOff s = true → u.ftl = s.ftl ∧ u.ten = s.ten ∧ u.cpc = s.cpc) ∧ (flipArmed s (lineOf a.addr) 1 = false → u.regs = s.regs))
    ∧ (∀ (s : State) (a : Acc), dramUp s = true → refusesData s 0x1B = false → granuleValid s (granuleOf (lineOf a.addr)) = false →
      (Tbl.find s.dmc.fills (granuleOf (lineOf a.addr)) = none →
        (∀ errs, Does (.dramRead a errs true) s [.resp, .regs, .dmc, .evq] fun u => u.resp.code = .poison ∧ granuleValid u (granuleOf (lineOf a.addr)) = true)
        ∧ (∀ poison, Does (.dramWrite a poison) s [.dmc] fun u =>
            (Tbl.find u.dmc.fills (granuleOf (lineOf a.addr))).map List.length = some 1 ∧ u.dmc.valid = s.dmc.valid)
        ∧ ∀ errs, Does (.dramNarrowWrite a errs) s [.dmc] fun u =>
            (Tbl.find u.dmc.fills (granuleOf (lineOf a.addr))).map List.length = some 1 ∧ u.dmc.valid = s.dmc.valid)
      ∧ ∀ (l : List DramReq), Tbl.find s.dmc.fills (granuleOf (lineOf a.addr)) = some l →
        (∀ errs, Does (.dramRead a errs false) s [.dmc] fun u => (Tbl.find u.dmc.fills (granuleOf (lineOf a.addr))).map List.length = some (l.length + 1))
        ∧ (∀ poison, Does (.dramWrite a poison) s [.dmc] fun u => (Tbl.find u.dmc.fills (granuleOf (lineOf a.addr))).map List.length = some (l.length + 1))
        ∧ ∀ errs, Does (.dramNarrowWrite a errs) s [.dmc] fun u => (Tbl.find u.dmc.fills (granuleOf (lineOf a.addr))).map List.length = some (l.length + 1))
    ∧ (∀ (s : State) (g : Nat) (l : List DramReq), Tbl.find s.dmc.fills g = some l →
      Does (.granuleFillDone g) s [.mem, .dmc, .regs, .resp, .evq, .freeCtr, .ftl, .ten, .cpc] fun u => granuleValid u g = true ∧ Tbl.find u.dmc.fills g = none
        ∧ (l = [] → KeepsBut [.mem, .dmc, .regs] s u ∧ (∀ b, dramBase + g * 65536 ≤ b → b < dramBase + (g + 1) * 65536 → memRead u b = 0)
          ∧ MemOnly (dramBase + g * 65536) 65536 s u ∧ Counted s u 0x1B 0x130))
    ∧ ∀ (s : State) (sub : Fin 8) (rank : Fin 2) (bank : Fin 4), Does (.dramRefresh sub rank bank) s [] fun _ => True

/-- DMC_TRAIN_DONE, DMC_MARK_WRITE, DMC_INVALIDATE, DMC_INVALIDATE_DONE, DMC_FLIP_ARM and SCRUB_ACCESS (R349 to R352, R358, R362, R365, R369, R372). -/
def Obligations.DramManagement : Prop :=
  (∀ (s : State) (fails : List TrainFail) (en : List Nat) (cap : Nat), s.dmc.tstate = 1 ∨ s.dmc.tstate = 2 →
      en = ((List.range 8).filter fun i => (Word.fld (rd s 0x1B 0x100) 11 8).testBit (i / 2) && !(fails.any fun f => f.sub = i || (f.step = 7 && f.sub / 2 = i / 2))) →
      cap = en.length * (if Word.bit (rd s 0x1B 0x100) 6 then 2 else 1) * (16 + 8 * Word.fld (rd s 0x1B 0x100) 5 4) →
      (64 ≤ cap → Does (.dmcTrainDone fails) s [.regs, .dmc, .blk, .evq] fun u => u.dmc = { s.dmc with tstate := 3 } ∧ Word.bit (rd u 0x1B 0x18) 5 = true
        ∧ (blkSt u 0x1B).st = .ready ∧ rdF u 0x1B 0x104 23 16 = sumOf (2 ^ ·) en ∧ rdF u 0x1B 0x104 15 12 = en.length ∧ dramSize u = cap % 1024 * 2 ^ 30)
      ∧ (cap < 64 → Does (.dmcTrainDone fails) s [.regs, .dmc, .dev] fun u => u.dmc = { s.dmc with tstate := 4 } ∧ u.dev = { s.dev with heldInReset := true }))
    ∧ (∀ (s : State) (who : Who) (sub : Fin 8) (rank : Fin 2) (v : Word), Admits s who 0x1B (markOff sub rank) v →
      (entryOff s sub rank = false → Does (.dmcMarkWrite who sub rank v) s [.resp, .regs] fun u => Word.bit (rd u 0x1B (markOff sub rank)) 4 = Word.bit v 4
        ∧ Word.fld (rd u 0x1B (markOff sub rank)) 3 0 = (if Word.fld v 3 0 ≤ 9 then Word.fld v 3 0 else Word.fld (rd s 0x1B (markOff sub rank)) 3 0)
        ∧ RegsOnly [(0x1B, markOff sub rank)] s u)
      ∧ (entryOff s sub rank = true → Does (.dmcMarkWrite who sub rank v) s [.resp] fun u => u.resp.code = .ok))
    ∧ (∀ (s : State) (who : Who) (v : Word), Admits s who 0x1B 0x148 v →
      (s.dmc.inval = none → 0 < Word.fld v 23 0 → Word.fld v 23 0 ≤ 8388608 →
        Does (.dmcInvalidate who v) s [.resp, .mem, .dmc] fun u => u.dmc.inval.isSome = true
          ∧ ∀ g, granuleValid u g = (granuleValid s g
            && !decide (rd64 s 0x1B 0x140 / 65536 ≤ g + dramBase / 65536 ∧ g + dramBase / 65536 < rd64 s 0x1B 0x140 / 65536 + Word.fld v 23 0)))
      ∧ (s.dmc.inval = none → Word.fld v 23 0 = 0 ∨ 8388608 < Word.fld v 23 0 → Does (.dmcInvalidate who v) s [.resp] fun u => u.resp.code = .ok)
      ∧ (s.dmc.inval.isSome = true → rd s 0x1B 0x28 = 0 → Does (.dmcInvalidate who v) s [.resp, .regs] fun u => rd u 0x1B 0x28 = 2 ^ 16))
    ∧ (∀ (s : State) (g n : Nat), s.dmc.inval = some (g, n) →
      Does .dmcInvalidateDone s [.mem, .dmc] fun u => u.dmc.inval = none
        ∧ ∀ x, granuleValid u x = (granuleValid s x && !(decide (g ≤ x ∧ x < g + n) && s.dmc.fills.any fun p => p.1 = x)))
    ∧ (∀ (s : State) (who : Who) (v : Word), Admits s who 0x1B 0x174 v →
      Does (.dmcFlipArm who v) s [.resp, .regs] fun u => rd u 0x1B 0x174 = v &&& 0x800001FF
        ∧ rd u 0x1B 0x178 = (if Word.bit v 31 then 0 else rd s 0x1B 0x178) ∧ RegsOnly [(0x1B, 0x174), (0x1B, 0x178)] s u)
    ∧ (∀ (s : State) (l line oc : Nat) (errs : List SymErr) (superseded : Bool), Word.bit (rd s 0x1B 0x110) 16 = true → dramUp s = true →
      scrubNext s s.dmc.scrubLine = some l → line = dramBase / 64 + l → granuleValid s (granuleOf line) = true → neverWritten s line = false → flipArmed s line 0 = false →
      oc = outcomeOf (markOf s (subRank s line).1 (subRank s line).2) (isPoisoned s line) (meetErrs (Tbl.getD s.dmc.stored line []) errs) →
      Does (.scrubAccess errs superseded) s [.dmc, .regs, .evq] fun u => u.dmc.valid = s.dmc.valid
        ∧ u.dmc.scrubLine = (if (scrubNext s (l + 1)).isSome then l + 1 else 0) ∧ (scrubNext s (l + 1) = none → Word.bit (rd u 0x1B 0x18) 4 = true)
        ∧ isPoisoned u line = (isPoisoned s line || (oc = 3 && !superseded))
        ∧ Tbl.getD u.dmc.stored line [] = (if superseded = false ∧ (oc = 1 ∨ oc = 3) then [] else Tbl.getD s.dmc.stored line [])
        ∧ (oc = 1 → Counted s u 0x1B 0x120) ∧ (oc = 2 → Counted s u 0x1B 0x128) ∧ (oc = 3 → Counted s u 0x1B 0x124))
    ∧ ∀ (s : State) (errs : List SymErr) (superseded : Bool), Word.bit (rd s 0x1B 0x110) 16 = true → dramUp s = true → scrubNext s s.dmc.scrubLine = none →
      Does (.scrubAccess errs superseded) s [.dmc, .regs] fun u => u.dmc = { s.dmc with scrubLine := 0 } ∧ Word.bit (rd u 0x1B 0x18) 4 = true
/-! ### Flash channels -/

/-- FCH_POWER_WAIT_DONE, DIE_DETECT_TIMEOUT, FCH_DETECT_DONE, FCH_IDENT_DONE, FCH_TRAIN_DONE, ZQ_CALIBRATION, READ_DQ_RETRAIN, FCH_RETRAIN and
FCH_RETRAIN_DONE (R245, R250 to R254). -/
def Obligations.ChannelBringUp : Prop :=
  (∀ (s : State) (c : Fin 32), (chanOf s c).tstate = tsPower →
      Does (.fchPowerWaitDone c) s [.flash] fun u => chanOf u c = { chanOf s c with tstate := tsDetect } ∧ u.flash.dies = s.flash.dies)
    ∧ (∀ (s : State) (c : Fin 32) (d : Fin 16), (chanOf s c).tstate = tsDetect →
      Does (.dieDetectTimeout c d) s [.flash] fun u => (dieOf u (c * 16 + d)).st = .absent ∧ u.flash.chans = s.flash.chans
        ∧ ∀ n, n ≠ c.val * 16 + d → dieOf u n = dieOf s n)
    ∧ (∀ (s : State) (c : Fin 32) (answered : List (Fin 16)), (chanOf s c).tstate = tsDetect →
      Does (.fchDetectDone c answered) s [.flash] fun u => (chanOf u c).tstate = tsIdent
        ∧ (∀ d : Fin 16, (dieOf u (c * 16 + d)).st = if (dieOf s (c * 16 + d)).st = .lost ∨ (dieOf s (c * 16 + d)).st = .retired then (dieOf s (c * 16 + d)).st
            else if d ∈ answered then .present else .absent)
        ∧ ∀ n, n / 16 ≠ c → dieOf u n = dieOf s n)
    ∧ (∀ (s : State) (c : Fin 32) (pages : List (Fin 16 × ParamPage)) (ids : List (Fin 16 × Word)) (tim0 tim1 : Word), (chanOf s c).tstate = tsIdent →
      Does (.fchIdentDone c pages ids tim0 tim1) s [.flash, .regs, .evq] fun u => (chanOf u c).tstate = tsTrain ∧ rd u (fchRgn c) 0x134 = tim0
        ∧ rd u (fchRgn c) 0x138 = tim1 ∧ RegsOnly [(fchRgn c, 0x134), (fchRgn c, 0x138)] s u
        ∧ (∀ d : Fin 16, (dieOf u (c * 16 + d)).st = if (dieOf s (c * 16 + d)).st = .present ∧ ((pages.find? fun p => p.1 = d).any fun p => pageFits s p.2) = false
            then .incompat else (dieOf s (c * 16 + d)).st)
        ∧ ((∃ d : Fin 16, (dieOf s (c * 16 + d)).st = .present ∧ ((pages.find? fun p => p.1 = d).any fun p => pageFits s p.2) = false) →
            ∃ e ∈ u.evq, e.code = 0x6003) ∧ ∀ d w, ids = [(d, w)] → (dieOf u (c * 16 + d)).idWord = w)
    ∧ (∀ (s : State) (c : Fin 32) (rates : List (Fin 16 × Nat)), (chanOf s c).tstate = tsTrain →
      Serves (.fchTrainDone c rates) s [.flash, .regs, .blk, .evq, .freeCtr] fun u => Trained s u c (rateOf s c rates) ∧ (blkSt u (fchRgn c)).st = .ready)
    ∧ (∀ (s : State) (c : Fin 32) (d : Fin 16), Does (.zqCalibration c d) s [] (fun _ => True) ∧ Does (.readDqRetrain c d true) s [] (fun _ => True)
      ∧ ((chanOf s c).tstate = tsReady →
        Does (.readDqRetrain c d false) s [.flash] fun u => chanOf u c = { chanOf s c with tstate := tsRetrain } ∧ u.flash.dies = s.flash.dies))
    ∧ (∀ (s : State) (who : Who) (c : Fin 32) (v : Word), Admits s who (fchRgn c) 0x104 v →
      ((chanOf s c).tstate = tsReady → Word.bit v 0 = true →
        Does (.fchRetrain who c v) s [.flash, .resp] fun u => chanOf u c = { chanOf s c with tstate := tsRetrain } ∧ u.flash.dies = s.flash.dies)
      ∧ ((chanOf s c).tstate ≠ tsReady ∨ Word.bit v 0 = false → Does (.fchRetrain who c v) s [.resp] fun u => u.resp.code = .ok))
    ∧ ∀ (s : State) (c : Fin 32) (rates : List (Fin 16 × Nat)), (chanOf s c).tstate = tsRetrain →
      (∀ d : Fin 16, (dieOf s (c * 16 + d)).run = none ∧ (dieOf s (c * 16 + d)).susp = none) →
      Serves (.fchRetrainDone c rates) s [.flash, .regs, .evq, .freeCtr] fun u => Trained s u c (rateOf s c rates)

/-- FCH_OP_READ, FCH_OP_READ_SOFT, FCH_OP_PROG, FCH_OP_PROG_FOGGY, FCH_OP_PROG_FINE, FCH_OP_ERASE, FCH_OP_RESET_LUN, FCH_OP_READ_ID,
FCH_OP_GET_FEATURE, FCH_OP_SET_FEATURE and FCH_OP_CANCEL (R255 to R259, R265, R266, R269, R270). -/
def Obligations.FlashOpsAccepted : Prop :=
  ∀ (s : State) (c : Fin 32) (o : FlashReq),
    (∀ p ∈ ([(1, .fchOpRead c o), (2, .fchOpReadSoft c o), (3, .fchOpProg c o), (4, .fchOpProgFoggy c o), (5, .fchOpProgFine c o),
        (6, .fchOpErase c o), (7, .fchOpResetLun c o), (8, .fchOpReadId c o), (9, .fchOpGetFeature c o), (10, .fchOpSetFeature c o)] : List (Nat × Instr)),
      (opBad s c (reqOp p.1 o) = 0 → Accepts s c (reqOp p.1 o) →
        Serves p.2 s [.flash, .regs, .freeCtr] fun u => (dieOf u (puaDie o.addr)).q = (dieOf s (puaDie o.addr)).q ++ [offered s (reqOp p.1 o)]
          ∧ (∀ n, n ≠ puaDie o.addr → dieOf u n = dieOf s n) ∧ u.flash.comps = s.flash.comps ∧ u.flash.chans = s.flash.chans ∧ u.flash.cells = s.flash.cells
          ∧ (hintDue s (puaDie o.addr) (offered s (reqOp p.1 o)) = true → (dieOf u (puaDie o.addr)).hint = true ∧ Counted s u (fchRgn (puaDie o.addr / 16)) 0x144)
          ∧ (hintDue s (puaDie o.addr) (offered s (reqOp p.1 o)) = false → budgetAsked s (puaDie o.addr) (offered s (reqOp p.1 o)) = false →
              KeepsBut [.flash] s u ∧ (dieOf u (puaDie o.addr)).hint = (dieOf s (puaDie o.addr)).hint))
      ∧ (opBad s c (reqOp p.1 o) = 0 → (s.flash.withdraw = false ∨ o.sub = .flush) →
        (((blkSt s (fchRgn c)).st ≠ .init ∧ (blkSt s (fchRgn c)).st ≠ .ready) ∨ (s.dev.fault = true ∧ o.sub ≠ .flush)
          ∨ Takes s c o.sub ∧ dieUsable s (puaDie o.addr) = true ∧ slotFits (dieOf s (puaDie o.addr)) (offered s (reqOp p.1 o)).cls = false) →
        Serves p.2 s [.flash] fun u => chanOf u c = { chanOf s c with held := (chanOf s c).held ++ [offered s (reqOp p.1 o)] }
          ∧ u.flash.comps = s.flash.comps ∧ u.flash.dies = s.flash.dies)
      ∧ (opBad s c (reqOp p.1 o) = 0 → s.flash.withdraw = true → o.sub ≠ .flush →
        Serves p.2 s [.flash, .regs] fun u => u.flash.comps = s.flash.comps ++ [(offered s (reqOp p.1 o), 6, 0)] ∧ u.flash.dies = s.flash.dies
          ∧ Counted s u (fchRgn c) 0x150)
      ∧ (opBad s c (reqOp p.1 o) = 0 →
        (Takes s c o.sub ∧ 5 ≤ (chanOf s c).tstate ∧ dieUsable s (puaDie o.addr) = false
          ∨ ((blkSt s (fchRgn c)).st = .init ∨ (blkSt s (fchRgn c)).st = .ready) ∧ (s.flash.withdraw = false ∨ o.sub = .flush) ∧ (s.dev.fault = false ∨ o.sub = .flush)
            ∧ (chanOf s c).tstate = tsEmpty) →
        Serves p.2 s [.flash] fun u => u.flash.comps = s.flash.comps ++ [(offered s (reqOp p.1 o), 5, 0)] ∧ u.flash.dies = s.flash.dies)
      ∧ (opBad s c (reqOp p.1 o) ≠ 0 →
        Serves p.2 s [.flash, .regs, .evq, .dev, .ports, .graft] fun u => u.dev.fault = true ∧ u.flash.comps = s.flash.comps
          ∧ u.flash.dies = s.flash.dies))
    ∧ (opBad s c (reqOp 11 o) = 0 → Takes s c o.sub → ∀ hit : FOp → Bool, hit = (fun y => y.sub = o.sub && y.tag = o.arg % 65536) →
      (∀ (d : Fin 16) (x : FOp) (q : List FOp), takeFirst hit (dieOf s (c * 16 + d)).q = some (x, q) →
        (∀ e : Fin 16, e ≠ d → (dieOf s (c * 16 + e)).q.any hit = false) →
        Serves (.fchOpCancel c o) s [.flash] fun u => (dieOf u (c * 16 + d)).q = q
          ∧ u.flash.comps = s.flash.comps ++ [(x, 7, 0), (offered s (reqOp 11 o), 0, 0)])
      ∧ ((∀ d : Fin 16, (dieOf s (c * 16 + d)).q.any hit = false) →
        (∀ (x : FOp) (h : List FOp), takeFirst hit (chanOf s c).held = some (x, h) →
          Serves (.fchOpCancel c o) s [.flash] fun u => (chanOf u c).held = h ∧ u.flash.dies = s.flash.dies
            ∧ u.flash.comps = s.flash.comps ++ [(x, 7, 0), (offered s (reqOp 11 o), 0, 0)])
        ∧ (takeFirst hit (chanOf s c).held = none → (∃ d : Fin 16, (dieOf s (c * 16 + d)).run.any hit = true ∨ (dieOf s (c * 16 + d)).susp.any hit = true) →
          Serves (.fchOpCancel c o) s [.flash] fun u => u.flash.dies = s.flash.dies
            ∧ u.flash.comps = s.flash.comps ++ [(offered s (reqOp 11 o), 0, 1)])
        ∧ (takeFirst hit (chanOf s c).held = none → (∀ d : Fin 16, (dieOf s (c * 16 + d)).run.any hit = false ∧ (dieOf s (c * 16 + d)).susp.any hit = false) →
          Serves (.fchOpCancel c o) s [.flash, .freeCtr] fun u => u.flash.dies = s.flash.dies
            ∧ ∃ v, u.flash.comps = s.flash.comps ++ [(offered s (reqOp 11 o), 0, v)])))

/-- DIE_OP_START, BUS_BURST_GRANT, OP_SUSPEND, OP_RESUME, DIE_OP_COMPLETE, DIE_HUNG, DIE_LOST, FCH_DIE_RETIRE_WRITE and FCH_UC_DATA_WRITE (R256, R258,
R260, R261, R263, R264, R266 to R268, R276). -/
def Obligations.DieRuns : Prop :=
  (∀ (s : State) (n : Fin 512) (aged : List Nat) (o : FOp), (chanOf s (n / 16)).tstate = tsReady → (dieOf s n).run = none → (dieOf s n).resetting = false →
      dieUsable s n = true ∨ (dieOf s n).st = .retired →
      ((dieOf s n).susp = none → chooseOp (dieOf s n).q aged (fun x => !((chanOf s (n / 16)).ring.stopped && x.sub ≠ .flush)) = some o →
        Does (.dieOpStart n aged) s [.flash, .regs, .freeCtr] fun u => (dieOf u n).run = some o ∧ (dieOf u n).phase = (if isProg o then .dataIn else .array)
          ∧ ((chanOf s (n / 16)).held = [] → KeepsBut [.flash] s u ∧ (dieOf u n).q = dropOp (dieOf s n).q o ∧ u.flash.comps = s.flash.comps
            ∧ ∀ m, m ≠ n.val → dieOf u m = dieOf s m))
      ∧ (∀ y, (dieOf s n).susp = some y → (dieOf s n).q = [o] → suspEligible (dieOf s n) o = true → o.cls < 4 →
        o.cls = 0 ∨ ((dieOf s n).pausedIn = false ∧ (dieOf s n).suspReads < Word.fld (dieOf s n).suspCfg 11 8) →
        ((chanOf s (n / 16)).ring.stopped = false ∨ o.sub = .flush) →
        Does (.dieOpStart n aged) s [.flash, .regs, .freeCtr] fun u => (dieOf u n).run = some o ∧ (dieOf u n).susp = some y
          ∧ (dieOf u n).suspReads = (dieOf s n).suspReads + 1))
    ∧ (∀ (s : State) (n : Fin 512) (aged : List Nat) (o : FOp), (dieOf s n).run = some o → (dieOf s n).phase = .dataIn →
      ((dieOf s n).q.any (fun x => isRead x && x.cls = 0) = false ∨ Word.fld (dieOf s n).suspCfg 15 14 ≤ (dieOf s n).restarts → burstNext s (n / 16) aged = some n.val →
        Does (.busBurstGrant n aged) s [.flash] fun u => (∀ m, m ≠ n.val → dieOf u m = dieOf s m)
          ∧ dieOf u n = (if progBursts s o ≤ (dieOf s n).bursts + 1 then { dieOf s n with phase := .array, bursts := 0 }
              else { dieOf s n with bursts := (dieOf s n).bursts + 1 }))
      ∧ ((dieOf s n).q.any (fun x => isRead x && x.cls = 0) = true → (dieOf s n).restarts < Word.fld (dieOf s n).suspCfg 15 14 →
        Does (.busBurstGrant n aged) s [.flash, .regs] fun u => dieOf u n = { dieOf s n with
              run := none, susp := some o, pausedIn := true, restarts := (dieOf s n).restarts + 1, bursts := 0 }
          ∧ Counted s u (fchRgn (n / 16)) 0x14C ∧ RegsOnly [(fchRgn (n / 16), 0x14C)] s u))
    ∧ (∀ (s : State) (n : Fin 512) (o : FOp), (dieOf s n).run = some o → (dieOf s n).phase = .array → (dieOf s n).susp = none →
      suspLeft (dieOf s n) o = true → (dieOf s n).q.any (suspEligible (dieOf s n)) = true →
      Does (.opSuspend n) s [.flash, .regs] fun u => (dieOf u n).run = none ∧ (dieOf u n).susp = some o
        ∧ (dieOf u n).suspCnt = (dieOf s n).suspCnt + 1 ∧ Counted s u (fchRgn (n / 16)) 0x140 ∧ RegsOnly [(fchRgn (n / 16), 0x140)] s u)
    ∧ (∀ (s : State) (n : Fin 512) (o : FOp), (dieOf s n).susp = some o → (dieOf s n).run = none →
      Does (.opResume n) s [.flash] fun u => (dieOf u n).run = some o ∧ (dieOf u n).susp = none
        ∧ (dieOf u n).phase = (if (dieOf s n).pausedIn then .dataIn else .array))
    ∧ (∀ (s : State) (n : Fin 512) (o : FOp) (failed : Bool) (v st : Nat) (b : List Byte), (dieOf s n).run = some o → (dieOf s n).phase = .array →
      (dieOf s n).resetting = false → s.flash.withdraw = false → st = (if failed then (if isProg o then 1 else if isErase o then 2 else 0) else 0) →
      (o.purpose ≠ .fw → isRead o = true ∨ isProg o = true ∨ isErase o = true →
        Serves (.dieOpComplete n failed v b) s [.flash, .ldc, .regs, .freeCtr] fun u => (dieOf u n).run = none
          ∧ (∃ l, u.flash.comps = s.flash.comps ++ (o, st, if isRead o then v else (dieOf s n).suspCnt) :: l ∧ ((chanOf s (n / 16)).held = [] → l = []))
          ∧ (isErase o = true → st = 0 → ∀ p, puaDie p = n → puaBlock p = puaBlock o.addr → o.pmask.testBit (puaPlane p) = true → Tbl.find u.flash.cells p = none)
          ∧ ((chanOf s (n / 16)).held = [] → KeepsBut [.flash, .ldc] s u ∧ (dieOf u n).q = (dieOf s n).q))
      ∧ (o.purpose = .fw → 1 ≤ o.opc → o.opc ≤ 10 →
        Serves (.dieOpComplete n failed v b) s (.resp :: .ten :: moveParts) fun u => (dieOf u n).run = none
          ∧ ∃ x l, u.flash.comps = s.flash.comps ++ (o, st, x) :: l ∧ (o.opc = 9 → x = Tbl.getD (dieOf s n).feat (o.arg % 256) v)
            ∧ (o.opc = 10 → Tbl.getD (dieOf u n).feat (o.arg % 256) 0 = o.arg / 256 % 2 ^ 32)))
    ∧ (∀ (s : State) (n : Fin 512) (o : FOp), (dieOf s n).run = some o →
      (Does (.dieHung n) s [.flash] fun u => dieOf u n = { dieOf s n with resetting := true } ∧ ∀ m, m ≠ n.val → dieOf u m = dieOf s m)
      ∧ ((dieOf s n).resetting = true → ∀ (failed : Bool) (v : Nat) (b : List Byte),
        (((dieOf s n).tmoAt.filter fun t => s.clock < t + 60).length < 2 → (dieOf s n).st ≠ .lost →
          Serves (.dieOpComplete n failed v b) s [.flash, .regs] fun u =>
            (dieOf u n).run = none ∧ (dieOf u n).resetting = false ∧ (dieOf u n).q = (dieOf s n).q
              ∧ u.flash.comps = s.flash.comps ++ (o, 3, 0) :: (if (dieOf s n).pausedIn then []
                  else (dieOf s n).susp.toList.map fun x => (x, if isProg x then 1 else 2, (dieOf s n).suspCnt))
              ∧ Word.bit (rd u (fchRgn (n / 16)) 0x18) 4 = true ∧ Counted s u (fchRgn (n / 16)) 0x148)
        ∧ (2 ≤ ((dieOf s n).tmoAt.filter fun t => s.clock < t + 60).length → (dieOf s n).st ≠ .lost →
          Serves (.dieOpComplete n failed v b) s moveParts fun u => (dieOf u n).st = .lost ∧ (dieOf u n).run = none ∧ n.val ∈ u.cpc.retiredDies
            ∧ ∃ l, u.flash.comps = s.flash.comps ++ (o, 3, 0) :: l)))
    ∧ (∀ (s : State) (n : Fin 512) (burst : Bool), dieUsable s n = true →
      Serves (.dieLost n burst) s moveParts fun u => (dieOf u n).st = .lost ∧ (5 ≤ (chanOf s (n / 16)).tstate → isReady s (fchRgn (n / 16)) = true → (dieOf u n).q = []) ∧ (dieOf u n).run = none
        ∧ n.val ∈ u.cpc.retiredDies
        ∧ (∃ l, u.flash.comps = s.flash.comps ++ ((dieOf s n).run.toList ++ (dieOf s n).susp.toList ++ (dieOf s n).q).map (fun o => (o, 4, 0)) ++ l)
        ∧ Word.bit (rd u (fchRgn (n / 16)) 0x18) 3 = true ∧ (∃ e ∈ u.evq, e.code = 0x6004)
        ∧ (burst = true → (∀ d : Fin 16, n.val / 16 * 16 + d ≠ n → dieUsable s (n / 16 * 16 + d) = false) →
            (chanOf u (n / 16)).tstate = tsEmpty ∧ ∃ e ∈ u.evq, e.code = 0x6005))
    ∧ (∀ (s : State) (who : Who) (c : Fin 32) (d : Fin 16) (v : Word), Admits s who (fchRgn c) (0x200C + 16 * d) v →
      (Word.bit v 0 = true → dieUsable s (c * 16 + d) = true →
        Serves (.fchDieRetireWrite who c d v) s (.resp :: moveParts) fun u => (dieOf u (c * 16 + d)).st = .retired ∧ c.val * 16 + d ∈ u.cpc.retiredDies
          ∧ (c.val * 16 + d ∈ s.cpc.retiredDies → KeepsBut [.flash, .resp] s u))
      ∧ (Word.bit v 0 = false ∨ dieUsable s (c * 16 + d) = false → Serves (.fchDieRetireWrite who c d v) s [.resp] fun u => u.resp.code = .ok))
    ∧ ∀ (s : State) (who : Who) (c : Fin 32) (v : Word), Admits s who (fchRgn c) 0x3404 v →
      (isEnabled s (fchRgn c) = false →
        Does (.fchUcDataWrite who c v) s [.flash, .regs, .resp] fun u => Tbl.getD (chanOf u c).uc (rdF s (fchRgn c) 0x3400 13 0) 0 = v
          ∧ rd u (fchRgn c) 0x3400 = w32 ((rdF s (fchRgn c) 0x3400 13 0 + 1) % 16384) ∧ RegsOnly [(fchRgn c, 0x3400)] s u)
      ∧ (isEnabled s (fchRgn c) = true →
        Does (.fchUcDataWrite who c v) s [.evq, .regs, .resp] fun u => rd u (fchRgn c) 0x3400 = rd s (fchRgn c) 0x3400)
/-! ### Read recovery -/

/-- CODEWORD_DECODE_DONE, STRIPE_REBUILD_DONE and BUSY_HINT_RECEIVED (R278 to R281, R284 to R287). -/
def Obligations.LadderSteps : Prop :=
  (∀ (s : State) (x : Cw) (bits : Nat), Decodes s x →
      ((∀ p, x.purpose ≠ .survivor p) →
        (∀ c d, Tbl.find s.flash.cells x.pua = some c → PayloadOk s x c d →
          Serves (.codewordDecodeDone x.id true bits) s [.ldc, .regs, .flash, .cpc, .freeCtr] fun u =>
            u.ldc.results = s.ldc.results ++ [({ x with decoding := false, served := false }, some d)] ∧ cwOf u x.id = none
              ∧ (x.step = 1 → Counted s u 0x1A 0x124) ∧ (x.step = 2 → Counted s u 0x1A 0x128) ∧ (x.step = 4 → Counted s u 0x1A 0x130)
              ∧ (x.step = 0 ∨ x.step = 1 → (rd s 0x1A 0x11C).toNat ≤ (rd u 0x1A 0x11C).toNat))
        ∧ (x.step ≤ 1 → Serves (.codewordDecodeDone x.id false bits) s mediaParts fun u =>
            (cwOf u x.id).map (·.step) = some (x.step + 1) ∧ Counted s u 0x1A 0x120 ∧ u.ldc.results = s.ldc.results)
        ∧ (x.step = 2 → x.rbFirst = true → Serves (.codewordDecodeDone x.id false bits) s [.ldc] fun u =>
            cwOf u x.id = some { x with step := 3, op := none, decoding := false, served := false } ∧ u.ldc.results = s.ldc.results)
        ∧ (x.step = 2 → x.rbFirst = false → x.rbDead = true → 0 < rdF s 0x1A 0x108 5 0 → Serves (.codewordDecodeDone x.id false bits) s mediaParts fun u =>
            (cwOf u x.id).map (fun y => (y.step, y.deep)) = some (4, 0) ∧ u.ldc.results = s.ldc.results)
        ∧ (∀ l, x.step = 2 → x.rbFirst = false → x.rbDead = false → x.rebuild = none → survivorPuas s x.pua = some l →
          Serves (.codewordDecodeDone x.id false bits) s mediaParts fun u => u.ldc.results = s.ldc.results
            ∧ (cwOf u x.id).map (fun y => (y.step, y.rebuild)) = some (3, some { left := l.length, waiting := decide (rdF s 0x19 0x100 7 0 ≤ rebuildsActive s) }))
        ∧ (x.step = 4 → x.deep + 1 < rdF s 0x1A 0x108 5 0 → Serves (.codewordDecodeDone x.id false bits) s mediaParts fun u =>
            (cwOf u x.id).map (fun y => (y.step, y.deep)) = some (4, x.deep + 1) ∧ u.ldc.results = s.ldc.results)
        ∧ (x.step = 4 → rdF s 0x1A 0x108 5 0 ≤ x.deep + 1 → x.ext = false → Serves (.codewordDecodeDone x.id false bits) s mediaParts fun u => Unrecovered s u x))
      ∧ ∀ (p : Nat) (y : Cw) (r : Rebuild), x.purpose = .survivor p → p ≠ x.id → cwOf s p = some y → y.rebuild = some r →
        (survivorAccepted s x.pua = true → Serves (.codewordDecodeDone x.id true bits) s [.ldc, .regs] fun u =>
          cwOf u x.id = none ∧ cwOf u p = some { y with rebuild := some { r with left := r.left - 1 } })
        ∧ (x.step = 0 → Serves (.codewordDecodeDone x.id false bits) s mediaParts fun u =>
          (cwOf u x.id).map (·.step) = some 1 ∧ Counted s u 0x1A 0x120))
    ∧ (∀ (s : State) (x : Cw), cwOf s x.id = some x → x.rebuild = some { left := 0, waiting := false, failed := false } →
      (∀ c d, xorOf s x.pua = some c → PayloadOk s x c d →
        Serves (.stripeRebuildDone x.id) s [.ldc, .regs, .flash, .cpc, .freeCtr] fun u =>
          u.ldc.results = s.ldc.results ++ [({ x with step := 3 }, some d)] ∧ cwOf u x.id = none ∧ Counted s u 0x1A 0x12C
            ∧ Counted s u 0x19 0x114 ∧ (x.rbFirst = true → Counted s u 0x1A 0x144))
      ∧ (xorOf s x.pua = none → x.step ≤ 2 → x.ladderDead = false → x.ext = false → (∀ y ∈ s.ldc.cws, y.purpose = .survivor x.id → y.id ≠ x.id) →
        Serves (.stripeRebuildDone x.id) s [.ldc, .regs, .flash, .freeCtr] fun u => Counted s u 0x19 0x118 ∧ u.ldc.results = s.ldc.results
          ∧ (cwOf u x.id).map (fun y => (y.step, y.rbDead, y.rbFirst)) = some (x.step, true, false)))
    ∧ ∀ (s : State) (x : Cw), cwOf s x.id = some x → x.step ≤ 2 → (dieOf s (puaDie x.pua)).hint = true →
      (dieOf s (puaDie x.pua)).q.any (fun o => some o.id = x.op) = true → x.cls = 0 → ldcRbfEn s = true → x.rebuild = none → x.rbDead = false → x.rbSkip = false →
      (rdF s 0x1A 0x10C 5 0 ≤ rbfActive s →
        Serves (.busyHintReceived x.id) s [.ldc, .regs] fun u => Counted s u 0x1A 0x148 ∧ Word.bit (rd u 0x1A 0x18) 3 = true
          ∧ cwOf u x.id = some { x with rbSkip := true } ∧ RegsOnly [(0x1A, 0x148), (0x1A, 0x18)] s u)
      ∧ (∀ l, rbfActive s < rdF s 0x1A 0x10C 5 0 → survivorPuas s x.pua = some l → rdF s 0x19 0x100 7 0 ≤ rebuildsActive s →
        Serves (.busyHintReceived x.id) s [.ldc, .regs] fun u => Counted s u 0x1A 0x140
          ∧ cwOf u x.id = some { x with rbFirst := true, rebuild := some { left := l.length, waiting := true } } ∧ RegsOnly [(0x1A, 0x140)] s u)
      ∧ (∀ l, rbfActive s < rdF s 0x1A 0x10C 5 0 → survivorPuas s x.pua = some l → rebuildsActive s < rdF s 0x19 0x100 7 0 →
        Serves (.busyHintReceived x.id) s mediaParts fun u => Counted s u 0x1A 0x140
          ∧ (cwOf u x.id).map (fun y => (y.rbFirst, y.rebuild)) = some (true, some { left := l.length }))
      ∧ (rbfActive s < rdF s 0x1A 0x10C 5 0 → survivorPuas s x.pua = none →
        Serves (.busyHintReceived x.id) s [.ldc, .regs] fun u => Counted s u 0x19 0x118 ∧ cwOf u x.id = some { x with rbDead := true, rbFirst := false })

/-- RECOVERY_TIME_LIMIT, BG_RECOVERY_LIMIT, WEAK_BLOCK_EXPIRE and TRACKED_THRESHOLD_UPDATE (R282, R283, R289, R290, R293). -/
def Obligations.RecoveryLimits : Prop :=
  (∀ (s : State) (c : CmdId) (x : Ctx), ctxOf s c = some x → x.stage = .reading →
      (rdF s 0x1A (0x1000 + 4 * (x.nsid - 1)) 15 0 ≠ 0 → (x.mus.any fun m => m.st ≠ .data) = true →
        Serves (.recoveryTimeLimit c) s (.hqe :: mediaParts) fun u => Done u c stUnrecRead ∧ Counted s u 0x1A 0x138
          ∧ u.hqe.mediaErrors = s.hqe.mediaErrors + 1 ∧ ∀ d, d ≠ c → ctxOf u d = ctxOf s d)
      ∧ (∀ r, x.mus = [] → (rdsOf s (.copy c)).find? (fun r => !r.st.ended) = some r → rdOf s r.id = some r → rdF s 0x1A (0x1000 + 4 * (r.nsid - 1)) 15 0 ≠ 0 →
        Serves (.recoveryTimeLimit c) s moveParts fun u => (rdOf u r.id).map (·.st) = some (.failed stUnrecRead) ∧ Counted s u 0x1A 0x138))
    ∧ (∀ (s : State) (b : BgEntry), s.ldc.bg.find? (fun y => y.pua = b.pua) = some b → b.payload = none → b.deadline ≤ s.clock →
      Serves (.bgRecoveryLimit b.pua) s moveParts fun u => Counted s u 0x1A 0x150 ∧ Word.bit (rd u 0x1A 0x18) 2 = true ∧ (∃ e ∈ u.evq, e.code = 0x7002)
        ∧ (b.readers = [] → b.inner = [] → ∀ y ∈ u.ldc.bg, y.pua ≠ b.pua)
        ∧ (b.readers = [] → b.inner = [] → b.cw = none → b.buf = 0 → ruOfPua s b.pua = none → KeepsBut [.ldc, .regs, .evq] s u
          ∧ RegsOnly [(0x1A, 0x150), (0x1A, 0x18)] s u))
    ∧ (∀ (s : State) (die : Fin 512) (block : Fin 4096), Does (.weakBlockExpire die block) s [.ldc] fun u =>
        (∀ e, e ∈ u.ldc.weak ↔ e ∈ s.ldc.weak ∧ ¬ (e.1 = die.val * 4096 + block ∧ e.2.2 ≤ s.clock)) ∧ u.ldc.cws = s.ldc.cws ∧ u.ldc.bg = s.ldc.bg)
    ∧ ∀ (s : State) (c : Fin 32) (cls up dn : Fin 16), ldcTrackEn s = true → rdF s 0x1A 0x104 23 8 ≤ Tbl.getD s.ldc.tracked (c * 32 + cls + 1) 0 →
      Does (.trackedThresholdUpdate c cls up dn) s [.ldc, .regs] fun u =>
        (∀ k : Fin 4, (rd u (fchRgn c) (0x3000 + 16 * (cls + 1) + 4)).toNat / 256 ^ k.val % 256
            = ((rd s (fchRgn c) (0x3000 + 16 * (cls + 1) + 4)).toNat / 256 ^ k.val % 256 + (up.val.testBit k).toNat + (if dn.val.testBit k then 255 else 0)) % 256)
        ∧ Tbl.getD u.ldc.tracked (c * 32 + cls + 1) 0 = 0 ∧ RegsOnly [(fchRgn c, 0x3000 + 16 * (cls + 1) + 4)] s u
/-! ### The map -/

/-- PAGE_IN_COMPLETE, HMB_MOVE_COMPLETE, HMB_MOVE_TIMEOUT, HMB_DROP_COMPLETE, LEAF_WRITEBACK_START, LEAF_WRITEBACK_DONE and JOURNAL_PAGE_TIMER
(R162, R169, R171, R174, R175, R184, R191). -/
def Obligations.LeavesMove : Prop :=
  (∀ (s : State) (root loc lseq : Nat) (ents : Tbl Nat) (q : PageIn), Tbl.find s.ftl.pageIns root = some q → q.src = .flash loc → q.issued = true → q.left = 0 →
      q.failed = false → pgDecode (geomPlanes s) root loc q.parts = some (lseq, ents) →
      (residentOf s root = none → Serves (.pageInComplete root) s [.ftl] fun u => (rootOf u root).busy = false ∧ Tbl.find u.ftl.pageIns root = none
        ∧ residentOf u root = some (q.frame.getD 0,
            { leaf := root, loc := loc, raw := !locExt loc, lseq := lseq, entries := ents, owner := leafOwner s root, grans := q.bufs }))
      ∧ ∀ (i : Nat) (f : Frame), residentOf s root = some (i, f) →
        Serves (.pageInComplete root) s [.ftl] fun u => (rootOf u root).busy = false ∧ Tbl.find u.ftl.pageIns root = none
          ∧ ∃ g, residentOf u root = some (i, g) ∧ g.loc = f.loc ∧ g.lseq = f.lseq
            ∧ ∀ o, entPresent f o = true → Tbl.getD g.entries o 0 = Tbl.getD f.entries o 0)
    ∧ (∀ (s : State) (root loc : Nat) (q : PageIn), Tbl.find s.ftl.pageIns root = some q → q.src = .flash loc → q.issued = true → q.left = 0 →
      q.failed = true ∨ pgDecode (geomPlanes s) root loc q.parts = none →
      Serves (.pageInComplete root) s moveParts fun u => root ∈ u.ftl.rebuilding ∧ Tbl.find u.ftl.pageIns root = none ∧ Word.bit (rd u 0x0E 0x18) 5 = true)
    ∧ (∀ (s : State) (root d : Nat) (h : HmbDesc) (q : PageIn), Tbl.find s.ftl.moving root = some d → Tbl.find s.ftl.hmb d = some h →
      Tbl.find s.ftl.pageIns root = some q →
      Serves (.hmbMoveComplete root true) s [.ftl, .regs] fun u => (rootOf u root).busy = false ∧ Tbl.find u.ftl.hmb d = none
        ∧ Tbl.find u.ftl.moving root = none ∧ Tbl.find u.ftl.pageIns root = none ∧ Counted s u 0x0E 0x184 ∧ RegsOnly [(0x0E, 0x184)] s u
        ∧ residentOf u root = some (q.frame.getD 0,
            { leaf := root, loc := h.loc, raw := h.raw, lseq := h.lseq, entries := h.entries, owner := leafOwner s root, grans := q.bufs }))
    ∧ (∀ (s : State) (i : Instr) (root d code : Nat) (h : HmbDesc), (i, code) ∈ [(.hmbMoveComplete root false, 0x5002), (.hmbMoveTimeout root, 0x5003)] →
      Tbl.find s.ftl.moving root = some d → Tbl.find s.ftl.hmb d = some h → (rootOf s root).busy = true →
      (∀ k x, Tbl.find s.ftl.hmb k = some x → x.leaf = root → k = d) →
      Serves i s moveParts fun u => (∀ x, Tbl.find u.ftl.hmb d = some x → x.leaf ≠ root) ∧ Tbl.find u.ftl.moving root = none
        ∧ (rootOf u root).tier = .flash h.loc ∧ Counted s u 0x0E 0x194 ∧ ∃ e ∈ u.evq, e.code = code)
    ∧ (∀ s : State, s.ftl.hmbDropping = true →
      Does .hmbDropComplete s [.ftl, .regs] fun u => u.ftl = { s.ftl with hmbDropping := false } ∧ Word.bit (rd u 0x0E 0x18) 3 = true ∧ RegsOnly [(0x0E, 0x18)] s u)
    ∧ (∀ (s : State) (root i : Nat) (f : Frame), wbMay s root = true → residentOf s root = some (i, f) → (rootOf s root).dirty = true →
      (rootOf s root).busy = false → f.wb = false →
      (f.raw = true ∧ f.grans.length < 10 ∧ locGlen f.loc ≠ 0 →
        Serves (.leafWritebackStart root) s moveParts fun u => (root, .writeback) ∈ u.ftl.waits)
      ∧ (f.raw = false ∨ 10 ≤ f.grans.length ∨ locGlen f.loc = 0 →
        (allUnmapped f = true → Serves (.leafWritebackStart root) s [.ftl] fun u =>
          residentOf u root = some (i, { f with loc := 0 }) ∧ (rootOf u root).dirty = false ∧ root ∉ u.ftl.wbQueue)
        ∧ (allUnmapped f = false → Serves (.leafWritebackStart root) s [.ftl, .cpc] fun u =>
          residentOf u root = some (i, { f with wb := true }) ∧ u.ftl.root = s.ftl.root ∧ root ∉ u.ftl.wbQueue
            ∧ u.cpc = { s.cpc with queue := s.cpc.queue ++ [{
                tenant := 0, ruh := ruhMap, src := .leaf root, content := .mapLeaf root f.lseq (!(leafForm s f.entries).1) f.entries
                slots := ceilDiv (leafForm s f.entries).2 4 }] })))
    ∧ (∀ (s : State) (root pua lseq part n i : Nat) (raw : Bool) (ents : Tbl Nat) (f : Frame), Tbl.find s.ftl.wbDone root = some pua →
      residentOf s root = some (i, f) → f.wb = true → Tbl.find s.flash.cells pua = some (.mapLeaf root lseq raw ents part) → n = leafGranules (geomPlanes s) raw ents →
      Serves (.leafWritebackDone root) s [.ftl, .cpc, .regs] fun u => residentOf u root = some (i, { f with wb := false, loc := locMk pua 0 n (!raw) })
        ∧ (rootOf u root).dirty = ((rootOf s root).dirty && decide (f.lseq ≠ lseq)) ∧ Tbl.find u.ftl.wbDone root = none
        ∧ u.ftl.jbuf = s.ftl.jbuf ++ [⟨s.ftl.jseq, .leafwb, root * 2048, pua, 0, n * 4 + (!raw).toNat * 64⟩] ∧ u.ftl.jseq = s.ftl.jseq + 1
        ∧ Counted s u 0x0E 0x190)
    ∧ ∀ (s : State) (r : JRec) (l : List JRec), s.ftl.jbuf = r :: l → l.length < 1023 →
      Serves .journalPageTimer s [.ftl, .cpc] fun u => u.ftl = { s.ftl with jbuf := [], jpending := s.ftl.jpending ++ r :: l }
        ∧ ∃ j, u.cpc = { s.cpc with queue := s.cpc.queue ++ [{ tenant := 0, ruh := ruhJournal, src := .jpage j, content := .journal (r :: l), slots := 4 }] }

/-- NS_INIT, NS_FREE, LEAF_WB, CKPT_BEGIN, DIR_SNAPSHOT, CKPT_COMMIT, REPLAY, LEAF_REBUILD, HMB_ATTACH, HMB_DETACH, EVICT_OWNER and
FTL_COMPLETION_POST (R185, R186, R191, R192, R194, R195). -/
def Obligations.FtlWork : Prop :=
  (∀ (s : State) (d : List Byte) (r : Ring), s.dev.fault = false →
    (ringTake s.ftl.ring 1 = some (d, r) →
        Serves .nsInit s walkParts fun u => (∀ k, k < entArg1 d → rootOf u (entArg0 d + k) = {}) ∧ u.ftl.ring = { r with done := r.done ++ [ringCpl d 0 0 s.ftl.jseq] })
    ∧ (ringTake s.ftl.ring 2 = some (d, r) →
        Serves .nsFree s walkParts fun u =>
          (∀ k, k < entArg1 d → (∀ f, (rootOf u (entArg0 d + k)).tier ≠ .canopy f) ∧ ∀ h, (rootOf u (entArg0 d + k)).tier ≠ .hmb h)
          ∧ u.ftl.ring = { r with done := r.done ++ [ringCpl d 0 0 s.ftl.jseq] })
    ∧ (ringTake s.ftl.ring 3 = some (d, r) →
        (entArg0 d ∉ s.ftl.rebuilding → (rootOf s (entArg0 d)).dirty = false →
          Serves .leafWb s [.ftl] fun u => u.ftl = { s.ftl with ring := { r with done := r.done ++ [ringCpl d 0 0 s.ftl.jseq] } })
        ∧ (entArg0 d ∈ s.ftl.rebuilding →
          Serves .leafWb s [.ftl] fun u => u.ftl = { s.ftl with ring := { r with done := r.done ++ [ringCpl d 2 0 s.ftl.jseq] } })
        ∧ (entArg0 d ∉ s.ftl.rebuilding → (rootOf s (entArg0 d)).dirty = true →
          Serves .leafWb s [.ftl] fun u => u.ftl = { s.ftl with ring := r, wbEnts := s.ftl.wbEnts ++ [(entArg0 d, d, 0)], wbQueue := u.ftl.wbQueue }
            ∧ entArg0 d ∈ u.ftl.wbQueue ∧ ∀ x ∈ s.ftl.wbQueue, x ∈ u.ftl.wbQueue))
    ∧ (ringTake s.ftl.ring 4 = some (d, r) →
        Serves .ckptBegin s [.ftl] fun u => ∃ k pre, u.ftl.ckpt = some k ∧ k.number = entArg1 d ∧ k.start = s.ftl.jseq
          ∧ (∀ p ∈ s.ftl.root, p.2.dirty = true → toWrite s p.1 = true → (p.1, currentLseq s p.1) ∈ k.left)
          ∧ (∀ p ∈ k.left, ∃ i f, residentOf s p.1 = some (i, f) ∧ (f.wb = true ∨ p.1 ∈ u.ftl.wbQueue))
          ∧ (∀ x e, s.ftl.ckpt = some x → x.ent = some e → pre = [ringCpl e 1 x.total s.ftl.jseq]) ∧ (s.ftl.ckpt.bind (·.ent) = none → pre = [])
          ∧ u.ftl.ring = { r with done := r.done ++ pre ++ if k.left = [] then [ringCpl d 0 0 s.ftl.jseq] else [] }
          ∧ k.ent = if k.left = [] then none else some d)
    ∧ (ringTake s.ftl.ring 5 = some (d, r) → s.ftl.snapRun = none → (∀ x ∈ s.cpc.sysDone, ∀ k, x.1 ≠ .snapPage k) →
        (0 < entArg1 d → Serves .dirSnapshot s [.ftl, .cpc] fun u => u.ftl.snapRun = some { ent := d, pages := ceilDiv (entArg1 d) 2048 }
          ∧ u.ftl.root = s.ftl.root ∧ u.ftl.ring = r ∧ (∃ l, u.cpc.queue = s.cpc.queue ++ l ∧ l.length = ceilDiv (entArg1 d) 2048)
          ∧ ∀ k, s.ftl.ckpt = some k → ∃ k', u.ftl.ckpt = some k' ∧ k'.number = k.number ∧ k'.start = k.start
              ∧ ∀ j, j < entArg1 d → flashLoc s (entArg0 d + j) ≠ 0 → Tbl.find k'.snap (entArg0 d + j) = some (flashLoc s (entArg0 d + j)))
        ∧ (entArg1 d = 0 → Serves .dirSnapshot s [.ftl, .cpc] fun u => u.ftl.snapRun = none ∧ u.ftl.ring = { r with done := r.done ++ [ringCpl d 0 0 s.ftl.jseq] }))
    ∧ (ringTake s.ftl.ring 6 = some (d, r) → s.ftl.snapRun = none →
        (s.ftl.ckpt = none → Serves .ckptCommit s [.ftl] fun u => u.ftl = { s.ftl with ring := { r with done := r.done ++ [ringCpl d 1 0 s.ftl.jseq] } })
        ∧ ∀ (k : CkptRun) (b : List Byte), s.ftl.ckpt = some k → k.ent = none →
          busRead { s with ftl := { s.ftl with ring := r } } ⟨0x3A0, 0⟩ (entArg2 d) 4096 = (.ok, b, { s with ftl := { s.ftl with ring := r } }) →
          Serves .ckptCommit s [.ftl, .cpc, .pwr] fun u =>
            (∃ ck, u.ftl.ckpts = (ck :: s.ftl.ckpts).take 2 ∧ ck.number = k.number ∧ ck.start = k.start ∧ ck.words = k.snap ∧ ck.pages = k.pages ∧ ck.image = b)
            ∧ u.ftl.ckpt = none ∧ u.ftl.jstart = k.start ∧ u.ftl.jseq = s.ftl.jseq ∧ u.ftl.dirtySince = s.ftl.dirtySince.filter (fun p => k.start ≤ p.2)
            ∧ u.ftl.root = s.ftl.root ∧ u.pwr = { s.pwr with flushSince := false, ckptSeq := some s.ftl.jseq }
            ∧ u.ftl.ring = { r with done := r.done ++ [ringCpl d 0 0 s.ftl.jseq] })
    ∧ (ringTake s.ftl.ring 7 = some (d, r) →
        (∀ k, s.ftl.ckpts.find? (fun k => k.start = entArg1 d) = some k → snapReadable s k = false →
          Serves .replay s [.ftl] fun u => u.ftl = { s.ftl with ring := { r with done := r.done ++ [ringCpl d 2 0 s.ftl.jseq] } })
        ∧ (∀ x ∈ s.ftl.jpages.flatten, s.ftl.ckpts = [] → entArg1 d ≤ x.jseq → recBad s x = true →
          Serves .replay s (.ftl :: faultParts) fun u => u.dev.fault = true ∧ u.ftl.ring = r)
        ∧ ∀ (x : JRec) (i : Nat) (f : Frame), s.ftl.ckpts = [] → s.cpc.rus = [] → s.ftl.jpages = [[x]] → entArg1 d ≤ x.jseq → recBad s x = false →
          x.typ = .mapRec → x.c = 0 → residentOf s (x.mu / 2048) = some (i, f) → (rootOf s (x.mu / 2048)).busy = false → f.raw = true →
          entPresent f (x.mu % 2048) = true → s.ftl.pwt = [] → s.ftl.waits = [] → WalkPasses s (x.mu / 2048) none .write →
          Serves .replay s [.ftl, .regs, .cpc] fun u => u.ftl.jstart = entArg1 d ∧ u.ftl.jseq = max s.ftl.jseq (x.jseq + 1) ∧ u.ftl.replayDue = false
            ∧ (x.jseq ≤ f.lseq → residentOf u (x.mu / 2048) = some (i, f))
            ∧ (f.lseq < x.jseq → (rootOf u (x.mu / 2048)).dirty = true ∧ ∃ g, residentOf u (x.mu / 2048) = some (i, g) ∧ g.lseq = x.jseq
                ∧ Tbl.getD g.entries (x.mu % 2048) 0 = entMapped x.a ∧ ∀ o, o ≠ x.mu % 2048 → Tbl.getD g.entries o 0 = Tbl.getD f.entries o 0)
            ∧ u.ftl.ring = { r with done := r.done ++ [ringCpl d 0 (if f.lseq < x.jseq then 1 else 0) u.ftl.jseq] })
    ∧ (ringTake s.ftl.ring 8 = some (d, r) →
        (entArg0 d ≠ 0xFFFFFFFF → leafHeld s (entArg0 d) = false →
          Serves (.leafRebuild false) s walkParts fun u => (rootOf u (entArg0 d)).busy = true ∧ entArg0 d ∈ u.ftl.rebuilding
            ∧ u.ftl.rebuilds = s.ftl.rebuilds ++ [{ ent := d, left := [entArg0 d] }] ∧ ∀ k, k ≠ entArg0 d → rootOf u k = rootOf s k)
        ∧ (entArg0 d ≠ 0xFFFFFFFF → leafHeld s (entArg0 d) = true →
          Serves (.leafRebuild false) s [.ftl] fun u => u.ftl.rebuilds = s.ftl.rebuilds ++ [{ ent := d, left := [] }] ∧ u.ftl.root = s.ftl.root)
        ∧ (entArg0 d = 0xFFFFFFFF → Serves (.leafRebuild false) s (.ten :: walkParts) fun u => (∀ p ∈ u.ten.nss, p.2.notReady = true)
          ∧ ∀ p ∈ s.ten.nss, p.2.kind = .nvm → ∀ k, k < p.2.leafCount → leafHeld s (p.2.leafBase + k) = false → p.2.leafBase + k ∈ u.ftl.rebuilding))
    ∧ (∀ b : List Byte, ringTake s.ftl.ring 9 = some (d, r) →
        busRead { s with ftl := { s.ftl with ring := r } } ⟨0x3A0, 0⟩ (entArg1 d) (16 * entArg2 d) = (.ok, b, { s with ftl := { s.ftl with ring := r } }) →
        (1048576 ≤ ((List.range (entArg2 d)).map fun i => leNat ((b.drop (16 * i + 8)).take 4) * 4).sum →
          Serves .hmbAttach s [.ftl] fun u => u.ftl.hmbMem.map (·.2) = ((List.range (entArg2 d)).map fun i => leNat ((b.drop (16 * i + 8)).take 4) * 4)
            ∧ u.ftl = { s.ftl with hmbMem := u.ftl.hmbMem, ring := { r with done := r.done ++ [ringCpl d 0 0 s.ftl.jseq] } })
        ∧ (((List.range (entArg2 d)).map fun i => leNat ((b.drop (16 * i + 8)).take 4) * 4).sum < 1048576 →
          Serves .hmbAttach s [.ftl] fun u => u.ftl = { s.ftl with ring := { r with done := r.done ++ [ringCpl d 1 0 s.ftl.jseq] } }))
    ∧ (ringTake s.ftl.ring 10 = some (d, r) →
        (s.ftl.hmbMem = [] → Serves .hmbDetach s [.ftl] fun u => u.ftl = { s.ftl with ring := { r with done := r.done ++ [ringCpl d 0 0 s.ftl.jseq] } })
        ∧ (s.ftl.hmbMem ≠ [] → (∀ p ∈ s.ftl.pageIns, ∀ h, p.2.src ≠ .hmb h) →
          Serves .hmbDetach s [.ftl] fun u => u.ftl.hmb = [] ∧ u.ftl.hmbMem = [] ∧ u.ftl.hmbDropping = true
            ∧ (∀ p ∈ s.ftl.hmb, ∃ l, (rootOf u p.2.leaf).tier = .flash l) ∧ u.ftl.ring = { r with done := r.done ++ [ringCpl d 0 0 s.ftl.jseq] }))
    ∧ (ringTake s.ftl.ring 11 = some (d, r) → s.ftl.evicts = [] →
        ((∀ p ∈ s.ftl.frames, leafTenant s p.2.leaf ≠ entArg0 d) → (∀ p ∈ s.ftl.hmb, leafTenant s p.2.leaf ≠ entArg0 d) →
          (∀ p ∈ s.ftl.pageIns, leafTenant s p.1 ≠ entArg0 d) →
          Serves .evictOwner s [.ftl] fun u => u.ftl = { s.ftl with ring := { r with done := r.done ++ [ringCpl d 0 0 s.ftl.jseq] } })
        ∧ (∀ (i : Nat) (f : Frame), s.ftl.frames = [(i, f)] → residentOf s f.leaf = some (i, f) → leafTenant s f.leaf = entArg0 d →
          (rootOf s f.leaf).dirty = false → (rootOf s f.leaf).busy = false → f.wb = false → s.ftl.hmb = [] → s.ftl.pageIns = [] →
          Serves .evictOwner s walkParts fun u => u.ftl.frames = [] ∧ (rootOf u f.leaf).tier = .flash f.loc ∧ Counted s u 0x0E 0x18C
            ∧ u.ftl.evicts = [] ∧ u.ftl.ring = { r with done := r.done ++ [ringCpl d 0 0 s.ftl.jseq] })
        ∧ ((∃ p ∈ s.ftl.pageIns, leafTenant s p.1 = entArg0 d) → Serves .evictOwner s walkParts fun u => u.ftl.evicts = [d] ∧ u.ftl.ring = r)))
    ∧ (∀ (s : State) (x : RebuildRun), s.ftl.rebuilds = [x] → x.scanned = false →
      (x.left = [] → Serves (.leafRebuild true) s [.ftl, .evq, .ten] fun u => u.ftl.rebuilds = []
        ∧ u.ftl.ring = { s.ftl.ring with done := s.ftl.ring.done ++ [ringCpl x.ent 0 0 s.ftl.jseq] } ∧ (∃ e ∈ u.evq, e.code = 0x5001)
        ∧ if entArg0 x.ent = 0xFFFFFFFF then (∀ p ∈ u.ten.nss, p.2.notReady = false) else u.ten = s.ten)
      ∧ ∀ (root id : Nat) (n : Ns), x.left = [root] → nsOfRoot s root = some (id, n) → s.ftl.jpages = [] → s.ftl.jpending = [] → s.ftl.jbuf = [] →
        (∀ p ∈ s.cpc.rus, p.2.tenant = n.owner → p.2.nosum = true ∨ summaryLost s p.1 = false) →
        Serves (.leafRebuild true) s (.ten :: moveParts) fun u =>
          ∃ ents, (∀ o, o < 2048 → Tbl.getD ents o 0 = rebuildEntry s n.owner id (root * 2048 + o - n.leafBase * 2048))
            ∧ ((∃ q l w, Tbl.find u.ftl.pageIns root = some q ∧ q.src = .rebuilt l w ents)
              ∨ ∃ i f, residentOf u root = some (i, f) ∧ f.entries = ents ∧ (rootOf u root).dirty = true ∧ root ∉ u.ftl.rebuilding))
    ∧ ∀ (s : State) (c : List Byte) (l : List (List Byte)), s.ftl.ring.done = c :: l → s.ftl.ring.stopped = false → s.dev.fault = false →
      (RingFull s 0x0E → Does .ftlCompletionPost s [] fun _ => True)
      ∧ ∀ t, ¬ RingFull s 0x0E → busWrite s ⟨0x3A0, 0⟩ (baseAt s 0x0E 0x1014 + rdF s 0x0E 0x101C 11 0 * 16) c = (.ok, t) →
        KeepsBut [.mem, .dmc, .regs] s t → RegsOnly [(0x1B, 0x12C), (0x1B, 0x130)] s t →
        Does .ftlCompletionPost s [.mem, .dmc, .regs, .ftl] fun u => u.ftl = { s.ftl with ring := { s.ftl.ring with done := l } } ∧ u.mem = t.mem
          ∧ rd u 0x0E 0x101C = w32 ((rdF s 0x0E 0x101C 11 0 + 1) % ringSize s 0x0E) ∧ Word.bit (rd u 0x0E 0x18) 1 = true
          ∧ RegsOnly [(0x0E, 0x101C), (0x0E, 0x18), (0x1B, 0x12C), (0x1B, 0x130)] s u
/-! ### Media management -/

/-- COPPICE_ASSIGN and IDLE_CLOSURE_TIMEOUT (R205, R207, R208, R211, R213, R216, R217). -/
def Obligations.RowsFill : Prop :=
  (∀ (s : State) (tenant : Fin 512) (ruh : Fin 13) (acc : Bool) (it : Item) (q : List Item),
    takeFirst (fun x : Item => decide (x.tenant = tenant) && decide (x.ruh = ruh)) s.cpc.queue = some (it, q) →
    (ruh.val < 8 → s.flash.withdraw = true →
        Serves (.coppiceAssign tenant ruh acc) s [.regs, .evq] fun u =>
        acc = true → s.cpc.accs ≠ [] → rd s 0x19 0x28 = 0 → rd u 0x19 0x28 = 0x10000)
    ∧ ((ruh.val < 8 → s.flash.withdraw = false) →
      (s.cpc.opens.any fun p => decide (p.1 / 64 = tenant * 16 + ruh) && descBroken s p.2) = false →
      (∀ (i row : Nat) (w : Row) (c : Content), ruFor s it = some i → fillingRow (ruAt s i) = some row → rowOf s i row = some w →
        (it.buf = 0 ∨ (barkCheck s 0x1B ⟨⟨0x3A1, it.tenant⟩, it.buf, 4096, .read, 0⟩).2 = true) →
        (sealItem s it).map (·.1) = some c → it.slots = 1 → it.force = false → (∀ g, it.src ≠ .backing g 0) → w.fill + 1 < unitSlots s (ruAt s i) → dataMembers (ruAt s i) row ≠ [] →
        Serves (.coppiceAssign tenant ruh acc) s [.cpc, .flash, .sec, .regs, .evq, .freeCtr] fun u => u.cpc.queue = q
          ∧ Tbl.find u.flash.cells (rowPua s (ruAt s i) row w.fill).2 = some (c.slot 0)
          ∧ rowOf u i row = some { w with fill := w.fill + 1, items := w.items ++ [{ it with pua := (rowPua s (ruAt s i) row w.fill).2 }] }
          ∧ (acc = true → s.cpc.accs ≠ [] → rd s 0x19 0x28 = 0 → rd u 0x19 0x28 = 0x10000))
      ∧ (ruFor s it = none → allocating s it = true → Serves (.coppiceAssign tenant ruh acc) s [.regs, .evq] fun u =>
        acc = true → s.cpc.accs ≠ [] → rd s 0x19 0x28 = 0 → rd u 0x19 0x28 = 0x10000)
      ∧ (ruFor s it = none → allocating s it = false →
        (mayAlloc s tenant ruh = false → Serves (.coppiceAssign tenant ruh acc) s [.cpc, .regs, .evq] fun u =>
          tenant.val ∈ u.cpc.waits ∧ u.cpc.queue = s.cpc.queue ∧ u.cpc.rus = s.cpc.rus)
        ∧ ∀ (d : DieSet) (i : Nat), mayAlloc s tenant ruh = true → Tbl.find s.cpc.dsets (itemSet s it) = some d → (setRus d).any (descBroken s) = false → lowestFree s d = [i] →
          (∀ m ∈ (ruAt s i).members, m.skip = false → s.cpc.retiredDies.contains m.die = false ∧ isBad s m.die m.block = false) → 8 ≤ ruWidth (ruAt s i) →
          Serves (.coppiceAssign tenant ruh acc) s mediaParts fun u => (ruAt u i).st = .erasing ∧ (ruAt u i).tenant = tenant ∧ (ruAt u i).ruh = ruh
            ∧ (ruAt u i).valid = [] ∧ (ruAt u i).eraseCnt = (ruAt s i).eraseCnt ∧ Tbl.find u.cpc.opens (openKey tenant ruh (itemSet s it)) = some i
            ∧ u.cpc.queue = s.cpc.queue)))
    ∧ ∀ (s : State) (ru row : Nat) (w : Row), rowOf s ru row = some w → w.fill ≠ 0 →
      (w.full = true → Serves (.idleClosureTimeout ru row) s [.cpc, .flash] fun u => rowOf u ru row = some { w with forced := true })
      ∧ (w.full = false → w.units = [] → Serves (.idleClosureTimeout ru row) s mediaParts fun u =>
        (∃ x, rowOf u ru row = some x ∧ x.full = true ∧ x.emitted = true ∧ x.forced = true ∧ x.fill = rowSlots s (ruAt s ru) row ∧ x.items = w.items)
          ∧ rd u 0x0F 0x164 = w32 (min ((rd s 0x0F 0x164).toNat + (rowSlots s (ruAt s ru) row - w.fill)) 0xFFFFFFFF) ∧ Counted s u 0x19 0x110)

/-- COPPICE_RECLAIM_START, RELOCATION_SOURCE_ERASE, STATIC_WEAR_LEVEL, READ_DISTURB_LIMIT, PATROL_SAMPLE, TEMP_HISTORY_SAMPLE and
HOURLY_SLOT_ADVANCE (R218, R220, R223, R224, R225, R236, R241). -/
def Obligations.UnitsAreReclaimed : Prop :=
  (∀ (s : State) (tenant : Fin 512) (i : Nat), (s.cpc.rus.any fun p => p.2.tenant = tenant.val && descBroken s p.1) = false →
      (s.cpc.rus.any fun p => p.2.st = .victim && p.2.tenant = tenant.val && !p.2.wear) = false →
      (s.cpc.nextVictim.find? fun j => (ruAt s j).tenant = tenant.val && (ruAt s j).st = .closed) = some i
        ∨ ((s.cpc.nextVictim.find? fun j => (ruAt s j).tenant = tenant.val && (ruAt s j).st = .closed) = none ∧ bestVictims s tenant = [i]
          ∧ (headroom s tenant ≤ (freeTgt s tenant : Int) ∨ ∃ j ∈ victimCands s tenant, (ruAt s j).refresh = true ∨ (ruAt s j).degraded = true)) →
      (tenantMismatch s (ruAt s i) = false → Serves (.coppiceReclaimStart tenant) s moveParts fun u => (ruAt u i).st = .victim ∧ (ruAt u i).wear = false
        ∧ ∀ p ∈ (ruAt s i).valid, ∀ c, Tbl.find s.flash.cells p = some c → (contentGmu s c).isSome = true → p ∈ (ruAt u i).moving ∨ (i, p) ∈ u.cpc.moveWait)
      ∧ (tenantMismatch s (ruAt s i) = true → Serves (.coppiceReclaimStart tenant) s (.cpc :: faultParts) fun u => u.cpc.ring.stopped = true ∧ u.dev.fault = true))
    ∧ (∀ (s : State) (ru : Nat), (ruAt s ru).st = .victim → (ruAt s ru).valid = [] → (ruAt s ru).moving = [] → relocsSafe s ru = true → sysNeeded s (ruAt s ru) = false →
      Serves (.relocationSourceErase ru) s [.cpc, .flash] fun u => (ruAt u ru).st = .free ∧ (ruAt u ru).tenant = 0
        ∧ (ruAt u ru).eraseCnt = (ruAt s ru).eraseCnt ∧ ∀ a, Tbl.find u.flash.cells a =
          if (ruAt s ru).members.any (fun m => decide (m.die = puaDie a) && decide (m.block = puaBlock a)) then none else Tbl.find s.flash.cells a)
    ∧ (∀ (s : State) (k : Fin 64) (d : DieSet) (i : Nat), Tbl.find s.cpc.dsets k = some d → s.cpc.readOnly = 0 →
      rdF s 0x0F 0x134 15 0 < (((setRus d).map fun i => (ruAt s i).eraseCnt).foldl max 0) -
        (((setRus d).map fun i => (ruAt s i).eraseCnt).foldl min (((setRus d).map fun i => (ruAt s i).eraseCnt).headD 0)) →
      ((setRus d).filter fun i => (ruAt s i).st = .closed && (ruAt s i).ruh ≠ ruhBacking && !((ruAt s i).tenant = 0 && sysNeeded s (ruAt s i))) = [i] →
      Serves (.staticWearLevel k) s moveParts fun u => (ruAt u i).st = .victim ∧ (ruAt u i).wear = true)
    ∧ (∀ (s : State) (ru : Nat), rdF s 0x0F 0x144 23 0 ≤ (ruAt s ru).readMax →
      ((ruAt s ru).st = .closed ∨ (ruAt s ru).st = .victim → Serves (.readDisturbLimit ru) s [.cpc] fun u => ruAt u ru = { ruAt s ru with refresh := true })
      ∧ ((ruAt s ru).st = .opened → (ruAt s ru).open_ ≠ [] →
        Serves (.readDisturbLimit ru) s [.cpc] fun u => ruAt u ru = { ruAt s ru with refresh := true, closing := true })
      ∧ ((ruAt s ru).st = .opened → (ruAt s ru).open_ = [] →
        Serves (.readDisturbLimit ru) s [.cpc] fun u => (ruAt u ru).st = .closed ∧ (ruAt u ru).refresh = true ∧ (ruAt u ru).closing = false
          ∧ (ruAt u ru).short = ((ruAt s ru).short || decide ((ruAt s ru).nextRow < ruRows s (ruAt s ru)))))
    ∧ (∀ (s : State) (ru bits : Nat) (soft : Bool), ((ruAt s ru).st = .closed → Does (.patrolSample ru bits soft) s [.cpc] fun u => ∃ reads m, (ruAt s ru).readMax ≤ m
        ∧ ruAt u ru = { ruAt s ru with
          refresh := (ruAt s ru).refresh || patrolHot s bits soft || decide ((ruAt s ru).progTime + rdF s 0x0F 0x140 15 0 * 86400 < s.dev.rtc)
          lastPatrol := s.clock, patrolRow := ((ruAt s ru).patrolRow + 1) % max 1 (ruRows s (ruAt s ru)), reads := reads, readMax := m })
      ∧ ((ruAt s ru).st ≠ .closed → Does (.patrolSample ru bits soft) s [] fun _ => True))
    ∧ (∀ s : State, Does .tempHistorySample s [.cpc, .dev] fun u => (∀ b, Tbl.getD u.cpc.tempHist b 0 =
        Tbl.getD s.cpc.tempHist b 0 + (if b = tempBin (rdF s 0x00 0x118 15 0) then 1 else 0))
        ∧ u.dev = { s.dev with warnMin := u.dev.warnMin, critMin := u.dev.critMin } ∧ u.cpc.hourIdx = s.cpc.hourIdx)
    ∧ ∀ s : State, Does .hourlySlotAdvance s [.cpc] fun u => u.cpc.hourIdx = (s.cpc.hourIdx + 1) % 72
        ∧ Tbl.getD u.cpc.hourly ((s.cpc.hourIdx + 1) % 72) (0, 0) = (0, 0) ∧ u.cpc.tempHist = s.cpc.tempHist

/-- RU_INIT, DIE_RETIRE, BLOCK_RETIRE, RU_RELOCATE, SUMMARY_WRITE, SUMMARY_LOAD, FLUSH_ADOPT and PATROL_NOW (R204, R214, R226, R229, R240). -/
def Obligations.CoppiceWork : Prop :=
  (∀ (s : State) (d : List Byte) (r : Ring), RingFull s 0x0F → s.dev.fault = false →
    (∀ (b : List Byte) (factory : List (Nat × Nat)), ringTake s.cpc.ring 1 = some (d, r) →
        busRead { s with cpc := { s.cpc with ring := r } } ⟨0x3A1, 0⟩ (Word.fld (rd s 0x0F 0x118) 31 6 * 64 + rdF s 0x0F 0x11C 15 0 * 2 ^ 32 + 256 * entArg0 d) 256
          = (.ok, b, { s with cpc := { s.cpc with ring := r } }) →
        ((dsetFrom s (entArg0 d) b).present < 8 → Serves (.ruInit factory) s [.cpc] fun u => u.cpc = { s.cpc with ring := { r with done := r.done ++ [ringCpl d 1 0 s.ftl.jseq] } })
        ∧ (8 ≤ (dsetFrom s (entArg0 d) b).present → rdF s 0x04 0x104 2 0 ≠ 0 → s.cpc.bad = [] → s.cpc.grown = [] →
          Serves (.ruInit factory) s [.cpc, .regs] fun u => Tbl.find u.cpc.dsets (entArg0 d) = some (dsetFrom s (entArg0 d) b)
            ∧ (∀ i, (dsetFrom s (entArg0 d) b).firstRu ≤ i → i < (dsetFrom s (entArg0 d) b).firstRu + (dsetFrom s (entArg0 d) b).rus → Tbl.find u.cpc.rus i = none)
            ∧ u.cpc.bad = [] ∧ u.cpc.ring.done = r.done ++ [ringCpl d 0 (dsetFrom s (entArg0 d) b).rus s.ftl.jseq])
        ∧ (8 ≤ (dsetFrom s (entArg0 d) b).present → rdF s 0x04 0x104 2 0 = 0 →
          Serves (.ruInit factory) s [.cpc, .regs, .freeCtr] fun u => Tbl.find u.cpc.dsets (entArg0 d) = some (dsetFrom s (entArg0 d) b)
            ∧ (∀ x ∈ factory, ∀ m ∈ (dsetFrom s (entArg0 d) b).members, m.1 = x.1 → x ∈ u.cpc.bad)
            ∧ u.cpc.ring.done = r.done ++ [ringCpl d 0 (dsetFrom s (entArg0 d) b).rus s.ftl.jseq]))
    ∧ (ringTake s.cpc.ring 2 = some (d, r) →
        (entArg0 d ∉ s.cpc.retiredDies → Serves .dieRetire s moveParts fun u => u.cpc.retiredDies = s.cpc.retiredDies ++ [entArg0 d] ∧ Word.bit (rd u 0x0F 0x18) 3 = true
          ∧ (∀ i x, Tbl.find s.cpc.rus i = some x → (x.members.any fun m => decide (m.die = entArg0 d) && !m.skip) = true → (ruAt u i).degraded = true)
          ∧ u.cpc.ring.done = r.done ++ [ringCpl d 0 0 u.ftl.jseq])
        ∧ (entArg0 d ∈ s.cpc.retiredDies → Serves .dieRetire s [.cpc] fun u => u.cpc = { s.cpc with ring := { r with done := r.done ++ [ringCpl d 0 0 s.ftl.jseq] } }))
    ∧ (ringTake s.cpc.ring 3 = some (d, r) →
        Serves .blockRetire s [.cpc, .regs] fun u => u.cpc.grown = (if (entArg0 d, entArg1 d) ∈ s.cpc.grown then s.cpc.grown else s.cpc.grown ++ [(entArg0 d, entArg1 d)])
          ∧ u.cpc.rus = s.cpc.rus ∧ u.cpc.ring.done = r.done ++ [ringCpl d 0 0 s.ftl.jseq])
    ∧ (ringTake s.cpc.ring 4 = some (d, r) → Serves .ruRelocate s [.cpc] fun u => u.cpc = { s.cpc with nextVictim := s.cpc.nextVictim.filter (fun x => decide (x ≠ entArg0 d)) ++ [entArg0 d], ring := { r with done := r.done ++ [ringCpl d 0 0 s.ftl.jseq] } })
    ∧ (ringTake s.cpc.ring 5 = some (d, r) →
        (s.cpc.sumRun = none → Serves .summaryWrite s [.cpc] fun u => u.cpc.rus = s.cpc.rus ∧ u.cpc.ring = r ∧ ∃ n m, 1 ≤ n ∧ 1 ≤ m
          ∧ u.cpc.queue = s.cpc.queue ++ (summaryItems 0 ruhMap n (s.cpc.rus.map fun p => (p.1, p.2.valid)) (s.cpc.bad ++ s.cpc.grown)
              ++ summaryItems n ruhJournal m [] (s.cpc.bad ++ s.cpc.grown) ++ summaryItems (n + m) ruhJournal m [] (s.cpc.bad ++ s.cpc.grown))
          ∧ u.cpc.sumRun = some { ent := d, count := s.cpc.rus.length, pages := n + m + m })
        ∧ (s.cpc.sumRun.isSome = true → Serves .summaryWrite s [.cpc] fun u => u.cpc = { s.cpc with ring := { r with fetched := (0, d) :: r.fetched } }))
    ∧ (∀ lost : List Nat, ringTake s.cpc.ring 6 = some (d, r) → Serves (.summaryLoad lost) s [.cpc] fun u =>
          u.cpc.rus = s.cpc.rus.map (fun p => (p.1, { p.2 with nosum := lost.contains p.1 })) ∧ u.cpc.queue = s.cpc.queue
            ∧ u.cpc.ring.done = r.done ++ [ringCpl d 0 (s.cpc.rus.length - lost.length) s.ftl.jseq])
    ∧ (ringTake s.cpc.ring 7 = some (d, r) → entArg1 d = 1 → (ruAt s (entArg0 d)).ruh = ruhFlush → (ruAt s (entArg0 d)).st = .closed →
        Serves .flushAdopt s moveParts fun u => (ruAt u (entArg0 d)).st = .victim ∧ (ruAt u (entArg0 d)).wear = true
          ∧ u.cpc.ring.done = r.done ++ [ringCpl d 0 1 u.ftl.jseq])
    ∧ (∀ found : List (Nat × Nat × Bool), ringTake s.cpc.ring 8 = some (d, r) →
        (entArg0 d ≠ 0xFFFFFFFF → (ruAt s (entArg0 d)).st = .closed →
          Serves (.patrolNow found) s [.cpc] fun u => (ruAt u (entArg0 d)).lastPatrol = s.clock
            ∧ (patrolHot s (Tbl.getD found (entArg0 d) (0, false)).1 (Tbl.getD found (entArg0 d) (0, false)).2 = true → (ruAt u (entArg0 d)).refresh = true)
            ∧ (∀ i, i ≠ entArg0 d → (ruAt u i).refresh = (ruAt s i).refresh ∧ (ruAt u i).lastPatrol = (ruAt s i).lastPatrol)
            ∧ u.cpc.ring.done = r.done ++ [ringCpl d 0 1 s.ftl.jseq])
        ∧ (entArg0 d = 0xFFFFFFFF → Serves (.patrolNow found) s [.cpc] fun u =>
            (∀ i x, Tbl.find s.cpc.rus i = some x → x.st = .closed → (ruAt u i).lastPatrol = s.clock)
            ∧ u.cpc.ring.done = r.done ++ [ringCpl d 0 s.cpc.rus.length s.ftl.jseq])))
    ∧ ∀ (s t : State) (d : List Byte) (r : Ring), ringTake s.cpc.ring 4 = some (d, r) → r.done = [] → s.dev.fault = false → ¬ RingFull s 0x0F →
      (∀ s', s' = { s with cpc := { s.cpc with nextVictim := s.cpc.nextVictim.filter (fun x => decide (x ≠ entArg0 d)) ++ [entArg0 d], ring := { r with done := [ringCpl d 0 0 s.ftl.jseq] } } } →
        busWrite s' ⟨0x3A1, 0⟩ (baseAt s 0x0F 0x1014 + rdF s 0x0F 0x101C 11 0 * 16) (ringCpl d 0 0 s.ftl.jseq) = (.ok, t)
          ∧ KeepsBut [.mem, .dmc, .regs] s' t ∧ RegsOnly [(0x1B, 0x12C), (0x1B, 0x130)] s' t) →
      Serves .ruRelocate s [.mem, .dmc, .regs, .cpc] fun u => u.cpc.ring.done = [] ∧ u.mem = t.mem
        ∧ rd u 0x0F 0x101C = w32 ((rdF s 0x0F 0x101C 11 0 + 1) % ringSize s 0x0F) ∧ Word.bit (rd u 0x0F 0x18) 1 = true

/-- CPC_TEN_RSV_WRITE and CPC_TEN_CTL_WRITE (R217, R242). -/
def Obligations.TenantReservations : Prop :=
  ∀ (s : State) (who : Who) (t : Fin 512) (v : Word),
    (Admits s who 0x0F (0x2000 + 16 * t) v →
      (rsvOwed (wr s 0x0F (0x2000 + 16 * t) (v &&& 0x3FFFF)) ≤ freeCount s → Does (.cpcTenRsvWrite who t v) s [.resp, .regs] fun u =>
        rd u 0x0F (0x2000 + 16 * t) = v &&& 0x3FFFF ∧ RegsOnly [(0x0F, 0x2000 + 16 * t), (0x0F, 0x18)] s u)
      ∧ (freeCount s < rsvOwed (wr s 0x0F (0x2000 + 16 * t) (v &&& 0x3FFFF)) → rd s 0x0F 0x28 = 0 →
        Does (.cpcTenRsvWrite who t v) s [.resp, .regs] fun u => rd u 0x0F (0x2000 + 16 * t) = rd s 0x0F (0x2000 + 16 * t) ∧ rd u 0x0F 0x28 = 0x40000))
    ∧ (Admits s who 0x0F (0x2008 + 16 * t) v → Does (.cpcTenCtlWrite who t v) s [.resp, .regs] fun u =>
        rdF u 0x0F (0x2008 + 16 * t) 31 16 = Word.fld v 31 16
          ∧ rdF u 0x0F (0x2008 + 16 * t) 15 0 = (if 1 ≤ Word.fld v 7 0 ∧ Word.fld v 7 0 ≤ 32 ∧ Word.fld v 7 0 < Word.fld v 15 8 ∧ Word.fld v 15 8 ≤ 64
              then Word.fld v 15 0 else rdF s 0x0F (0x2008 + 16 * t) 15 0)
          ∧ RegsOnly [(0x0F, 0x2008 + 16 * t), (0x0F, 0x18)] s u)

/-- FTL_WORK_TAIL_WRITE, CPC_WORK_TAIL_WRITE, SEC_WORK_TAIL_WRITE and FCH_WORK_TAIL_WRITE (R193, R196, R199, R240, R241, R274). -/
def Obligations.WorkRings : Prop :=
  ∀ (s : State) (who : Who) (v : Word) (b : List Byte),
    (s.ftl.ring.stopped = false → OneEntry s who ⟨0x3A0, 0⟩ 0x0E 32 v b →
      (ftlBad (wr s 0x0E 0x100C (v &&& 0xFFF)) b = 0 → Does (.ftlWorkTailWrite who v) s [.resp, .regs, .ftl] fun u => Fetched s u 0x0E v
        ∧ u.ftl = { s.ftl with ring := { s.ftl.ring with fetched := s.ftl.ring.fetched ++ [(rdF s 0x0E 0x1010 11 0, b)] } })
      ∧ (ftlBad (wr s 0x0E 0x100C (v &&& 0xFFF)) b ≠ 0 → Does (.ftlWorkTailWrite who v) s [.resp, .regs, .ftl, .evq, .dev, .graft, .ports] fun u =>
        RingStops u 0x0E (rdF s 0x0E 0x1010 11 0) (ftlBad (wr s 0x0E 0x100C (v &&& 0xFFF)) b) ∧ u.ftl = { s.ftl with ring := { s.ftl.ring with stopped := true } }))
    ∧ (s.cpc.ring.stopped = false → OneEntry s who ⟨0x3A1, 0⟩ 0x0F 32 v b →
      (cpcBad (wr s 0x0F 0x100C (v &&& 0xFFF)) b = 0 → Does (.cpcWorkTailWrite who v) s [.resp, .regs, .cpc] fun u => Fetched s u 0x0F v
        ∧ u.cpc = { s.cpc with ring := { s.cpc.ring with fetched := s.cpc.ring.fetched ++ [(rdF s 0x0F 0x1010 11 0, b)] } })
      ∧ (cpcBad (wr s 0x0F 0x100C (v &&& 0xFFF)) b ≠ 0 → Does (.cpcWorkTailWrite who v) s [.resp, .regs, .cpc, .evq, .dev, .graft, .ports] fun u =>
        RingStops u 0x0F (rdF s 0x0F 0x1010 11 0) (cpcBad (wr s 0x0F 0x100C (v &&& 0xFFF)) b) ∧ u.cpc = { s.cpc with ring := { s.cpc.ring with stopped := true } }))
    ∧ (s.sec.ring.stopped = false → OneEntry s who secWho 0x0A 64 v b →
      (secBad (wr s 0x0A 0x100C (v &&& 0xFFF)) b = 0 → Does (.secWorkTailWrite who v) s [.resp, .regs, .sec] fun u => Fetched s u 0x0A v
        ∧ u.sec = { s.sec with ring := { s.sec.ring with fetched := s.sec.ring.fetched ++ [(rdF s 0x0A 0x1010 11 0, b)] } })
      ∧ (secBad (wr s 0x0A 0x100C (v &&& 0xFFF)) b ≠ 0 → Does (.secWorkTailWrite who v) s [.resp, .regs, .sec, .evq, .dev, .graft, .ports] fun u =>
        RingStops u 0x0A (rdF s 0x0A 0x1010 11 0) (secBad (wr s 0x0A 0x100C (v &&& 0xFFF)) b) ∧ u.sec = { s.sec with ring := { s.sec.ring with stopped := true } }))
    ∧ (∀ c : Fin 32, (chanOf s c).ring.stopped = false → (chanOf s c).ring.fetched = [] → OneEntry s who ⟨0x380 + c, 0⟩ (fchRgn c) 32 v b →
      (opBad (wr s (fchRgn c) 0x100C (v &&& 0xFFF)) c (parseOp b) = 0 → (parseOp b).opc ≠ 11 → Accepts s c (parseOp b) →
        Serves (.fchWorkTailWrite who c v) s [.resp, .regs, .flash, .freeCtr] fun u => rd u (fchRgn c) 0x100C = v &&& 0xFFF ∧ rd u (fchRgn c) 0x1010 = w32 (Word.fld v 11 0)
          ∧ RegsOnly [(fchRgn c, 0x100C), (fchRgn c, 0x1010), (fchRgn c, 0x144)] s u
          ∧ (dieOf u (puaDie (parseOp b).addr)).q = (dieOf s (puaDie (parseOp b).addr)).q ++ [offered s (parseOp b)])
      ∧ (opBad (wr s (fchRgn c) 0x100C (v &&& 0xFFF)) c (parseOp b) ≠ 0 → (blkSt s (fchRgn c)).st ≠ .draining →
        Serves (.fchWorkTailWrite who c v) s [.resp, .regs, .flash, .evq, .dev, .graft, .ports] fun u =>
          RingStops u (fchRgn c) (rdF s (fchRgn c) 0x1010 11 0) (opBad (wr s (fchRgn c) 0x100C (v &&& 0xFFF)) c (parseOp b)) ∧ (chanOf u c).ring.stopped = true))
    ∧ ((Admits s who 0x0E 0x100C v → ringSize s 0x0E ≤ Word.fld v 11 0 → Does (.ftlWorkTailWrite who v) s [.resp, .regs, .ftl, .evq, .dev, .graft, .ports]
          fun u => RingStops u 0x0E (Word.fld v 11 0) 5 ∧ rd u 0x0E 0x100C = rd s 0x0E 0x100C)
      ∧ (Admits s who 0x0F 0x100C v → ringSize s 0x0F ≤ Word.fld v 11 0 → Does (.cpcWorkTailWrite who v) s [.resp, .regs, .cpc, .evq, .dev, .graft, .ports]
          fun u => RingStops u 0x0F (Word.fld v 11 0) 5 ∧ rd u 0x0F 0x100C = rd s 0x0F 0x100C)
      ∧ (Admits s who 0x0A 0x100C v → ringSize s 0x0A ≤ Word.fld v 11 0 → Does (.secWorkTailWrite who v) s [.resp, .regs, .sec, .evq, .dev, .graft, .ports]
          fun u => RingStops u 0x0A (Word.fld v 11 0) 5 ∧ rd u 0x0A 0x100C = rd s 0x0A 0x100C)
      ∧ ∀ c : Fin 32, Admits s who (fchRgn c) 0x100C v → ringSize s (fchRgn c) ≤ Word.fld v 11 0 →
        Serves (.fchWorkTailWrite who c v) s [.resp, .regs, .flash, .evq, .dev, .graft, .ports]
          fun u => RingStops u (fchRgn c) (Word.fld v 11 0) 5 ∧ rd u (fchRgn c) 0x100C = rd s (fchRgn c) 0x100C)
/-! ### Cipher, public-key and attestation engines -/

/-- KOP_GEN, KOP_LOAD_CLEAR, KOP_UNWRAP, KOP_IMPORT_GCM, KOP_WRAP, KOP_ZERO and KOP_RESTORE (R414, R415, R424, R426). Whether LOAD_CLEAR, IMPORT_GCM
and RESTORE set EXPORT is free (log entry 67). -/
def Obligations.KeysLoad : Prop :=
  (∀ (s : State) (who : Who) (v w : Word) (i : Instr) (op : Nat), (i, op) ∈ [(.kopGen who v, 1), (.kopLoadClear who v, 2), (.kopUnwrap who v, 3), (.kopImportGcm who v, 4),
      (.kopWrap who v, 5), (.kopZero who v, 6), (.kopRestore who v, 0xB)] → w = Word.setFld v 3 0 op →
    (KopFree s who w → Does i s [.resp, .sec] fun u => KopStarts s u w 0 ∧ u.resp.code = .ok)
    ∧ (Admits s who 0x0A 0x2000 w → s.sec.kop ≠ none → rd s 0x0A 0x28 = 0 → Does i s [.resp, .regs] fun u => rd u 0x0A 0x28 = 0x40000))
    ∧ ∀ (s : State) (w : Word),
    (KopRuns s 1 w →
      (kopTarget w = false → Serves .kopComplete s [.sec, .regs] fun u => KopFails s u 13)
      ∧ (kopTarget w = true → s.sec.drbgOk = false → Serves .kopComplete s [.sec, .regs] fun u => KopFails s u 8)
      ∧ (kopTarget w = true → s.sec.drbgOk = true → kopTtype w = 0 → Serves .kopComplete s [.sec, .regs, .freeCtr] fun u =>
        (∀ j, j ≠ kopSlot w → xtsSlot u j = xtsSlot s j) ∧ ((KopEnds u 6 ∧ xtsSlot u (kopSlot w) = xtsSlot s (kopSlot w))
          ∨ (KopEnds u 0 ∧ (xtsSlot u (kopSlot w)).cur.length = 64 ∧ (xtsSlot u (kopSlot w)).exportable = false ∧ (xtsSlot u (kopSlot w)).cnt = 0
              ∧ (xtsSlot u (kopSlot w)).gseq = !slotBound s (kopSlot w))))
      ∧ (kopTarget w = true → s.sec.drbgOk = true → kopTtype w = 1 → Serves .kopComplete s [.sec, .regs, .freeCtr] fun u =>
        KopEnds u 0 ∧ (gcmSlot u (kopSlot w)).key.length = 32 ∧ beNat (gcmSlot u (kopSlot w)).fixed / 2 ^ 24 = kopSlot w
          ∧ (gcmSlot u (kopSlot w)).mask = 0 ∧ (gcmSlot u (kopSlot w)).ctr = 0 ∧ (gcmSlot u (kopSlot w)).exportable = false)
      ∧ (kopTarget w = true → s.sec.drbgOk = true → kopTtype w = 2 → Serves .kopComplete s [.sec, .regs, .freeCtr] fun u =>
        KopEnds u 0 ∧ (kekSlot u (kopSlot w)).key.length = 32 ∧ (kekSlot u (kopSlot w)).exportable = false))
    ∧ (KopRuns s 2 w →
      (kopTarget w = false ∨ inSram (kopSrc s) (matBytes (kopTtype w)) = false → Serves .kopComplete s [.sec, .regs] fun u => KopFails s u 13)
      ∧ ∀ b, kopTarget w = true → inSram (kopSrc s) (matBytes (kopTtype w)) = true → busRead s secWho (kopSrc s) (matBytes (kopTtype w)) = (.ok, b, s) →
        (kopTtype w = 0 → halvesEqual b = false → Serves .kopComplete s [.sec, .regs, .freeCtr] fun u => KopXts s u w
          ∧ (xtsSlot u (kopSlot w)).cur = b ∧ (xtsSlot u (kopSlot w)).cnt = 0)
        ∧ (kopTtype w = 0 → halvesEqual b = true → Serves .kopComplete s [.sec, .regs, .freeCtr] fun u => KopFails s u 6)
        ∧ (kopTtype w = 1 → Serves .kopComplete s [.sec, .regs, .freeCtr] fun u => KopEnds u 0 ∧ (gcmSlot u (kopSlot w)).key = b.take 32
          ∧ (gcmSlot u (kopSlot w)).fixed = (b.drop 32).take 4 ∧ (gcmSlot u (kopSlot w)).ctr = 0)
        ∧ (kopTtype w = 2 → Serves .kopComplete s [.sec, .regs, .freeCtr] fun u => KopEnds u 0 ∧ (kekSlot u (kopSlot w)).key = b))
    ∧ (KopRuns s 3 w →
      (kopTarget w = false ∨ (kopTtype w = 2 ∧ kopKek w ≠ 0) → Serves .kopComplete s [.sec, .regs] fun u => KopFails s u 13)
      ∧ (kopTarget w = true → (kopTtype w = 2 → kopKek w = 0) →
        ((kekSlot s (kopKek w)).key = [] → Serves .kopComplete s [.sec, .regs] fun u => KopFails s u 2)
        ∧ ∀ b, (kekSlot s (kopKek w)).key ≠ [] → busRead s secWho (kopSrc s) (matBytes (kopTtype w) + 8) = (.ok, b, s) →
          (keyUnwrap (kekSlot s (kopKek w)).key b = none → Serves .kopComplete s [.sec, .regs] fun u => KopFails s u 4 ∧ Counted s u 0x0A 0x120)
          ∧ ∀ m, keyUnwrap (kekSlot s (kopKek w)).key b = some m →
            (kopTtype w = 0 → halvesEqual m = false → Serves .kopComplete s [.sec, .regs] fun u => KopXts s u w
              ∧ (xtsSlot u (kopSlot w)).cur = m ∧ (xtsSlot u (kopSlot w)).cnt = kopArg s / 2 % 2 ^ 40 ∧ (xtsSlot u (kopSlot w)).exportable = (kopArg s).testBit 0)
            ∧ (kopTtype w = 0 → halvesEqual m = true → Serves .kopComplete s [.sec, .regs] fun u => KopFails s u 6)
            ∧ (kopTtype w = 1 → Serves .kopComplete s [.sec, .regs] fun u => KopEnds u 0 ∧ (gcmSlot u (kopSlot w)).key = m.take 32
              ∧ (gcmSlot u (kopSlot w)).ctr = 0 ∧ (gcmSlot u (kopSlot w)).exportable = (kopArg s).testBit 0)
            ∧ (kopTtype w = 2 → Serves .kopComplete s [.sec, .regs] fun u => KopEnds u 0 ∧ (kekSlot u (kopSlot w)).key = m
              ∧ (kekSlot u (kopSlot w)).exportable = (kopArg s).testBit 0)))
    ∧ (KopRuns s 4 w →
      (kopTarget w = false → Serves .kopComplete s [.sec, .regs] fun u => KopFails s u 13)
      ∧ (kopTarget w = true → gcmTenant s (kopGslot w) ≠ targetTenant s w → Serves .kopComplete s [.sec, .regs] fun u => KopFails s u 7)
      ∧ (kopTarget w = true → gcmTenant s (kopGslot w) = targetTenant s w →
        (s.sec.drbgOk = false → Serves .kopComplete s [.sec, .regs] fun u => KopFails s u 8)
        ∧ (s.sec.drbgOk = true → (gcmSlot s (kopGslot w)).key = [] → Serves .kopComplete s [.sec, .regs] fun u => KopFails s u 2)
        ∧ ∀ h b, s.sec.drbgOk = true → (gcmSlot s (kopGslot w)).key ≠ [] → busRead s secWho (kopSrc s) 30 = (.ok, h, s) →
          busRead s secWho (kopSrc s + 30) (leNat ((h.drop 28).take 2) + matBytes (kopTtype w)) = (.ok, b, s) →
          (2 ^ 32 ≤ (gcmSlot s (kopGslot w)).cnt → Serves .kopComplete s [.sec, .regs] fun u => KopFails s u 3)
          ∧ ∀ r, r = gcmDec (gcmSlot s (kopGslot w)).key (h.take 12) (b.take (leNat ((h.drop 28).take 2))) (b.drop (leNat ((h.drop 28).take 2))) ((h.drop 12).take 16) →
            (gcmSlot s (kopGslot w)).cnt < 2 ^ 32 →
            (r = none → Serves .kopComplete s [.sec, .regs] fun u => KopEnds u 4 ∧ Counted s u 0x0A 0x120 ∧ u.sec.xts = s.sec.xts ∧ u.sec.kek = s.sec.kek)
            ∧ ∀ m, r = some m →
              (kopTtype w = 0 → halvesEqual m = false → Serves .kopComplete s [.sec, .regs, .freeCtr] fun u => KopXts s u w ∧ (xtsSlot u (kopSlot w)).cur = m
                ∧ Counted s u 0x0A 0x118)
              ∧ (kopTtype w = 1 → Serves .kopComplete s [.sec, .regs, .freeCtr] fun u => KopEnds u 0 ∧ (gcmSlot u (kopSlot w)).key = m.take 32
                ∧ (gcmSlot u (kopSlot w)).ctr = 0 ∧ (gcmSlot u (kopSlot w)).cnt = 0 ∧ Counted s u 0x0A 0x118)
              ∧ (kopTtype w = 2 → Serves .kopComplete s [.sec, .regs, .freeCtr] fun u => KopEnds u 0 ∧ (kekSlot u (kopSlot w)).key = m ∧ Counted s u 0x0A 0x118)))
    ∧ (KopRuns s 5 w → kopTarget w = false → ¬(kopTtype w = 2 ∧ kopSlot w = 0) → Serves .kopComplete s [.sec, .regs] fun u => KopFails s u 13)
    ∧ (KopRuns s 5 w → kopTarget w = true ∨ (kopTtype w = 2 ∧ kopSlot w = 0) →
      (slotMaterial s w = none → Serves .kopComplete s [.sec, .regs] fun u => KopFails s u 2)
      ∧ ∀ m e, slotMaterial s w = some (m, e) → (kekSlot s (kopKek w)).key ≠ [] →
        (kopKek w ≠ 0 → e = false → Serves .kopComplete s [.sec, .regs] fun u => KopFails s u 5)
        ∧ ∀ t, kopKek w = 0 ∨ e = true → busWrite s secWho (kopDst s) (keyWrap (kekSlot s (kopKek w)).key m) = (.ok, t) → KeepsBut [.mem, .dmc, .regs] s t →
          Serves .kopComplete s [.sec, .mem, .dmc, .regs] fun u => KopFails s u 0 ∧ u.mem = t.mem)
    ∧ (KopRuns s 6 w →
      (kopTarget w = false → Serves .kopComplete s [.sec, .regs] fun u => KopFails s u 13)
      ∧ (kopTarget w = true → kopTtype w = 0 → slotBound s (kopSlot w) = true ∨ (xtsSlot s (kopSlot w)).paused = true →
        Serves .kopComplete s [.sec, .regs] fun u => KopFails s u 11)
      ∧ (kopTarget w = true → kopTtype w = 0 → slotBound s (kopSlot w) = false → (xtsSlot s (kopSlot w)).paused = false →
        Serves .kopComplete s [.sec, .regs] fun u => KopXts s u w ∧ xtsSlot u (kopSlot w) = {})
      ∧ (kopTarget w = true → kopTtype w = 1 → Serves .kopComplete s [.sec, .regs] fun u => KopEnds u 0 ∧ gcmSlot u (kopSlot w) = {})
      ∧ (kopTarget w = true → kopTtype w = 2 → Serves .kopComplete s [.sec, .regs] fun u => KopEnds u 0 ∧ kekSlot u (kopSlot w) = {}))
    ∧ (KopRuns s 0xB w →
      (kopTtype w ≠ 0 → Serves .kopComplete s [.sec, .regs] fun u => KopFails s u 13)
      ∧ (kopTtype w = 0 → (kekSlot s 0).key = [] → Serves .kopComplete s [.sec, .regs] fun u => KopFails s u 2)
      ∧ (kopTtype w = 0 → (kekSlot s 0).key ≠ [] → ∀ b, busRead s secWho (kopSrc s) 161 = (.ok, b, s) →
        (keyUnwrap (kekSlot s 0).key (b.take 72) = none → Serves .kopComplete s [.sec, .regs] fun u => KopFails s u 4 ∧ Counted s u 0x0A 0x120)
        ∧ ∀ m p, keyUnwrap (kekSlot s 0).key (b.take 72) = some m → halvesEqual m = false →
          (if ((b.drop 72).take 72).all (· == 0) then some [] else keyUnwrap (kekSlot s 0).key ((b.drop 72).take 72)) = some p →
          Serves .kopComplete s [.sec, .regs, .freeCtr] fun u => KopXts s u w ∧ (xtsSlot u (kopSlot w)).cur = m ∧ (xtsSlot u (kopSlot w)).prev = p
            ∧ (xtsSlot u (kopSlot w)).cnt = leNat ((b.drop 144).take 8) % 2 ^ 40 ∧ (xtsSlot u (kopSlot w)).ref = leNat ((b.drop 152).take 8)
            ∧ ((xtsSlot u (kopSlot w)).gseq = true ↔ (b.getD 160 0).toNat = 1)))

/-- KOP_BIND_NS, KOP_REKEY, KOP_COMPLETE, KOP_RESUME, KOP_RELEASE and PREV_DRAINED (R418, R421, R422, R423, R426). -/
def Obligations.KeysTurnOver : Prop :=
  (∀ (s : State) (who : Who) (v w : Word),
    (∀ p ∈ ([(.kopBindNs who v, 7), (.kopResume who v, 9), (.kopRelease who v, 0xA)] : List (Instr × Nat)), w = Word.setFld v 3 0 p.2 → KopFree s who w →
      Does p.1 s [.resp, .sec] fun u => KopStarts s u w 0 ∧ u.resp.code = .ok)
    ∧ (w = Word.setFld v 3 0 8 → KopFree s who w →
      (kopTtype w ≠ 0 → Serves (.kopRekey who v) s [.resp, .sec] fun u => KopStarts s u w 13)
      ∧ (kopTtype w = 0 → (xtsSlot s (kopSlot w)).cur = [] → Serves (.kopRekey who v) s [.resp, .sec] fun u => KopStarts s u w 2)
      ∧ (kopTtype w = 0 → (xtsSlot s (kopSlot w)).cur ≠ [] →
        ((xtsSlot s (kopSlot w)).prev ≠ [] ∨ (xtsSlot s (kopSlot w)).paused = true ∨ flushHolds s = true ∨ ((xtsSlot s (kopSlot w)).gseq = false ∧ epochFar s (kopSlot w) = true) →
          Serves (.kopRekey who v) s [.resp, .sec] fun u => KopStarts s u w 11)
        ∧ ((xtsSlot s (kopSlot w)).prev = [] → (xtsSlot s (kopSlot w)).paused = false → flushHolds s = false →
          ((xtsSlot s (kopSlot w)).gseq = true → Serves (.kopRekey who v) s [.resp, .sec] fun u => KopStarts s u w 0)
          ∧ ((xtsSlot s (kopSlot w)).gseq = false → epochFar s (kopSlot w) = false → (∀ p ∈ s.cpc.rus, ¬(p.2.st = .opened ∧ p.2.tenant = xtsTenant s (kopSlot w))) →
            Serves (.kopRekey who v) s [.resp, .sec, .cpc] fun u => KopStarts s u w 0 ∧ xtsTenant s (kopSlot w) ∈ u.cpc.stopAlloc)))))
    ∧ (∀ (s : State) (w : Word),
      (KopRuns s 7 w →
        (kopTtype w ≠ 0 → Serves .kopComplete s [.sec, .regs] fun u => KopFails s u 13)
        ∧ (kopTtype w = 0 → nsOf s (kopArg s % 4096 + 1) = none → Serves .kopComplete s [.sec, .regs] fun u => KopFails s u 1)
        ∧ (kopTtype w = 0 → ∀ n, nsOf s (kopArg s % 4096 + 1) = some n →
          (xtsTenant s (kopSlot w) ≠ n.owner → Serves .kopComplete s [.sec, .regs] fun u => KopFails s u 1)
          ∧ (xtsTenant s (kopSlot w) = n.owner → nuse s n ≠ 0 → Serves .kopComplete s [.sec, .regs] fun u => KopFails s u 12)
          ∧ (xtsTenant s (kopSlot w) = n.owner → nuse s n = 0 → (kopArg s).testBit 12 = true → Serves .kopComplete s [.sec, .regs] fun u => KopXts s u w
            ∧ nsKey u (kopArg s % 4096 + 1) = some (kopSlot w) ∧ (xtsSlot u (kopSlot w)).gseq = false ∧ (xtsSlot u (kopSlot w)).ref = tenEpoch s n.owner
            ∧ (xtsSlot u (kopSlot w)).cur = (xtsSlot s (kopSlot w)).cur)
          ∧ (xtsTenant s (kopSlot w) = n.owner → nuse s n = 0 → (kopArg s).testBit 12 = false → Serves .kopComplete s [.sec, .regs] fun u =>
            KopEnds u 0 ∧ nsKey u (kopArg s % 4096 + 1) = none ∧ ∀ j, (xtsSlot u j).cur = (xtsSlot s j).cur)))
      ∧ (KopRuns s 9 w →
        (kopTtype w ≠ 0 → Serves .kopComplete s [.sec, .regs] fun u => KopFails s u 13)
        ∧ (kopTtype w = 0 → Serves .kopComplete s [.sec, .regs, .cpc] fun u => KopXts s u w
          ∧ (xtsSlot u (kopSlot w)).paused = false ∧ (xtsSlot u (kopSlot w)).cur = (xtsSlot s (kopSlot w)).cur
          ∧ (stillPaused s (xtsTenant s (kopSlot w)) (kopSlot w) = false → xtsTenant s (kopSlot w) ∉ u.cpc.stopAlloc)))
      ∧ (KopRuns s 0xA w →
        (kopTtype w ≠ 0 ∨ (xtsSlot s (kopSlot w)).gseq = true → Serves .kopComplete s [.sec, .regs] fun u => KopFails s u 13)
        ∧ (kopTtype w = 0 → (xtsSlot s (kopSlot w)).gseq = false →
          (prevInUse s (kopSlot w) = true → Serves .kopComplete s [.sec, .regs] fun u => KopFails s u 11)
          ∧ (prevInUse s (kopSlot w) = false → Serves .kopComplete s [.sec, .regs] fun u => KopXts s u w
            ∧ xtsSlot u (kopSlot w) = { xtsSlot s (kopSlot w) with prev := [] })))
      ∧ (KopRuns s 8 w →
        (secBusy s (kopSlot w) = true → Serves .kopComplete s [] fun _ => True)
        ∧ (secBusy s (kopSlot w) = false → kopSrc s = 0 →
          (s.sec.drbgOk = false → Serves .kopComplete s [.sec, .regs, .cpc] fun u => KopFails s u 8)
          ∧ (s.sec.drbgOk = true → Serves .kopComplete s [.sec, .regs, .cpc, .freeCtr] fun u =>
            (KopEnds u 6 ∧ u.sec.xts = s.sec.xts) ∨ (KopEnds u 0 ∧ ∃ m, m.length = 64 ∧ KeySwaps s u (kopSlot w) m)))
        ∧ (secBusy s (kopSlot w) = false → kopSrc s ≠ 0 →
          ((kekSlot s (kopKek w)).key = [] → Serves .kopComplete s [.sec, .regs, .cpc] fun u => KopFails s u 2)
          ∧ ∀ b m, (kekSlot s (kopKek w)).key ≠ [] → busRead s secWho (kopSrc s) 72 = (.ok, b, s) → keyUnwrap (kekSlot s (kopKek w)).key b = some m →
            (halvesEqual m = true → Serves .kopComplete s [.sec, .regs, .cpc] fun u => KopFails s u 6)
            ∧ (halvesEqual m = false → Serves .kopComplete s [.sec, .regs] fun u => KopEnds u 0 ∧ KeySwaps s u (kopSlot w) m))))
    ∧ (∀ (s : State) (k : Kop), s.sec.kop = some k → k.status ≠ 0 ∨ (k.op = 0 ∨ 0xB < k.op) → Serves .kopComplete s [.sec, .regs] fun u =>
        KopFails s u (if k.status = 0 then 13 else k.status) ∧ RegsOnly [(0x0A, 0x201C), (0x0A, 0x18)] s u)
    ∧ ∀ (s : State) (slot : Fin 4096), (xtsSlot s slot).gseq = true → (xtsSlot s slot).prev ≠ [] →
      (∀ g ∈ prevCopies s, sliceKey s (granSlice g) ≠ some slot.val) → Does (.prevDrained slot) s [.sec, .regs] fun u =>
        xtsSlot u slot = { xtsSlot s slot with prev := [] } ∧ Word.bit (rd u 0x0A 0x18) 6 = true ∧ RegsOnly [(0x0A, 0x18)] s u

/-- SEC_DATA_REQUEST, SEC_REQUEST_DONE, GCM_ENC, GCM_DEC, XTS_ENC and XTS_DEC (R137, R415, R416, R417, R419, R424, R425, R427). -/
def Obligations.CipherRequests : Prop :=
  (∀ (s : State) (tenant : Nat) (enc : Bool) (slot : Fin 4096) (cls : Fin 4) (tweak : Nat) (data : List Byte),
    (xtsStatus s tenant slot = 0 → (∃ i, i < 6 ∧ resOut s 4 0x0A (if enc then i else 6 + i) = false ∧ (Tbl.getD s.sec.queues (if enc then i else 6 + i) []).length < 64) →
      (enc = true → (xtsSlot s slot).cnt + data.length / 4096 ≤ 2 ^ 36) →
      Does (.secDataRequest tenant enc slot cls tweak data) s [.resp, .sec, .regs, .evq, .freeCtr] fun u => u.resp.code = .ok ∧ u.resp.data = 0
        ∧ (∃ q, (if enc then q < 6 else 6 ≤ q ∧ q < 12) ∧ Tbl.getD u.sec.queues q [] = Tbl.getD s.sec.queues q [] ++
            [{ id := s.sec.nextReq, enc := enc, slot := slot, cls := cls, tweak := tweak, data := data, key := (xtsSlot s slot).cur }]
          ∧ ∀ k, k ≠ q → Tbl.getD u.sec.queues k [] = Tbl.getD s.sec.queues k [])
        ∧ (xtsSlot u slot).cnt = (xtsSlot s slot).cnt + (if enc then data.length / 4096 else 0) ∧ (xtsSlot u slot).cur = (xtsSlot s slot).cur)
    ∧ (xtsStatus s tenant slot = 0 → (∀ i, i < 6 → resOut s 4 0x0A (if enc then i else 6 + i) = true ∨ 64 ≤ (Tbl.getD s.sec.queues (if enc then i else 6 + i) []).length) →
      (enc = true → (xtsSlot s slot).cnt + data.length / 4096 ≤ 2 ^ 36) →
      Does (.secDataRequest tenant enc slot cls tweak data) s [.resp, .sec, .regs, .evq] fun u => u.resp.code = .ok ∧ u.resp.data = 0
        ∧ u.sec.waits = s.sec.waits ++ [{ id := s.sec.nextReq, enc := enc, slot := slot, cls := cls, tweak := tweak, data := data, key := (xtsSlot s slot).cur }]
        ∧ u.sec.queues = s.sec.queues)
    ∧ (xtsStatus s tenant slot = 0 → enc = true → 2 ^ 36 < (xtsSlot s slot).cnt + data.length / 4096 →
      Does (.secDataRequest tenant enc slot cls tweak data) s [.resp, .sec, .regs] fun u => u.resp.code = .ok ∧ u.resp.data = 0
        ∧ u.sec.waits = s.sec.waits ++ [{ id := s.sec.nextReq, enc := enc, slot := slot, cls := cls, tweak := tweak, data := data, key := [] }]
        ∧ (xtsSlot u slot).cnt = (xtsSlot s slot).cnt ∧ (xtsSlot u slot).limit = true)
    ∧ (keyAccess s tenant (xtsTenant s slot) = false → Does (.secDataRequest tenant enc slot cls tweak data) s [.resp, .regs] fun u =>
        u.resp.code = .ok ∧ u.resp.data = 1 ∧ Counted s u 0x0A 0x11C)
    ∧ (keyAccess s tenant (xtsTenant s slot) = true → (xtsSlot s slot).cur = [] → Does (.secDataRequest tenant enc slot cls tweak data) s [.resp] fun u =>
        u.resp.code = .ok ∧ u.resp.data = 2))
    ∧ (∀ (s : State) (q : Fin 12) (r : SecReq) (l : List SecReq), secNext (Tbl.getD s.sec.queues q []) = some (r, l) → s.sec.waits = [] →
      Does (.secRequestDone q) s [.resp, .sec, .regs] fun u => u.resp.code = .ok ∧ u.resp.bytes = xtsUnits r.enc r.key r.tweak r.data (r.data.length / 4096)
        ∧ Tbl.getD u.sec.queues q [] = l ∧ ∀ k, k ≠ q.val → Tbl.getD u.sec.queues k [] = Tbl.getD s.sec.queues k [])
    ∧ ∀ (s s1 t : State) (d b aad : List Byte) (r : Ring), RingFull s 0x0A → s1 = { s with sec := { s.sec with ring := r } } →
      (ringTake s.sec.ring 1 = some (d, r) → gcmStatus s (seSlot d) = 0 → busRead s1 secWho (seAad d) (seAadLen d) = (.ok, aad, s1) →
        busRead s1 secWho (seSrc d) (seLen d) = (.ok, b, s1) → ∀ s2, s2 = (gcmIv ((gcmUse s1 (seSlot d)).getD s1) (seSlot d)).2 →
        busWrite s2 secWho (seDst d) ((gcmEnc (gcmSlot s (seSlot d)).key (gcmIv s (seSlot d)).1 aad b).1 ++ (gcmEnc (gcmSlot s (seSlot d)).key (gcmIv s (seSlot d)).1 aad b).2) = (.ok, t) →
        KeepsBut [.mem, .dmc, .regs] s2 t → RegsOnly [(0x1B, 0x12C), (0x1B, 0x130)] s2 t →
        Does .gcmEnc s [.sec, .mem, .dmc, .regs] fun u => u.mem = t.mem ∧ (gcmSlot u (seSlot d)).ctr = ((gcmSlot s (seSlot d)).ctr + 1) % 2 ^ 64
          ∧ (gcmSlot u (seSlot d)).cnt = (gcmSlot s (seSlot d)).cnt + 1
          ∧ u.sec.ring.done = r.done ++ [leBytes 2 (entTag d) ++ leBytes 2 0 ++ (gcmIv s (seSlot d)).1 ++ List.replicate (28 - (gcmIv s (seSlot d)).1.length) 0])
      ∧ (ringTake s.sec.ring 2 = some (d, r) → gcmStatus s (seSlot d) = 0 → busRead s1 secWho (seAad d) (seAadLen d) = (.ok, aad, s1) →
        busRead s1 secWho (seSrc d) (seLen d + 16) = (.ok, b, s1) →
        (gcmDec (gcmSlot s (seSlot d)).key (seIv d) aad (b.take (seLen d)) (b.drop (seLen d)) = none → Does .gcmDec s [.sec, .regs] fun u =>
          Counted s u 0x0A 0x120 ∧ (gcmSlot u (seSlot d)).cnt = (gcmSlot s (seSlot d)).cnt + 1
            ∧ u.sec.ring.done = r.done ++ [leBytes 2 (entTag d) ++ leBytes 2 4 ++ List.replicate 28 0])
        ∧ ∀ pt s2, gcmDec (gcmSlot s (seSlot d)).key (seIv d) aad (b.take (seLen d)) (b.drop (seLen d)) = some pt → s2 = (gcmUse s1 (seSlot d)).getD s1 →
          busWrite s2 secWho (seDst d) pt = (.ok, t) → KeepsBut [.mem, .dmc, .regs] s2 t → RegsOnly [(0x1B, 0x12C), (0x1B, 0x130)] s2 t →
          Does .gcmDec s [.sec, .mem, .dmc, .regs] fun u => u.mem = t.mem ∧ u.sec.ring.done = r.done ++ [leBytes 2 (entTag d) ++ leBytes 2 0 ++ List.replicate 28 0])
      ∧ (∀ enc : Bool, ringTake s.sec.ring (if enc then 3 else 4) = some (d, r) → xtsStatus s 0 (seSlot d) = 0 →
        (enc = true → (xtsSlot s (seSlot d)).cnt + seLen d / 4096 ≤ 2 ^ 36) → ∀ s2, s2 = (if enc then (countUnits s1 (seSlot d) (seLen d / 4096)).2 else bump s1 0x0A 0x114 (seLen d / 4096)) →
        busRead s2 secWho (seSrc d) (seLen d) = (.ok, b, s2) → busWrite s2 secWho (seDst d) (xtsUnits enc (xtsSlot s (seSlot d)).cur (seDun d) b (seLen d / 4096)) = (.ok, t) →
        KeepsBut [.mem, .dmc, .regs] s2 t → RegsOnly [(0x1B, 0x12C), (0x1B, 0x130)] s2 t →
        Does (if enc then .xtsEnc else .xtsDec) s [.sec, .mem, .dmc, .regs, .evq] fun u => u.mem = t.mem
          ∧ (xtsSlot u (seSlot d)).cnt = (xtsSlot s (seSlot d)).cnt + (if enc then seLen d / 4096 else 0)
          ∧ u.sec.ring.done = r.done ++ [leBytes 2 (entTag d) ++ leBytes 2 0 ++ List.replicate 28 0])
      ∧ (ringTake s.sec.ring 3 = some (d, r) → xtsStatus s 0 (seSlot d) = 0 → 2 ^ 36 < (xtsSlot s (seSlot d)).cnt + seLen d / 4096 →
        Does .xtsEnc s [.sec, .regs] fun u => u.sec.ring = { r with fetched := (0, d) :: r.fetched } ∧ (xtsSlot u (seSlot d)).cnt = (xtsSlot s (seSlot d)).cnt)
      ∧ ∀ p ∈ ([(1, .gcmEnc, gcmStatus s (seSlot d)), (2, .gcmDec, gcmStatus s (seSlot d)), (3, .xtsEnc, xtsStatus s 0 (seSlot d)), (4, .xtsDec, xtsStatus s 0 (seSlot d))] :
          List (Nat × Instr × Nat)), ringTake s.sec.ring p.1 = some (d, r) → p.2.2 ≠ 0 →
        Does p.2.1 s [.sec, .regs] fun u => u.sec = { s.sec with ring := { r with done := r.done ++ [leBytes 2 (entTag d) ++ leBytes 2 p.2.2 ++ List.replicate 28 0] } }
          ∧ (p.2.2 = 1 → Counted s u 0x0A 0x11C)

/-- ENTROPY_HEALTH_FAIL, ENTROPY_STARTUP_DONE, MASK_RESEED, DRBG_RESEED, SEC_RNG_RESEED_WRITE, SEC_RNG_DATA_READ, PKE_SIGN, PKE_VERIFY, PKE_ECDH,
PKE_KEYGEN, PKE_PUBGEN, PKE_VALIDATE, PKE_OP_DONE and PKE_KEY_ZERO_WRITE (R429 to R434, R441). -/
def Obligations.RandomAndPublicKeys : Prop :=
  (∀ (s : State) (who : Who) (v : Word),
    (∀ apt, Does (.entropyHealthFail apt) s [.sec, .regs, .evq, .cpc] fun u => u.sec = { s.sec with drbgOk := false, kop := u.sec.kop, pkeOp := u.sec.pkeOp }
        ∧ (∀ k, s.sec.kop = some k → u.sec.kop = some (if k.status = 0 ∧ (k.op = 1 ∨ (k.op = 8 ∧ k.src = 0)) then { k with status := 8 } else k))
        ∧ (∀ p, s.sec.pkeOp = some p → u.sec.pkeOp = some (if p.op = 4 ∧ p.status = 0 then { p with status := 8 } else p))
        ∧ (s.sec.kop = none → u.sec.kop = none) ∧ (s.sec.pkeOp = none → u.sec.pkeOp = none) ∧ (∃ e ∈ u.evq, e.code = 0xB002) ∧ Word.bit (rd u 0x0A 0x2064) (if apt then 2 else 1) = true
        ∧ Word.bit (rd u 0x0A 0x2064) 0 = false ∧ Word.bit (rd u 0x0A 0x18) 5 = true ∧ RegsOnly [(0x0A, 0x2064), (0x0A, 0x18)] s u)
    ∧ (Word.bit (rd s 0x0A 0x2064) 3 = true → Does .entropyStartupDone s [.sec, .regs] fun u => u.sec = { s.sec with drbgOk := true } ∧ rd u 0x0A 0x2064 = 1
        ∧ RegsOnly [(0x0A, 0x2064)] s u)
    ∧ (Word.bit (rd s 0x0A 0x2064) 3 = false → Does .entropyStartupDone s [] fun _ => True)
    ∧ (s.sec.drbgOk = false → Does .maskReseed s [] fun _ => True) ∧ (s.sec.drbgOk = false ∨ s.sec.gens < 2 ^ 20 → Does .drbgReseed s [] fun _ => True)
    ∧ (Admits s who 0x0A 0x2068 v → Word.bit v 0 = false ∨ s.sec.drbgOk = false → Does (.secRngReseedWrite who v) s [.resp] fun u => u.resp.code = .ok)
    ∧ (s.sec.drbgOk = true → Does .maskReseed s [.sec, .freeCtr] fun u => u.sec.gens = s.sec.gens + 1 ∧ u.sec.drbgOk = true)
    ∧ (s.sec.drbgOk = true → 2 ^ 20 ≤ s.sec.gens → Does .drbgReseed s [.sec] fun u => u.sec = { s.sec with gens := 0, reseeds := s.sec.reseeds + 1 })
    ∧ (Admits s who 0x0A 0x2068 v → Word.bit v 0 = true → s.sec.drbgOk = true → Does (.secRngReseedWrite who v) s [.resp, .sec] fun u =>
        u.sec = { s.sec with gens := 0, reseeds := s.sec.reseeds + 1 })
    ∧ ((regAdmit s 0x0A 0x2060 (rdAcc who 0x0A 0x2060)).isNone = true →
      (s.sec.drbgOk = true → Does (.secRngDataRead who) s [.resp, .sec, .freeCtr] fun u => u.resp.code = .ok ∧ u.resp.data < 2 ^ 32 ∧ u.sec.gens = s.sec.gens + 1)
      ∧ (s.sec.drbgOk = false → Does (.secRngDataRead who) s [.resp] fun u => u.resp.code = .ok ∧ u.resp.data = 0)))
    ∧ (∀ (s : State) (who : Who) (v w : Word) (op : Nat), w = Word.setFld v 3 0 op → PkeFree s who w →
      (op = 1 → ∀ d, pkeScalar s w = .ok d →
        (pkeD (pkeCurve w) d ≠ 0 → Does (.pkeSign who v) s [.resp, .sec, .regs] fun u => PkeRuns s u 1 w (pkeD (pkeCurve w) d))
        ∧ (pkeD (pkeCurve w) d = 0 → s.sec.drbgOk = false → Does (.pkeSign who v) s [.resp, .sec, .regs] fun u => PkeRuns s u 1 w 8)
        ∧ (pkeD (pkeCurve w) d = 0 → s.sec.drbgOk = true → Does (.pkeSign who v) s [.resp, .sec, .regs, .freeCtr] fun u => PkeRuns s u 1 w 0))
      ∧ (op = 2 → Does (.pkeVerify who v) s [.resp, .sec, .regs] fun u => PkeRuns s u 2 w
        (if pkePoint (pkeCurve w) (pkeNum s 0x1080) (pkeNum s 0x10C0) ≠ 0 then pkePoint (pkeCurve w) (pkeNum s 0x1080) (pkeNum s 0x10C0)
         else if pkeNum s 0x1100 = 0 ∨ (pkeCurve w).n ≤ pkeNum s 0x1100 then 19 else if pkeNum s 0x1140 = 0 ∨ (pkeCurve w).n ≤ pkeNum s 0x1140 then 20
         else pkeVerifySig (pkeCurve w) (pkeE s w) (pkeNum s 0x1100) (pkeNum s 0x1140) (pkeNum s 0x1080) (pkeNum s 0x10C0)))
      ∧ (op = 3 → ∀ d, pkeScalar s w = .ok d → ∀ st, st = (if pkePoint (pkeCurve w) (pkeNum s 0x1080) (pkeNum s 0x10C0) ≠ 0 then pkePoint (pkeCurve w) (pkeNum s 0x1080) (pkeNum s 0x10C0)
          else if pkeD (pkeCurve w) d ≠ 0 then pkeD (pkeCurve w) d
          else if (pkeCurve w).mul d (some (pkeNum s 0x1080, pkeNum s 0x10C0)) (pkeCurve w).bits = none then 23 else 0) →
        Does (.pkeEcdh who v) s [.resp, .sec, .regs] fun u => PkeRuns s u 3 w st ∧ (st = 0 → ∃ p y, u.sec.pkeOp = some p
          ∧ (pkeCurve w).mul d (some (pkeNum s 0x1080, pkeNum s 0x10C0)) (pkeCurve w).bits = some (p.x, y)))
      ∧ (op = 4 → (pkeKslot w < 2 → Does (.pkeKeygen who v) s [.resp, .sec, .regs] fun u => PkeRuns s u 4 w 13)
        ∧ (2 ≤ pkeKslot w → s.sec.drbgOk = false → Does (.pkeKeygen who v) s [.resp, .sec, .regs] fun u => PkeRuns s u 4 w 8)
        ∧ (2 ≤ pkeKslot w → s.sec.drbgOk = true → Does (.pkeKeygen who v) s [.resp, .sec, .regs, .freeCtr] fun u => PkeRuns s u 4 w 0
          ∧ ∃ p, u.sec.pkeOp = some p ∧ p.slot = pkeKslot w ∧ 0 < p.d ∧ p.d < (pkeCurve w).n))
      ∧ (op = 5 → ∀ d, pkeScalar s w = .ok d → Does (.pkePubgen who v) s [.resp, .sec, .regs] fun u => PkeRuns s u 5 w (pkeD (pkeCurve w) d)
        ∧ (pkeD (pkeCurve w) d = 0 → ∀ x y, (pkeCurve w).base d = some (x, y) → ∃ p, u.sec.pkeOp = some p ∧ p.x = x ∧ p.y = y))
      ∧ (op = 6 → Does (.pkeValidate who v) s [.resp, .sec, .regs] fun u => PkeRuns s u 6 w (pkePoint (pkeCurve w) (pkeNum s 0x1080) (pkeNum s 0x10C0)))
      ∧ (op ∈ [1, 3, 5] → ∀ k, pkeScalar s w = .error k →
        Does (if op = 1 then .pkeSign who v else if op = 3 then .pkeEcdh who v else .pkePubgen who v) s [.resp, .sec, .regs] fun u => PkeRuns s u op w k))
    ∧ (∀ (s : State) (who : Who) (v : Word), ∀ p ∈ ([(.pkeSign who v, 1), (.pkeVerify who v, 2), (.pkeEcdh who v, 3), (.pkeKeygen who v, 4), (.pkePubgen who v, 5),
        (.pkeValidate who v, 6)] : List (Instr × Nat)), Admits s who 0x0B 0x100 (Word.setFld v 3 0 p.2) → s.sec.pkeOp ≠ none → blkRetired s 0x0B = false → rd s 0x0B 0x28 = 0 →
        Does p.1 s [.resp, .regs] fun u => rd u 0x0B 0x28 = 0x10000)
    ∧ (∀ (s : State) (p : PkeOp), s.sec.pkeOp = some p → Does .pkeOpDone s [.sec, .regs] fun u => u.sec.pkeOp = none ∧ rd u 0x0B 0x104 = w32 (p.status * 256)
        ∧ pkeNum u 0x1000 = 0 ∧ Counted s u 0x0B 0x110 ∧ Word.bit (rd u 0x0B 0x18) 1 = true
        ∧ (p.op = 4 → p.status = 0 → Tbl.find u.sec.pke p.slot = some (p.curve, p.d)) ∧ (p.op ≠ 4 ∨ p.status ≠ 0 → u.sec.pke = s.sec.pke)
        ∧ (p.op = 1 → p.status = 0 → p.x < 2 ^ 384 → p.y < 2 ^ 384 → pkeNum u 0x1100 = p.x ∧ pkeNum u 0x1140 = p.y)
        ∧ (p.op ∈ [3, 4, 5] → p.status = 0 → p.x < 2 ^ 384 → p.y < 2 ^ 384 → pkeNum u 0x1180 = p.x ∧ (p.op ≠ 3 → pkeNum u 0x11C0 = p.y)))
    ∧ ∀ (s : State) (who : Who) (v : Word), Admits s who 0x0B 0x10C v → Does (.pkeKeyZeroWrite who v) s [.resp, .sec] fun u =>
      ∀ k, k < 8 → Tbl.find u.sec.pke k = if 2 ≤ k ∧ Word.bit v k = true then none else Tbl.find s.sec.pke k
/-! ### The Heartwood window -/

/-- MEMRD, MEMINV, MEMRDDATA, MEMWR, MEMWRPTL, MEMCLNEVCT and MEMSPECRD (R307, R310, R311, R312, R318, R319, R324, R326, R327). That a MemClnEvct waits its turn
and what goes with poison are the model's readings (log entries 91 and 92). -/
def Obligations.WindowRequests : Prop :=
  (∀ (s : State) (p : Fin 8) (hpa tag line : Nat) (l : List Nat), WinQuiet s p hpa line → l = sfOthers s line p →
    (l = [] → SfPlace s line (portTenant s p) → (∀ d, WinBytes s line d → Does (.memrd p hpa .a tag) s [.win] fun u =>
        WinServed s u line [⟨p, tag, line, .data (winPoisoned s line) d true⟩] ∧ ∃ e, sfOf u line = some e ∧ e.a = true ∧ e.holders = [p.val])
      ∧ Does (.meminv p hpa tag) s [.win] fun u =>
        WinServed s u line [⟨p, tag, line, .cmpE⟩] ∧ ∃ e, sfOf u line = some e ∧ e.a = true ∧ e.holders = [p.val])
    ∧ (l = [] ∨ sfA s line = false → SfPlace s line (portTenant s p) → ∀ i ∈ ([.memrd p hpa .s tag, .memrddata p hpa tag] : List Instr), ∀ d, WinBytes s line d →
        Does i s [.win] fun u => WinServed s u line [⟨p, tag, line, .data (winPoisoned s line) d false⟩]
          ∧ ∃ e, sfOf u line = some e ∧ e.a = false ∧ e.holders = p.val :: l)
    ∧ (l = [] ∨ sfA s line = false → ∀ d, WinBytes s line d → Does (.memrd p hpa .i tag) s [.win] fun u =>
        WinServed s u line [⟨p, tag, line, .data (winPoisoned s line) d false⟩] ∧ u.win.sf = s.win.sf)
    ∧ (l ≠ [] → bisnpOut s + countOf (· < 8) l ≤ 1024 →
      (∀ m b w po, ∀ i ∈ ([.memrd p hpa .a tag, .meminv p hpa tag, .memwr p hpa m tag b po, .memwrptl p hpa m tag b w po] : List Instr),
        Does i s [.win] fun u => WinWaits s u line p (s.win.pends ++ [{ line := line, snoop := .inv, left := l }]))
      ∧ (sfA s line = true → ∀ i ∈ ([.memrd p hpa .s tag, .memrddata p hpa tag] : List Instr), Does i s [.win] fun u =>
        WinWaits s u line p (s.win.pends ++ [{ line := line, snoop := .data, left := l }]))
      ∧ (sfA s line = true → Does (.memrd p hpa .i tag) s [.win] fun u =>
        WinWaits s u line p (s.win.pends ++ [{ line := line, snoop := .cur, left := l }])))
    ∧ (l ≠ [] → 1024 < bisnpOut s + countOf (· < 8) l → ∀ m b w po, ∀ i ∈ ([.memrd p hpa .a tag, .meminv p hpa tag, .memwr p hpa m tag b po, .memwrptl p hpa m tag b w po] : List Instr),
        Does i s [.win] fun u => WinWaits s u line p s.win.pends)
    ∧ (sfOf s line = none → s.win.pends = [] → Tbl.sorted s.win.sf = true → (∀ e ∈ s.win.sf, e.2.holders.length ≤ 24) → sfMax s (portTenant s p) ≤ sfUsed s (portTenant s p) →
      sfUsed s (portTenant s p) ≠ 0 → ∀ i ∈ ([.memrd p hpa .a tag, .meminv p hpa tag, .memrd p hpa .s tag, .memrddata p hpa tag] : List Instr), Does i s [.win, .freeCtr] fun u =>
        ∃ v e, sfOf s v = some e ∧ e.tenant = portTenant s p ∧ WinWaits s u line p [{ line := v, snoop := .inv, left := e.holders, victim := true }])
    ∧ (l = [] → WinAdmitted s line → ∀ (m : Meta) (po q : Bool) (b d st : List Byte) (w : Nat) (i : Instr) (t : State),
        ((i = .memwr p hpa m tag b po ∧ st = (b ++ List.replicate 64 0).take 64 ∧ q = po)
          ∨ (i = .memwrptl p hpa m tag b w po ∧ WinBytes s line d ∧ st = mergeBytes d b w ∧ q = (po || winPoisoned s line))) →
        WinStores s line st t → Does i s [.win, .mem, .dmc, .regs] fun u =>
          u.mem = t.mem ∧ u.win.out = [⟨p, tag, line, .cmp⟩] ∧ WinWrote s u line q ∧ (∀ k, k ≠ line → sfOf u k = sfOf s k)
          ∧ (sfA s line = true → (sfOf s line).map (·.holders) = some [p.val] →
            (m = .i → sfOf u line = none) ∧ (m ≠ .i → ∃ e, sfOf u line = some e ∧ e.a = (m == .a) ∧ e.holders = [p.val]))
          ∧ (sfA s line = false → sfOf u line = none))
    ∧ (l = [] → ¬ WinAdmitted s line → ∀ m b w po, ∀ i ∈ ([.memwr p hpa m tag b po, .memwrptl p hpa m tag b w po] : List Instr), Does i s [.win, .regs] fun u =>
        u.win.out = [] ∧ u.win.sf = s.win.sf ∧ u.win.grans = s.win.grans ∧ u.win.poison = s.win.poison ∧ (∃ r, u.win.queue = [r] ∧ r.line = line ∧ r.held = true)
        ∧ Counted s u 0x18 0x150 ∧ Word.bit (rd u 0x18 0x18) 1 = true ∧ RegsOnly [(0x18, 0x150), (0x18, 0x18)] s u)
    ∧ Does (.memclnevct p hpa tag) s [.win] fun u => WinServed s u line [⟨p, tag, line, .cmp⟩]
        ∧ (l = [] → sfOf u line = none) ∧ (l ≠ [] → ∃ e, sfOf u line = some e ∧ e.holders = l ∧ e.a = sfA s line))
    ∧ ∀ (s : State) (p : Fin 8) (hpa tag : Nat), (cxlUp s p = true → Does (.memspecrd p hpa tag) s [.win] fun u => u.win = { s.win with out := [] })
      ∧ (cxlUp s p = false ∨ cxlCredit s p = false → ∀ k m b w po, ∀ i ∈ ([.memrd p hpa k tag, .memrddata p hpa tag, .meminv p hpa tag, .memwr p hpa m tag b po,
          .memwrptl p hpa m tag b w po, .memclnevct p hpa tag] : List Instr), Does i s [] fun _ => True)
      ∧ (WinLinked s p → hpaLine s p hpa = none → rd s 0x18 0x28 = 0 → (∀ i ∈ ([.memrd p hpa .a tag, .memrd p hpa .s tag, .memrd p hpa .i tag, .memrddata p hpa tag] : List Instr), Does i s [.win, .regs] fun u =>
          u.win = { s.win with out := [⟨p, tag, hpa / 64, .data true (List.replicate 64 0xFF) false⟩], lit := true } ∧ rd u 0x18 0x144 = w32 (p + 16) ∧ Word.bit (rd u 0x18 0x28) 17 = true)
        ∧ ∀ m b w po, ∀ i ∈ ([.meminv p hpa tag, .memwr p hpa m tag b po, .memwrptl p hpa m tag b w po, .memclnevct p hpa tag] : List Instr), Does i s [.win, .regs] fun u =>
          u.win = { s.win with out := [⟨p, tag, hpa / 64, .cmp⟩], lit := true } ∧ rd u 0x18 0x144 = w32 (p + 16) ∧ Word.bit (rd u 0x18 0x28) 17 = true)

/-- BIRSP, BICONFLICT, BISNP_TIMEOUT, HELD_WRITE_ADMIT, GROVE_RECALL and GPF_PHASE2, with MEMWR and MEMCLNEVCT under a pending transaction (R319, R328 to R332, R335,
R398). -/
def Obligations.WindowSnoops : Prop :=
  (∀ (s : State) (p : Fin 8) (line : Nat) (m : Meta), cxlUp s p = true →
    ((∀ x, pendOf s line = some x → p.val ∉ x.left) → rd s 0x18 0x28 = 0 → Does (.birsp p line m) s [.win, .regs] fun u =>
      u.win = { s.win with out := [] } ∧ rd u 0x18 0x144 = w32 (p + 32) ∧ Word.bit (rd u 0x18 0x28) 17 = true)
    ∧ (∀ x, pendOf s line = some x → p.val ∈ x.left → x.left.filter (· ≠ p.val) ≠ [] →
      (m = .i → Does (.birsp p line m) s [.win] fun u => u.win.out = [] ∧ u.win.queue = s.win.queue ∧ p.val ∉ (((sfOf u line).map (·.holders)).getD [])
        ∧ pendOf u line = some { x with left := x.left.filter (· ≠ p.val), answered := p.val :: x.answered } ∧ ∀ k, k ≠ line → sfOf u k = sfOf s k ∧ pendOf u k = pendOf s k)
      ∧ (m ≠ .i → x.snoop ≠ .inv → ∀ e, sfOf s line = some e → e.holders ≠ [] → Does (.birsp p line m) s [.win] fun u => u.win.out = [] ∧ u.win.queue = s.win.queue
        ∧ (∃ f, sfOf u line = some f ∧ f.holders = e.holders ∧ f.a = (e.a && x.snoop == .cur && m == .a))
        ∧ pendOf u line = some { x with left := x.left.filter (· ≠ p.val), answered := p.val :: x.answered })
      ∧ (m ≠ .i → x.snoop = .inv → rd s 0x18 0x28 = 0 → Does (.birsp p line m) s [.win, .regs] fun u => rd u 0x18 0x144 = w32 (p + 48) ∧ Word.bit (rd u 0x18 0x28) 17 = true
        ∧ p.val ∉ (((sfOf u line).map (·.holders)).getD []) ∧ pendOf u line = some { x with left := x.left.filter (· ≠ p.val), answered := p.val :: x.answered })
      ∧ Does (.bisnpTimeout p line) s [.win, .regs, .evq] fun u => Counted s u 0x18 0x158 ∧ Word.bit (rd u 0x18 0x18) 6 = true ∧ u.evq.length = s.evq.length + 1
        ∧ u.win.tmos = s.win.tmos + 1 ∧ p.val ∉ (((sfOf u line).map (·.holders)).getD []) ∧ (line, p.val) ∈ u.win.saidI
        ∧ pendOf u line = some { x with left := x.left.filter (· ≠ p.val), answered := p.val :: x.answered })
    ∧ (∀ x r e d, s.win.pends = [x] → s.win.queue = [r] → x.line = line → x.left = [p.val] → x.snoop = .inv → x.victim = false → r.line = line → r.kind = .rd → r.meta_ = .a → r.holder < 8 →
      r.holder ≠ p.val → r.held = false → r.cross = false → r.noHolder = false → r.data = [] → (Tbl.getD s.ports r.holder {}).dlActive = true → sfOf s line = some e → e.holders = [p.val] → s.win.state ≠ 0 → s.win.sf.length < 16 → sfUsed s r.tenant < sfMax s r.tenant →
      WinBytes s line d → Does (.birsp p line .i) s [.win] fun u => u.win.out = [⟨r.holder, r.tag, line, .data (winPoisoned s line) d true⟩] ∧ u.win.pends = [] ∧ u.win.queue = []
        ∧ (∃ f, sfOf u line = some f ∧ f.a = true ∧ f.holders = [r.holder]) ∧ ∀ k, k ≠ line → sfOf u k = sfOf s k)
    ∧ ((Tbl.getD s.ports p {}).dlActive = true → Does (.biconflict p line) s [.win, .regs] fun u => u.win = { s.win with out := [⟨p, 0, line, .conflictAck⟩], lit := true } ∧ Counted s u 0x18 0x15C ∧ RegsOnly [(0x18, 0x15C)] s u))
    ∧ (∀ (s : State) (p : Fin 8) (hpa tag line : Nat) (m : Meta) (po : Bool) (b : List Byte), WinLinked s p → hpaLine s p hpa = some line →
      (∀ (x : Pend) (i : Instr) (q : Bool) (d st : List Byte) (w : Nat), pendOf s line = some x → p.val ∈ x.left →
        ((i = .memwr p hpa m tag b po ∧ st = (b ++ List.replicate 64 0).take 64 ∧ q = po)
          ∨ (i = .memwrptl p hpa m tag b w po ∧ WinBytes s line d ∧ st = mergeBytes d b w ∧ q = (po || winPoisoned s line))) →
        (∀ t, WinAdmitted s line → WinStores s line st t → Does i s [.win, .mem, .dmc, .regs] fun u => u.mem = t.mem ∧ u.win.out = [⟨p, tag, line, .cmp⟩]
          ∧ WinWrote s u line q ∧ u.win.pends = s.win.pends ∧ u.win.queue = s.win.queue)
        ∧ (¬ WinAdmitted s line → Does i s [.win, .regs] fun u => u.win.out = [] ∧ u.win.pends = s.win.pends ∧ u.win.grans = s.win.grans ∧ Counted s u 0x18 0x150
          ∧ Word.bit (rd u 0x18 0x18) 1 = true ∧ ∃ r, u.win.queue = s.win.queue ++ [r] ∧ r.line = line ∧ r.held = true ∧ r.cross = true))
      ∧ (∀ x e, pendOf s line = some x → p.val ∈ x.left → sfOf s line = some e → e.holders ≠ [] → Does (.memclnevct p hpa tag) s [.win] fun u => u.win.out = [⟨p, tag, line, .cmp⟩]
          ∧ (∃ f, sfOf u line = some f ∧ p.val ∈ f.leaving ∧ f.holders = e.holders) ∧ u.win.pends = s.win.pends ∧ u.win.queue = s.win.queue)
      ∧ ∀ t, pendOf s line = none → s.win.queue = [] → s.win.state ≠ 0 → (line, p.val) ∈ s.win.saidI → sfOf s line = none → WinAdmitted s line → rd s 0x18 0x28 = 0 →
        WinStores (wBreach s p 4) line ((b ++ List.replicate 64 0).take 64) t → Does (.memwr p hpa m tag b po) s [.win, .mem, .dmc, .regs] fun u => u.mem = t.mem ∧ u.win.out = [⟨p, tag, line, .cmp⟩]
          ∧ rd u 0x18 0x144 = w32 (p + 64) ∧ Word.bit (rd u 0x18 0x28) 17 = true ∧ (line, p.val) ∉ u.win.saidI ∧ sfOf u line = none ∧ Tbl.find u.win.poison line = (if po then some true else none))
    ∧ (∀ s : State,
      ((∀ r ∈ s.win.queue, r.held = true → ¬ WinAdmitted s r.line) → Does .heldWriteAdmit s [.win] fun u => u.win = { s.win with out := [] })
      ∧ ∀ r t d st q, s.win.queue = [r] → r.held = true → r.holder < 8 → (Tbl.getD s.ports r.holder {}).dlActive = true → s.win.state = 1 ∨ s.win.state = 2 → WinAdmitted s r.line →
        ((r.kind = .wr ∧ st = (r.data ++ List.replicate 64 0).take 64 ∧ q = r.poison)
          ∨ (r.kind = .wrPtl ∧ WinBytes s r.line d ∧ st = mergeBytes d r.data r.mask ∧ q = (r.poison || winPoisoned s r.line))) →
        (r.cross = false ∧ pendOf s r.line = none ∧ r.on_ = none ∧ sfOf s r.line = none ∨ r.cross = true ∧ (∃ x, pendOf s r.line = some x ∧ x.left ≠ [])) →
        WinStores s r.line st t → Does .heldWriteAdmit s [.win, .mem, .dmc, .regs] fun u => u.mem = t.mem ∧ u.win.queue = [] ∧ u.win.pends = s.win.pends
          ∧ u.win.out = (if r.gone then [] else [⟨r.holder, r.tag, r.line, .cmp⟩]) ∧ (granOf u (lineGran r.line)).st ≠ .unwritten
          ∧ Tbl.find u.win.poison r.line = (if q then some true else none))
    ∧ (∀ (s : State) (g : Fin 16) (line : Nat), (∀ x, pendOf s line = some x → 8 + g.val ∉ x.left) → Does (.groveRecall g line) s [.win] fun u => u.win = { s.win with out := [] })
    ∧ (∀ (s : State) (g : Fin 16) (line : Nat) (x : Pend), pendOf s line = some x → 8 + g.val ∈ x.left → x.left.filter (· ≠ 8 + g.val) ≠ [] →
      (gDirty s g line = false → Does (.groveRecall g line) s [.win, .grv] fun u => u.win.out = [] ∧ u.win.queue = s.win.queue
        ∧ (∃ y, pendOf u line = some y ∧ y.left = x.left.filter (· ≠ 8 + g.val)) ∧ gLine u g line = (if x.snoop = .cur then gLine s g line else none)
        ∧ (x.snoop ≠ .cur → 8 + g.val ∉ (((sfOf u line).map (·.holders)).getD [])))
      ∧ (∀ d t, gDirty s g line = true → gLine s g line = some d → d.length = 64 → WinAdmitted s line → WinStores s line d t → Does (.groveRecall g line) s [.win, .grv, .mem, .dmc, .regs] fun u =>
          u.mem = t.mem ∧ gDirty u g line = false ∧ gLine u g line = (if x.snoop = .cur then some d else none) ∧ Tbl.find u.win.poison line = none)
      ∧ (gDirty s g line = true → ¬ WinAdmitted s line → x.late = false → Does (.groveRecall g line) s [.win, .regs] fun u => u.mem = s.mem ∧ Counted s u 0x18 0x150
          ∧ Word.bit (rd u 0x18 0x18) 1 = true ∧ pendOf u line = some { x with late := true }))
    ∧ ∀ (s : State) (p : Fin 8), s.win.pends = [] → s.win.queue = [] →
      (s.grv.dirty = [] → Does (.gpfPhase2 p) s [.win] fun u => u.win = { s.win with out := [] })
      ∧ ∀ g line e d t, s.grv.dirty = [(g, line, e)] → gLine s g line = some d → d.length = 64 → WinStores s line d t → Does (.gpfPhase2 p) s [.win, .grv, .mem, .dmc, .regs] fun u =>
        u.mem = t.mem ∧ u.grv = { s.grv with dirty := [] } ∧ u.win.out = []

/-- HDM_DECODER_COMMIT, TRICKLE_START, TRICKLE_COMPLETE, RETRICKLE_START, WINDOW_RESTORE_DONE, WIN_SLICE_WRITE and WIN_TEN_WRITE (R302, R303, R305, R306, R310, R313,
R314, R316, R320, R322, R323, R327, R344 to R347). The order in which a Commit's conditions are judged is the model's choice (log entry 62). -/
def Obligations.WindowUpkeep : Prop :=
  (∀ (s : State) (p d : Fin 8) (ways gran base size skip prev : Nat) (l : Layout) (ok : Prop), l = (Tbl.find s.win.layouts p).getD (layoutNow s (portTenant s p)) →
    (ok ↔ ways ∈ [1, 2, 4, 8, 16] ∧ gran ∈ [256, 512, 1024, 2048, 4096, 8192, 16384] ∧ base % 2 ^ 28 = 0 ∧ size % (2 ^ 28 * ways) = 0 ∧ skip % 2 ^ 28 = 0) →
    prev = (if d.val = 0 then 0 else (decOf s p (d - 1 : Nat)).dpaBase + (decOf s p (d - 1 : Nat)).size) →
    ((decOf s p d).committed = true → Does (.hdmDecoderCommit p d ways gran base size skip) s [] fun _ => True) ∧ ((decOf s p d).committed = false →
    (∀ e, ((¬ ok ∧ e = 1) ∨ (ok ∧ (∃ i, i < d.val ∧ (decOf s p i).committed = false) ∧ e = 4)
        ∨ (ok ∧ (∀ i, i < d.val → (decOf s p i).committed = true) ∧ l.vol.length + l.per.length < prev + skip / 2 ^ 28 + size / 2 ^ 28 / ways ∧ e = 2)
        ∨ (ok ∧ (∀ i, i < d.val → (decOf s p i).committed = true) ∧ prev + skip / 2 ^ 28 + size / 2 ^ 28 / ways ≤ l.vol.length + l.per.length
          ∧ prev + skip / 2 ^ 28 < l.vol.length ∧ l.vol.length < prev + skip / 2 ^ 28 + size / 2 ^ 28 / ways ∧ e = 3)) →
      Does (.hdmDecoderCommit p d ways gran base size skip) s [.win] fun u => decOf u p d = { err := e } ∧ u.win = { s.win with decs := u.win.decs }
        ∧ ∀ q f : Fin 8, (q, f) ≠ (p, d) → decOf u q f = decOf s q f)
    ∧ (ok → (∀ i, i < d.val → (decOf s p i).committed = true) → prev + skip / 2 ^ 28 + size / 2 ^ 28 / ways ≤ l.vol.length + l.per.length →
      (l.vol.length ≤ prev + skip / 2 ^ 28 ∨ prev + skip / 2 ^ 28 + size / 2 ^ 28 / ways ≤ l.vol.length) →
      Does (.hdmDecoderCommit p d ways gran base size skip) s [.win] fun u => (decOf u p d).committed = true ∧ (decOf u p d).base = base ∧ 2 ^ (decOf u p d).iwl = ways
        ∧ 2 ^ ((decOf u p d).igl + 8) = gran ∧ (decOf u p d).dpaBase = prev + skip / 2 ^ 28 ∧ (decOf u p d).size = size / 2 ^ 28 / ways ∧ Tbl.find u.win.layouts p = some l
        ∧ (∀ q f : Fin 8, (q, f) ≠ (p, d) → decOf u q f = decOf s q f) ∧ u.win = { s.win with decs := u.win.decs, layouts := u.win.layouts })))
    ∧ (∀ s : State, oldestDirty s = none → firstMarked s = none → Serves .trickleStart s [] fun _ => True)
    ∧ (∀ (s : State) (g a : Nat) (s1 s2 : State) (b : List Byte) (pz : List Bool) (st : GranSt),
      (oldestDirty s = some g ∧ firstMarked s = none ∧ st = .trickling ∨ oldestDirty s = none ∧ firstMarked s = some g ∧ st = .clean) →
      sliceKey s (granSlice g) = none → bpmTry s (ownerOf s (sliceTen s (granSlice g))) 3 true = (some a, s1) →
      dramMayAll s1 ⟨0x3A2, sliceTen s (granSlice g)⟩ .write [(a, 65536)] = (true, s1) → granRead s1 g 1024 = (b, pz, s2) →
        Serves .trickleStart s [.win, .bpm, .cpc, .mem, .dmc, .regs, .evq, .trunk, .freeCtr] fun u => (granOf u g).st = st ∧ (granOf u g).retrickle = false
          ∧ u.win.gseq = s.win.gseq + 1 ∧ Tbl.find u.win.snaps g = some { buf := a, gseq := s.win.gseq }
          ∧ u.cpc.queue = s.cpc.queue ++ (List.range 16).map fun k => backItem g k s.win.gseq (sliceTen s (granSlice g)) (subPoison pz k) ((b.drop (k * 4096)).take 4096))
    ∧ (∀ (s : State) (g : Nat), Tbl.find s.win.snaps g = none → Serves (.trickleComplete g) s [] fun _ => True)
    ∧ (∀ (s : State) (g : Nat) (n : Snap), Tbl.find s.win.snaps g = some n →
      ((snapPuas s g n.gseq).length < 16 → Serves (.trickleComplete g) s [] fun _ => True)
      ∧ (16 ≤ (snapPuas s g n.gseq).length → (bufAt s n.buf).isSome = true → s.bpm.waiters = [] → Serves (.trickleComplete g) s [.win, .bpm, .cpc, .regs] fun u =>
        (granOf u g).st = (if (granOf s g).st = .trickling then (if (granOf s g).redirty then .dirty else .clean) else (granOf s g).st) ∧ (granOf u g).redirty = false
          ∧ Tbl.find u.win.bdir g = some ⟨snapPuas s g n.gseq, n.gseq⟩ ∧ Tbl.find u.win.snaps g = none ∧ u.win.trickled = s.win.trickled + 1
          ∧ (∀ k, k ≠ g → granOf u k = granOf s k) ∧ u.win.poison = s.win.poison))
    ∧ (∀ s : State, (2 ≤ backingFree s → Does .retrickleStart s [.win] fun u => u.win = { s.win with grans := u.win.grans }
        ∧ (∀ g, granOf u g = { granOf s g with retrickle := (granOf s g).retrickle || (prevCopies s).contains g }))
      ∧ ∀ r, prevCopies s = [] → backingFree s < 2 → (s.cpc.rus.filter fun p => p.2.ruh = ruhBacking && p.2.st = .closed) = [r] → Does .retrickleStart s [.win] fun u =>
        (∀ g ∈ granCopies s r.1, (granOf u g).retrickle = true) ∧ (∀ g, (granOf u g).st = (granOf s g).st) ∧ u.win = { s.win with grans := u.win.grans })
    ∧ (∀ (s : State) (bad : List Nat), s.win.state ≠ 0 ∨ isEnabled s 0x18 = false ∨ dramUp s = false → Serves (.windowRestoreDone bad) s [] fun _ => True)
    ∧ (∀ (s : State) (bad : List Nat), s.win.state = 0 → isEnabled s 0x18 = true → dramUp s = true → lostGrans s = [] → s.win.queue = [] →
      (scanCopies s = [] → ledgerValid s = true → Serves (.windowRestoreDone bad) s [.win, .regs] fun u => u.win = { s.win with out := [], state := 1, memActive := true }
        ∧ Word.bit (rd u 0x18 0x18) 5 = true ∧ RegsOnly [(0x18, 0x18)] s u)
      ∧ (scanCopies s = [] → ledgerValid s = false → Serves (.windowRestoreDone bad) s [.win, .regs, .freeCtr] fun u => u.win.state = 2 ∧ u.win.memActive = true
        ∧ Word.bit (rd u 0x18 0x18) 5 = true ∧ Word.bit (rd u 0x18 0x18) 2 = true ∧ RegsOnly [(0x18, 0x18)] s u)
      ∧ ∀ g q, scanCopies s = [(g, q)] → ledgerValid s = true →
        (∀ puas b pz t, copyData s g q bad = some (puas, b, pz) → KeepsBut [.mem, .dmc, .regs] s t → RegsOnly [(0x1B, 0x12C), (0x1B, 0x130)] s t →
          (∀ w, busWrite { s with win := w } (winWho s (g * 1024)) (winAddr s (g * 1024)) b = (.ok, { t with win := w })) →
          Serves (.windowRestoreDone bad) s [.win, .mem, .dmc, .regs, .cpc] fun u => u.mem = t.mem ∧ u.win.state = 1 ∧ Tbl.find u.win.bdir g = some ⟨puas, q⟩
            ∧ (granOf u g).st = (if (match ruOfPua s (puas.headD 0) with | some i => (ruAt s i).ruh == ruhFlush | none => false) then .dirty else .clean)
            ∧ ∀ i, i < 1024 → (pz.getD (i / 64) 0).testBit (i % 64) = true → winPoisoned u (g * 1024 + i) = true)
        ∧ (copyData s g q bad = none → copyData s g 0 bad = none → rd s 0x18 0x28 = 0 → Serves (.windowRestoreDone bad) s [.win, .regs, .evq, .freeCtr] fun u =>
          Word.bit (rd u 0x18 0x28) 18 = true ∧ (∀ i, i < 1024 → winPoisoned u (g * 1024 + i) = true) ∧ u.evq.length = s.evq.length + 1 ∧ u.win.state = 1))
    ∧ ∀ (s : State) (who : Who) (k : Fin 512) (v : Word),
      (Admits s who 0x18 (0x1000 + 8 * k) v →
        ((Word.bit v 1 ≠ slicePersist s k ∨ Word.fld v 23 11 ≠ Word.fld (sliceWord s k) 23 11) → (sliceTen s k ≠ 0 ∨ sliceMapped s k = true) → rd s 0x18 0x28 = 0 →
          Serves (.winSliceWrite who k v) s [.resp, .regs] fun u => sliceWord u k = sliceWord s k ∧ Word.bit (rd u 0x18 0x28) 16 = true)
        ∧ (Word.bit v 1 = slicePersist s k → (Word.fld v 23 11 = Word.fld (sliceWord s k) 23 11 ∨ (sliceTen s k = 0 ∧ sliceMapped s k = false)) →
          Serves (.winSliceWrite who k v) s [.resp, .regs] fun u => sliceWord u k = v &&& 0xFFFFFF ∧ RegsOnly [(0x18, 0x1000 + 8 * k)] s u)
        ∧ (Word.bit v 1 ≠ slicePersist s k → sliceTen s k = 0 → sliceMapped s k = false → s.win.snaps = [] →
          Serves (.winSliceWrite who k v) s [.resp, .regs, .win, .cpc, .mem, .dmc] fun u => sliceWord u k = v &&& 0xFFFFFF ∧ (∀ g, granSlice g = k → granOf u g = {})
            ∧ (∀ g, granSlice g = k → Tbl.find u.win.bdir g = none) ∧ ∀ g, granSlice g ≠ k → granOf u g = granOf s g))
      ∧ (Admits s who 0x18 (0x2000 + 32 * k) v → rd s 0x18 0x28 = 0 →
        Does (.winTenWrite who k 0 v) s [.resp, .regs] fun u => if sumOf (fun t => if t = k.val then Word.fld v 24 0 else sfMin s t) (List.range 512) ≤ 12582912
          then sfMin u k = Word.fld v 24 0 ∧ RegsOnly [(0x18, 0x2000 + 32 * k)] s u else sfMin u k = sfMin s k ∧ Word.bit (rd u 0x18 0x28) 16 = true)
      ∧ (Admits s who 0x18 (0x2000 + 32 * k + 4) v → Does (.winTenWrite who k 1 v) s [.resp, .regs] fun u =>
        sfMax u k = (if Word.fld v 24 0 < sfMin s k then sfMax s k else Word.fld v 24 0) ∧ RegsOnly [(0x18, 0x2000 + 32 * k + 4)] s u)
      ∧ (Admits s who 0x18 (0x2000 + 32 * k + 8) v → Does (.winTenWrite who k 2 v) s [.resp, .regs] fun u =>
        dirtyMin u k = Word.fld v 21 0 ∧ RegsOnly [(0x18, 0x2000 + 32 * k + 8)] s u)

/-- GET_EVENT_RECORDS, CLEAR_EVENT_RECORDS, GET_EVENT_INTERRUPT_POLICY, SET_EVENT_INTERRUPT_POLICY, GET_TIMESTAMP, SET_TIMESTAMP, GET_SUPPORTED_LOGS, GET_LOG,
IDENTIFY_MEMORY_DEVICE, GET_PARTITION_INFO, SET_PARTITION_INFO, GET_HEALTH_INFO, GET_SHUTDOWN_STATE, SET_SHUTDOWN_STATE, GET_POISON_LIST, INJECT_POISON and CLEAR_POISON
(R303, R304, R324, R339). The place of a field in a payload and the return codes are the model's readings (log entry 63). -/
def Obligations.CxlMailbox : Prop :=
  ∀ (s : State) (p : Fin 8) (k : Fin 4),
    (Does (.getEventRecords p k) s [.resp] fun u => u.resp.code = .ok ∧ u.resp.data = 0
        ∧ u.resp.bytes = leBytes 2 (Tbl.getD (cxlDev s p).logs k []).length ++ ((Tbl.getD (cxlDev s p).logs k []).map fun r => leBytes 2 r.1 ++ r.2).flatten)
    ∧ (∀ hs, Does (.clearEventRecords p k true hs) s [.resp, .win] fun u => u.resp = { code := .ok, data := 0 } ∧ Tbl.getD (cxlDev u p).logs k [] = []
        ∧ (∀ j : Fin 4, j ≠ k → Tbl.getD (cxlDev u p).logs j [] = Tbl.getD (cxlDev s p).logs j []) ∧ ∀ q, q ≠ p.val → cxlDev u q = cxlDev s q)
    ∧ (∀ hs : List Nat, (∀ h ∈ hs, h ∈ (Tbl.getD (cxlDev s p).logs k []).map (·.1)) → Does (.clearEventRecords p k false hs) s [.resp, .win] fun u => u.resp = { code := .ok, data := 0 }
        ∧ Tbl.getD (cxlDev u p).logs k [] = ((Tbl.getD (cxlDev s p).logs k []).filter fun r => !hs.contains r.1) ∧ ∀ q, q ≠ p.val → cxlDev u q = cxlDev s q)
    ∧ (∀ hs : List Nat, (∃ h ∈ hs, h ∉ (Tbl.getD (cxlDev s p).logs k []).map (·.1)) → Does (.clearEventRecords p k false hs) s [.resp] fun u => u.resp.data ≠ 0)
    ∧ (Does (.getEventInterruptPolicy p) s [.resp] fun u => u.resp = { code := .ok, data := 0, bytes := leBytes 4 (cxlDev s p).policy })
    ∧ (∀ v, Does (.setEventInterruptPolicy p v) s [.resp, .win] fun u => cxlDev u p = { cxlDev s p with policy := v % 2 ^ 32 } ∧ ∀ q, q ≠ p.val → cxlDev u q = cxlDev s q)
    ∧ (Does (.getTimestamp p) s [.resp] fun u => u.resp.bytes = leBytes 8 ((cxlDev s p).tsBase + (s.clock - (cxlDev s p).tsClock) * 10 ^ 9))
    ∧ (∀ v, Does (.setTimestamp p v) s [.resp, .win] fun u => cxlDev u p = { cxlDev s p with tsBase := v % 2 ^ 64, tsClock := s.clock } ∧ ∀ q, q ≠ p.val → cxlDev u q = cxlDev s q)
    ∧ (Does (.getSupportedLogs p) s [.resp] fun u => u.resp.bytes = leBytes 2 1 ++ List.replicate 6 0 ++ effectsLogId ++ leBytes 4 64)
    ∧ (∀ l, l ≠ effectsLogId → Does (.getLog p l) s [.resp] fun u => u.resp.data ≠ 0 ∧ u.resp.bytes = [])
    ∧ (Does (.getLog p effectsLogId) s [.resp, .freeCtr] fun u => u.resp.data = 0 ∧ u.resp.bytes.length = 64)
    ∧ (∀ l, l = portLayout s p → Does (.identifyMemoryDevice p) s [.resp] (fun u =>
          u.resp.bytes = leBytes 8 (l.vol.length + l.per.length) ++ leBytes 8 l.vol.length ++ leBytes 8 l.per.length ++ leBytes 8 0)
      ∧ Does (.getPartitionInfo p) s [.resp] fun u => u.resp.bytes.take 16 = leBytes 8 l.vol.length ++ leBytes 8 l.per.length
        ∧ (layoutNow s (portTenant s p) ≠ l → u.resp.bytes.drop 16 = leBytes 8 (layoutNow s (portTenant s p)).vol.length ++ leBytes 8 (layoutNow s (portTenant s p)).per.length))
    ∧ (Does (.setPartitionInfo p) s [.resp] fun u => u.resp.data ≠ 0)
    ∧ (Does (.getHealthInfo p) s [.resp] fun u => u.resp.bytes = leBytes 1 (pctUsed s) ++ leBytes 2 (rdF s 0 0x118 15 0 + 65536 - 273) ++ leBytes 4 s.win.dsc)
    ∧ (Does (.getShutdownState p) s [.resp] fun u => u.resp.bytes = leBytes 1 (cxlDev s p).shutdown)
    ∧ (∀ v, Does (.setShutdownState p v) s [.resp, .win] fun u => cxlDev u p = { cxlDev s p with shutdown := v } ∧ ∀ q, q ≠ p.val → cxlDev u q = cxlDev s q)
    ∧ (∀ dpa n, Does (.getPoisonList p dpa n) s [.resp] fun u => u.resp.data = 0 ∧ u.resp.bytes.drop 2
        = (((s.win.poison.filterMap fun x => lineDpa s p x.1).filter fun a => dpa ≤ a && a < dpa + n * 64).map (leBytes 8)).flatten)
    ∧ ∀ dpa, (dpaOf s p dpa = none → ∀ i ∈ ([.injectPoison p dpa, .clearPoison p dpa] : List Instr), Does i s [.resp] fun u => u.resp.data ≠ 0)
      ∧ ∀ l, dpaOf s p dpa = some l → Does (.injectPoison p dpa) s [.resp, .win, .regs] (fun u => u.resp.data = 0 ∧ winPoisoned u l = true ∧ (∀ j, j ≠ l → Tbl.find u.win.poison j = Tbl.find s.win.poison j)
          ∧ (winPoisoned s l = false → Word.bit (rd u 0x18 0x18) 4 = true) ∧ RegsOnly [(0x18, 0x18)] s u)
        ∧ Does (.clearPoison p dpa) s [.resp, .win] fun u => u.resp.data = 0 ∧ winPoisoned u l = false ∧ ∀ j, j ≠ l → Tbl.find u.win.poison j = Tbl.find s.win.poison j
/-! ### Grove engines and computational programs -/

/-- ENGINE_MEMORY_ACCESS, WS_OPEN, WS_AVAIL, WS_WAIT, WS_POP, WS_PUSH, WS_PTR, WS_CLOSE, WS_STAT, WS_JOB, WS_JWAIT, WS_VPOP, WS_VPUSH, WS_WSYNC and
WAISET_WAIT_END (R375 to R378, R384 to R391, R393, R395, R398). -/
def Obligations.EnginesAndStreams : Prop :=
  (∀ (s : State) (e : Fin 256) (a n v p : Nat), engLive s e = true → 0 < n → gatePass s e a n = true → localAddr s e a n = some p →
    (pmpPass (engOf s e) a n true false false = true →
      (Does (.engineMemoryAccess e .load a n v) s [.resp] fun u => u.resp = { code := .ok, data := leNat (memReadN s p n) })
      ∧ (a % n = 0 → Does (.engineMemoryAccess e .lr a n v) s [.resp, .grv] fun u => u.resp = { code := .ok, data := leNat (memReadN s p n) } ∧ resvHas u e p = true
        ∧ u.grv = { s.grv with rsv := u.grv.rsv }))
    ∧ (pmpPass (engOf s e) a n false true false = true →
      (Does (.engineMemoryAccess e .store a n v) s [.resp, .mem, .grv] fun u => u.resp = { code := .ok } ∧ memReadN u p n = leBytes n v ∧ MemOnly p n s u
        ∧ u.grv = { s.grv with rsv := u.grv.rsv } ∧ ∀ j, resvHas u j p = false)
      ∧ (a % n = 0 → resvHas s e p = true → Does (.engineMemoryAccess e .sc a n v) s [.resp, .mem, .grv] fun u => u.resp = { code := .ok, data := 0 }
        ∧ memReadN u p n = leBytes n v ∧ MemOnly p n s u ∧ ∀ j, resvHas u j p = false)
      ∧ (a % n = 0 → resvHas s e p = false → Does (.engineMemoryAccess e .sc a n v) s [.resp, .grv] fun u => u.resp = { code := .ok, data := 1 }
        ∧ u.grv = { s.grv with rsv := u.grv.rsv } ∧ ∀ q, resvHas u e q = false))
    ∧ (∀ op, pmpPass (engOf s e) a n true true false = true → a % n = 0 → Does (.engineMemoryAccess e (.amo op) a n v) s [.resp, .mem, .grv] fun u =>
      u.resp = { code := .ok, data := leNat (memReadN s p n) } ∧ memReadN u p n = leBytes n (amoOp op n (leNat (memReadN s p n)) v) ∧ MemOnly p n s u)
    ∧ (a + n ≤ 0x80000 → pmpPass (engOf s e) a n false false true = true → Does (.engineMemoryAccess e .fetch a n v) s [.resp] fun u => u.resp = { code := .ok, data := leNat (memReadN s p n) })
    ∧ (0x80000 < a + n → pmpPass (engOf s e) a n false false true = true → (engOf s e).umode = false → (engOf s e).prog = none →
      Does (.engineMemoryAccess e .fetch a n v) s [.grv, .regs, .evq] fun u => EngHalts s u e 1 (engOf s e).pc))
    ∧ (∀ (s : State) (e : Fin 256) (k : EAcc) (a n v : Nat), engLive s e = true → 0 < n → (engOf s e).umode = false → (engOf s e).prog = none →
      (engTgt s e a n = .nothing → Does (.engineMemoryAccess e k a n v) s [.grv, .regs, .evq] fun u => EngHalts s u e (accFault k) (engOf s e).pc)
      ∧ (gatePass s e a n = false → engTgt s e a n ≠ .nothing → n ∈ [1, 2, 4, 8] → a % n = 0 → k = .load ∨ k = .store → rd s (engRgn e) 0x28 = 0 →
        Does (.engineMemoryAccess e k a n v) s [.grv, .regs, .evq] fun u => EngHalts s u e (accFault k) (engOf s e).pc ∧ Counted s u (engRgn e) 0x12C
          ∧ Word.bit (rd u (engRgn e) 0x28) 17 = true ∧ u.evq.length = s.evq.length + 2)
      ∧ ∀ o, engTgt s e a n = .slm o → (k = .lr ∨ k = .sc ∨ ∃ op, k = .amo op) → Does (.engineMemoryAccess e k a n v) s [.grv, .regs, .evq] fun u => EngHalts s u e 7 (engOf s e).pc)
    ∧ (∀ (s : State) (e : Fin 256) (a n v o : Nat), engLive s e = true → gatePass s e a n = true → n ∈ [1, 2, 4, 8] → a % n = 0 → pmpPass (engOf s e) a n true true false = true →
      (engTgt s e a n = .slm o → (∀ b, busRead s (engWho s e) (slmBase s (e / 16 : Nat) + o) n = (.ok, b, s) →
          Does (.engineMemoryAccess e .load a n v) s [.resp] fun u => u.resp = { code := .ok, data := leNat b })
        ∧ ∀ t, busWrite s (engWho s e) (slmBase s (e / 16 : Nat) + o) (leBytes n v) = (.ok, t) → KeepsBut [.mem, .dmc, .regs] s t →
          Does (.engineMemoryAccess e .store a n v) s [.resp, .mem, .dmc, .regs] fun u => u.mem = t.mem ∧ u.resp = { code := .ok })
      ∧ (engTgt s e a n = .window o → ∀ d, gLine s (e / 16 : Nat) (o / 64) = some d →
        (Does (.engineMemoryAccess e .load a n v) s [.resp] fun u => u.resp = { code := .ok, data := leNat ((d.drop (o % 64)).take n) })
        ∧ (sfA s (o / 64) = true → sfOthers s (o / 64) (8 + e / 16 : Nat) = [] → (sfOf s (o / 64)).map (·.holders) = some [(8 + e / 16 : Nat)] → gFull s (e / 16 : Nat) (o / 64) = false →
          Does (.engineMemoryAccess e .store a n v) s [.resp, .grv] fun u => u.resp = { code := .ok } ∧ gDirty u (e / 16 : Nat) (o / 64) = true
            ∧ gLine u (e / 16 : Nat) (o / 64) = some (mergeBytes d (List.replicate (o % 64) 0 ++ leBytes n v) ((2 ^ n - 1) * 2 ^ (o % 64)))
            ∧ ∀ g l, gLineKey g l ≠ gLineKey (e / 16 : Nat) (o / 64) → gLine u g l = gLine s g l)
        ∧ (∀ op, sfA s (o / 64) = true → (sfOf s (o / 64)).map (·.holders) = some [(8 + e / 16 : Nat)] → gFull s (e / 16 : Nat) (o / 64) = false →
          Does (.engineMemoryAccess e (.amo op) a n v) s [.resp, .grv] fun u => u.resp = { code := .ok, data := leNat ((d.drop (o % 64)).take n) }
            ∧ gDirty u (e / 16 : Nat) (o / 64) = true ∧ gLine u (e / 16 : Nat) (o / 64)
              = some (mergeBytes d (List.replicate (o % 64) 0 ++ leBytes n (amoOp op n (leNat ((d.drop (o % 64)).take n)) v)) ((2 ^ n - 1) * 2 ^ (o % 64))))))
    ∧ (∀ (s : State) (e : Fin 256) (rd_ rs1 rs2 : Fin 32) (k : Nat), WsReady s e →
      (k = xReg s e rs2 % 8 → ∀ d t, d = descAt s e (xReg s e rs1) → strType d.typ = some t →
        ((strOf s e k).isSome = true → Does (.wsOpen e rd_ rs1 rs2) s [.grv] fun u => WsJust s u e rd_ (2 ^ 64 - 6))
        ∧ (strOf s e k = none → d.rsvd = true ∨ d.len = 0 ∨ d.ringLog < 12 ∨ 17 < d.ringLog ∨ d.ring % 4096 ≠ 0 ∨ 0x70000 < d.ring + 2 ^ d.ringLog ∨ xReg s e rs1 % 64 ≠ 0 →
          Does (.wsOpen e rd_ rs1 rs2) s [.grv] fun u => WsJust s u e rd_ (2 ^ 64 - 2))
        ∧ (strOf s e k = none → descBad s e k (xReg s e rs1) d = false → t = .lbaIn → (∀ c n, execOf s e = some c → nsOf s d.nsid = some n → c.cmd.mid ∉ n.attached) →
          Does (.wsOpen e rd_ rs1 rs2) s [.grv] fun u => WsJust s u e rd_ (2 ^ 64 - 3))
        ∧ (∀ b, strOf s e k = none → descBad s e k (xReg s e rs1) d = false → strLocal t d.start = some b → engTgt s e b d.len ≠ .nothing → gatePass s e b d.len = false →
          Does (.wsOpen e rd_ rs1 rs2) s [.grv, .regs, .evq] fun u => WsJust s u e rd_ (2 ^ 64 - 3) ∧ Counted s u (engRgn e) 0x12C ∧ u.evq.length = s.evq.length + 1)
        ∧ (strOf s e k = none → descBad s e k (xReg s e rs1) d = false → descDenied s e d = false → Does (.wsOpen e rd_ rs1 rs2) s moveParts fun u =>
          ∃ n, (t ≠ .lbaIn → n = 0) ∧ WsGives s u e rd_ 0 (Tbl.put (engOf s e).streams k
            { typ := t, cls := d.cls, nsid := d.nsid, start := d.start, len := d.len, ring := d.ring, ringLog := d.ringLog, desc := xReg s e rs1, asked := n }) (engOf s e).jobs))
      ∧ (k = xReg s e rs2 % 8 → strOf s e k = none → strType (descAt s e (xReg s e rs1)).typ = none → Does (.wsOpen e rd_ rs1 rs2) s [.grv] fun u => WsJust s u e rd_ (2 ^ 64 - 2))
      ∧ (k = xReg s e rs1 % 8 → strOf s e k = none → ∀ i ∈ ([.wsAvail e rd_ rs1, .wsWait e rd_ rs1 rs2, .wsPop e rd_ rs1 rs2, .wsPush e rd_ rs1 rs2, .wsPtr e rd_ rs1, .wsClose e rd_ rs1] : List Instr),
        Does i s [.grv] fun u => WsJust s u e rd_ (2 ^ 64 - 1))
      ∧ (k = xReg s e rs1 % 8 → strOf s e k = none → Does (.wsStat e rd_ rs1) s [.grv] fun u => WsJust s u e rd_ 0)
      ∧ (k = xReg s e rs1 % 8 → ∀ x, strOf s e k = some x →
        (Does (.wsAvail e rd_ rs1) s [.grv] fun u => WsJust s u e rd_ (if x.isIn then x.delivered - x.used else 2 ^ x.ringLog - (x.used - x.delivered)))
        ∧ (x.code ≠ 0 → Does (.wsWait e rd_ rs1 rs2) s [.grv] fun u => WsJust s u e rd_ (2 ^ 64 - x.code))
        ∧ (x.code = 0 → xReg s e rs2 ≤ x.avail ∨ x.eos = true → Does (.wsWait e rd_ rs1 rs2) s [.grv] fun u => WsJust s u e rd_ x.avail)
        ∧ (x.code = 0 → x.avail < xReg s e rs2 → x.eos = false → Does (.wsWait e rd_ rs1 rs2) s [.grv] fun u => WsHolds s u e (.wait rd_ k (xReg s e rs2)))
        ∧ (x.isIn = true → (x.avail < xReg s e rs2 → Does (.wsPop e rd_ rs1 rs2) s [.grv] fun u => WsJust s u e rd_ (2 ^ 64 - 5))
          ∧ (xReg s e rs2 ≤ x.avail → Does (.wsPop e rd_ rs1 rs2) s [.grv] fun u => WsGives s u e rd_ (x.avail - xReg s e rs2)
            (Tbl.put (engOf s e).streams k { x with used := x.used + xReg s e rs2 }) (engOf s e).jobs))
        ∧ (x.isIn = false → Does (.wsPop e rd_ rs1 rs2) s [.grv, .freeCtr] fun u => ∃ v, WsJust s u e rd_ v)
        ∧ (x.isIn = true → Does (.wsPush e rd_ rs1 rs2) s [.grv, .freeCtr] fun u => ∃ v, WsJust s u e rd_ v)
        ∧ (x.isIn = false → x.code ≠ 0 → Does (.wsPush e rd_ rs1 rs2) s [.grv] fun u => WsJust s u e rd_ (2 ^ 64 - x.code))
        ∧ (x.isIn = false → x.code = 0 → (x.avail < xReg s e rs2 ∨ x.len < x.used + xReg s e rs2 → Does (.wsPush e rd_ rs1 rs2) s [.grv] fun u => WsJust s u e rd_ (2 ^ 64 - 5))
          ∧ (xReg s e rs2 ≤ x.avail → x.used + xReg s e rs2 ≤ x.len →
            (Does (.wsPush e rd_ rs1 rs2) s (.win :: moveParts) fun u => (engOf u e).pc = ((engOf s e).pc + 4) % 2 ^ 64
              ∧ ∀ q, xReg u e q = if q = rd_.val ∧ q ≠ 0 then (x.avail - xReg s e rs2) % 2 ^ 64 else xReg s e q)
            ∧ (x.typ = .hostOut → OutCalm s e k → ∀ c, execOf s e = some c →
              (hostOpen s c.cmd.mid = false → Does (.wsPush e rd_ rs1 rs2) s [.grv] fun u => EngOnly s u e ∧ WsGives s u e rd_ (x.avail - xReg s e rs2)
                (Tbl.put (engOf s e).streams k { x with used := x.used + xReg s e rs2 }) (engOf s e).jobs)
              ∧ (hostOpen s c.cmd.mid = true → (ctxOf s c.cmd).isSome = true → x.stopped = false → x.delivered < x.used + xReg s e rs2 → x.ringLog ≤ 17 →
                Does (.wsPush e rd_ rs1 rs2) s [.grv] fun u => strOf u e k = some { x with used := x.used + xReg s e rs2, delivered := x.used + xReg s e rs2 }
                  ∧ ∃ l, (execOf u e).map (·.host) = some (c.host ++ l) ∧ l.flatMap (·.data) = ringBytes s e x x.delivered (x.used + xReg s e rs2 - x.delivered)
                    ∧ (l.head?).map (·.off) = some (x.start + x.delivered) ∧ ∀ h ∈ l, h.data.length ≤ 4096))))
        ∧ (Does (.wsPtr e rd_ rs1) s [.grv] fun u => WsJust s u e rd_ (x.ring + x.used % 2 ^ x.ringLog))
        ∧ (x.isIn = true ∨ (x.used ≤ x.delivered ∧ ∀ q ∈ s.win.queue, q.noHolder = false) → OutCalm s e k →
          (Does (.wsClose e rd_ rs1) s (.win :: moveParts) fun u => WsGives s u e rd_ (if x.code ≠ 0 then 2 ^ 64 - x.code else x.used) (Tbl.del (engOf s e).streams k) (engOf s e).jobs)
          ∧ (rdsOf s (.stream e k) = [] → Does (.wsClose e rd_ rs1) s [.grv, .mem, .win] fun u =>
            WsGives s u e rd_ (if x.code ≠ 0 then 2 ^ 64 - x.code else x.used) (Tbl.del (engOf s e).streams k) (engOf s e).jobs
              ∧ memReadN u (tileBase e + x.desc + 32) 16 = leBytes 8 x.delivered ++ leBytes 8 x.errPos ∧ MemOnly (tileBase e + x.desc + 32) 16 s u))
        ∧ (x.typ = .hostOut → x.stopped = false → x.delivered < x.used → OutCalm s e k → (∀ c, execOf s e = some c → hostOpen s c.cmd.mid = false) →
          Does (.wsClose e rd_ rs1) s [.grv] fun u => WsHolds s u e (.close rd_ k))
        ∧ (Does (.wsStat e rd_ rs1) s [.grv] fun u => WsJust s u e rd_ (x.code + 256 + x.eos.toNat * 512 + (!x.isIn).toNat * 1024 + x.avail * 2 ^ 32))))
    ∧ (∀ (s : State) (e : Fin 256) (rd_ rs1 rs2 : Fin 32), WsReady s e →
      (1 < xReg s e rs2 ∨ xReg s e rs1 % 32 ≠ 0 → Does (.wsJob e rd_ rs1 rs2) s [.grv] fun u => WsJust s u e rd_ (2 ^ 64 - 2))
      ∧ (∀ (op level flags n src dst cap t : Nat), memReadN s (tileBase e + xReg s e rs1) 32 = leBytes 1 op ++ leBytes 1 level ++ leBytes 1 flags ++ leBytes 1 0 ++ leBytes 4 n ++ leBytes 8 src
            ++ leBytes 8 dst ++ leBytes 4 cap ++ leBytes 4 0 → xReg s e rs1 % 32 = 0 → xReg s e rs1 + 32 ≤ 0x80000 → op < 256 → n < 2 ^ 32 → src < 2 ^ 64 → dst < 2 ^ 64 → cap < 2 ^ 32 →
        ((xReg s e rs2 = 0 ∧ (((op = 1 ∨ op = 3) ∧ level = 0) ∨ (op = 2 ∧ 1 ≤ level ∧ level ≤ 9) ∨ (op = 4 ∧ 1 ≤ level ∧ level ≤ 6)) ∧ flags = 0)
          ∨ (xReg s e rs2 = 1 ∧ 8 ≤ op ∧ op ≤ 10 ∧ level = 0 ∧ flags < 4)) →
        (4 ≤ (engOf s e).jobs.length → Does (.wsJob e rd_ rs1 rs2) s [.grv] fun u => WsJust s u e rd_ (2 ^ 64 - 6))
        ∧ ((engOf s e).jobs.length < 4 → t < 4 → (∀ i, i < t → (Tbl.find (engOf s e).jobs i).isSome = true) → Tbl.find (engOf s e).jobs t = none → (engOf s e).umode = false →
          (localAddr s e src n).isSome = true → (localAddr s e dst cap).isSome = true → gatePass s e src n = true → gatePass s e dst cap = true → Does (.wsJob e rd_ rs1 rs2) s [.grv] fun u =>
            WsGives s u e rd_ t (engOf s e).streams (Tbl.put (engOf s e).jobs t ⟨xReg s e rs2, op, level, flags, src, n, dst, cap, none⟩))
        ∧ ((engOf s e).jobs.length < 4 → t < 4 → (∀ i, i < t → (Tbl.find (engOf s e).jobs i).isSome = true) → Tbl.find (engOf s e).jobs t = none →
          (localAddr s e src n = none ∨ pmpPass (engOf s e) dst cap false true false = false) → gatePass s e src n = true ∨ localAddr s e src n = none → gatePass s e dst cap = true →
          Does (.wsJob e rd_ rs1 rs2) s [.grv] fun u => WsGives s u e rd_ t (engOf s e).streams (Tbl.put (engOf s e).jobs t ⟨xReg s e rs2, op, level, flags, src, n, dst, cap, some (2 ^ 64 - 3)⟩))
        ∧ ((engOf s e).jobs.length < 4 → t < 4 → (∀ i, i < t → (Tbl.find (engOf s e).jobs i).isSome = true) → Tbl.find (engOf s e).jobs t = none →
          (localAddr s e src n).isSome = true → gatePass s e src n = false → Does (.wsJob e rd_ rs1 rs2) s [.grv, .regs, .evq] fun u =>
            WsGives s u e rd_ t (engOf s e).streams (Tbl.put (engOf s e).jobs t ⟨xReg s e rs2, op, level, flags, src, n, dst, cap, some (2 ^ 64 - 3)⟩)
              ∧ Counted s u (engRgn e) 0x12C ∧ u.evq.length = s.evq.length + 1))
      ∧ (Tbl.find (engOf s e).jobs (xReg s e rs1) = none → Does (.wsJwait e rd_ rs1) s [.grv] fun u => WsJust s u e rd_ (2 ^ 64 - 1))
      ∧ (∀ j, Tbl.find (engOf s e).jobs (xReg s e rs1) = some j → (∀ r, j.result = some r →
          Does (.wsJwait e rd_ rs1) s [.grv] fun u => WsGives s u e rd_ r (engOf s e).streams (Tbl.del (engOf s e).jobs (xReg s e rs1)))
        ∧ (j.result = none → Does (.wsJwait e rd_ rs1) s [.grv] fun u => WsHolds s u e (.jwait rd_ (xReg s e rs1))))
      ∧ ((engOf s e).vill = true → (engOf s e).umode = false → (engOf s e).prog = none → ∀ vm, ∀ i ∈ ([.wsVpop e rd_ rs1, .wsVpush e rd_ rs2 rs1 vm] : List Instr),
        Does i s [.grv, .regs, .evq] fun u => EngHalts s u e 2 (engOf s e).pc)
      ∧ ((engOf s e).vill = false → (strOf s e (xReg s e rs1 % 8) = none → Does (.wsVpop e rd_ rs1) s [.grv] (fun u => EngOnly s u e ∧ engOf u e = { engOf s e with vl := 0, pc := (engOf s e).pc + 4 })
          ∧ ∀ vm, Does (.wsVpush e rd_ rs2 rs1 vm) s [.grv] fun u => WsJust s u e rd_ (2 ^ 64 - 1))
        ∧ ∀ x, strOf s e (xReg s e rs1 % 8) = some x → x.code ≠ 0 → (x.isIn = true → Does (.wsVpop e rd_ rs1) s [.grv] fun u => EngOnly s u e
            ∧ engOf u e = { engOf s e with vl := 0, pc := (engOf s e).pc + 4 })
          ∧ (x.isIn = false → ∀ vm, Does (.wsVpush e rd_ rs2 rs1 vm) s [.grv] fun u => WsJust s u e rd_ (2 ^ 64 - x.code)))
      ∧ (∀ x b, (engOf s e).vill = false → strOf s e (xReg s e rs1 % 8) = some x → x.code = 0 → b = (engOf s e).vsew / 8 →
        (x.isIn = true → ((engOf s e).vl * b ≤ x.avail ∨ x.eos = true) → ∀ n, n = min (engOf s e).vl (x.avail / max 1 b) → Does (.wsVpop e rd_ rs1) s [.grv] fun u => EngOnly s u e
            ∧ engOf u e = { vStore (engOf s e) rd_ (ringBytes s e x x.used (n * b)) with streams := Tbl.put (engOf s e).streams (xReg s e rs1 % 8) { x with used := x.used + n * b }
                                                                                         vl := n, pc := (engOf s e).pc + 4 })
        ∧ (x.isIn = true → x.avail < (engOf s e).vl * b → x.eos = false → Does (.wsVpop e rd_ rs1) s [.grv] fun u => WsHolds s u e (.vpop rd_ (xReg s e rs1 % 8)))
        ∧ ∀ vm d, x.isIn = false → d = vActive (engOf s e) rs2 vm → (2 ^ x.ringLog < d.length ∨ x.len < x.used + d.length →
            Does (.wsVpush e rd_ rs2 rs1 vm) s [.grv] fun u => WsJust s u e rd_ (2 ^ 64 - 5))
          ∧ (d.length ≤ x.avail → x.used + d.length ≤ x.len → x.typ = .hostOut → x.delivered ≤ x.used → x.ring + 2 ^ x.ringLog ≤ 0x70000 → OutCalm s e (xReg s e rs1 % 8) → (∀ c, execOf s e = some c → hostOpen s c.cmd.mid = false) →
            Does (.wsVpush e rd_ rs2 rs1 vm) s [.grv, .mem] fun u => WsGives s u e rd_ d.length (Tbl.put (engOf s e).streams (xReg s e rs1 % 8) { x with used := x.used + d.length }) (engOf s e).jobs
              ∧ ringBytes u e x x.used d.length = d ∧ MemOnly (tileBase e + x.ring) (2 ^ x.ringLog) s u)
          ∧ (x.avail < d.length → d.length ≤ 2 ^ x.ringLog → x.used + d.length ≤ x.len → x.typ = .hostOut → OutCalm s e (xReg s e rs1 % 8) → (∀ c, execOf s e = some c → hostOpen s c.cmd.mid = false) →
            Does (.wsVpush e rd_ rs2 rs1 vm) s [.grv] fun u => WsHolds s u e (.vpush rd_ rs2 (xReg s e rs1 % 8) vm)))
      ∧ (s.win.queue = [] → (∀ d ∈ s.grv.dirty, d.1 ≠ e.val / 16 ∨ d.2.2.testBit (e % 16) = false) → Does (.wsWsync e rd_) s [.grv] fun u => WsJust s u e rd_ 0))
    ∧ (∀ (s : State) (e : Fin 256) (rd_ k n : Nat) (x : Stream), engLive s e = true → (engOf s e).ending = none → (engOf s e).wait = some (.wait rd_ k n) → strOf s e k = some x → x.code = 0 →
      (n ≤ x.avail ∨ x.eos = true → Does (.waisetWaitEnd e) s [.grv] fun u => xReg u e rd_ = (if rd_ = 0 then 0 else x.avail % 2 ^ 64) ∧ (engOf u e).wait = none
        ∧ (engOf u e).pc = ((engOf s e).pc + 4) % 2 ^ 64 ∧ (engOf u e).streams = (engOf s e).streams)
      ∧ (x.avail < n → x.eos = false → Does (.waisetWaitEnd e) s [.grv] fun u => engOf u e = engOf s e ∧ EngOnly s u e))
    ∧ (∀ (s : State) (e : Fin 256) (rd_ rs1 rs2 : Fin 32) (w : Waiting) (i : Instr) (k n : Nat), (engOf s e).ending = none → (engOf s e).wait = some w →
      ((w = .wait rd_ k n ∧ i = .wsWait e rd_ rs1 rs2 ∧ xReg s e rs1 % 8 = k ∧ xReg s e rs2 = n) ∨ (w = .close rd_ k ∧ i = .wsClose e rd_ rs1 ∧ xReg s e rs1 % 8 = k)
        ∨ (w = .jwait rd_ k ∧ i = .wsJwait e rd_ rs1 ∧ xReg s e rs1 = k) ∨ (w = .vpop rd_ k ∧ i = .wsVpop e rd_ rs1 ∧ xReg s e rs1 % 8 = k) ∨ (w = .wsync rd_ ∧ i = .wsWsync e rd_)) →
      exec (.waisetWaitEnd e) s = exec i (setEng s e { engOf s e with wait := none }))
    ∧ ∀ (s : State) (e : Fin 256), (engOf s e).ending = none → (engOf s e).wait = none → Does (.waisetWaitEnd e) s [] fun _ => True

/-- STREAM_MU_DELIVERED, JOB_COMPLETE, ECALL_EXIT, ECALL_LOG, U_MODE_EXCEPTION, M_MODE_EXCEPTION, CSR_WSNOTIFY_WRITE, CSR_WSULIM_WRITE, CSR_WSIPC_WRITE,
U_CYCLE_LIMIT, RUNTIME_END_TIMEOUT, GRV_DOORBELL, GRV_KILL, GRV_RETIRE, GRV_ENG_ASSIGN_WRITE, ENGINE_SCRUB_DONE and GRV_SLM_TAG_WRITE (R379 to R384, R392, R396, R402 to
R404, R407, R410 to R412). How the command of a killed or retired program ends is the model's reading (log entries 64 and 93). -/
def Obligations.EngineStates : Prop :=
  (∀ (s : State) (e : Fin 256) (k : Fin 8) (x : Stream) (r : InnerRead), LbaTurn s e k x r → s.bpm.waiters = [] →
      (r.st = .data → (∀ b, dramMayAll (turned s b) (engWho s e) .read [(r.buf, 4096)] = (true, turned s b)) → (bufAt s r.buf).isSome = true → x.asked = x.len → r.data.length = 4096 → r.off + r.len ≤ 4096 →
        Serves (.streamMuDelivered e k false) s [.grv, .mem, .bpm, .regs] fun u => strOf u e k = some { x with delivered := x.delivered + r.len } ∧ (engOf u e).pc = (engOf s e).pc
          ∧ ringBytes u e x x.delivered r.len = (r.data.drop r.off).take r.len ∧ MemOnly (tileBase e + x.ring) (2 ^ x.ringLog) s u ∧ Counted s u (engRgn e) 0x120 ∧ rdOf u r.id = none)
      ∧ ∀ st, r.st = .failed st → Serves (.streamMuDelivered e k false) s [.grv, .mem, .bpm, .regs] fun u =>
          strOf u e k = some { x with code := if st = stUnrecRead then 4 else 3, stopped := true, errPos := strFirst s x }
            ∧ memReadN u (tileBase e + x.desc + 32) 16 = leBytes 8 x.delivered ++ leBytes 8 (strFirst s x) ∧ MemOnly (tileBase e + x.desc + 32) 16 s u)
    ∧ (∀ (s : State) (e : Fin 256) (k : Fin 8) (x : Stream) (r : InnerRead), LbaTurn s e k x r → r.st = .data → (∀ b, dramMayAll (turned s b) (engWho s e) .read [(r.buf, 4096)] = (true, turned s b)) → r.data.length = 4096 →
      r.off + r.len ≤ 4096 → Serves (.streamMuDelivered e k false) s moveParts fun u => ∃ a, strOf u e k = some { x with delivered := x.delivered + r.len, asked := a })
    ∧ (∀ (s : State) (e : Fin 256) (k : Fin 8) (x : Stream), strOf s e k = some x →
      (¬ StrTurn s e k → Serves (.streamMuDelivered e k false) s [] fun _ => True)
      ∧ (StrTurn s e k → x.typ = .lbaIn → strMay s e x = false → Serves (.streamMuDelivered e k false) s moveParts fun u =>
        strOf u e k = some { x with code := 3, stopped := true, errPos := strFirst s x })
      ∧ (∀ a n d, StrTurn s e k → a = x.start + x.delivered → n = x.len - x.delivered → n ≤ 64 - a % 64 →
        (x.typ = .slmIn → (gatePass s e (0x20000000000 + a) n = true → (∀ b, busRead (turned s b) (engWho s e) (slmBase s (e / 16 : Nat) + a) n = (.ok, d, turned s b)) → d.length = n →
            Serves (.streamMuDelivered e k false) s [.grv, .mem] fun u => strOf u e k = some { x with delivered := x.len } ∧ ringBytes u e x x.delivered n = d
              ∧ MemOnly (tileBase e + x.ring) (2 ^ x.ringLog) s u)
          ∧ (gatePass s e (0x20000000000 + a) n = false → Serves (.streamMuDelivered e k false) s moveParts fun u =>
            strOf u e k = some { x with code := 3, stopped := true, errPos := a } ∧ Counted s u (engRgn e) 0x12C))
        ∧ (x.typ = .winIn → gatePass s e (0x10000000000 + a) n = true → s.win.queue = [] → s.win.state ≠ 0 → pendOf s (a / 64) = none → sfA s (a / 64) = false → (∀ b, WinBytes (turned s b) (a / 64) d) →
          d.length = 64 → Serves (.streamMuDelivered e k false) s [.grv, .mem, .win] fun u => strOf u e k = some { x with delivered := x.len }
            ∧ ringBytes u e x x.delivered n = (d.drop (a % 64)).take n ∧ MemOnly (tileBase e + x.ring) (2 ^ x.ringLog) s u ∧ u.win.sf = s.win.sf ∧ u.win.queue = []))
      ∧ ((rdsOf s (.stream e k)).find? (fun r => !r.st.ended) = none → Serves (.streamMuDelivered e k true) s [] fun _ => True)
      ∧ ∀ r, (rdsOf s (.stream e k)).find? (fun r => !r.st.ended) = some r → rdOf s r.id = some r →
        (rdF s 0x1A (0x1000 + 4 * (r.nsid - 1)) 15 0 = 0 → Serves (.streamMuDelivered e k true) s [] fun _ => True)
        ∧ (rdF s 0x1A (0x1000 + 4 * (r.nsid - 1)) 15 0 ≠ 0 → Serves (.streamMuDelivered e k true) s moveParts fun u => (rdOf u r.id).map (·.st) = some (.failed stUnrecRead)))
    ∧ (∀ (s : State) (g i : Fin 16) (unit : Fin 2) (t : Nat) (j : Job) (p q : Nat) (d : List Byte), (∀ m : Fin 16, m ≠ i → ∀ y ∈ (engOf s (g * 16 + m : Nat)).jobs, y.2.unit = unit.val → y.2.result.isSome = true) →
      (engOf s (g * 16 + i : Nat)).jobs.find? (fun y => y.2.unit = unit.val && y.2.result.isNone) = some (t, j) →
      localAddr s (g * 16 + i : Nat) j.src j.srcLen = some p → localAddr s (g * 16 + i : Nat) j.dst j.dstCap = some q → d.length ≤ j.dstCap →
      ((unit = 0 ∧ (∃ c, Config.codec j.op j.level (memReadN s p j.srcLen) = (c, d) ∧ (j.op = 1 → c % 3 = 0) ∧ (j.op = 3 → c % 2 = 0)))
        ∨ (unit = 1 ∧ j.flags = 3 ∧ (j.op = 8 ∨ j.op = 9 ∨ j.op = 10)
          ∧ d = (if j.op = 8 then sha256 (memReadN s p j.srcLen) else if j.op = 9 then sha3 (memReadN s p j.srcLen) else leBytes 4 (crc32c (memReadN s p j.srcLen)))
          ∧ d.length = (if j.op = 10 then 4 else 32))) →
      Does (.jobComplete g unit) s [.grv, .mem, .regs] fun u => memReadN u q d.length = d ∧ MemOnly q d.length s u ∧ (∀ m, m ≠ (g * 16 + i : Nat) → engOf u m = engOf s m)
        ∧ engOf u (g * 16 + i : Nat) = { engOf s (g * 16 + i : Nat) with jobs := Tbl.put (engOf s (g * 16 + i : Nat)).jobs t { j with result := some d.length } }
        ∧ Counted s u (0x40 + g : Nat) (if unit = 0 then 0x124 else 0x128))
    ∧ (∀ (s : State) (g i : Fin 16) (t : Nat) (j : Job) (p q v : Nat), (∀ m : Fin 16, m ≠ i → ∀ y ∈ (engOf s (g * 16 + m : Nat)).jobs, y.2.unit = 0 → y.2.result.isSome = true) →
      (engOf s (g * 16 + i : Nat)).jobs.find? (fun y => y.2.unit = 0 && y.2.result.isNone) = some (t, j) →
      localAddr s (g * 16 + i : Nat) j.src j.srcLen = some p → localAddr s (g * 16 + i : Nat) j.dst j.dstCap = some q →
      (let c := Config.codec j.op j.level (memReadN s p j.srcLen)
       (j.op = 1 ∧ c.1 % 3 = 1 ∧ v = 7) ∨ (j.op = 1 ∧ c.1 % 3 = 2 ∧ v = 9) ∨ (j.op = 3 ∧ c.1 % 2 = 1 ∧ v = 7) ∨ (j.op ≠ 1 ∧ j.op ≠ 3 ∧ j.dstCap < c.2.length ∧ v = 8)) →
      Does (.jobComplete g 0) s [.grv, .mem, .regs, .freeCtr] fun u => MemOnly q j.dstCap s u ∧ (∀ m, m ≠ (g * 16 + i : Nat) → engOf u m = engOf s m)
        ∧ engOf u (g * 16 + i : Nat) = { engOf s (g * 16 + i : Nat) with jobs := Tbl.put (engOf s (g * 16 + i : Nat)).jobs t { j with result := some (2 ^ 64 - v) } }
        ∧ Counted s u (0x40 + g : Nat) 0x124)
    ∧ (∀ (s : State) (g : Fin 16) (unit : Fin 2), (∀ m : Fin 16, ∀ y ∈ (engOf s (g * 16 + m : Nat)).jobs, y.2.unit = unit.val → y.2.result.isSome = true) →
      Does (.jobComplete g unit) s [] fun _ => True)
    ∧ (∀ (s : State) (e : Fin 256) (c : CmdId), Runs s e c →
      ((engOf s e).aborting = false → (xReg s e 17 = 0 → Does (.ecallExit e) s [.grv, .hqe] fun u => ProgEnds s u e c stOk (xReg s e 10 % 2 ^ 32) 0)
        ∧ (∀ cause, Does (.uModeException e cause false) s [.grv, .hqe] fun u => ProgEnds s u e c stOk 0 (1 + cause % 65536 * 65536))
        ∧ (∀ cause, (cause = 17 ∨ cause = 18 → (engOf s e).mip.testBit cause = false) → Does (.uModeException e cause true) s [] fun _ => True)
        ∧ (∀ t code dw0 cause, t = setEng s e { engOf s e with umode := false, ending := some (code, dw0, cause) } → Does (.waisetWaitEnd e) t [.grv, .hqe] fun u => ProgEnds t u e c stOk dw0 (code + cause * 65536))
        ∧ ((engOf s e).mip.testBit 18 = true → Does (.uModeException e 18 true) s [.grv, .hqe] fun u => ProgEnds s u e c stOk 0 2)
        ∧ (∀ v, ∀ i ∈ ([.csrWsnotifyWrite e v, .csrWsulimWrite e v, .csrWsipcWrite e v] : List Instr), Does i s [.grv, .hqe] fun u => ProgEnds s u e c stOk 0 (1 + 2 * 65536)))
      ∧ ((engOf s e).mip.testBit 17 = true → Does (.uModeException e 17 true) s [.grv, .hqe] fun u => ProgEnds s u e c stAborted 0 0)
      ∧ (xReg s e 17 = 1 → ∀ n, n = min 48 (xReg s e 11) → xReg s e 10 + n ≤ 0x80000 → Does (.ecallLog e) s [.grv, .evq] fun u =>
        engOf u e = { engOf s e with pc := ((engOf s e).pc + 4) % 2 ^ 64, wait := none } ∧ EngOnly s u e
          ∧ ∃ v, u.evq = s.evq ++ [v] ∧ v.code = 0xA003 ∧ v.sev = sevInfo ∧ v.detail = memReadN s (tileBase e + xReg s e 10) n)
      ∧ ((engOf s e).ulim ≠ 0 → Does (.uCycleLimit e) s [.grv, .regs] fun u => engOf u e = { engOf s e with ucyc := (engOf s e).ulim, mip := (engOf s e).mip ||| 2 ^ 18 } ∧ EngOnly s u e
        ∧ Word.bit (rd u (engRgn e) 0x18) 4 = true ∧ RegsOnly [(engRgn e, 0x18)] s u)
      ∧ (∀ who st dw1, ((engOf s e).aborting = true ∧ st = stAborted ∧ dw1 = 0)
          ∨ ((engOf s e).aborting = false ∧ st = stOk ∧ dw1 = (if (engOf s e).mip.testBit 18 then 2 else 3)) →
        ∀ i ∈ ([.grvKill who e, .runtimeEndTimeout e] : List Instr), (i = .grvKill who e → Admits s who (engRgn e) (0x1004 + 64 * (e % 16)) 2) →
          (i = .runtimeEndTimeout e → (engOf s e).mip.testBit 17 = true ∨ (engOf s e).mip.testBit 18 = true) → Does i s [.resp, .grv, .hqe, .win] fun u =>
            (engOf u e).st = .scrubbing ∧ (engOf u e).target = some (engOf s e).tenant ∧ (engOf u e).leaving = false ∧ (engOf u e).prog = none
            ∧ (∀ j, j ≠ e.val → engOf u j = engOf s j) ∧ ∃ x, ctxOf u c = some x ∧ x.stage = .done ∧ x.status = some st ∧ x.dw0 = 0 ∧ x.dw1 = dw1)
      ∧ ∀ who, Admits s who (engRgn e) (0x1004 + 64 * (e % 16)) 4 → Does (.grvRetire who e) s [.resp, .grv] fun u =>
        engOf u e = { engOf s e with mip := (engOf s e).mip ||| 2 ^ 17, aborting := true, retiring := true } ∧ EngOnly s u e)
    ∧ (∀ (s : State) (who : Who) (e : Fin 256) (v : Nat),
      (engLive s e = true → (engOf s e).umode = false → (engOf s e).prog = none → ∀ cause mepc, Does (.mModeException e cause mepc) s [.grv, .regs, .evq] fun u =>
        EngHalts s u e cause mepc ∧ ∃ x, u.evq = s.evq ++ [x] ∧ x.code = 0xA001 ∧ x.sev = sevCritical)
      ∧ (engLive s e = true → (engOf s e).umode = false → (engOf s e).aborting = false → (engOf s e).retiring = false → ∀ w x y, (engOf s e).prog = some w → execOf s e = some x → ctxOf s x.cmd = some y →
        y.stage ≠ .done → ∀ cause mepc, Does (.mModeException e cause mepc) s [.grv, .regs, .evq, .hqe] fun u => (engOf u e).halted = true ∧ (engOf u e).st = (engOf s e).st
          ∧ ∃ z, ctxOf u x.cmd = some z ∧ z.stage = .done ∧ z.status = some stOk ∧ z.dw0 = 0 ∧ z.dw1 = 3)
      ∧ (engLive s e = true → (engOf s e).umode = false → (engOf s e).wait = none →
        (Does (.csrWsnotifyWrite e v) s [.grv, .regs] fun u => WsJust s u e 0 0 ∧ rd u (engRgn e) (0x100C + 64 * (e % 16)) = w32 v ∧ Word.bit (rd u (engRgn e) 0x18) 1 = true
          ∧ RegsOnly [(engRgn e, 0x100C + 64 * (e % 16)), (engRgn e, 0x18)] s u)
        ∧ (Does (.csrWsulimWrite e v) s [.grv] fun u => engOf u e = { engOf s e with ulim := v % 2 ^ 64, pc := ((engOf s e).pc + 4) % 2 ^ 64 } ∧ EngOnly s u e)
        ∧ (Does (.csrWsipcWrite e v) s [.grv] fun u => engOf u e = { engOf s e with mip := (engOf u e).mip, pc := ((engOf s e).pc + 4) % 2 ^ 64 } ∧ EngOnly s u e
          ∧ ∀ b ∈ [16, 17, 18], (engOf u e).mip.testBit b = ((engOf s e).mip.testBit b && !v.testBit b)))
      ∧ (Admits s who (engRgn e) (0x1004 + 64 * (e % 16)) 1 → Does (.grvDoorbell who e) s [.resp, .grv] fun u =>
        engOf u e = { engOf s e with mip := (engOf s e).mip ||| 2 ^ 16 } ∧ EngOnly s u e)
      ∧ (Admits s who (engRgn e) (0x1004 + 64 * (e % 16)) 2 → (engOf s e).st = .assigned → (engOf s e).halted = true → (engOf s e).prog = none → s.win.queue = [] →
        Does (.grvKill who e) s [.resp, .grv, .win] fun u => (engOf u e).st = .scrubbing ∧ (engOf u e).target = some (engOf s e).tenant ∧ EngOnly s u e)
      ∧ (s.dev.fault = true ∨ (engOf s e).st ≠ .running ∨ (engOf s e).mip.testBit 17 = false ∧ (engOf s e).mip.testBit 18 = false → Does (.runtimeEndTimeout e) s [] fun _ => True)
      ∧ (Admits s who (engRgn e) (0x1004 + 64 * (e % 16)) 2 → (engOf s e).st = .free ∨ (engOf s e).st = .scrubbing ∨ (engOf s e).st = .retired → Does (.grvKill who e) s [.resp] fun _ => True)
      ∧ (Admits s who (engRgn e) (0x1004 + 64 * (e % 16)) 4 → (engOf s e).st ≠ .running → (engOf s e).st ≠ .retired → Does (.grvRetire who e) s [.resp, .grv, .regs] fun u =>
        (engOf u e).st = .retired ∧ EngOnly s u e ∧ Word.bit (rd u (engRgn e) 0x18) 5 = true ∧ RegsOnly [(engRgn e, 0x18)] s u)
      ∧ ∀ w : Word, Admits s who (engRgn e) (0x1008 + 64 * (e % 16)) w → rd s (engRgn e) 0x28 = 0 →
        ((engOf s e).st = .running ∨ (Word.bit w 15 = true ∧ isReady s (engRgn e) = false) → Does (.grvEngAssignWrite who e w) s [.resp, .regs] fun u =>
          rd u (engRgn e) (0x1008 + 64 * (e % 16)) = rd s (engRgn e) (0x1008 + 64 * (e % 16)) ∧ Word.bit (rd u (engRgn e) 0x28) 16 = true)
        ∧ ((engOf s e).st = .free → Word.bit w 15 = true → isReady s (engRgn e) = true → Does (.grvEngAssignWrite who e w) s [.resp, .regs, .grv, .win] fun u =>
          inSet u e (Word.fld w 8 0) = true ∧ (engOf u e).st = .scrubbing ∧ (engOf u e).target = some (Word.fld w 8 0) ∧ EngOnly s u e
            ∧ RegsOnly [(engRgn e, 0x1008 + 64 * (e % 16))] s u)
        ∧ ((engOf s e).st = .assigned → Word.bit w 15 = false → Does (.grvEngAssignWrite who e w) s [.resp, .regs, .grv, .win] fun u =>
          rd u (engRgn e) (0x1008 + 64 * (e % 16)) = 0 ∧ (engOf u e).st = .scrubbing ∧ (engOf u e).target = none ∧ (engOf u e).leaving = true ∧ EngOnly s u e)
        ∧ ((engOf s e).st = .retired → (Word.bit w 15 = true → isReady s (engRgn e) = true) → Does (.grvEngAssignWrite who e w) s [.resp, .regs, .grv] fun u =>
          rd u (engRgn e) (0x1008 + 64 * (e % 16)) = (if Word.bit w 15 then w32 (Word.fld w 8 0 + 2 ^ 15) else 0) ∧ (engOf u e).st = .retired ∧ EngOnly s u e))
    ∧ (∀ (s : State) (e : Fin 256), (engOf s e).st ≠ .scrubbing → Does (.engineScrubDone e) s [] fun _ => True)
    ∧ (∀ (s : State) (e : Fin 256) (b n : Nat), (engOf s e).st = .scrubbing → s.grv.lineTen = [] → b = rdF s (engRgn e) 0x100 31 16 * 65536 + rdF s (engRgn e) 0x104 15 0 * 2 ^ 32 →
      n = min (rdF s (engRgn e) 0x108 16 0) 65536 → (b + n ≤ 2 ^ 37 ∨ 2 ^ 38 ≤ b) → Does (.engineScrubDone e) s [.grv, .mem, .regs] fun u =>
        engOf u e = (match (engOf s e).target with | some t => { st := .assigned, tenant := t } | none => {}) ∧ EngOnly s u e
        ∧ (∀ i, i < 0x70000 → memRead u (tileBase e + i) = 0) ∧ memReadN u (tileBase e + 0x70000) n = memReadN s b n
        ∧ ((engOf s e).leaving = true → ∀ i, i < 0x80000 → memRead u (0x2000000000 + e / 16 * 0x1000000 + 0x800000 + e % 16 * 0x80000 + i) = 0)
        ∧ ((engOf s e).leaving = false → MemOnly (tileBase e) 0x80000 s u) ∧ Counted s u (engRgn e) 0x130 ∧ Word.bit (rd u (engRgn e) 0x18) 3 = true
        ∧ RegsOnly [(engRgn e, 0x130), (engRgn e, 0x18)] s u)
    ∧ ∀ (s : State) (who : Who) (g : Fin 16) (k : Fin 4096) (v : Word), Admits s who (0x40 + g : Nat) (0x3000 + 4 * k) v →
      (2 * k + 1 < slmBlocks s g ∨ (2 * k < slmBlocks s g ∧ Word.bit v 31 = false) → Does (.grvSlmTagWrite who g k v) s [.resp, .regs] fun u =>
        rd u (0x40 + g : Nat) (0x3000 + 4 * k) = v &&& 0x81FF81FF ∧ RegsOnly [((0x40 + g : Nat), 0x3000 + 4 * k)] s u)
      ∧ (slmBlocks s g ≤ 2 * k ∨ slmBlocks s g = 2 * k + 1 ∧ Word.bit v 31 = true → rd s (0x40 + g : Nat) 0x28 = 0 → Does (.grvSlmTagWrite who g k v) s [.resp, .regs] fun u =>
        rd u (0x40 + g : Nat) (0x3000 + 4 * k) = rd s (0x40 + g : Nat) (0x3000 + 4 * k) ∧ Word.bit (rd u (0x40 + g : Nat) 0x28) 16 = true)

/-- LOAD_PROGRAM, PROGRAM_ACTIVATION_MANAGEMENT, EXECUTE_PROGRAM, PROGRAM_DISPATCH, MEMORY_RANGE_SET_MANAGEMENT, MEMORY_COPY, SLM_READ and SLM_WRITE (R399 to
R405). The places of slot, flags and ranges in the commands are the model's readings (log entry 65). -/
def Obligations.ComputationalPrograms : Prop :=
  (∀ (s : State) (c : CmdId) (x : Ctx), (nsOf s x.sqe.nsid = none ∨ ∃ n, nsOf s x.sqe.nsid = some n ∧ (n.kind ≠ .compute ∨ c.mid ∉ n.attached ∨ n.deleting.isSome = true)) →
      (CmdReady s c true 0x85 x → Serves (.loadProgram c) s [.hqe] fun u => Ends s u c x stInvalidNs 0 0)
      ∧ (CmdReady s c true 0x88 x → Does (.programActivationManagement c) s [.hqe] fun u => Ends s u c x stInvalidNs 0 0)
      ∧ (CmdReady s c true 0x89 x → Does (.memoryRangeSetManagement c) s [.hqe] fun u => Ends s u c x stInvalidNs 0 0)
      ∧ (CmdReady s c false 0x01 x → (∀ n, nsOf s x.sqe.nsid = some n → n.kind = .compute) → ∀ l, Does (.executeProgram c l) s [.hqe] fun u => Ends s u c x stInvalidNs 0 0))
    ∧ (∀ (s : State) (c : CmdId) (x : Ctx) (n : Ns) (key : Nat), key = x.sqe.nsid * 64 + Word.fld x.sqe.cdw10 15 0 →
    (CompReady s c true 0x85 x n →
      (63 < Word.fld x.sqe.cdw10 15 0 → Serves (.loadProgram c) s [.hqe] fun u => Ends s u c x stInvalidField 0 0)
      ∧ (∀ p, Word.fld x.sqe.cdw10 15 0 ≤ 63 → Tbl.find s.grv.progs key = some p → p.active = true → Serves (.loadProgram c) s [.hqe] fun u => Ends s u c x stSequence 0 0)
      ∧ (Word.fld x.sqe.cdw10 15 0 ≤ 63 → (∀ p, Tbl.find s.grv.progs key = some p → p.active = false) → Word.bit x.sqe.cdw10 24 = false → imageRefusal s x.data ≠ 0 →
        Serves (.loadProgram c) s [.hqe, .evq, .freeCtr] fun u => Ends s u c x stInvalidField 0 0 ∧ ∃ v, u.evq = s.evq ++ [v] ∧ v.code = 0xA002 ∧ v.tenant = some n.owner)
      ∧ (∀ l t v, Word.fld x.sqe.cdw10 15 0 ≤ 63 → (∀ p, Tbl.find s.grv.progs key = some p → p.active = false) → Word.bit x.sqe.cdw10 24 = false → imageRefusal s x.data = 0 →
        takeBufs s (ownerOf s n.owner) [] (ceilDiv x.data.length (2 ^ clsLog s 4)) = (some l, t) →
        v = (((Tbl.find s.grv.progs key).map (·.bufs)).getD []).foldl bpmFree { t with grv := { t.grv with progs := Tbl.put t.grv.progs key { image := x.data, bufs := l } } } →
        KeepsBut [.bpm, .regs, .freeCtr, .dmc, .mem] s t → KeepsBut [.bpm, .regs, .freeCtr, .dmc, .mem, .grv] s v →
        Serves (.loadProgram c) s [.hqe, .grv, .bpm, .regs, .freeCtr, .dmc, .mem] fun u => Ends s u c x stOk 0 0 ∧ u.grv = v.grv ∧ u.bpm = v.bpm
          ∧ (Tbl.find s.grv.progs key = none → Tbl.find u.grv.progs key = some { image := x.data, bufs := l }))
      ∧ (∀ l, Word.fld x.sqe.cdw10 15 0 ≤ 63 → (∀ p, Tbl.find s.grv.progs key = some p → p.active = false) → Word.bit x.sqe.cdw10 24 = false → imageRefusal s x.data = 0 →
        takeBufs s (ownerOf s n.owner) [] (ceilDiv x.data.length (2 ^ clsLog s 4)) = (none, l) → Serves (.loadProgram c) s [] fun _ => True)
      ∧ (∀ p t, Word.fld x.sqe.cdw10 15 0 ≤ 63 → Tbl.find s.grv.progs key = some p → p.active = false → Word.bit x.sqe.cdw10 24 = true →
        t = p.bufs.foldl bpmFree { s with grv := { s.grv with progs := Tbl.del s.grv.progs key } } → KeepsBut [.bpm, .regs, .grv] s t → Serves (.loadProgram c) s [.hqe, .grv, .bpm, .regs] fun u =>
          Ends s u c x stOk 0 0 ∧ u.grv = t.grv ∧ u.bpm = t.bpm))
    ∧ (CompReady s c true 0x88 x n →
      (Tbl.find s.grv.progs key = none ∨ 63 < Word.fld x.sqe.cdw10 15 0 ∨ 1 < Word.fld x.sqe.cdw10 19 16 → Does (.programActivationManagement c) s [.hqe] fun u => Ends s u c x stInvalidField 0 0)
      ∧ ∀ p, Tbl.find s.grv.progs key = some p → Word.fld x.sqe.cdw10 15 0 ≤ 63 → Word.fld x.sqe.cdw10 19 16 ≤ 1 → Does (.programActivationManagement c) s [.hqe, .grv] fun u =>
        Ends s u c x stOk 0 0 ∧ u.grv = { s.grv with progs := Tbl.put s.grv.progs key { p with active := Word.fld x.sqe.cdw10 19 16 = 1 } })
    ∧ (CompReady s c false 0x01 x n → ∀ params : List Byte,
      ((∀ p, Tbl.find s.grv.progs key = some p → p.active = false) ∨ 32 < params.length ∨ 63 < Word.fld x.sqe.cdw10 15 0
          ∨ (Word.fld x.sqe.cdw10 31 16 ≠ 0 ∧ Tbl.find s.grv.rsets (x.sqe.nsid * 65536 + Word.fld x.sqe.cdw10 31 16) = none) → Does (.executeProgram c params) s [.hqe] fun u => Ends s u c x stInvalidField 0 0)
      ∧ (∀ p, Tbl.find s.grv.progs key = some p → p.active = true → Word.fld x.sqe.cdw10 15 0 ≤ 63 → params.length ≤ 32 →
        (Word.fld x.sqe.cdw10 31 16 = 0 ∨ (Tbl.find s.grv.rsets (x.sqe.nsid * 65536 + Word.fld x.sqe.cdw10 31 16)).isSome = true) →
        ((∀ e, e < 256 → inSet s e n.owner = true → (engOf s e).st = .retired) → Does (.executeProgram c params) s [.hqe] fun u => Ends s u c x stNsNotReady 0 0)
        ∧ (∀ e, e < 256 → inSet s e n.owner = true → (engOf s e).st ≠ .retired → Does (.executeProgram c params) s [.hqe, .grv] fun u =>
          ctxOf u c = some { x with stage := .waiting } ∧ (∀ d, d ≠ c → ctxOf u d = ctxOf s d)
            ∧ u.grv = { s.grv with execs := s.grv.execs ++ [⟨c, x.sqe.nsid, Word.fld x.sqe.cdw10 15 0, params, Word.fld x.sqe.cdw10 31 16, x.sqe.cdw12.toNat, none, []⟩] })))
    ∧ (CompReady s c true 0x89 x n →
      (Word.fld x.sqe.cdw10 3 0 = 0 → 8 < Word.fld x.sqe.cdw11 7 0 ∨ (∃ i, i < Word.fld x.sqe.cdw11 7 0 ∧ rangeOk s n.owner (rangeAt x.data i) = false) →
        Does (.memoryRangeSetManagement c) s [.hqe] fun u => Ends s u c x stInvalidField 0 0)
      ∧ (Word.fld x.sqe.cdw10 3 0 = 0 → Word.fld x.sqe.cdw11 7 0 ≤ 8 → (∀ i, i < Word.fld x.sqe.cdw11 7 0 → rangeOk s n.owner (rangeAt x.data i) = true) →
        Does (.memoryRangeSetManagement c) s [.hqe, .grv] fun u => ∃ id, 1 ≤ id ∧ Ends s u c x stOk id 0 ∧ Tbl.find s.grv.rsets (x.sqe.nsid * 65536 + id) = none
          ∧ u.grv = { s.grv with rsets := Tbl.put s.grv.rsets (x.sqe.nsid * 65536 + id) ⟨(List.range (Word.fld x.sqe.cdw11 7 0)).map (rangeAt x.data)⟩ })
      ∧ (Word.fld x.sqe.cdw10 3 0 = 1 → (Tbl.find s.grv.rsets (x.sqe.nsid * 65536 + Word.fld x.sqe.cdw10 31 16)).isSome = true → Does (.memoryRangeSetManagement c) s [.hqe, .grv] fun u =>
          Ends s u c x stOk 0 0 ∧ u.grv = { s.grv with rsets := Tbl.del s.grv.rsets (x.sqe.nsid * 65536 + Word.fld x.sqe.cdw10 31 16) })
      ∧ (1 < Word.fld x.sqe.cdw10 3 0 ∨ (Word.fld x.sqe.cdw10 3 0 = 1 ∧ Tbl.find s.grv.rsets (x.sqe.nsid * 65536 + Word.fld x.sqe.cdw10 31 16) = none) →
        Does (.memoryRangeSetManagement c) s [.hqe] fun u => Ends s u c x stInvalidField 0 0)))
    ∧ (∀ (s : State) (c : CmdId), (s.grv.execs.find? (fun y => y.cmd = c) = none ∨ ∃ w, s.grv.execs.find? (fun y => y.cmd = c) = some w ∧ w.engine.isSome = true) →
      Does (.programDispatch c) s [] fun _ => True)
    ∧ (∀ (s : State) (c : CmdId) (w : ExecCmd) (x : Ctx), s.grv.execs.find? (fun y => y.cmd = c) = some w → w.engine = none → ctxOf s c = some x → x.stage ≠ .done →
      (nsOf s w.nsid = none ∨ Tbl.find s.grv.progs (w.nsid * 64 + w.slot) = none) → Does (.programDispatch c) s [.hqe, .grv] fun u => Ends s u c x stInvalidField 0 0
        ∧ u.grv = { s.grv with execs := s.grv.execs.filter (·.cmd ≠ c) })
    ∧ (∀ (s : State) (c : CmdId) (w : ExecCmd) (x : Ctx) (n : Ns) (p : ProgSlot), s.grv.execs.find? (fun y => y.cmd = c) = some w → w.engine = none → ctxOf s c = some x → x.stage ≠ .done →
      nsOf s w.nsid = some n → Tbl.find s.grv.progs (w.nsid * 64 + w.slot) = some p →
      ((∀ e, e < 256 → inSet s e n.owner = true → (engOf s e).st = .retired) → Does (.programDispatch c) s [.hqe, .grv] fun u => Ends s u c x stNsNotReady 0 0
        ∧ u.grv = { s.grv with execs := s.grv.execs.filter (·.cmd ≠ c) })
      ∧ ((∃ e, e < 256 ∧ inSet s e n.owner = true ∧ (engOf s e).st ≠ .retired) → (∀ e, e < 256 → inSet s e n.owner = true → (engOf s e).st ≠ .assigned) → Does (.programDispatch c) s [] fun _ => True)
      ∧ ∀ e, e < 256 → inSet s e n.owner = true → (engOf s e).st = .assigned → (engOf s e).halted = false → s.dev.fault = false → isReady s (engRgn e) = true →
        (∀ j, j < e → Tbl.getD s.grv.rr (rrEng n.owner) 0 ≤ j → inSet s j n.owner = false) → Tbl.getD s.grv.rr (rrEng n.owner) 0 ≤ e →
        (16 < (progPmp s e p.image (rsetRanges s w.nsid w.rset)).length → Does (.programDispatch c) s [.hqe, .grv] fun u => Ends s u c x stInvalidField 0 0)
        ∧ ∀ y, (progPmp s e p.image (rsetRanges s w.nsid w.rset)).length ≤ 16 → loads p.image = [y] → 0x1000 ≤ y.vaddr → y.vaddr + y.memsz ≤ 0x70000 → y.filesz ≤ y.memsz →
          y.off + y.filesz ≤ p.image.length → w.params.length ≤ 32 → (rsetRanges s w.nsid w.rset).length ≤ 8 → Does (.programDispatch c) s [.grv, .mem, .freeCtr] fun u =>
            (engOf u e).st = .running ∧ (engOf u e).umode = true ∧ (engOf u e).pc = leAt p.image 24 8 ∧ (∀ r, xReg u e r = if r = 2 then 0x70000 else 0)
            ∧ (engOf u e).prog = some (w.nsid, w.slot, c) ∧ (engOf u e).ucyc = 0 ∧ (resUlim p.image ≠ 0 → (engOf u e).ulim = resUlim p.image % 2 ^ 64)
            ∧ (engOf u e).pmp = progPmp s e p.image (rsetRanges s w.nsid w.rset) ∧ (∀ j, j ≠ e → engOf u j = engOf s j)
            ∧ memReadN u (tileBase e) 256 = launchBlock s e w (rsetRanges s w.nsid w.rset)
            ∧ memReadN u (tileBase e + y.vaddr) y.memsz = (p.image.drop y.off).take y.filesz ++ List.replicate (y.memsz - y.filesz) 0 ∧ MemOnly (tileBase e) 0x80000 s u
            ∧ u.grv.execs.find? (fun z => z.cmd = c) = some { w with engine := some e } ∧ Tbl.getD u.grv.rr (rrEng n.owner) 0 = e + 1)
    ∧ (∀ (s : State) (c : CmdId) (x : Ctx) (m : Ns) (o len : Nat), nsOf s x.nsid = some m → m.kind = .memory → o = cdw64 x.sqe.cdw10 x.sqe.cdw11 →
      (len = x.sqe.cdw12.toNat → m.lbas < o + len → (CmdReady s c false 0x02 x → Serves (.slmRead c) s [.hqe] fun u => Ends s u c x stLbaRange 0 0)
        ∧ (CmdReady s c false 0x05 x → Serves (.slmWrite c) s [.hqe] fun u => Ends s u c x stLbaRange 0 0))
      ∧ (len = x.sqe.cdw12.toNat → o + len ≤ m.lbas →
        (∀ w b t, CmdReady s c false 0x02 x → busRead s ⟨c.mid, m.owner⟩ (slmAddr s m o) len = (w, b, t) → KeepsBut [.mem, .dmc, .regs, .evq, .trunk, .freeCtr] s t →
          Serves (.slmRead c) s [.hqe, .mem, .dmc, .regs, .evq, .trunk, .freeCtr] fun u => u.mem = t.mem ∧ (w = .ok → Gives s u c x b) ∧ (w = .denied → Ends s u c x stAccessDenied 0 0)
            ∧ (w = .poison → Ends s u c x stUnrecRead 0 0) ∧ (w ≠ .ok → w ≠ .denied → w ≠ .poison → Ends s u c x stInternal 0 0))
        ∧ ∀ w t, CmdReady s c false 0x05 x → busWrite s ⟨c.mid, m.owner⟩ (slmAddr s m o) (x.data.take len) = (w, t) → KeepsBut [.mem, .dmc, .regs, .evq, .trunk, .freeCtr] s t →
          Serves (.slmWrite c) s [.hqe, .mem, .dmc, .regs, .evq, .trunk, .freeCtr] fun u => u.mem = t.mem ∧ (w = .ok → Ends s u c x stOk 0 0) ∧ (w = .denied → Ends s u c x stAccessDenied 0 0)
            ∧ (w = .poison → Ends s u c x stUnrecRead 0 0) ∧ (w ≠ .ok → w ≠ .denied → w ≠ .poison → Ends s u c x stInternal 0 0))
      ∧ (CmdReady s c false 0x01 x → s.grv.copies.any (·.cmd = c) = false → Word.fld x.sqe.cdw12 7 0 = 0 → ∀ r : Nat × Nat × Nat, r = copyRange x.data 0 →
        (∀ st, copySource s c r = .error st → st ≠ stAccessDenied → Serves (.memoryCopy c) s [.hqe] fun u => Ends s u c x st 0 0)
        ∧ (copySource s c r = .error stAccessDenied → Serves (.memoryCopy c) s [.hqe, .regs] fun u => Ends s u c x stAccessDenied 0 0 ∧ Counted s u 0x0A 0x11C)
        ∧ ∀ n, nsOf s r.1 = some n → (match copySource s c r with | .ok k => k = n | .error _ => False) →
          (m.lbas < o + r.2.2 * lbaBytes n → Serves (.memoryCopy c) s [.hqe] fun u => Ends s u c x stLbaRange 0 0)
          ∧ ∀ g off k, o + r.2.2 * lbaBytes n ≤ m.lbas → copyParts s r = [(r.1, g, off, k)] → rdsOf s (.copy c) = [] →
            (∀ g h, bpmTry { s with grv := g, hqe := h } (ownerOf s x.tenant) 1 false = (none, { s with grv := g, hqe := h })) → Serves (.memoryCopy c) s [.hqe, .grv, .bpm] fun u => ctxOf u c = some { x with stage := .reading }
              ∧ (∃ w, u.bpm = { s.bpm with waiters := s.bpm.waiters ++ [w] } ∧ w.purpose = .read s.grv.nextRead ∧ w.cls = 1)
              ∧ u.grv = { s.grv with
                copies := s.grv.copies ++ [⟨c, [], o, (o, r.2.2 * lbaBytes n)⟩], nextRead := s.grv.nextRead + 1
                reads := s.grv.reads ++ [{ id := s.grv.nextRead, who := .copy c, tenant := x.tenant, nsid := r.1, gmu := g, off := off, len := k, cls := 2 }] }))
    ∧ ∀ (s : State) (c : CmdId) (x : Ctx) (m : Ns) (y : CopyRun) (r : InnerRead), ctxOf s c = some x → x.stage ≠ .done → nsOf s x.nsid = some m → s.grv.copies.find? (fun z => z.cmd = c) = some y →
      y.todo = [] → rdsOf s (.copy c) = [r] → rdOf s r.id = some r → s.bpm.waiters = [] →
      (r.st.ended = false → Serves (.memoryCopy c) s [] fun _ => True)
      ∧ (r.st = .data → ∀ t, busWrite s ⟨c.mid, m.owner⟩ (slmAddr s m y.dst) ((r.data.drop r.off).take r.len) = (.ok, t) → KeepsBut [.mem, .dmc, .regs] s t →
        RegsOnly [(0x1B, 0x12C), (0x1B, 0x130)] s t → Serves (.memoryCopy c) s [.hqe, .grv, .bpm, .mem, .dmc, .regs] fun u =>
          Ends s u c x stOk 0 0 ∧ u.mem = t.mem ∧ u.grv.copies = s.grv.copies.filter (·.cmd ≠ c) ∧ rdOf u r.id = none)
      ∧ (∀ st, r.st = .failed st → st ≠ stUnrecRead → Serves (.memoryCopy c) s [.hqe, .grv, .bpm, .regs] fun u =>
          Ends s u c x st 0 0 ∧ u.grv.copies = s.grv.copies.filter (·.cmd ≠ c) ∧ rdOf u r.id = none)
      ∧ (r.st = .failed stUnrecRead → ∀ t w, busWrite (freeBytes s y.all.2).2 ⟨c.mid, m.owner⟩ (slmAddr s m y.all.1) (freeBytes s y.all.2).1 = (w, t) →
        KeepsBut [.mem, .dmc, .regs, .freeCtr, .evq, .trunk] s t → RegsOnly [(0x1B, 0x12C), (0x1B, 0x130)] s t →
        Serves (.memoryCopy c) s [.hqe, .grv, .bpm, .mem, .dmc, .regs, .freeCtr, .evq, .trunk] fun u => Ends s u c x stUnrecRead 0 0 ∧ u.mem = t.mem)
/-! ### Cambium and the Seed domain -/

/-- VIN_START, SOFT_START_DONE, VIN_POWER_FAIL, VIN_OVER_VOLTAGE, FLUSH_COMPLETE, VIN_RETURN_BLEED, BLEED_END, RAIL_FAULT, BANK_CHARGED, VHOLD_SAG and CHARGER_FAULT (R442,
R444 to R446, R448, R455 to R459, R462, R467, R478, R479). How much of the flush the energy allows is the row's operand. -/
def Obligations.CambiumStates : Prop :=
  (∀ (s : State) (vin : Nat),
    (s.pwr.cstate = .off → vinOk s vin = true → s.pwr.trip = false → Does (.vinStart vin) s resetParts fun u => IsReset s u 1 []
      ∧ u.pwr.cstate = .softStart ∧ u.pwr.vin = vin ∧ u.pwr.chgFault = false ∧ u.pwr.measOk = false ∧ u.aon.onCell = false
      ∧ (s.aon.lost = false → u.aon.pwrcyc = s.aon.pwrcyc + 1 ∧ u.dev.rtc = s.dev.rtc ∧ u.dev.opsec = s.dev.opsec ∧ u.aon.ring = s.aon.ring ∧ u.aon.cntValid = s.aon.cntValid
          ∧ (s.aon.ring ≠ [] → Word.bit (rd u 0x03 0x18) 4 = true))
      ∧ (s.aon.lost = true → u.aon.rtcValid = false ∧ u.aon.cntValid = false ∧ u.aon.ring = [] ∧ u.dev.rtc = 0 ∧ u.dev.opsec = 0 ∧ u.aon.pwrcyc = 1))
    ∧ (vinOk s vin = true ↔ 8800 ≤ vin ∧ (s.pwr.plWhy = 2 → vin < 60000))
    ∧ (s.pwr.cstate ≠ .off ∨ vinOk s vin = false ∨ s.pwr.trip = true → Does (.vinStart vin) s [] fun _ => True)
    ∧ (∀ straps : Fin 128, (s.pwr.cstate = .softStart →
        (s.dev.rstn = false ∨ s.dev.started = true → Does (.softStartDone straps) s [.pwr, .regs, .dev] fun u => u.pwr = { s.pwr with cstate := .charging, rails := 0xFF7 }
          ∧ u.dev = { s.dev with pins := straps } ∧ Word.bit (rd u 0x02 0x18) 4 = true ∧ RegsOnly [(0x02, 0x18)] s u)
        ∧ (s.dev.rstn = true → s.dev.started = false → Does (.softStartDone straps) s [.pwr, .regs, .dev, .fus] fun u => u.pwr = { s.pwr with cstate := .charging, rails := 0xFF7 }
          ∧ u.dev = { s.dev with pins := straps, started := true, t0 := s.clock, straps := straps } ∧ rd u 0 0x110 = w32 straps ∧ rd u 0 0x114 = 0x7FF ∧ u.fus.sensing = true
          ∧ Word.bit (rd u 0x02 0x18) 4 = true ∧ RegsOnly [(0x02, 0x18), (0, 0x110), (0, 0x114)] s u))
      ∧ (s.pwr.cstate ≠ .softStart → Does (.softStartDone straps) s [] fun _ => True))
    ∧ (rdF s 0x02 0x114 15 0 ≤ vin → Does (.vinPowerFail vin) s [] fun _ => True) ∧ (vin ≤ 62000 → Does (.vinOverVoltage vin) s [] fun _ => True)
    ∧ (s.pwr.pl = true ∨ s.pwr.cstate = .off → (vin < rdF s 0x02 0x114 15 0 → Does (.vinPowerFail vin) s [.pwr] fun u => u.pwr = { s.pwr with vin := vin })
      ∧ (62000 < vin → Does (.vinOverVoltage vin) s [.pwr] fun u => u.pwr = { s.pwr with vin := vin, switchOpen := true }))
    ∧ (s.pwr.pl = false → s.pwr.cstate ≠ .off → s.pwr.flush = none → LossQuiet s →
      (vin < rdF s 0x02 0x114 15 0 → Does (.vinPowerFail vin) s lossParts fun u => LossBegins s u 1 false ∧ u.pwr.vin = vin)
      ∧ (62000 < vin → Does (.vinOverVoltage vin) s lossParts fun u => LossBegins s u 2 false ∧ u.pwr.vin = vin))
    ∧ (∀ f, s.pwr.pl = false → s.pwr.cstate ≠ .off → s.pwr.flush = some f → s.tap.run = none → s.bst.slices = [] →
      (vin < rdF s 0x02 0x114 15 0 → Does (.vinPowerFail vin) s [.pwr, .regs, .ports] fun u => LossJoins s u 1 f ∧ u.pwr.vin = vin)
      ∧ (62000 < vin → Does (.vinOverVoltage vin) s [.pwr, .regs, .ports] fun u => LossJoins s u 2 f ∧ u.pwr.vin = vin)))
    ∧ (∀ (s : State) (r : Fin 16),
      (r.val = 3 ∨ 12 ≤ r.val ∨ s.pwr.cstate = .off ∨ s.pwr.cstate = .bleed → Does (.railFault r) s [] fun _ => True)
      ∧ (s.pwr.cstate ≠ .off → s.pwr.cstate ≠ .bleed →
        Does (.railFault 0) s [.pwr, .regs, .evq] (fun u =>
          u.pwr = { s.pwr with railFault := s.pwr.railFault ||| 1, rails := u.pwr.rails } ∧ (∀ i, u.pwr.rails.testBit i = (decide (i ≠ 0) && s.pwr.rails.testBit i))
          ∧ Word.bit (rd u 0x02 0x18) 6 = true ∧ RegsOnly [(0x02, 0x18)] s u ∧ ∃ v, u.evq = s.evq ++ [v] ∧ v.code = 0x1001 ∧ v.sev = sevCritical ∧ v.detail = [0])
        ∧ (s.graft.trial = false ∨ s.dev.fault = true →
          (s.pwr.pl = false → s.pwr.flush = none → LossQuiet s →
            (r = 1 ∨ r = 2 → Does (.railFault r) s (.evq :: .dev :: lossParts) fun u => LossBegins s u 3 true ∧ FaultNow s u 2 ∧ RailOut s u r)
            ∧ (4 ≤ r.val → r.val < 12 → Does (.railFault r) s (.evq :: .dev :: lossParts) fun u => LossBegins s u 3 false ∧ FaultNow s u 2 ∧ RailOut s u (4 + r % 4) ∧ RailOut s u (8 + r % 4)
              ∧ ∃ f, u.pwr.flush = some f ∧ f.excluded = [r.val % 4]))
          ∧ (∀ f, s.pwr.pl = false → s.pwr.flush = some f → s.tap.run = none → s.bst.slices = [] →
            (r = 1 ∨ r = 2 → Does (.railFault r) s [.pwr, .regs, .evq, .dev, .ports] fun u => LossJoins s u 3 { f with dramLost := true } ∧ FaultNow s u 2 ∧ RailOut s u r)
            ∧ (4 ≤ r.val → r.val < 12 → Does (.railFault r) s [.pwr, .regs, .evq, .dev, .ports] fun u => FaultNow s u 2 ∧ RailOut s u (4 + r % 4) ∧ RailOut s u (8 + r % 4)
              ∧ ∃ l, LossJoins s u 3 { f with excluded := l } ∧ ∀ g, g ∈ l ↔ g = r.val % 4 ∨ g ∈ f.excluded))
          ∧ (s.pwr.pl = true →
            (r = 1 ∨ r = 2 → Does (.railFault r) s [.pwr, .regs, .evq, .dev, .ports] fun u => FaultNow s u 2 ∧ RailOut s u r
              ∧ u.pwr = { s.pwr with railFault := s.pwr.railFault ||| 2 ^ r.val, rails := u.pwr.rails, flush := s.pwr.flush.map fun f => { f with dramLost := true } })
            ∧ (4 ≤ r.val → r.val < 12 → Does (.railFault r) s [.pwr, .regs, .evq, .dev, .ports] fun u => FaultNow s u 2 ∧ RailOut s u (4 + r % 4) ∧ RailOut s u (8 + r % 4)
              ∧ u.pwr = { s.pwr with railFault := s.pwr.railFault ||| 2 ^ r.val, rails := u.pwr.rails, flush := u.pwr.flush } ∧ (s.pwr.flush = none → u.pwr.flush = none)
              ∧ ∀ f, s.pwr.flush = some f → ∃ l, u.pwr.flush = some { f with excluded := l } ∧ ∀ g, g ∈ l ↔ g = r.val % 4 ∨ g ∈ f.excluded)))))
    ∧ (∀ (s : State) (f : FlushRec) (index trailer vin : Bool) (n vhold dur : Nat), s.pwr.flush = some f →
      (f.void = true →
        ((f.reset = false ∨ s.pwr.pl = true) → vin = false ∨ s.pwr.trip = true → Does (.flushComplete index n trailer vhold dur vin) s [.pwr, .regs] fun u =>
          u.pwr = { s.pwr with flush := none, cstate := .bleed, rails := 0 })
        ∧ ((f.reset = false ∨ s.pwr.pl = true) → vin = true → s.pwr.trip = false → Does (.flushComplete index n trailer vhold dur vin) s resetParts fun u => IsReset s u 5 []
          ∧ u.pwr.cstate = .softStart ∧ u.aon.pwrcyc = s.aon.pwrcyc + 1)
        ∧ (f.reset = true → s.pwr.pl = false → s.dev.rstn = false → Does (.flushComplete index n trailer vhold dur vin) s resetParts fun u => IsReset s u (f.cause + 16) [])
        ∧ (f.reset = true → s.pwr.pl = false → s.dev.rstn = true → s.pwr.cstate = .charging ∨ s.pwr.cstate = .protected_ → Does (.flushComplete index n trailer vhold dur vin) s resetParts fun u =>
          IsReset s u (f.cause + 16) [(0, 0x110), (0, 0x114)] ∧ Starts s u))
      ∧ (∀ code : Nat, f.void = false →
        code = (if f.dramLost = false ∧ flashGated s ∧ f.mus = [] ∧ f.grans = [] then 4 else if index ∧ f.dramLost = false ∧ trailer ∧ f.mus.length + f.grans.length ≤ n then 1
          else if index ∧ f.dramLost = false then 2 else 3) →
        ((f.reset = false ∨ s.pwr.pl = true) → vin = false ∨ s.pwr.trip = true → Does (.flushComplete index n trailer vhold dur vin) s resetParts fun u => u.pwr.cstate = .bleed ∧ u.pwr.rails = 0
          ∧ u.pwr.flush = none ∧ u.pwr.lastFlush = code ∧ u.pwr.flushes = s.pwr.flushes + 1 ∧ u.pwr.last.vhold = vhold ∧ u.pwr.last.dur = dur
          ∧ u.pwr.last.musDone = (if index && !f.dramLost then min n f.mus.length else 0) ∧ u.pwr.last.gransDone = (if index && !f.dramLost then min (n - f.mus.length) f.grans.length else 0)
          ∧ u.pwr.lastUncorr = (if index && !f.dramLost then f.mus.length - n else 0) ∧ u.aon = s.aon ∧ u.fus = s.fus)
        ∧ ((f.reset = false ∨ s.pwr.pl = true) → vin = true → s.pwr.trip = false → Does (.flushComplete index n trailer vhold dur vin) s resetParts fun u =>
          ResetDone u 5 [] ∧ (f.dramLost = true → IsReset s u 5 []) ∧ u.pwr.cstate = .softStart ∧ u.pwr.lastFlush = code ∧ u.aon.pwrcyc = s.aon.pwrcyc + 1 ∧ u.pwr.chgFault = s.pwr.chgFault)
        ∧ (f.reset = true → s.pwr.pl = false → s.dev.rstn = false → Does (.flushComplete index n trailer vhold dur vin) s resetParts fun u => ResetDone u (f.cause + 16) []
          ∧ u.pwr.lastFlush = code ∧ u.aon = s.aon ∧ u.pwr.cstate = s.pwr.cstate)
        ∧ (f.reset = true → s.pwr.pl = false → s.dev.rstn = true → s.pwr.cstate = .charging ∨ s.pwr.cstate = .protected_ → Does (.flushComplete index n trailer vhold dur vin) s resetParts fun u =>
          ResetDone u (f.cause + 16) [(0, 0x110), (0, 0x114)] ∧ Starts s u ∧ u.pwr.lastFlush = code ∧ u.aon = s.aon ∧ u.pwr.cstate = s.pwr.cstate)))
    ∧ (∀ s : State, s.pwr.flush = none → ∀ index n trailer vhold dur vin, Does (.flushComplete index n trailer vhold dur vin) s [] fun _ => True)
    ∧ (∀ (s : State) (v : Nat),
      (s.pwr.cstate = .bleed → vinOk s v = true → s.pwr.trip = false → Does (.vinReturnBleed v) s resetParts fun u => IsReset s u 5 []
        ∧ u.pwr.cstate = .softStart ∧ u.aon.pwrcyc = s.aon.pwrcyc + 1 ∧ u.pwr.chgFault = s.pwr.chgFault ∧ u.pwr.vin = v)
      ∧ (s.pwr.cstate ≠ .bleed ∨ vinOk s v = false ∨ s.pwr.trip = true → Does (.vinReturnBleed v) s [] fun _ => True)
      ∧ (s.pwr.cstate = .bleed → Does .bleedEnd s [.pwr, .regs] fun u => u.pwr = { s.pwr with cstate := .off, vhold := 0, rails := 0 } ∧ Word.bit (rd u 0x02 0x18) 4 = true
        ∧ RegsOnly [(0x02, 0x18)] s u)
      ∧ (s.pwr.cstate ≠ .bleed → Does .bleedEnd s [] fun _ => True)
      ∧ (s.pwr.cstate = .charging → s.pwr.chgFault = false → rdF s 0x02 0x118 15 0 ≤ v → Does (.bankCharged v) s [.pwr, .regs] fun u => u.pwr = { s.pwr with cstate := .protected_, vhold := v }
        ∧ Word.bit (rd u 0x02 0x18) 4 = true ∧ RegsOnly [(0x02, 0x18)] s u)
      ∧ (s.pwr.cstate ≠ .charging ∨ s.pwr.chgFault = true ∨ v < rdF s 0x02 0x118 15 0 → Does (.bankCharged v) s [] fun _ => True)
      ∧ (s.pwr.cstate = .protected_ → v + 2000 < rdF s 0x02 0x118 15 0 → Does (.vholdSag v) s [.pwr, .regs] fun u => u.pwr = { s.pwr with cstate := .charging, vhold := v }
        ∧ Word.bit (rd u 0x02 0x18) 4 = true ∧ RegsOnly [(0x02, 0x18)] s u)
      ∧ (s.pwr.cstate ≠ .protected_ ∨ rdF s 0x02 0x118 15 0 ≤ v + 2000 → Does (.vholdSag v) s [] fun _ => True)
      ∧ Does .chargerFault s [.pwr, .regs, .evq] fun u => u.pwr = { s.pwr with chgFault := true, measAct := false } ∧ Captured s u 0x02 18)

/-- PWR_MEASURE_WRITE, BANK_MEASURE_PERIODIC, BANK_MEASURE_DONE, PWR_MEAS_AGE_EXPIRY, APST_TRANSITION, SEED_SAMPLE, TAMPER_ALARM, VBAT_SWITCHOVER,
AON_RTC_SET_WRITE, AON_OPSEC_SET_WRITE, AON_PWRCYC_SET_WRITE, AON_RING_CLR_WRITE and SEED_DOMAIN_POWER_UP (R446, R449, R454, R463, R464, R466, R468 to R472). -/
def Obligations.SeedAndMeasurement : Prop :=
  (∀ (s : State) (who : Who) (v : Word) (drop dt : Nat),
    (Admits s who 0x02 0x128 1 → (s.pwr.cstate = .protected_ → s.pwr.chgFault = false → s.pwr.measAct = false → Does (.pwrMeasureWrite who) s [.resp, .pwr] fun u =>
        u.pwr = { s.pwr with measAct := true, firstProtected := true, measTry := s.clock } ∧ u.resp.code = .ok)
      ∧ (s.pwr.cstate ≠ .protected_ ∨ s.pwr.chgFault = true ∨ s.pwr.measAct = true → Does (.pwrMeasureWrite who) s [.resp] fun u => u.resp.code = .ok))
    ∧ (s.pwr.cstate = .protected_ → s.pwr.chgFault = false → s.pwr.measAct = false → s.pwr.firstProtected = false ∨ rdF s 0x02 0x124 5 0 * 3600 ≤ measAge s
        ∨ (0 < s.pwr.measFails ∧ s.pwr.measTry + 600 ≤ s.clock) → Does .bankMeasurePeriodic s [.pwr] fun u => u.pwr = { s.pwr with measAct := true, firstProtected := true, measTry := s.clock })
    ∧ (s.pwr.cstate ≠ .protected_ ∨ s.pwr.chgFault = true ∨ s.pwr.measAct = true
        ∨ (s.pwr.firstProtected = true ∧ measAge s < rdF s 0x02 0x124 5 0 * 3600 ∧ (s.pwr.measFails = 0 ∨ s.clock < s.pwr.measTry + 600)) → Does .bankMeasurePeriodic s [] fun _ => True)
    ∧ (s.pwr.measAct = true →
      (5000 ≤ dt → dt ≤ 1500000 → drop ≤ 1000000 → Does (.bankMeasureDone drop dt) s [.pwr, .regs] fun u =>
        u.pwr = { s.pwr with measAct := false, meas := s.pwr.meas + 1, c := 2 * dt, esr := drop / 200, measured := some s.clock, measOk := true, measFails := 0, lastMeasRtc := s.dev.rtc
                             history := ((s.dev.rtc, 2 * dt, drop / 200) :: s.pwr.history).take 8 }
        ∧ Counted s u 0x02 0x16C ∧ Word.bit (rd u 0x02 0x18) 3 = true ∧ RegsOnly [(0x02, 0x16C), (0x02, 0x18)] s u)
      ∧ (dt < 5000 ∨ 1500000 < dt ∨ 1000000 < drop → Does (.bankMeasureDone drop dt) s [.pwr, .regs, .evq] fun u =>
        u.pwr = { s.pwr with measAct := false, meas := s.pwr.meas + 1, measFails := s.pwr.measFails + 1 } ∧ Counted s u 0x02 0x16C ∧ Captured s u 0x02 17 ∧ Word.bit (rd u 0x02 0x18) 3 = true))
    ∧ (s.pwr.measAct = false → Does (.bankMeasureDone drop dt) s [] fun _ => True)
    ∧ Does .pwrMeasAgeExpiry s [] (fun _ => True)
    ∧ (∀ m, s.pwr.cause = 0 → s.hqe.vwc = false → s.pwr.cstate = .protected_ → s.pwr.measured = some m → m + (rdF s 0x02 0x124 5 0 + 2) * 3600 < s.clock →
        ∃ t, exec .pwrMeasAgeExpiry s = .next t ∧ t.pwr.cause = 2 ∧ t.hqe.vwc = true ∧ t.mem = s.mem ∧ t.ftl = s.ftl)
    ∧ (∀ (mid tgt : Nat) (c : Ctrl), c = ctrlOf s mid → tgt = c.apst.getD c.psReq 0 / 8 % 32 →
      (c.en = true → c.autoPs = true → c.apst.getD c.psReq 0 / 256 ≠ 0 → tgt = 3 ∨ tgt = 4 → Does (.apstTransition mid) s [.hqe, .pwr, .regs] fun u => ctrlOf u mid = { c with psReq := tgt }
        ∧ (∀ m, m ≠ mid → ctrlOf u m = ctrlOf s m) ∧ u.pwr = { s.pwr with psEff := psEffNow u } ∧ (u.pwr.psEff ≠ s.pwr.psEff → Word.bit (rd u 0x02 0x18) 5 = true) ∧ RegsOnly [(0x02, 0x18)] s u)
      ∧ (c.en = false ∨ c.autoPs = false ∨ c.apst.getD c.psReq 0 / 256 = 0 ∨ (tgt ≠ 3 ∧ tgt ≠ 4) → Does (.apstTransition mid) s [] fun _ => True))
    ∧ (Admits s who 0x03 0x114 v → Does (.aonRtcSetWrite who v) s [.resp, .dev, .aon] fun u =>
        u.dev = { s.dev with rtc := (rd s 0x03 0x110).toNat + v.toNat % 256 * 2 ^ 32 } ∧ u.aon = { s.aon with rtcValid := true } ∧ u.resp.code = .ok)
    ∧ (Admits s who 0x03 0x128 v → s.aon.cntValid = false → Does (.aonOpsecSetWrite who v) s [.resp, .dev] fun u =>
        u.dev = { s.dev with opsec := (rd s 0x03 0x124).toNat + v.toNat % 256 * 2 ^ 32 } ∧ u.resp.code = .ok)
    ∧ (Admits s who 0x03 0x12C v → s.aon.cntValid = false → Does (.aonPwrcycSetWrite who v) s [.resp, .aon] fun u => u.aon = { s.aon with pwrcyc := v.toNat, cntValid := true }
        ∧ u.resp.code = .ok)
    ∧ (s.aon.cntValid = true → (Admits s who 0x03 0x128 v → Does (.aonOpsecSetWrite who v) s [.resp, .regs, .evq] fun u => Captured s u 0x03 16 ∧ u.resp.code = .ok)
      ∧ (Admits s who 0x03 0x12C v → Does (.aonPwrcycSetWrite who v) s [.resp, .regs, .evq] fun u => Captured s u 0x03 16 ∧ u.resp.code = .ok))
    ∧ (Admits s who 0x03 0x140 1 → Does (.aonRingClrWrite who) s [.resp, .aon] fun u => u.aon = { s.aon with ring := [], pos := 0, wrapped := false } ∧ u.resp.code = .ok))
    ∧ ∀ (s : State) (n : Nat) (temp vbat : Nat),
      (s.pwr.trip = false ∨ tempHi s - tempHyst s ≤ (temp : Int) ∨ (s.pwr.cstate ≠ .bleed ∧ s.pwr.cstate ≠ .off) →
        (SeedCalm s temp vbat → s.aon.latched = [] → Does (.seedSample temp vbat) s [.aon] fun u => Sampled s u temp vbat [] ∧ u.aon.ring = s.aon.ring ∧ u.aon.seq = s.aon.seq)
        ∧ (s.aon.latched = [] → tempLo s ≤ (temp : Int) → tempHi s < (temp : Int) → 2300 ≤ vbat → Does (.seedSample temp vbat) s [.aon, .regs, .evq] fun u => Sampled s u temp vbat [3]
          ∧ Alarms s u 3 temp 1)
        ∧ (s.aon.latched = [] → (temp : Int) < tempLo s → (temp : Int) ≤ tempHi s → 2300 ≤ vbat → Does (.seedSample temp vbat) s [.aon, .regs, .evq] fun u => Sampled s u temp vbat [4]
          ∧ Alarms s u 4 temp 1)
        ∧ (s.aon.latched = [] → tempLo s ≤ (temp : Int) → (temp : Int) ≤ tempHi s → vbat < 2300 → Does (.seedSample temp vbat) s [.aon, .regs, .evq] fun u => Sampled s u temp vbat [5]
          ∧ Alarms s u 5 vbat 3)
        ∧ (s.aon.latched = [3] → tempLo s ≤ (temp : Int) → 2300 ≤ vbat → Does (.seedSample temp vbat) s [.aon] fun u =>
          Sampled s u temp vbat (if (temp : Int) < tempHi s - tempHyst s then [] else [3]) ∧ u.aon.ring = s.aon.ring)
        ∧ (s.aon.latched = [4] → (temp : Int) ≤ tempHi s → 2300 ≤ vbat → Does (.seedSample temp vbat) s [.aon] fun u =>
          Sampled s u temp vbat (if tempLo s + tempHyst s < (temp : Int) then [] else [4]) ∧ u.aon.ring = s.aon.ring)
        ∧ (s.aon.latched = [5] → tempLo s ≤ (temp : Int) → (temp : Int) ≤ tempHi s → Does (.seedSample temp vbat) s [.aon] fun u =>
          Sampled s u temp vbat (if 2400 < vbat then [] else [5]) ∧ u.aon.ring = s.aon.ring))
      ∧ (s.pwr.trip = true → s.aon.latched = [] → SeedCalm s temp vbat → (temp : Int) < tempHi s - tempHyst s →
        (s.pwr.cstate = .off ∨ s.pwr.cstate = .bleed → vinOk s s.pwr.vin = true → Does (.seedSample temp vbat) s resetParts fun u => IsReset s u (if s.pwr.cstate = .off then 1 else 5) []
          ∧ u.pwr.cstate = .softStart ∧ u.pwr.trip = false)
        ∧ (s.pwr.cstate = .off ∨ s.pwr.cstate = .bleed → vinOk s s.pwr.vin = false → Does (.seedSample temp vbat) s [.aon, .pwr] fun u => u.pwr = { s.pwr with trip := false }
          ∧ Sampled s u temp vbat []))
      ∧ (∀ i : Fin 2, (Word.bit (rd s 0x03 0x138) (2 * i) = false ∨ blkRetired s 0x03 = true → Does (.tamperAlarm i) s [] fun _ => True)
        ∧ (Word.bit (rd s 0x03 0x138) (2 * i) = true → blkRetired s 0x03 = false →
          (alarmOn s (i + 1) = false → Does (.tamperAlarm i) s [.aon] fun u => u.aon = { s.aon with tamper0 := s.aon.tamper0 || i = 0, tamper1 := s.aon.tamper1 || i = 1 })
          ∧ (alarmOn s (i + 1) = true → s.pwr.cstate = .off → Does (.tamperAlarm i) s [.aon] fun u => CellTakes s u (i + 1) 0
            ∧ u.aon.tamper0 = (s.aon.tamper0 || i = 0) ∧ u.aon.tamper1 = (s.aon.tamper1 || i = 1))
          ∧ (alarmOn s (i + 1) = true → s.pwr.cstate ≠ .off →
            (Word.bit (rd s 0x03 0x138) 4 = false ∨ s.dev.fault = true → Does (.tamperAlarm i) s [.aon, .regs, .evq, .sec] fun u => Word.bit (rd u 0x03 0x18) 2 = true ∧ RegsOnly [(0x03, 0x18)] s u
              ∧ u.aon = { s.aon with tamper0 := s.aon.tamper0 || i = 0, tamper1 := s.aon.tamper1 || i = 1 }
              ∧ u.sec = (if Word.bit (rd s 0x03 0x138) 4 then { s.sec with xts := [], gcm := [], kek := [], pke := s.sec.pke.filter (fun p => p.1 < 2) } else s.sec)
              ∧ ∃ x, u.evq = s.evq ++ [x] ∧ x.code = 0x1005 ∧ x.sev = sevCritical ∧ x.detail = leBytes 1 (i + 1))
            ∧ (Word.bit (rd s 0x03 0x138) 4 = true → s.graft.trial = false → Does (.tamperAlarm i) s [.aon, .regs, .evq, .sec, .dev, .ports] fun u => u.dev.fault = true
              ∧ u.sec = { s.sec with xts := [], gcm := [], kek := [], pke := s.sec.pke.filter (fun p => p.1 < 2) } ∧ Word.bit (rd u 0x03 0x18) 2 = true))))
      ∧ (s.aon.onCell = false → s.pwr.cstate = .off → Does (.vbatSwitchover true n) s [.aon] fun u => u.aon.onCell = true ∧ Alarms s u 6 0 1)
      ∧ (s.aon.onCell = true ∨ s.pwr.cstate ≠ .off → Does (.vbatSwitchover true n) s [] fun _ => True)
      ∧ (s.aon.onCell = true → 88 < n → Does (.vbatSwitchover false n) s [.aon, .regs, .evq] fun u => u.aon.onCell = false ∧ Alarms s u 7 n 1)
      ∧ (s.aon.onCell = false ∨ n ≤ 88 → Does (.vbatSwitchover false n) s [] fun _ => True)
      ∧ (s.pwr.cstate = .off → Does (.seedDomainPowerUp false) s [] fun _ => True)
      ∧ (s.pwr.cstate ≠ .off → Does (.seedDomainPowerUp false) s [.pwr, .regs] fun u => u.pwr = { s.pwr with cstate := .off } ∧ Word.bit (rd u 0x02 0x18) 4 = true ∧ RegsOnly [(0x02, 0x18)] s u)
      ∧ Does (.seedDomainPowerUp true) s [.pwr, .regs, .dev, .aon] fun u => u.pwr = { s.pwr with cstate := .off }
        ∧ u.aon = { s.aon with rtcValid := false, cntValid := false, lost := false, pwrcyc := 0, ring := [], pos := 0, wrapped := false, seq := 0, latched := [] }
        ∧ u.dev = { s.dev with rtc := 0, opsec := 0 } ∧ (∀ rgn off, off < 65536 → rgn ≠ 2 → rgn ≠ 3 → rd u rgn off = rd s rgn off)
        ∧ ∀ off, off < 65536 → (s.pwr.cstate = .off ∨ off ≠ 0x18) → rd u 2 off = rd s 2 off
/-! ### Reset, boot, fuses and self-test -/

/-- DEV_RST_N_ASSERT, DEV_RST_N_DEASSERT, TOP_DEV_RST_WRITE, POWER_UP_BIST_DONE, BIST_PRECONDITION_TIMEOUT, FUSE_SENSE_START, FUSE_SENSE_DONE, FUSE_PROGRAM_WORD,
FUSE_GENERATE_SECRET and FUSE_PROGRAM_DONE (R478 to R489, R493, R494). The readings that a sensing finds are the row's operand. -/
def Obligations.ResetsBootAndFuses : Prop :=
  (∀ (s : State) (who : Who) (straps : Fin 128),
    (s.pwr.cstate = .off ∨ s.pwr.cstate = .softStart ∨ s.pwr.cstate = .bleed ∨ s.pwr.flush ≠ none → Does .devRstNAssert s [.dev] fun u => u.dev = { s.dev with rstn := false })
    ∧ (s.pwr.cstate = .charging ∨ s.pwr.cstate = .protected_ → s.pwr.flush = none →
      (s.dev.ready = false → Does .devRstNAssert s resetParts fun u => IsReset s u 2 [] ∧ u.dev.rstn = false ∧ u.dev.started = false ∧ u.aon = s.aon ∧ u.pwr.cstate = s.pwr.cstate)
      ∧ (s.dev.ready = true → LossQuiet s → Does .devRstNAssert s (.dev :: lossParts) fun u => (∃ f, FlushBegins s u f true 2 false ∧ u.pwr = { s.pwr with flush := some f })
        ∧ u.dev = { s.dev with rstn := false })
      ∧ (Admits s who 0x00 0x108 1 → s.dev.ready = false →
        (s.dev.rstn = false → Does (.topDevRstWrite who) s (.resp :: resetParts) fun u => IsReset s u 3 [] ∧ u.aon = s.aon ∧ u.resp.code = .ok)
        ∧ (s.dev.rstn = true → Does (.topDevRstWrite who) s (.resp :: resetParts) fun u => IsReset s u 3 [(0, 0x110), (0, 0x114)] ∧ Starts s u ∧ u.aon = s.aon ∧ u.resp.code = .ok))
      ∧ (Admits s who 0x00 0x108 1 → s.dev.ready = true → LossQuiet s → Does (.topDevRstWrite who) s (.resp :: lossParts) fun u =>
        (∃ f, FlushBegins s u f true 3 false ∧ u.pwr = { s.pwr with flush := some f }) ∧ u.resp.code = .ok))
    ∧ (Admits s who 0x00 0x108 1 → s.pwr.flush ≠ none → Does (.topDevRstWrite who) s [.resp] fun u => u.resp.code = .ok)
    ∧ (s.dev.started = true ∨ s.pwr.cstate = .off ∨ s.pwr.cstate = .softStart ∨ s.pwr.cstate = .bleed → Does (.devRstNDeassert straps) s [.dev] fun u =>
        u.dev = { s.dev with rstn := true, pins := straps })
    ∧ (s.pwr.cstate = .charging ∨ s.pwr.cstate = .protected_ ∨ s.pwr.cstate = .flush → s.dev.started = false → Does (.devRstNDeassert straps) s [.dev, .fus, .regs] fun u =>
        u.dev = { s.dev with rstn := true, pins := straps, started := true, t0 := s.clock, straps := straps } ∧ rd u 0 0x110 = w32 straps ∧ rd u 0 0x114 = 0x7FF
        ∧ u.fus = { s.fus with sensing := true } ∧ RegsOnly [(0, 0x110), (0, 0x114)] s u))
  ∧ (∀ (s : State) (fails : List (Fin 128 × Fin 4 × Fin 256)) (ms : Nat),
    (s.dev.started = false ∨ s.fus.sensed = false ∨ Word.bit (rd s 0x05 0x100) 0 = true ∨ Word.bit (rd s 0x05 0x100) 2 = true → Does (.powerUpBistDone fails ms) s [] fun _ => True)
    ∧ (s.dev.started = true → s.fus.sensed = true → rd s 0x05 0x100 = 0 → s.dev.retired = [] →
      (∀ f, fails.head? = some f → Does (.powerUpBistDone fails ms) s [.sec, .mem, .regs, .dev] fun u => rd u 0x05 0x100 = 3 ∧ rd u 0x05 0x12C = w32 (min ms 0xFFFF)
        ∧ rd u 0x05 0x114 = w32 (f.1.val + f.2.1.val * 256 + f.2.2.val * 65536 + 2 ^ 31) ∧ (∀ g ∈ fails, Word.bit (rd u 0x05 (0x104 + 4 * (g.1.val / 32))) (g.1.val % 32) = true)
        ∧ u.dev = { s.dev with heldInReset := true } ∧ u.sec.xts = [] ∧ u.sec.gcm = [] ∧ u.sec.kek = [] ∧ u.sec.pke = [])
      ∧ (fails = [] → lifecycle s = 4 → Does (.powerUpBistDone fails ms) s [.sec, .mem, .regs, .dev] fun u => rd u 0x05 0x100 = 1 ∧ u.dev = { s.dev with heldInReset := true }
        ∧ u.sec.kek = [] ∧ u.sec.pke = [])
      ∧ (fails = [] → lifecycle s ≠ 4 → s.fus.secretOk = false → Does (.powerUpBistDone fails ms) s [.sec, .mem, .regs, .blk, .trunk, .dev, .ports] fun u => u.dev.dormant = true ∧ u.dev.dormantWhy = 3
        ∧ Word.bit (rd u 0 0x10C) 16 = true ∧ u.dev.step4 = true ∧ u.dev.heldInReset = false ∧ u.dev.crown = s.dev.crown ∧ u.sec.kek = [])
      ∧ (fails = [] → lifecycle s ≠ 4 → s.fus.secretOk = true → s.fus.usable = [] → Does (.powerUpBistDone fails ms) s [.sec, .mem, .regs, .blk, .trunk, .dev, .ports, .graft, .evq, .freeCtr] fun u =>
        u.dev.dormant = true ∧ u.dev.dormantWhy = 1 ∧ Word.bit (rd u 0 0x10C) 16 = true ∧ u.dev.step4 = true ∧ u.dev.heldInReset = false ∧ u.dev.crown = s.dev.crown
        ∧ (kekSlot u 0).key = deriveKey s 1 32 [BitVec.ofNat 8 (if lifecycle s = 3 then 1 else 0)])
      -- The record stands, no trial is on, and no Commit waits: the preferred slot starts, else the other, else none.
      ∧ (∀ p a b : Nat, fails = [] → lifecycle s ≠ 4 → s.fus.secretOk = true → s.fus.usable ≠ [] → recordRead s = s.graft.srec → s.graft.srec.trial = false → p = s.graft.srec.pref → p < 2 →
        hasTicket s (otherSlot p) 1 = false → a = slotRefusal s p false → b = slotRefusal s (otherSlot p) false →
        Does (.powerUpBistDone fails ms) s [.sec, .mem, .regs, .blk, .trunk, .dev, .ports, .graft, .evq, .freeCtr, .ten, .fus, .cores] fun u =>
          rd u 0x05 0x100 = 1 ∧ u.dev.step4 = true ∧ u.dev.heldInReset = false ∧ u.graft.srec = s.graft.srec
          ∧ (a = 0 → u.dev.crown = true ∧ u.graft.running = p ∧ u.graft.trial = false ∧ rdF u 0 0x10C 0 0 = p ∧ u.dev.dormant = s.dev.dormant)
          ∧ (a ≠ 0 → rdF u 0 0x10C (7 + 4 * p) (4 + 4 * p) = a ∧ Word.bit (rd u 0 0x18) 2 = true)
          ∧ (a ≠ 0 → b = 0 → u.dev.crown = true ∧ u.graft.running = otherSlot p ∧ u.graft.trial = false ∧ rdF u 0 0x10C 1 0 = otherSlot p + 2 ∧ u.dev.dormant = s.dev.dormant)
          ∧ (a ≠ 0 → b ≠ 0 → u.dev.dormant = true ∧ u.dev.dormantWhy = 2 ∧ u.dev.crown = s.dev.crown ∧ rdF u 0 0x10C (7 + 4 * otherSlot p) (4 + 4 * otherSlot p) = b
            ∧ Word.bit (rd u 0 0x10C) 16 = true)))
    ∧ (s.dev.started = true → Word.bit (rd s 0x05 0x100) 0 = false → bistPrecond s = false → Does .bistPreconditionTimeout s [.regs, .dev] fun u => Word.bit (rd u 0x05 0x100) 2 = true
        ∧ u.dev = { s.dev with heldInReset := true } ∧ RegsOnly [(0x05, 0x100)] s u)
    ∧ (s.dev.started = false ∨ Word.bit (rd s 0x05 0x100) 0 = true ∨ bistPrecond s = true → Does .bistPreconditionTimeout s [] fun _ => True))
  ∧ (∀ (s : State) (l : List FuseWord),
    (s.fus.sensing = false → Does (.fuseSenseDone l) s [] fun _ => True)
    ∧ (s.fus.sensing = true → s.fus.sensed = false → Does (.fuseSenseDone l) s [.fus, .regs, .freeCtr] fun u => u.fus.sensed = true ∧ u.fus.sensing = (s.fus.again && s.fus.prog.isNone)
        ∧ rd u 0x04 0x11C = w32 (rdF s 0 0x118 15 0) ∧ Word.bit (rd u 0x04 0x18) 2 = true ∧ RegsOnly [(0x04, 0x11C), (0x04, 0x18)] s u ∧ u.fus.blown = s.fus.blown
        ∧ (∀ w, w < 0x200 → (∀ r ∈ l, r.word ≠ w ∧ r.word ≠ w + 0x200) → (Tbl.getD s.fus.blown (w + 0x200) 0 = Tbl.getD s.fus.blown w 0 ∨ fuseKind w = .plain ∨ fuseKind w = .copy) →
            Tbl.getD u.fus.eff w 0 = Tbl.getD s.fus.blown w 0)
        ∧ (∀ w, w ≤ 2 ∨ (4 ≤ w ∧ w < 8) → fuseRead s l w = ⟨w, .bad, .bad, .bad⟩ → fuseRead s l (w + 0x200) = ⟨w + 0x200, .bad, .bad, .bad⟩ → Tbl.getD u.fus.eff w 0 = fuseStrictest w)
        ∧ ∀ k : Fin 5, u.fus.usable.contains k.val = khUsable s l (Tbl.getD u.fus.eff 2 0) k)
    ∧ (s.fus.sensing = true → s.fus.sensed = true → s.graft.trial = false → Does (.fuseSenseDone l) s [.fus, .regs, .freeCtr, .evq, .dev, .ports] fun u => u.fus.sensed = true
        ∧ u.fus.sensing = (s.fus.again && s.fus.prog.isNone) ∧ u.fus.blown = s.fus.blown
        ∧ Tbl.getD u.fus.eff 1 0 = Tbl.getD s.fus.eff 1 0 ||| Tbl.getD u.fus.last 1 0 ∧ (∀ w, w ≠ 1 → w ≠ 0x201 → Tbl.getD u.fus.eff w 0 = Tbl.getD s.fus.eff w 0)
        ∧ u.fus.last = fuseArray s l ∧ u.fus.secretOk = s.fus.secretOk ∧ Word.bit (rd u 0x04 0x18) 2 = true ∧ RegsOnly [(0x04, 0x11C), (0x04, 0x120), (0x04, 0x18)] s u
        ∧ ((∃ w, w < 0x100 ∧ 8 ≤ w ∧ Tbl.getD u.fus.last w 0 ≠ Tbl.getD s.fus.eff w 0) → Word.bit (rd u 0x04 0x18) 1 = true)
        ∧ (Tbl.getD u.fus.eff 1 0 = Tbl.getD s.fus.eff 1 0 → u.fus.unlock = s.fus.unlock ∧ u.dev = s.dev)
        ∧ (Tbl.getD u.fus.eff 1 0 ≠ Tbl.getD s.fus.eff 1 0 → u.fus.unlock = 0 ∧ (s.fus.unlock ≠ 2 → u.dev = s.dev) ∧ (s.fus.unlock = 2 → FaultNow s u 4))))
  ∧ (∀ (s : State) (who : Who),
    (blkRetired s 0x04 = false → s.fus.sensing = false → s.fus.prog = none →
      (Admits s who 0x04 0x118 1 → Does (.fuseSenseStart (some who)) s [.resp, .fus] fun u => u.fus = { s.fus with sensing := true } ∧ u.resp.code = .ok)
      ∧ (s.fus.sensed = true → fuseDue s = true → Does (.fuseSenseStart none) s [.fus] fun u => u.fus = { s.fus with sensing := true }))
    ∧ (blkRetired s 0x04 = false → s.fus.sensing = false → s.fus.prog ≠ none →
      (Admits s who 0x04 0x118 1 → Does (.fuseSenseStart (some who)) s [.resp, .fus] fun u => u.fus = { s.fus with again := true } ∧ u.resp.code = .ok)
      ∧ (s.fus.sensed = true → fuseDue s = true → Does (.fuseSenseStart none) s [.fus] fun u => u.fus = { s.fus with again := true }))
    ∧ (s.fus.sensing = true ∨ blkRetired s 0x04 = true → Admits s who 0x04 0x118 1 → Does (.fuseSenseStart (some who)) s [.resp] fun u => u.resp.code = .ok)
    ∧ (s.fus.sensing = true ∨ blkRetired s 0x04 = true ∨ s.fus.sensed = false ∨ fuseDue s = false → Does (.fuseSenseStart none) s [] fun _ => True)
    ∧ (s.fus.prog ≠ none → (Admits s who 0x04 0x12C 1 → Does (.fuseProgramWord who) s [.resp] fun u => u.resp.code = .ok)
      ∧ (Admits s who 0x04 0x12C 2 → Does (.fuseGenerateSecret who) s [.resp, .sec, .freeCtr] fun u => u.resp.code = .ok))
    ∧ (∀ w v, w = rdF s 0x04 0x124 9 0 → v = rd s 0x04 0x128 → s.fus.prog = none → Admits s who 0x04 0x12C 1 → Does (.fuseProgramWord who) s [.resp, .fus] fun u =>
        ∃ r, u.fus = { s.fus with prog := some { op := 1, word := w, data := [v], result := r } }
          ∧ (fuseReserved w = true → r = 4)
          ∧ (fuseReserved w = false → lifecycle s = 4 ∨ (lifecycle s = 3 ∧ w ≠ 0) ∨ (w ≠ 0 ∧ Tbl.getD s.fus.blown w 0 ≠ 0) ∨ ((lifecycle s = 1 ∨ lifecycle s = 2) ∧ (0x60 ≤ w ∧ w < 0x100)) → r = 1)
          ∧ (fuseReserved w = false → w < 0x200 → w = 0 ∨ (Tbl.getD s.fus.blown w 0 = 0 ∧ Tbl.getD s.fus.blown (w + 0x200) 0 = 0) →
              lifecycle s = 0 ∨ ((lifecycle s = 1 ∨ lifecycle s = 2) ∧ (w ≤ 2 ∨ (4 ≤ w ∧ w < 8) ∨ 0x100 ≤ w)) ∨ (lifecycle s = 3 ∧ w = 0 ∧ Word.bit v 3 = true) → r = if progPrecond s then 0 else 3))
    ∧ (s.fus.prog = none → Admits s who 0x04 0x12C 2 → (lifecycle s ≠ 0 → Does (.fuseGenerateSecret who) s [.resp, .fus, .sec, .freeCtr] fun u =>
          ∃ p, u.fus = { s.fus with prog := some p } ∧ p.op = 2 ∧ p.result = 1)
        ∧ (lifecycle s = 0 → progPrecond s = false → Does (.fuseGenerateSecret who) s [.resp, .fus, .sec, .freeCtr] fun u => ∃ p, u.fus = { s.fus with prog := some p } ∧ p.op = 2 ∧ p.result = 3)
        ∧ (lifecycle s = 0 → progPrecond s = true → s.sec.drbgOk = false ∨ (∃ i : Fin 8, Tbl.getD s.fus.blown (0x10 + i) 0 ≠ 0 ∨ Tbl.getD s.fus.blown (0x210 + i) 0 ≠ 0) →
          Does (.fuseGenerateSecret who) s [.resp, .fus, .sec, .freeCtr] fun u => ∃ p, u.fus = { s.fus with prog := some p } ∧ p.op = 2 ∧ p.result = 1)
        ∧ (lifecycle s = 0 → progPrecond s = true → s.sec.drbgOk = true → (∀ i : Fin 8, Tbl.getD s.fus.blown (0x10 + i) 0 = 0 ∧ Tbl.getD s.fus.blown (0x210 + i) 0 = 0) →
          Does (.fuseGenerateSecret who) s [.resp, .fus, .sec, .freeCtr] fun u => ∃ p, u.fus = { s.fus with prog := some p } ∧ p.op = 2 ∧ p.word = 0x10 ∧ p.data.length = 8 ∧ p.result = 0)))
  ∧ (∀ (s : State) (k : Fin 8) (b0 b1 : Word) (ok : Bool),
    (s.fus.prog = none → Does (.fuseProgramDone ok k b0 b1) s [] fun _ => True)
    ∧ (∀ p : FuseProg, s.fus.prog = some p →
      (p.result ≠ 0 → p.result < 16 → Does (.fuseProgramDone ok k b0 b1) s [.fus, .regs] fun u => u.fus.blown = s.fus.blown ∧ u.fus.prog = none ∧ rd u 0x04 0x130 = w32 (p.result * 16)
        ∧ Word.bit (rd u 0x04 0x18) 3 = true ∧ RegsOnly [(0x04, 0x130), (0x04, 0x18)] s u)
      ∧ (∀ n, p.result = 0 → p.data ≠ [] → n = (if ok then p.data.length else min k.val (p.data.length - 1)) → p.word + p.data.length ≤ 0x200 →
        Does (.fuseProgramDone ok k b0 b1) s (if p.op = 3 ∧ ok then [.fus, .regs, .evq, .freeCtr] else [.fus, .regs]) fun u =>
          rd u 0x04 0x130 = (if ok then 0 else 32) ∧ Word.bit (rd u 0x04 0x18) 3 = true ∧ (p.op ≠ 3 ∨ ok = false → u.fus.prog = none) ∧ u.fus.eff = s.fus.eff ∧ RegsOnly [(0x04, 0x130), (0x04, 0x18)] s u
          ∧ (∀ w, w < 0x200 → Tbl.getD u.fus.blown w 0 = Tbl.getD s.fus.blown w 0 ||| fuseGain p n b0 p.word w)
          ∧ ∀ w, 0x200 ≤ w → Tbl.getD u.fus.blown w 0 = Tbl.getD s.fus.blown w 0 ||| (if fuseCritical (w - 0x200) then fuseGain p n b1 (p.word + 0x200) w else 0))))

/-- DEBUG_UNLOCK, JTAG_SCAN_ENABLE, JTAG_STATUS, JTAG_TRST, BIST_SLICE_START, BIST_SLICE_DONE, BIST_SLICE_ABANDON and CHECKER_FAILURE (R478, R490 to R497, R578). -/
def Obligations.DebugAndSelfTest : Prop :=
  (∀ (s : State) (level : Fin 4) (key : Fin 5) (ok : Bool),
    (ok = true → MayUnlock s level key → Does (.debugUnlock level key ok) s [.fus, .sec, .freeCtr] fun u => u.fus = { s.fus with unlock := level })
    ∧ (ok = false ∨ ¬ MayUnlock s level key → Does (.debugUnlock level key ok) s [.sec, .freeCtr] fun _ => True)
    ∧ (scanOpen s = false → Does .jtagScanEnable s [] fun _ => True)
    ∧ (scanOpen s = true → s.graft.trial = false ∨ s.dev.fault = true → Does .jtagScanEnable s [.sec, .mem, .dev, .ports] fun u => FaultNow s u 4
      ∧ u.sec = { s.sec with xts := [], gcm := [], kek := [], pke := [] }
      ∧ ∀ a, u.mem.find? (fun c => decide (c.1 = a)) = (if (0x2000000000 ≤ a ∧ a < 0x2010000000) ∨ (0x50000000 ≤ a ∧ a < 0x50800000) then none else s.mem.find? fun c => decide (c.1 = a)))
    ∧ (debugLock s 0 = true → Does .jtagStatus s [] fun _ => True)
    ∧ (debugLock s 0 = false → Does .jtagStatus s [.resp] fun u => u.resp.code = .ok ∧ u.resp.bytes = leBytes 4 (bstSts s).toNat ++ leBytes 4 (rd s 0 0x10C).toNat ++ leBytes 4 (topDevSts s).toNat
      ++ leBytes 4 (fusLifecycle s).toNat)
    ∧ Does .jtagTrst s [] fun _ => True)
  ∧ (∀ (s : State) (rgn : Fin 128) (unit : Fin 256) (e : Nat), e = (rgn.val - 0x40) * 16 + unit →
    (SliceOpen s 0 rgn unit → 0x40 ≤ rgn.val → rgn.val < 0x50 → unit.val < 16 →
      ((engOf s e).st = .free ∨ (engOf s e).st = .assigned → Does (.bistSliceStart 0 rgn unit) s [.bst, .grv, .mem] fun u => u.bst = { s.bst with slices := ⟨0, rgn, unit⟩ :: s.bst.slices }
        ∧ engOf u e = { engOf s e with st := .testing, prior := (engOf s e).st, x := [], f := [], v := [] } ∧ EngOnly s u e
        ∧ u.mem = s.mem.filter (fun c => c.1 < tileBase e || tileBase e + 0x80000 ≤ c.1))
      ∧ ((engOf s e).st ≠ .free → (engOf s e).st ≠ .assigned → Does (.bistSliceStart 0 rgn unit) s [] fun _ => True))
    ∧ (SliceOpen s 1 rgn unit → 0x40 ≤ rgn.val → rgn.val < 0x50 → unit.val < 16 →
      ((engOf s e).st = .free → Does (.bistSliceStart 1 rgn unit) s [.bst, .mem] fun u => u.bst = { s.bst with slices := ⟨1, rgn, unit⟩ :: s.bst.slices }
        ∧ ∀ a, a = 0x2000800000 + (rgn.val - 0x40) * 0x1000000 + unit.val * 0x80000 → u.mem = s.mem.filter (fun c => c.1 < a || a + 0x80000 ≤ c.1))
      ∧ ((engOf s e).st ≠ .free → Does (.bistSliceStart 1 rgn unit) s [] fun _ => True))
    ∧ (SliceOpen s 2 rgn unit → 0x40 ≤ rgn.val → rgn.val < 0x50 → unit.val < 2 →
      (∀ i < 16, ∀ j ∈ (engOf s ((rgn.val - 0x40) * 16 + i)).jobs, j.2.unit = unit.val → j.2.result.isSome = true) →
      Does (.bistSliceStart 2 rgn unit) s [.bst] fun u => u.bst = { s.bst with slices := ⟨2, rgn, unit⟩ :: s.bst.slices })
    ∧ (SliceOpen s 3 0x1A unit → unit.val < 80 →
      (decBusy s (64 ≤ unit.val) < decoders s (64 ≤ unit.val) → Does (.bistSliceStart 3 0x1A unit) s [.bst] fun u => u.bst = { s.bst with slices := ⟨3, 0x1A, unit⟩ :: s.bst.slices })
      ∧ (decoders s (64 ≤ unit.val) ≤ decBusy s (64 ≤ unit.val) → Does (.bistSliceStart 3 0x1A unit) s [] fun _ => True))
    ∧ (SliceOpen s 4 0x0A unit → unit.val < 12 →
      (Tbl.getD s.sec.queues unit.val [] = [] → Does (.bistSliceStart 4 0x0A unit) s [.bst] fun u => u.bst = { s.bst with slices := ⟨4, 0x0A, unit⟩ :: s.bst.slices })
      ∧ (Tbl.getD s.sec.queues unit.val [] ≠ [] → Does (.bistSliceStart 4 0x0A unit) s [] fun _ => True))
    ∧ (SliceOpen s 5 0x19 unit →
      (s.cpc.accs.length < foldAccs s → Does (.bistSliceStart 5 0x19 unit) s [.bst] fun u => u.bst = { s.bst with slices := ⟨5, 0x19, unit⟩ :: s.bst.slices })
      ∧ (foldAccs s ≤ s.cpc.accs.length → Does (.bistSliceStart 5 0x19 unit) s [] fun _ => True))
    ∧ ∀ kind : Fin 6, ¬ SliceOpen s kind rgn unit → Does (.bistSliceStart kind rgn unit) s [] fun _ => True)
  ∧ (∀ (s : State) (x : Slice) (fail mem : Bool) (kind : Fin 6),
    ((∀ y ∈ s.bst.slices, y.kind ≠ kind.val) → Does (.bistSliceDone kind fail mem) s [] fun _ => True)
    ∧ (s.bst.slices = [] → Does .bistSliceAbandon s [.bst, .regs] fun u => u.bst = s.bst ∧ RegsOnly [(0x05, 0x128)] s u)
    ∧ (s.bst.slices = [x] → x.kind = kind.val → x.rgn < 128 → x.unit < 256 →
      (kind.val ≠ 0 →
        Does (.bistSliceDone kind false mem) s [.bst, .regs] (fun u => SliceEnds s u x ∧ RegsOnly [(0x05, 0x120), (0x05, 0x18)] s u)
        ∧ Does (.bistSliceDone kind true mem) s [.bst, .regs, .dev, .evq] (fun u => SliceEnds s u x ∧ u.dev = { s.dev with retired := retKey x.kind x.rgn x.unit :: s.dev.retired }
          ∧ Counted s u 0x05 0x124 ∧ Word.bit (rd u 0x05 0x18) 1 = true
          ∧ rd u 0x05 0x114 = (if Word.bit (rd s 0x05 0x114) 31 then rd s 0x05 0x114 else w32 (x.rgn + (if mem then 2 else 1) * 256 + x.unit * 65536 + 2 ^ 31))
          ∧ ∃ v, u.evq = s.evq ++ [v] ∧ v.code = 0x2002 ∧ v.sev = sevError)
        ∧ Does .bistSliceAbandon s [.bst, .regs] fun u => u.bst = { s.bst with slices := [] } ∧ Counted s u 0x05 0x128 ∧ RegsOnly [(0x05, 0x128)] s u)
      ∧ (kind.val = 0 → ∀ (e : Nat) (y : Eng), e = (x.rgn - 0x40) * 16 + x.unit → (engOf s e).st = .testing → y = (if (engOf s e).prior = .free then {} else { st := .assigned, tenant := (engOf s e).tenant }) →
        Does (.bistSliceDone kind false mem) s [.bst, .regs, .grv, .mem] (fun u => engOf u e = y ∧ EngOnly s u e ∧ SliceEnds s u x)
        ∧ Does (.bistSliceDone kind true mem) s [.bst, .regs, .grv, .mem, .dev, .evq] (fun u => engOf u e = { y with st := .retired, halted := true } ∧ EngOnly s u e ∧ SliceEnds s u x
          ∧ u.dev = { s.dev with retired := retKey x.kind x.rgn x.unit :: s.dev.retired } ∧ Counted s u 0x05 0x124 ∧ Word.bit (rd u 0x05 0x18) 1 = true)
        ∧ Does .bistSliceAbandon s [.bst, .regs, .grv, .mem] fun u => engOf u e = y ∧ EngOnly s u e ∧ u.bst = { s.bst with slices := [] } ∧ Counted s u 0x05 0x128)))
  ∧ (∀ (s : State) (rgn : Fin 128),
    ((blkOf rgn).isNone = true ∨ blkRetired s rgn = true → Serves (.checkerFailure rgn) s [] fun _ => True)
    ∧ (blkRetired s rgn = false →
      (s.graft.trial = false ∨ s.dev.fault = true →
        ((rgn = 1 ∨ rgn = 0x1B) → Serves (.checkerFailure rgn) s [.evq, .dev, .ports] fun u => FaultNow s u rgn ∧ ∃ v, u.evq = s.evq ++ [v] ∧ v.code = 0x2002 ∧ v.sev = sevError)
        ∧ ((blkOf rgn).isSome = true → rgn ≠ 1 → rgn ≠ 0x1B → degradesOnly rgn = false → Serves (.checkerFailure rgn) s [.evq, .dev, .ports, .blk] fun u =>
          FaultNow s u rgn ∧ blkRetired u rgn = true ∧ ∃ v, u.evq = s.evq ++ [v] ∧ v.code = 0x2002 ∧ v.sev = sevError))
      ∧ (rgn = 3 ∨ rgn = 4 ∨ rgn = 0x0B → Serves (.checkerFailure rgn) s [.evq, .dev, .blk] fun u => BlockOut s u rgn)
      ∧ (rgn = 5 → Serves (.checkerFailure rgn) s [.evq, .dev, .blk, .bst] fun u => BlockOut s u rgn ∧ u.bst = {})
      ∧ (rgn = 9 → Serves (.checkerFailure rgn) s [.evq, .dev, .blk, .xmv] fun u => BlockOut s u rgn ∧ ∀ c : Fin 64, (Tbl.getD u.xmv c.val {}).st = .error)
      ∧ (0x40 ≤ rgn.val → rgn.val < 0x50 → (∀ i : Fin 16, (engOf s ((rgn.val - 0x40) * 16 + i)).st ≠ .running) → Serves (.checkerFailure rgn) s [.evq, .dev, .blk, .grv, .regs] fun u => BlockOut s u rgn
        ∧ (∀ i : Fin 16, (engOf u ((rgn.val - 0x40) * 16 + i)).st = .retired) ∧ ∀ e, e / 16 ≠ rgn.val - 0x40 → engOf u e = engOf s e)
      ∧ (0x20 ≤ rgn.val → rgn.val < 0x40 → Serves (.checkerFailure rgn) s (.blk :: moveParts) fun u => blkRetired u rgn = true ∧ retKey 6 rgn 0 ∈ u.dev.retired
        ∧ ∀ d : Fin 16, dieUsable s ((rgn.val - 0x20) * 16 + d) = true → (dieOf u ((rgn.val - 0x20) * 16 + d)).st = .lost)
      ∧ (∀ p : Fin 8, rgn.val = 0x10 + p → (portOf s p).pstate ≠ .up → (portOf s p).pstate ≠ .contained → Serves (.checkerFailure rgn) s [.evq, .dev, .blk, .ports] fun u => BlockOut s u rgn
        ∧ PortIs s u p { portOf s p with link := rd s (portRgn p) 0x100, ltssm := .detect, detActive := false, dlActive := false, credits := none, quiet := true })))
/-! ### Crown cores, the Taproot store, mailboxes and movers -/

/-- CRN_RUN_WRITE, CWD_ENABLE, CWD_KICK, WATCHDOG_STAGE1 to 3, TAP_SEQUENCE_WRITE, TAP_PROGRAM, TAP_ERASE, TAP_MARGIN, TAP_OP_COMPLETE, TAP_BANK_READ and
TAP_OP_RESUME (R502 to R510). Verify results, margins and ECC outcomes are the rows' operands. -/
def Obligations.CoresAndTaproot : Prop :=
  (∀ (s : State) (who : Who) (v : Word) (k : Fin 4),
    (Admits s who 0x08 0x1000 v → Does (.crnRunWrite who v) s [.resp, .regs, .cores] fun u => RegsOnly [(0x08, 0x1000)] s u ∧ u.resp.code = .ok
        ∧ ∀ j : Fin 4, coreRuns u j = (coreRuns s j || (decide (j ≠ 0) && Word.bit v j))
          ∧ coreOf u j = if j ≠ 0 ∧ Word.bit v j = true ∧ coreRuns s j = false then { coreOf s j with start := rd64 s 0x08 0x1004 } else coreOf s j)
    ∧ (Admits s who 0x08 (cwdOff k) v → (Word.bit v 0 = true → Word.bit (rd s 0x08 (cwdOff k)) 0 = false → Does (.cwdEnable who k v) s [.resp, .regs, .cores] fun u => u.resp.code = .ok
          ∧ Word.bit (rd u 0x08 (cwdOff k)) 0 = true ∧ RegsOnly [(0x08, cwdOff k)] s u ∧ coreOf u k = { coreOf s k with stage := 0, since := s.clock } ∧ ∀ j, j ≠ k.val → coreOf u j = coreOf s j)
        ∧ (Word.bit v 0 = false ∨ Word.bit (rd s 0x08 (cwdOff k)) 0 = true → Does (.cwdEnable who k v) s [.resp] fun u => u.resp.code = .ok))
    ∧ (Admits s who 0x08 (cwdOff k + 0x0C) v → (v = 0x5EED → (coreOf s k).stage ≠ 3 → Does (.cwdKick who k v) s [.resp, .cores] fun u => u.resp.code = .ok
          ∧ coreOf u k = { coreOf s k with stage := 0, since := s.clock } ∧ ∀ j, j ≠ k.val → coreOf u j = coreOf s j)
        ∧ (v = 0x5EED → (coreOf s k).stage = 3 → Does (.cwdKick who k v) s [.resp] fun u => u.resp.code = .ok)
        ∧ (v ≠ 0x5EED → Does (.cwdKick who k v) s [.resp, .regs, .evq] fun u => Captured s u 0x08 18 ∧ u.resp.code = .ok))
    ∧ (wdAt s k 0 = true → Does (.watchdogStage1 k) s [.cores, .regs] fun u => coreOf u k = { coreOf s k with stage := 1, since := s.clock, nmi := true }
        ∧ (∀ j, j ≠ k.val → coreOf u j = coreOf s j) ∧ Word.bit (rd u 0x08 0x18) 3 = true ∧ RegsOnly [(0x08, 0x18)] s u)
    ∧ (wdAt s k 1 = true → Does (.watchdogStage2 k) s [.cores, .evq] fun u => coreOf u k = { coreOf s k with stage := 2, since := s.clock }
        ∧ (∀ j : Fin 4, j ≠ k → coreOf u j = if coreRuns s j then { coreOf s j with esc := true } else coreOf s j)
        ∧ ∃ x, u.evq = s.evq ++ [x] ∧ x.code = 0xC001 ∧ x.sev = sevCritical ∧ x.detail = [BitVec.ofNat 8 k.val])
    ∧ (wdAt s k 2 = true →
        (s.pwr.flush = none → s.dev.ready = false → s.dev.rstn = false → Does (.watchdogStage3 k) s resetParts fun u => IsReset s u 4 [])
        ∧ (s.pwr.flush = none → s.dev.ready = false → s.dev.rstn = true → s.pwr.cstate = .charging ∨ s.pwr.cstate = .protected_ → Does (.watchdogStage3 k) s resetParts fun u =>
          IsReset s u 4 [(0, 0x110), (0, 0x114)] ∧ Starts s u)
        ∧ (s.pwr.flush = none → s.dev.ready = true → LossQuiet s → Does (.watchdogStage3 k) s (.cores :: lossParts) fun u => coreOf u k = { coreOf s k with stage := 3, since := s.clock }
          ∧ (∀ j, j ≠ k.val → coreOf u j = coreOf s j) ∧ ∃ f, FlushBegins s u f true 4 false ∧ u.pwr = { s.pwr with flush := some f })
        ∧ (s.pwr.flush ≠ none → Does (.watchdogStage3 k) s [.cores] fun u => coreOf u k = { coreOf s k with stage := 3, since := s.clock } ∧ ∀ j, j ≠ k.val → coreOf u j = coreOf s j))
    ∧ (∀ i : Fin 3, wdAt s k i = false → (i = 0 → Does (.watchdogStage1 k) s [] fun _ => True) ∧ (i = 1 → Does (.watchdogStage2 k) s [] fun _ => True)
        ∧ (i = 2 → Does (.watchdogStage3 k) s [] fun _ => True)))
  -- The code with which a complete sequence is refused (R508).
  ∧ (∀ (s : State) (op a : Nat), (s.tap.run.isSome = true → tapRefused s op a = 1) ∧ (s.tap.run = none → s.pwr.pl = true → tapRefused s op a = 8)
    ∧ (s.tap.run = none → s.pwr.pl = false →
      (0x20000000 ≤ a ∨ (op ≠ 2 ∧ a % 512 ≠ 0) ∨ (op = 2 ∧ a % tapSectorLen a ≠ 0) → tapRefused s op a = 9)
      ∧ (a < 0x20000000 → (op ≠ 2 → a % 512 = 0) → (op = 2 → a % tapSectorLen a = 0) →
        (op = 3 → tapRefused s op a = 0) ∧ (op = 1 ∨ op = 2 → tapProtected s a = true → tapRefused s op a = 2) ∧ (op = 2 → tapProtected s a = false → tapRefused s op a = 0)
        ∧ (op = 1 → tapProtected s a = false → tapBlank s a = true → (a - tapSector a) / 512 % 8 < 4 ∨ tapBlank s (a - 4 * 512) = false → tapRefused s op a = 0))))
  ∧ (∀ (s : State) (who : Who) (v : Word), (∀ reg : Fin 4, Admits s who 0x08 (0x104 + 4 * reg) v) →
    (s.tap.step = 0 → (v = 0xA5C3 → ∀ late, Does (.tapSequenceWrite who 0 v late) s [.resp, .tap] fun u => u.tap = { s.tap with step := 1, core := who.mid, words := [] })
      ∧ (∀ (reg : Fin 4) (late : Bool), reg ≠ 0 ∨ v ≠ 0xA5C3 → Does (.tapSequenceWrite who reg v late) s [.resp] fun u => u.resp.code = .ok))
    ∧ (s.tap.core = who.mid → (s.tap.step = 1 → v = 0x3C5A → Does (.tapSequenceWrite who 0 v false) s [.resp, .tap] fun u => u.tap = { s.tap with step := 2 })
      ∧ (s.tap.step = 2 → 1 ≤ Word.fld v 3 0 → Word.fld v 3 0 ≤ 3 → Does (.tapSequenceWrite who 1 v false) s [.resp, .tap] fun u => u.tap = { s.tap with step := 3, op := Word.fld v 3 0 })
      ∧ (s.tap.step = 3 → Does (.tapSequenceWrite who 2 v false) s [.resp, .tap] fun u => u.tap = { s.tap with step := 4, addr := Word.fld v 28 0 })
      ∧ (s.tap.step = 4 → s.tap.op = 1 → s.tap.words.length < 127 → Does (.tapSequenceWrite who 3 v false) s [.resp, .tap] fun u => u.tap = { s.tap with words := s.tap.words ++ [v] })
      ∧ (s.tap.step = 4 → s.tap.op = 1 → s.tap.words.length = 127 → exec (.tapSequenceWrite who 3 v false) s = exec (.tapProgram who v) s
          ∧ (tapRefused (tapIdle s) 1 s.tap.addr = 0 → Does (.tapProgram who v) s [.resp, .tap] fun u =>
            u.tap = { s.tap with step := 0, words := [], run := some { op := 1, addr := s.tap.addr, data := s.tap.words ++ [v] } })
          ∧ (∀ c, tapRefused (tapIdle s) 1 s.tap.addr = c → c ≠ 0 → Does (.tapProgram who v) s [.resp, .tap, .regs] fun u => u.tap = { s.tap with step := 0, words := [] }
            ∧ TapEnds u c s.tap.addr ∧ RegsOnly [(0x08, 0x114), (0x08, 0x118), (0x08, 0x18)] s u))
      ∧ (∀ (op : Fin 4) (i : Instr), s.tap.step = 4 → s.tap.op = op.val → (op = 2 ∧ i = .tapErase who) ∨ (op = 3 ∧ i = .tapMargin who) →
          (v = 0xD0 → exec (.tapSequenceWrite who 3 v false) s = exec i s)
          ∧ (Admits s who 0x08 0x110 0xD0 →
            (tapRefused (tapIdle s) op s.tap.addr = 0 → Does i s [.resp, .tap] fun u => u.tap = { s.tap with step := 0, words := [], run := some { op := op, addr := s.tap.addr } })
            ∧ (∀ c, tapRefused (tapIdle s) op s.tap.addr = c → c ≠ 0 → Does i s [.resp, .tap, .regs] fun u => u.tap = { s.tap with step := 0, words := [] }
              ∧ TapEnds u c s.tap.addr ∧ RegsOnly [(0x08, 0x114), (0x08, 0x118), (0x08, 0x18)] s u))))
    ∧ (s.tap.step ≠ 4 ∨ s.tap.op ≠ 1 ∨ s.tap.words.length ≠ 127 → Does (.tapProgram who v) s [] fun _ => True)
    ∧ (s.tap.step ≠ 4 ∨ s.tap.op ≠ 2 → Does (.tapErase who) s [] fun _ => True) ∧ (s.tap.step ≠ 4 ∨ s.tap.op ≠ 3 → Does (.tapMargin who) s [] fun _ => True)
    -- A write out of order, of another core or later than 1 ms breaks the sequence; a first key begins the next one.
    ∧ (∀ (reg : Fin 4) (late : Bool), s.tap.step ≠ 0 → s.tap.step ≤ 4 →
        late = true ∨ s.tap.core ≠ who.mid ∨ (s.tap.step = 1 ∧ (reg ≠ 0 ∨ v ≠ 0x3C5A)) ∨ (s.tap.step = 2 ∧ (reg ≠ 1 ∨ Word.fld v 3 0 = 0 ∨ 3 < Word.fld v 3 0)) ∨ (s.tap.step = 3 ∧ reg ≠ 2)
          ∨ (s.tap.step = 4 ∧ (reg ≠ 3 ∨ (s.tap.op ≠ 1 ∧ v ≠ 0xD0))) →
        Does (.tapSequenceWrite who reg v late) s [.resp, .tap, .regs, .evq] fun u =>
          u.tap = (if reg = 0 ∧ v = 0xA5C3 then { s.tap with step := 1, core := who.mid, words := [] } else { s.tap with step := 0, words := [] })
          ∧ Captured s u 0x08 16 ∧ rd u 0x08 0x114 = 1 ∧ Word.bit (rd u 0x08 0x18) 1 = true))
  ∧ (∀ (s : State) (fail l h : Bool),
    (s.tap.run = none ∨ (∃ o, s.tap.run = some o ∧ o.suspended = true) → Does (.tapOpComplete fail l h) s [] fun _ => True)
    ∧ (∀ o : TapOp, s.tap.run = some o → o.suspended = false →
      (s.tap.waits = [] → o.addr < 0x20000000 →
        (o.op = 1 → o.data.length = 128 → Does (.tapOpComplete false l h) s [.tap, .mem, .regs] fun u => TapIdles s u o.addr 512 ∧ MemOnly o.addr 512 s u
          ∧ (∀ i, i < 512 → memRead u (o.addr + i) = (o.data.flatMap fun w => leBytes 4 w.toNat).getD i 0) ∧ TapEnds u 0 o.addr ∧ Counted s u 0x08 0x154
          ∧ RegsOnly [(0x08, 0x114), (0x08, 0x118), (0x08, 0x154), (0x08, 0x18)] s u)
        ∧ (o.op = 2 → Does (.tapOpComplete false l h) s [.tap, .mem, .regs] fun u => TapIdles s u o.addr (tapSectorLen o.addr) ∧ MemOnly o.addr (tapSectorLen o.addr) s u
          ∧ (∀ a, o.addr ≤ a → a < o.addr + tapSectorLen o.addr → a < 0x20000000 → memRead u a = 0xFF) ∧ TapEnds u 0 o.addr ∧ Counted s u 0x08 0x158
          ∧ RegsOnly [(0x08, 0x114), (0x08, 0x118), (0x08, 0x158), (0x08, 0x18)] s u)
        ∧ (∀ n, (o.op = 1 ∧ n = 512) ∨ (o.op = 2 ∧ n = tapSectorLen o.addr) → Does (.tapOpComplete true l h) s [.tap, .mem, .regs, .freeCtr] fun u => TapIdles s u o.addr n
          ∧ MemOnly o.addr n s u ∧ TapEnds u (if o.op = 1 then 5 else 6) o.addr ∧ RegsOnly [(0x08, 0x114), (0x08, 0x118), (0x08, 0x18)] s u)
        ∧ (o.op = 3 → Does (.tapOpComplete fail l h) s [.tap, .regs] fun u => u.tap = { s.tap with run := none }
          ∧ TapEnds u ((if l || h then 10 else 0) + l.toNat * 16 + h.toNat * 32) o.addr ∧ RegsOnly [(0x08, 0x114), (0x08, 0x118), (0x08, 0x18)] s u))
      -- A read that waited for the operation is answered once it has ended (R509).
      ∧ (∀ a q, s.tap.waits = (a, 0) :: q → o.op = 3 → Does (.tapOpComplete fail l h) s [.tap, .regs, .resp] fun u => u.tap.run = none ∧ u.tap.waits = q
          ∧ u.resp = { code := .ok, data := leNat (memReadN s a.addr a.size) })))
  ∧ (∀ (s : State) (a : Acc) (ecc : Fin 3) (waits : Bool),
    (0x20000000 ≤ a.addr ∨ a.kind = .write → Does (.tapBankRead a ecc waits) s [] fun _ => True)
    ∧ (a.addr < 0x20000000 → a.kind ≠ .write →
      ((barkCheck s 0x08 a).2 = false → Does (.tapBankRead a ecc waits) s [.resp, .regs, .trunk, .evq] fun u => u.resp.code = .denied)
      ∧ ((barkCheck s 0x08 a).2 = true → refusesData s 0x08 = true → Does (.tapBankRead a ecc waits) s [.resp] fun u => u.resp.code = .domainOff))
    ∧ (TapAdmits s a →
      (s.tap.run = none ∨ (∃ o, s.tap.run = some o ∧ tapBank o.addr ≠ tapBank a.addr ∧ tapHit o a.addr a.size = false) → TapArray s a →
        Does (.tapBankRead a 0 waits) s [.resp, .regs, .tap] (fun u => u.resp = { code := .ok, data := leNat (memReadN s a.addr a.size) } ∧ TapReads s u s.tap.run ∧ RegsOnly tapHits s u)
        ∧ Does (.tapBankRead a 1 waits) s [.resp, .regs, .tap] (fun u => u.resp = { code := .ok, data := leNat (memReadN s a.addr a.size) } ∧ TapReads s u s.tap.run ∧ Counted s u 0x08 0x140
          ∧ RegsOnly ((0x08, 0x140) :: tapHits) s u)
        ∧ Does (.tapBankRead a 2 waits) s [.resp, .regs, .tap] (fun u => u.resp.code = .poison ∧ TapReads s u s.tap.run ∧ Counted s u 0x08 0x144 ∧ Word.bit (rd u 0x08 0x18) 2 = true
          ∧ RegsOnly ((0x08, 0x144) :: (0x08, 0x18) :: tapHits) s u))
      ∧ (∀ o, s.tap.run = some o → o.suspended = false → tapBank o.addr = tapBank a.addr →
        Does (.tapBankRead a ecc true) s [.tap] (fun u => u.tap = { s.tap with waits := s.tap.waits ++ [(a, ecc.val)] })
        ∧ (TapArray s a → Does (.tapBankRead a 0 false) s [.resp, .regs, .tap] fun u => TapReads s u (some { o with suspended := true }) ∧ Counted s u 0x08 0x148
          ∧ (tapHit o a.addr a.size = false → u.resp = { code := .ok, data := leNat (memReadN s a.addr a.size) }) ∧ (tapHit o a.addr a.size = true → u.resp.code = .poison)
          ∧ RegsOnly ((0x08, 0x148) :: tapHits) s u))
      ∧ (∀ o, s.tap.run = some o → o.suspended = true → TapArray s a → Does (.tapBankRead a 0 waits) s [.resp, .regs, .tap] fun u => TapReads s u (some o)
          ∧ (tapHit o a.addr a.size = false → u.resp = { code := .ok, data := leNat (memReadN s a.addr a.size) }) ∧ (tapHit o a.addr a.size = true → u.resp.code = .poison) ∧ RegsOnly tapHits s u)
      -- A demand read of one read unit (R506): a hit needs no read of the array, and suspends nothing.
      ∧ (∀ n, tapUnits a.addr a.size = [n] → n + 3 < 0x1000000 →
        (pfOn s = true → n ∈ s.tap.pf → (∀ o, s.tap.run = some o → tapHit o a.addr a.size = false) → Does (.tapBankRead a ecc false) s [.resp, .regs, .tap] fun u =>
          u.resp = { code := .ok, data := leNat (memReadN s a.addr a.size) } ∧ Counted s u 0x08 0x14C ∧ RegsOnly [(0x08, 0x14C)] s u ∧ u.tap.run = s.tap.run ∧ u.tap.btc = s.tap.btc
          ∧ u.tap.pf = ([n + 1, n + 2, n + 3] ++ s.tap.pf.filter fun w => decide (w ≠ n + 1 ∧ w ≠ n + 2 ∧ w ≠ n + 3)).take 4)
        ∧ (pfOn s = false ∨ n ∉ s.tap.pf → btcOn s = true → n ∈ s.tap.btc → (∀ o, s.tap.run = some o → tapHit o a.addr a.size = false) → Does (.tapBankRead a ecc false) s [.resp, .regs, .tap] fun u =>
          u.resp = { code := .ok, data := leNat (memReadN s a.addr a.size) } ∧ Counted s u 0x08 0x150 ∧ RegsOnly [(0x08, 0x150)] s u ∧ u.tap.run = s.tap.run ∧ u.tap.btc = s.tap.btc)
        ∧ (pfOn s = false ∨ n ∉ s.tap.pf → btcOn s = false ∨ n ∉ s.tap.btc → TapArray s a
          ∧ (btcOn s = true → tapBranch s a = true → s.tap.run = none → Does (.tapBankRead a ecc false) s [.resp, .regs, .tap] fun u => u.tap.btc = (n :: s.tap.btc).take 64))))
    ∧ (∀ o, s.tap.run = some o → Does .tapOpResume s [.tap] fun u => u.tap = { s.tap with run := some { o with suspended := false } })
    ∧ (s.tap.run = none → Does .tapOpResume s [] fun _ => True))

/-- MAILBOX_POST, MAILBOX_ACK, HUHILD_HELLO, HUHILD_HELLO_ACK, HUHILD_MESSAGE, XMV_CH_TAIL_WRITE, XMV_DESCRIPTOR_ARRIVAL, XMV_RESPONSE, XMV_STOP, XMV_ABORT, XMV_EN_WRITE,
XMV_STEP_WRITE, XMV_REQUEST_LINE_EDGE and XMV_SWREQ_WRITE (R514 to R526, R532, R533). The movers' accesses are the Trunk accesses of the model. -/
def Obligations.MailboxesAndMovers : Prop :=
  (∀ (s : State) (m : Fin 32) (who : Who) (tag : Word) (slot : Fin 2),
    ((m = 6 ∨ m = 7) → Does (.mailboxPost none m slot tag) s [.resp] (fun u => u.resp.code = .ok) ∧ Does (.mailboxAck none m slot) s [.resp] fun u => u.resp.code = .ok)
    ∧ (m ≠ 6 → m ≠ 7 →
      (∀ (x : Option Who) (off : Nat), off = mbxOff m + (if slot = 0 then 0x14 else 0x2C) → x = none ∨ (x = some who ∧ Admits s who 0x07 off tag) →
        (mbxSide s m slot x = true → (slot = 0 → mbxPeerOff s m = false) →
          (mbxFull (mbxOf s m) slot = false → Does (.mailboxPost x m slot tag) s [.resp, .regs, .mbx] fun u => u.resp.code = .ok
            ∧ MbxIs s u m (if slot = 0 then { mbxOf s m with full0 := true } else { mbxOf s m with full1 := true }) ∧ rd u 0x07 off = tag
            ∧ Word.bit (rd u 0x07 (if slot = 0 then 0x100 else 0x104)) m = true ∧ Word.bit (rd u 0x07 0x18) 1 = true
            ∧ RegsOnly [(0x07, off), (0x07, if slot = 0 then 0x100 else 0x104), (0x07, 0x18)] s u)
          ∧ (mbxFull (mbxOf s m) slot = true → Does (.mailboxPost x m slot tag) s [.resp, .regs] fun u => u.resp.code = .ok
            ∧ Word.bit (rd u 0x07 0x110) m = true ∧ Word.bit (rd u 0x07 0x18) 3 = true ∧ RegsOnly [(0x07, 0x110), (0x07, 0x18)] s u))
        ∧ (mbxSide s m slot x = true → slot = 0 → mbxPeerOff s m = true → Does (.mailboxPost x m slot tag) s [.resp] fun u => u.resp.code = .domainOff)
        ∧ (mbxSide s m slot x = false → Does (.mailboxPost x m slot tag) s [.resp, .regs, .evq] fun u => Captured s u 0x07 16 ∧ u.resp.code = .ok))
      ∧ (∀ (x : Option Who) (off : Nat), off = mbxOff m + (if slot = 0 then 0x18 else 0x30) → x = none ∨ (x = some who ∧ Admits s who 0x07 off 1) →
        (mbxReceiver s m slot x = true → mbxFull (mbxOf s m) slot = true → Does (.mailboxAck x m slot) s [.resp, .regs, .mbx] fun u => u.resp.code = .ok
          ∧ MbxIs s u m (if slot = 0 then { mbxOf s m with full0 := false } else { mbxOf s m with full1 := false })
          ∧ Word.bit (rd u 0x07 (if slot = 0 then 0x108 else 0x10C)) m = true ∧ Word.bit (rd u 0x07 0x18) 2 = true
          ∧ RegsOnly [(0x07, if slot = 0 then 0x108 else 0x10C), (0x07, 0x18)] s u)
        ∧ (mbxReceiver s m slot x = true → mbxFull (mbxOf s m) slot = false → Does (.mailboxAck x m slot) s [.resp] fun u => u.resp.code = .ok)
        ∧ (mbxReceiver s m slot x = false → Does (.mailboxAck x m slot) s [.resp, .regs, .evq] fun u => Captured s u 0x07 16 ∧ u.resp.code = .ok)))
    ∧ (∀ (pairs own : List (Fin 256 × Fin 256)) (o : List (Nat × Nat)) (typ : Fin 65536) (x : Mbx), x = mbxOf s m →
        (m ≠ 6 → m ≠ 7 → 0 < pairs.length → pairs.length ≤ 8 → Does (.huhildHello m slot pairs) s [.mbx] fun u =>
          MbxIs s u m (if slot = 0 then { x with offer0 := some (pairs.map fun p => (p.1.val, p.2.val)), ver0 := none } else { x with offer1 := some (pairs.map fun p => (p.1.val, p.2.val)), ver1 := none }))
        ∧ (m = 6 ∨ m = 7 ∨ pairs.length = 0 ∨ 8 < pairs.length → Does (.huhildHello m slot pairs) s [] fun _ => True)
        ∧ ((if slot = 0 then x.offer0 else x.offer1) = none → Does (.huhildHelloAck m slot own) s [] fun _ => True)
        ∧ ((if slot = 0 then x.offer0 else x.offer1) = some o → Does (.huhildHelloAck m slot own) s [.mbx, .resp] fun u => ∃ v : Nat × Nat,
            MbxIs s u m (if slot = 0 then { x with ver0 := some v } else { x with ver1 := some v })
            ∧ u.resp = { code := .ok, data := v.1 + v.2 * 256 }
            ∧ ((∃ p ∈ o, ∃ q ∈ own, q.1.val = p.1) → (∃ p ∈ o, p.1 = v.1 ∧ v.2 ≤ p.2) ∧ (∃ q ∈ own, q.1.val = v.1 ∧ v.2 ≤ q.2.val) ∧ ∀ p ∈ o, (∃ q ∈ own, q.1.val = p.1) → p.1 ≤ v.1)
            ∧ ((¬ ∃ p ∈ o, ∃ q ∈ own, q.1.val = p.1) → v = (0, 0)))
        ∧ (typ.val = 1 ∨ typ.val = 2 → Does (.huhildMessage m slot typ) s [] fun _ => True)
        ∧ (typ.val ≠ 1 → typ.val ≠ 2 →
          ((if slot = 0 then x.ver0 else x.ver1) = none → Does (.huhildMessage m slot typ) s [.resp] fun u => u.resp = { code := .ok, data := 3 })
          ∧ (∀ v : Nat × Nat, (if slot = 0 then x.ver0 else x.ver1) = some v → (v.1 ≠ 0 → Does (.huhildMessage m slot typ) s [.resp] fun u => u.resp = { code := .ok, data := typ.val })
            ∧ (v.1 = 0 → Does (.huhildMessage m slot typ) s [] fun _ => True)))))
  ∧ (∀ (s : State) (who : Who) (c : Fin 64) (v : Word) (x : XmvCh), xmvOf s c = x →
    (Admits s who 0x09 (xmvOff c + 0x0C) v → (Word.fld v 11 0 < xmvSize s c → Does (.xmvChTailWrite who c v) s [.resp, .regs] fun u => xmvTail u c = Word.fld v 11 0 ∧ u.resp.code = .ok
          ∧ RegsOnly [(0x09, xmvOff c + 0x0C)] s u)
        ∧ (xmvSize s c ≤ Word.fld v 11 0 → Does (.xmvChTailWrite who c v) s [.resp, .regs, .xmv] fun u => xmvTail u c = xmvTail s c
          ∧ XmvIs s u c { xmvClear x with st := .error, reason := 2, tcode := 0 } ∧ Word.bit (rd u 0x09 (xmvOff c + 0x28)) 2 = true))
    ∧ (Admits s who 0x09 (xmvOff c + 0x14) (rd s 0x09 (xmvOff c + 0x14) ||| 2) →
        ((x.st = .run ∨ x.st = .waitPace) → x.desc.isSome = true → Does (.xmvStop who c) s [.resp, .xmv] fun u => XmvIs s u c { x with st := .stopping })
        ∧ ((x.st = .run ∨ x.st = .waitPace) → x.desc = none → Does (.xmvStop who c) s [.resp, .xmv, .regs] fun u => XmvIs s u c { xmvClear x with st := .stopped }
          ∧ Word.bit (rd u 0x09 (xmvOff c + 0x28)) 3 = true)
        ∧ (x.st ≠ .run → x.st ≠ .waitPace → Does (.xmvStop who c) s [.resp] fun u => u.resp.code = .ok))
    ∧ (Admits s who 0x09 (xmvOff c + 0x14) (rd s 0x09 (xmvOff c + 0x14) ||| 4) →
        (x.st = .run ∨ x.st = .waitPace ∨ x.st = .stopping →
          (x.desc = none → Does (.xmvAbort who c) s [.resp, .xmv, .regs] fun u => XmvIs s u c { xmvClear x with st := .stopped } ∧ xmvHead u c = xmvHead s c
            ∧ Word.bit (rd u 0x09 (xmvOff c + 0x28)) 3 = true)
          ∧ (∀ t : State, x.desc.isSome = true → x.out = [] → xmvWriteBack s c 1 0 = (.ok, t) → xmvOf t c = x → ∃ u, exec (.xmvAbort who c) s = .next (settle u)
            ∧ (xmvOf u c).st = .stopped ∧ (xmvOf u c).desc = none ∧ xmvHead u c = (xmvHead t c + 1) % xmvSize t c % 4096 ∧ u.mem = t.mem ∧ Word.bit (rd u 0x09 (xmvOff c + 0x28)) 3 = true)
          ∧ (x.desc.isSome = true → x.out ≠ [] → x.ending = none → Does (.xmvAbort who c) s [.resp, .xmv] fun u => XmvIs s u c { x with st := .stopping, ending := some (1, 0) })
          ∧ (x.desc.isSome = true → x.out ≠ [] → x.ending ≠ none → Does (.xmvAbort who c) s [.resp] fun u => u.resp.code = .ok))
        ∧ (x.st = .idle ∨ x.st = .stopped ∨ x.st = .error → Does (.xmvAbort who c) s [.resp] fun u => u.resp.code = .ok))
    ∧ (Admits s who 0x09 (xmvOff c + 0x14) v →
        (Word.bit v 0 = true → Word.bit v 1 = false → Word.bit v 2 = false → Does (.xmvEnWrite who c v) s [.resp, .regs, .xmv] fun u => xmvEn u c = true
          ∧ XmvIs s u c (if x.st = .idle then { x with st := .run, reason := 0, tcode := 0 } else x) ∧ xmvPrio u c = Word.fld v 5 4 ∧ RegsOnly [(0x09, xmvOff c + 0x14)] s u)
        ∧ (Word.bit v 0 = true → Word.bit v 1 = true → Word.bit v 2 = false → x.st = .run ∨ x.st = .waitPace → x.desc.isSome = true → Does (.xmvEnWrite who c v) s [.resp, .regs, .xmv] fun u =>
          xmvEn u c = true ∧ XmvIs s u c { x with st := .stopping })
        ∧ (Word.bit v 0 = true → Word.bit v 2 = true → x.st = .run ∨ x.st = .waitPace → x.desc = none → Does (.xmvEnWrite who c v) s [.resp, .regs, .xmv] fun u => xmvEn u c = true
          ∧ XmvIs s u c { xmvClear x with st := .stopped })
        ∧ (Word.bit v 0 = false → xmvBusy x = false → Does (.xmvEnWrite who c v) s [.resp, .regs, .xmv] fun u => xmvEn u c = false
          ∧ XmvIs s u c { x with st := .idle, ovr := false } ∧ RegsOnly [(0x09, xmvOff c + 0x14)] s u)
        ∧ (Word.bit v 0 = false → xmvBusy x = true → Does (.xmvEnWrite who c v) s [.resp, .regs, .evq] fun u => rd u 0x09 (xmvOff c + 0x14) = rd s 0x09 (xmvOff c + 0x14)
          ∧ Captured s u 0x09 16))
    ∧ (Admits s who 0x09 (xmvOff c + 0x1C) v → Moves (.xmvStepWrite who c v) s [.resp, .xmv] fun u => XmvIs s u c 
        { x with credits := min (x.credits + Word.fld v 7 0) 511, ovr := x.ovr || decide (511 < x.credits + Word.fld v 7 0), st := if x.st = .waitPace ∧ 0 < x.credits + Word.fld v 7 0 then .run else x.st })
    ∧ (∀ (line : Fin 16) (i : Instr), i = .xmvRequestLineEdge line ∨ (8 ≤ line.val ∧ i = .xmvSwreqWrite who (w32 (2 ^ (line.val - 8))) ∧ Admits s who 0x09 0x104 (w32 (2 ^ (line.val - 8)))) →
        Moves i s [.resp, .xmv] fun u => ∀ j : Fin 64, xmvOf u j = match (xmvOf s j).desc with
        | some d => if d.ctrl / 16 % 4 = 2 ∧ d.ctrl / 64 % 16 = line.val then 
            { xmvOf s j with credits := min ((xmvOf s j).credits + 1) 511, ovr := (xmvOf s j).ovr || decide (511 ≤ (xmvOf s j).credits), st := if (xmvOf s j).st = .waitPace then .run else (xmvOf s j).st } else xmvOf s j
        | none => xmvOf s j))
  -- What the movers issue (R525): a channel has at most 32 requests outstanding and all have at most 1,024; issuing changes nothing else.
  ∧ (∀ (s : State) (c : Fin 64), KeepsBut [.xmv] s (xmvGo s) ∧ (xmvOf (xmvGo s) c).st = (xmvOf s c).st ∧ (xmvOf (xmvGo s) c).desc = (xmvOf s c).desc ∧ (xmvOf (xmvGo s) c).done = (xmvOf s c).done
    ∧ (∃ l, (xmvOf (xmvGo s) c).out = (xmvOf s c).out ++ l) ∧ (xmvOf (xmvGo s) c).out.length ≤ max 32 (xmvOf s c).out.length)
  ∧ (∀ (s t : State) (c : Fin 64) (x : XmvCh) (d : List Byte), xmvOf s c = x →
    (x.st ≠ .run ∨ x.desc.isSome = true ∨ x.out ≠ [] ∨ 1024 ≤ xmvOutAll s ∨ xmvHead s c = xmvTail s c → Does (.xmvDescriptorArrival c) s [] fun _ => True)
    ∧ (x.st = .run → x.desc = none → x.out = [] → xmvOutAll s < 1024 → xmvHead s c ≠ xmvTail s c →
      (busRead s (xmvWho c) (xmvEntry s c (xmvHead s c)) 32 = (.ok, d, t) → xmvMalformed d = false → xmvOf t c = x → x = xmvClear x →
        ∃ u, exec (.xmvDescriptorArrival c) s = .next (settle (xmvGo u)) ∧ KeepsBut [.xmv] t u ∧ xmvOf u c = { x with
          desc := some { src := leNat (d.take 6), dst := leNat ((d.drop 8).take 6), len := leNat ((d.drop 16).take 3) + 1, ctrl := leNat ((d.drop 20).take 2) }, done := 0
          st := if leNat ((d.drop 20).take 2) / 16 % 4 ≠ 0 ∧ x.credits = 0 then .waitPace else .run })
      ∧ (busRead s (xmvWho c) (xmvEntry s c (xmvHead s c)) 32 = (.ok, d, t) → xmvMalformed d = true →
        ∃ u, exec (.xmvDescriptorArrival c) s = .next (settle u) ∧ (xmvOf u c).st = .error ∧ (xmvOf u c).reason = 1 ∧ (xmvOf u c).desc = none)
      ∧ (∀ r, r ≠ .ok → busRead s (xmvWho c) (xmvEntry s c (xmvHead s c)) 32 = (r, d, t) →
        ∃ u, exec (.xmvDescriptorArrival c) s = .next (settle u) ∧ (xmvOf u c).st = .error ∧ (xmvOf u c).reason = 5 ∧ (xmvOf u c).tcode = tcodeNum r ∧ u.mem = t.mem))
    ∧ (x.out = [] → Serves (.xmvResponse c) s [] fun _ => True)
    ∧ (∀ (q : XmvReq) (l : List XmvReq) (r : TCode) (w : Nat), x.out = q :: l → XmvTrunk s c x q l r w t → ∃ u, exec (.xmvResponse c) s = .next (settle (drain (xmvSettle (xmvGo u) c)))
      ∧ KeepsBut [.xmv, .regs] t u ∧ (∀ j, j ≠ c.val → xmvOf u j = xmvOf t j)
      ∧ (x.desc = none → xmvOf u c = { x with out := l })
      ∧ (x.desc.isSome = true → q.write = false → r = .ok → xmvOf u c = { x with out := l, got := x.got ++ ((leBytes q.size w).drop q.lo).take q.n })
      ∧ (x.desc.isSome = true → q.write = false → r ≠ .ok → xmvOf u c = { x with out := l, ending := x.ending.or (some (2, tcodeNum r)) })
      ∧ (x.desc.isSome = true → q.write = true → r = .ok → xmvOf u c = { x with out := l, done := if x.broken then x.done else x.done + q.n })
      ∧ (x.desc.isSome = true → q.write = true → r ≠ .ok → xmvOf u c = { x with out := l, ending := x.ending.or (some (3, tcodeNum r)), broken := true })
      ∧ (∀ e, x.desc = some e → q.write = true → r = .ok → x.broken = false → e.ctrl / 4 % 2 = 1 → x.done < (e.len + 1) / 2 → (e.len + 1) / 2 ≤ x.done + q.n →
          Word.bit (rd u 0x09 (xmvOff c + 0x28)) 0 = true))
    -- Once no request is outstanding, the descriptor ends, or waits for a credit (R522, R524, R526).
    ∧ (x.desc = none ∨ x.out ≠ [] → xmvSettle s c = s)
    ∧ (∀ e, x.desc = some e → x.out = [] →
      (x.ending = none → x.done ≠ e.len → xmvSettle s c = s ∨ XmvIs s (xmvSettle s c) c { x with st := .waitPace })
      ∧ (x.ending = none → x.done = e.len → xmvWriteBack s c 0 0 = (.ok, t) → xmvOf t c = x → (xmvOf (xmvSettle s c) c).desc = none
        ∧ (xmvOf (xmvSettle s c) c).st = (if x.st = .stopping then .stopped else x.st) ∧ xmvHead (xmvSettle s c) c = (xmvHead t c + 1) % xmvSize t c % 4096 ∧ (xmvSettle s c).mem = t.mem
        ∧ (e.ctrl / 8 % 2 = 1 → Word.bit (rd (xmvSettle s c) 0x09 (xmvOff c + 0x28)) 1 = true))
      ∧ (∀ code, x.ending = some (1, code) → xmvWriteBack s c 1 0 = (.ok, t) → xmvOf t c = x → (xmvOf (xmvSettle s c) c).st = .stopped
        ∧ xmvHead (xmvSettle s c) c = (xmvHead t c + 1) % xmvSize t c % 4096 ∧ (xmvSettle s c).mem = t.mem)
      ∧ (∀ st code, x.ending = some (st, code) → st = 2 ∨ st = 3 → (xmvOf (xmvSettle s c) c).st = .error ∧ (xmvOf (xmvSettle s c) c).reason = st + 1 ∧ (xmvOf (xmvSettle s c) c).tcode = code
        ∧ (xmvOf (xmvSettle s c) c).desc = none ∧ xmvHead (xmvSettle s c) c = xmvHead s c)))
/-! ### Graft -/

/-- FIRMWARE_IMAGE_DOWNLOAD, FIRMWARE_COMMIT, COMMIT_GRAFT_CONFIRM, COMMIT_GRAFT_REJECT and TRIAL_CONFIRM_TIMEOUT (R539 to R542, R544, R547 to R549). -/
def Obligations.GraftUpdates : Prop :=
  (∀ (s : State) (c : CmdId) (x : Ctx) (fail : Bool) (len ofst slot : Nat), CmdReady s c true 0x11 x → len = (x.sqe.cdw10.toNat + 1) * 4 → ofst = x.sqe.cdw11.toNat * 4 → slot = inactiveSlot s →
    (inTrial s = true → Does (.firmwareImageDownload c fail) s [.hqe] fun u => Ends s u c x ⟨1, 0x13⟩ 0 0)
    ∧ (∀ q, inTrial s = false → s.graft.session = some q → q.mid ≠ c.mid → Does (.firmwareImageDownload c fail) s [.hqe] fun u => Ends s u c x stSequence 0 0)
    ∧ (inTrial s = false → (∀ q, s.graft.session = some q → q.mid = c.mid) →
      (ofst % 4096 ≠ 0 ∨ 0xBC00000 < ofst + len → Does (.firmwareImageDownload c fail) s [.hqe] fun u => Ends s u c x stInvalidField 0 0)
      ∧ (ofst % 4096 = 0 → ofst + len ≤ 0xBC00000 →
        (ofst ≠ 0 → s.graft.session = none ∨ (∃ q, s.graft.session = some q ∧ q.next < ofst) → Does (.firmwareImageDownload c fail) s [.hqe] fun u => Ends s u c x stInvalidField 0 0)
        ∧ (ofst ≠ 0 → (∃ q, s.graft.session = some q ∧ ofst < q.next) → Does (.firmwareImageDownload c fail) s [.hqe] fun u => Ends s u c x ⟨1, 0x14⟩ 0 0)
        ∧ ((ofst = 0 ∨ ∃ q, s.graft.session = some q ∧ q.next = ofst) → x.data.length = len → Does (.firmwareImageDownload c false) s [.hqe, .mem, .graft, .tap] fun u => Ends s u c x stOk 0 0 ∧ u.tap = { s.tap with pf := u.tap.pf, btc := u.tap.btc }
          ∧ u.graft = { s.graft with session := some ⟨c.mid, ofst + len⟩, tickets := u.graft.tickets } ∧ u.graft.tickets = (if ofst = 0 then Tbl.del s.graft.tickets slot else s.graft.tickets)
          ∧ (∀ i, i < len → memRead u (slotBase slot + ofst + i) = x.data.getD i 0) ∧ MemOnly (slotBase slot) 0xC000000 s u
          ∧ ∀ i, i < ofst → ofst ≠ 0 → memRead u (slotBase slot + i) = memRead s (slotBase slot + i))
        ∧ ((ofst = 0 ∨ ∃ q, s.graft.session = some q ∧ q.next = ofst) → Does (.firmwareImageDownload c true) s [.hqe, .mem, .graft, .tap, .freeCtr] fun u => Ends s u c x stInternal 0 0
          ∧ u.graft = { s.graft with session := none, tickets := if ofst = 0 then Tbl.del s.graft.tickets slot else s.graft.tickets } ∧ MemOnly (slotBase slot) 0xC000000 s u))))
  ∧ (∀ (s r : State) (c : CmdId) (x : Ctx) (secret : Bool) (slot : Nat), CmdReady s c true 0x10 x → slot = inactiveSlot s → r = (if manifestOk (manifestOf s slot) then copyInherit s slot else s) →
    (Word.fld x.sqe.cdw10 5 3 ≠ 2 → Does (.firmwareCommit c secret) s [.hqe] fun u => Ends s u c x stInvalidField 0 0)
    ∧ (Word.fld x.sqe.cdw10 5 3 = 2 → Word.fld x.sqe.cdw10 2 0 ≠ 0 → Word.fld x.sqe.cdw10 2 0 ≠ slot + 1 → Does (.firmwareCommit c secret) s [.hqe] fun u => Ends s u c x ⟨1, 0x06⟩ 0 0)
    ∧ (Word.fld x.sqe.cdw10 5 3 = 2 → Word.fld x.sqe.cdw10 2 0 = 0 ∨ Word.fld x.sqe.cdw10 2 0 = slot + 1 → ∀ code, commitCode r c.mid slot secret = code →
      (code ≠ 0 → Does (.firmwareCommit c secret) s [.hqe, .mem, .graft, .tap, .evq, .freeCtr] fun u => Ends s u c x ⟨1, 0x07⟩ code 0 ∧ u.mem = r.mem ∧ u.graft = { s.graft with session := none }
        ∧ ∃ e, u.evq = s.evq ++ [e] ∧ e.code = 0x2003)
      ∧ (code = 0 → Does (.firmwareCommit c secret) s [.hqe, .mem, .graft, .tap, .evq, .freeCtr] fun u => Ends s u c x stOk 0 0 ∧ u.mem = r.mem ∧ u.graft.session = none ∧ u.graft.srec = s.graft.srec
        ∧ u.graft.running = s.graft.running ∧ (∃ e, u.evq = s.evq ++ [e] ∧ e.code = 0x2004)
        ∧ ∃ t, Tbl.getD u.graft.tickets slot [] = Tbl.getD s.graft.tickets slot [] ++ [t] ∧ t.typ = 1 ∧ t.gen = s.graft.srec.gen ∧ t.digest = manifestDigest r slot)))
  ∧ (∀ (s : State) (c : CmdId) (x : Ctx) (a : Nat), CmdReady s c true 0xC5 x → a = Word.fld x.sqe.cdw10 3 0 →
    (a = 1 → Does (.commitGraftConfirm c) s [] fun _ => True) ∧ (a ≠ 1 → Does (.commitGraftReject c) s [] fun _ => True)
    ∧ (2 ≤ a → Does (.commitGraftConfirm c) s [.hqe] fun u => Ends s u c x stInvalidField 0 0)
    ∧ (a = 0 → s.graft.trial = false → Does (.commitGraftConfirm c) s [.hqe] fun u => Ends s u c x stOk 1 0)
    ∧ (a = 0 → s.graft.trial = true → manSvn (manifestOf s s.graft.running) ≤ svnCount s.fus.last ∨ s.fus.prog ≠ none → Does (.commitGraftConfirm c) s [.hqe, .graft, .evq, .freeCtr] fun u => Ends s u c x stOk 0 0
      ∧ u.graft.trial = false ∧ u.graft.srec = s.graft.srec ∧ (∃ e, u.evq = s.evq ++ [e] ∧ e.code = 0x2007)
      ∧ ∃ t, Tbl.getD u.graft.tickets s.graft.running [] = Tbl.getD s.graft.tickets s.graft.running [] ++ [t] ∧ t.typ = 4 ∧ t.gen = s.graft.srec.gen)
    ∧ (a = 0 → s.graft.trial = true → svnCount s.fus.last < manSvn (manifestOf s s.graft.running) → s.fus.prog = none →
      (∀ k : Fin 4, Tbl.getD s.fus.blown (4 + k) 0 = 0 → Tbl.getD s.fus.blown (0x204 + k) 0 = 0 → (∀ j : Fin 4, j < k → Tbl.getD s.fus.blown (4 + j) 0 ≠ 0) →
        Does (.commitGraftConfirm c) s [.hqe, .graft, .evq, .freeCtr, .fus] fun u => Ends s u c x stOk 0 0 ∧ u.graft.trial = false
          ∧ ∃ p, u.fus = { s.fus with prog := some p } ∧ p.op = 3 ∧ p.word = 4 + k ∧ p.data = [w32 (2 ^ min 32 (manSvn (manifestOf s s.graft.running) - svnCount s.fus.last) - 1)])
      ∧ ((∀ k : Fin 4, Tbl.getD s.fus.blown (4 + k) 0 ≠ 0) → Does (.commitGraftConfirm c) s [.hqe, .graft, .evq, .freeCtr] fun u => u.graft.trial = false
        ∧ ∃ e f, u.evq = s.evq ++ [e, f] ∧ e.code = 0x2009 ∧ f.code = 0x2007))
    ∧ (a = 1 → s.graft.trial = true → Does (.commitGraftReject c) s [.hqe, .graft] fun u => Ends s u c x stOk 0 0 ∧ u.graft.trial = true
      ∧ ∃ t, Tbl.getD u.graft.tickets s.graft.running [] = Tbl.getD s.graft.tickets s.graft.running [] ++ [t] ∧ t.typ = 5 ∧ t.gen = s.graft.srec.gen)
    ∧ (a = 1 → s.graft.trial = false → Does (.commitGraftReject c) s [.hqe] fun u => Ends s u c x stSequence 0 0))
  ∧ (∀ s : State,
    (s.graft.trial = true → s.graft.srec.trialOpsec + 7200 ≤ s.dev.opsec → hasTicket s s.graft.running 3 = false → Does .trialConfirmTimeout s [.graft, .evq, .freeCtr, .fus] fun u =>
      u.graft = { s.graft with trial := false, tickets := u.graft.tickets } ∧ (∃ e, e ∈ u.evq ∧ e.code = 0x2007)
        ∧ (∃ t, Tbl.getD u.graft.tickets s.graft.running [] = Tbl.getD s.graft.tickets s.graft.running [] ++ [t] ∧ t.typ = 4 ∧ t.gen = s.graft.srec.gen)
        ∧ (manSvn (manifestOf s s.graft.running) ≤ svnCount s.fus.last → u.fus = s.fus))
    ∧ (s.graft.trial = false ∨ s.dev.opsec < s.graft.srec.trialOpsec + 7200 ∨ hasTicket s s.graft.running 3 = true → Does .trialConfirmTimeout s [] fun _ => True))
/-! ### The event recorder, SPDM, NVMe-MI and temperature -/

/-- EVENT_ARRIVAL, RECORD_CLOSE_TIMEOUT, PAGE_SEAL_TIMEOUT, SEAL_ALL, EVR_POST_GO, EVR_DRAIN_ACK, EVR_ENABLE, CLEAR_RINGS_GET_NONCE, CLEAR_RINGS_CLEAR, NONCE_EXPIRE and SPDM_CLEAR_RINGS
(R553 to R560, R564, R565, R569). Whether a token's signature verifies is the row's operand. -/
def Obligations.RecorderWork : Prop :=
  (∀ s : State, Does .eventArrival s (if s.evq = [] then [] else [.evq, .rings, .regs]) fun u => u.evq = s.evq.tail)
  ∧ (∀ (s : State) (e : Ev) (l : List Ev) (alone : Bool), s.evq = e :: l → e.sev < 5 → alone = (decide (e.sev = 0) || !coalEn s) →
    (alone = false → (∃ y ∈ s.rings.opened, Folds y e.code e.block e.inst) → Does .eventArrival s [.evq, .rings, .regs] fun u => u.evq = l ∧ Folded s u e.code e.block e.inst
        ∧ RegsOnly [(0x06, 0x134)] s u)
    ∧ (alone = true ∨ (∀ y ∈ s.rings.opened, ¬Folds y e.code e.block e.inst) →
      (admitBelow e.sev ≤ evrUsed s → Does .eventArrival s [.evq, .rings, .regs] fun u => u.evq = l ∧ Dropped s u e.sev ∧ (s.rings.dropRec = none → u.rings.dropRec = some (stampRec s e))
        ∧ RegsOnly [(0x06, 0x18), (0x06, 0x120 + 4 * e.sev)] s u)
      ∧ (∀ b, evrUsed s < admitBelow e.sev → b = (alone || decide (128 ≤ countOf (fun y : Rec => !y.single) s.rings.opened)) →
        (b = false ∨ evrEn s = false → Does .eventArrival s [.evq, .rings, .regs] fun u => u.evq = l ∧ u.rings = { s.rings with opened := s.rings.opened ++ [{ stampRec s e with single := b }] }
          ∧ RegsOnly [(0x06, 0x18)] s u ∧ StageHigh s u)
        ∧ (b = true → evrEn s = true → SeqRoom s 1 → Does .eventArrival s [.evq, .rings, .regs] fun u => u.evq = l ∧ u.rings.opened = s.rings.opened
          ∧ Closes s u [{ stampRec s e with single := true }] ∧ StageHigh s u ∧ RegsOnly seqRegs s u))))
  ∧ (∀ s : State,
    (∀ x l, s.rings.opened = x :: l → evrEn s = true → x.at_ + 1 ≤ s.clock → SeqRoom s 1 → Does .recordCloseTimeout s [.rings, .regs] fun u => u.rings.opened = l ∧ Closes s u [x]
        ∧ RegsOnly seqRegs s u)
    ∧ ((∀ x l, s.rings.opened = x :: l → evrEn s = false ∨ s.clock < x.at_ + 1) → Does .recordCloseTimeout s [] fun _ => True)
    ∧ (s.rings.part ≠ [] → s.rings.pages.length < 512 → Does .pageSealTimeout s [.rings, .regs] fun u => u.rings.pages = s.rings.pages ++ [s.rings.part.take 8] ∧ u.rings.part = s.rings.part.drop 8
        ∧ u.rings.opened = s.rings.opened ∧ Word.bit (rd u 0x06 0x18) 1 = true ∧ RegsOnly [(0x06, 0x18)] s u)
    ∧ (s.rings.part = [] ∨ 512 ≤ s.rings.pages.length → Does .pageSealTimeout s [] fun _ => True)
    ∧ (∀ who, Admits s who 0x06 0x11C 1 → Does (.sealAll who) s [.resp, .rings, .regs] (fun u => u.resp.code = .ok)
      ∧ (s.rings.dropRec = none → s.rings.part.length < 8 →
        (evrEn s = true → SeqRoom s s.rings.opened.length → Does (.sealAll who) s [.resp, .rings, .regs] fun u => u.rings.opened = [] ∧ Closes s u s.rings.opened
          ∧ (u.rings.part = [] ∨ 512 ≤ u.rings.pages.length))
        ∧ (evrEn s = false → Does (.sealAll who) s [.resp, .rings, .regs] fun u => u.rings.opened = s.rings.opened ∧ seqNext u = seqNext s
          ∧ u.rings.pages.flatten ++ u.rings.part = s.rings.pages.flatten ++ s.rings.part ∧ (u.rings.part = [] ∨ 512 ≤ u.rings.pages.length)))
      ∧ (∀ x, s.rings.dropRec = some x → s.rings.opened = [] → evrEn s = true → evrUsed s < 4096 → SeqRoom s 1 → Does (.sealAll who) s [.resp, .rings, .regs] fun u =>
          ∃ r, Closes s u [r] ∧ r.code = 2 ∧ r.sev = sevNotice ∧ r.count = min s.rings.drops.sum 0xFFFFFFFF ∧ r.rtc = x.rtc ∧ u.rings.dropRec = none ∧ u.rings.drops = [0, 0, 0, 0, 0]
            ∧ (s.rings.drops.length = 5 → ∀ i, i < 5 → leAt r.detail (4 * i) 4 = min (s.rings.drops.getD i 0) 0xFFFFFFFF)))
    ∧ (∀ (who : Who) (k : Fin 4) (off : Nat) (alone : Bool), off = 0x1000 + 64 * k.val → Admits s who 0x06 (off + 0x20) 1 →
        (¬PostOk s off → Does (.evrPostGo who k) s [.resp, .regs, .evq] fun u => Captured s u 0x06 17 ∧ rdF u 0x06 (off + 0x24) 1 0 = 3)
        ∧ (PostOk s off → alone = (decide (Word.fld (rd s 0x06 off) 18 16 = 0) || Word.bit (rd s 0x06 off) 19 || Word.bit (rd s 0x06 off) 20 || !coalEn s) →
          (alone = false → (∃ y ∈ s.rings.opened, Folds y (Word.fld (rd s 0x06 off) 15 0) (Word.fld (rd s 0x06 (off + 4)) 7 0) (Word.fld (rd s 0x06 (off + 4)) 15 8)) →
            Does (.evrPostGo who k) s [.resp, .regs, .rings] fun u => rdF u 0x06 (off + 0x24) 1 0 = 1
              ∧ Folded s u (Word.fld (rd s 0x06 off) 15 0) (Word.fld (rd s 0x06 (off + 4)) 7 0) (Word.fld (rd s 0x06 (off + 4)) 15 8))
          ∧ (alone = true ∨ (∀ y ∈ s.rings.opened, ¬Folds y (Word.fld (rd s 0x06 off) 15 0) (Word.fld (rd s 0x06 (off + 4)) 7 0) (Word.fld (rd s 0x06 (off + 4)) 15 8)) →
            (admitBelow (Word.fld (rd s 0x06 off) 18 16) ≤ evrUsed s → Does (.evrPostGo who k) s [.resp, .regs, .rings] fun u => rdF u 0x06 (off + 0x24) 1 0 = 2
              ∧ Dropped s u (Word.fld (rd s 0x06 off) 18 16))
            ∧ (∀ b, evrUsed s < admitBelow (Word.fld (rd s 0x06 off) 18 16) → b = (alone || decide (128 ≤ countOf (fun y : Rec => !y.single) s.rings.opened)) →
              (b = false ∨ evrEn s = false → Does (.evrPostGo who k) s [.resp, .regs, .rings] fun u => rdF u 0x06 (off + 0x24) 1 0 = 0
                ∧ ∃ x, Posted s off x ∧ u.rings = { s.rings with opened := s.rings.opened ++ [{ x with single := b }] })
              ∧ (b = true → evrEn s = true → SeqRoom s 1 → Does (.evrPostGo who k) s [.resp, .regs, .rings] fun u => rdF u 0x06 (off + 0x24) 1 0 = 0
                ∧ u.rings.opened = s.rings.opened ∧ ∃ x, Posted s off x ∧ Closes s u [{ x with single := true }])))))
    ∧ (∀ who, Admits s who 0x06 0x200C 1 → (s.rings.pages = [] → Does (.evrDrainAck who) s [.resp, .regs, .evq] fun u => Captured s u 0x06 18)
        ∧ (∀ p l, s.rings.pages = p :: l →
          Does (.evrDrainAck who) s [.resp, .regs, .rings, .mem, .tap, .hqe, .ports] (fun u => u.resp.code = .ok ∧ u.rings.waitClear = (if s.rings.clearUsed && !p.any Rec.cleared then s.rings.waitClear
              else s.rings.waitClear.tail))
          ∧ (s.rings.waitClear = [] → s.rings.dropRec = none → s.rings.part.length < 8 →
            ((∀ x ∈ p, ∃ y ∈ storeRecs s, y.seq = x.seq) → Does (.evrDrainAck who) s [.resp, .rings] fun u =>
              u.rings = { s.rings with pages := l, clearUsed := s.rings.clearUsed && !p.any Rec.cleared })
            ∧ (∀ n, (∃ x ∈ p, ∀ y ∈ storeRecs s, y.seq ≠ x.seq) → NextPage s n → p.length ≤ 8 → Does (.evrDrainAck who) s [.resp, .rings, .mem, .tap] fun u => PageStored s u n p
              ∧ u.rings = { s.rings with pages := l, clearUsed := s.rings.clearUsed && !p.any Rec.cleared, next := u.rings.next }))
          ∧ (∀ q t, s.rings.waitClear = q :: t → s.rings.clearUsed = false ∨ p.any Rec.cleared = true → q.upto < 2 ^ 64 → Does (.evrDrainAck who) s [.resp, .regs, .rings, .mem, .tap, .hqe, .ports] fun u =>
              u.rings.clearUsed = true ∧ clearFloor s ≤ clearFloor u ∧ (∀ c x, q.cmd = some c → ctxOf s c = some x → x.stage ≠ .done → Ends s u c x stOk 0 0)
              ∧ ∀ p, q.port = some p → (Tbl.find s.ports p).isSome = true → (portOf u p).doe.response = leBytes 2 1 ++ leBytes 2 2 ++ leBytes 4 3 ++ spdmAck)))
    ∧ (∀ who v, Admits s who 0x06 0x100 v →
        Does (.evrEnable who v) s [.resp, .rings, .regs, .mem, .tap, .aon] (fun u => evrEn u = Word.bit v 0 ∧ coalEn u = Word.bit v 1
          ∧ batchMs u = (if 1 ≤ Word.fld v 23 16 ∧ Word.fld v 23 16 ≤ 100 then Word.fld v 23 16 else batchMs s))
        ∧ (Word.bit v 0 = false ∨ evrEn s = true → Does (.evrEnable who v) s [.resp, .regs] fun u => RegsOnly [(0x06, 0x100)] s u)
        ∧ (Word.bit v 0 = true → evrEn s = false → s.rings.started = true → (∀ y ∈ s.rings.opened, y.single = true ∨ y.at_ + 1 ≤ s.clock) → SeqRoom s s.rings.opened.length →
          Does (.evrEnable who v) s [.resp, .rings, .regs] fun u => u.rings.opened = [] ∧ Closes s u s.rings.opened)
        ∧ (Word.bit v 0 = true → evrEn s = false → s.rings.started = true → (∀ y ∈ s.rings.opened, y.single = false ∧ s.clock < y.at_ + 1) →
          Does (.evrEnable who v) s [.resp, .regs] fun u => RegsOnly [(0x06, 0x100)] s u)
        ∧ (∀ n, Word.bit v 0 = true → evrEn s = false → s.rings.started = false → n = (if seqNext s = 0 then seqStart s else seqNext s) → n + s.rings.opened.length + 1 < 2 ^ 64 →
          (s.aon.ring ≠ [] → Does (.evrEnable who v) s [.resp, .rings, .regs, .mem, .tap, .aon] fun u => u.aon = { s.aon with ring := [], pos := 0, wrapped := false })
          ∧ (s.aon.ring = [] → s.rings.saved = [] → Does (.evrEnable who v) s [.resp, .rings, .regs] fun u => u.rings.started = true ∧ u.rings.lastNext = some n ∧ u.rings.saved = []
            ∧ seqNext u = n + s.rings.opened.length + 1 ∧ clearFloor u = storeFloor s ∧ u.rings.opened = [] ∧ u.rings.next = s.rings.next
            ∧ u.rings.pages.flatten ++ u.rings.part = s.rings.pages.flatten ++ s.rings.part ++ { resetRec s with seq := n } ::
              List.zipWith (fun (x : Rec) i => { x with
                seq := n + 1 + i, early := true, opsec := s.dev.opsec, pwrcyc := s.aon.pwrcyc, rtc := s.dev.rtc, rtcValid := s.aon.rtcValid && !blkRetired s 0x03 })
                s.rings.opened (List.range s.rings.opened.length))
          ∧ (∀ k l, s.aon.ring = [] → l = s.rings.saved.filter (fun x => !(storeRecs s).any fun y => y.seq = x.seq) → l ≠ [] → l.length ≤ 8 → NextPage s k →
            Does (.evrEnable who v) s [.resp, .rings, .regs, .mem, .tap, .aon] fun u => PageStored s u k l ∧ u.rings.saved = [] ∧ u.rings.lastNext = some n)))
    ∧ (∀ n t, s.rings.nonce = some (n, t) → (t ≤ s.clock → Does .nonceExpire s [.rings] fun u => u.rings = { s.rings with nonce := none })
        ∧ (s.clock < t → Does .nonceExpire s [] fun _ => True))
    ∧ (s.rings.nonce = none → Does .nonceExpire s [] fun _ => True))
  ∧ (∀ (s : State) (c : CmdId) (x : Ctx) (sig : Bool), CmdReady s c true 0xC6 x →
    (Word.fld x.sqe.cdw10 3 0 = 0 → Does (.clearRingsGetNonce c) s [.hqe, .rings, .sec, .freeCtr] fun u => ∃ b, b.length = 32 ∧ u.rings = { s.rings with nonce := some (b, s.clock + 600) }
        ∧ ctxOf u c = some { x with data := b, moved := true, stage := .done, status := some stOk, dw0 := 0, dw1 := 0 })
    ∧ (Word.fld x.sqe.cdw10 3 0 = 1 → Does (.clearRingsGetNonce c) s [] fun _ => True)
    ∧ (2 ≤ Word.fld x.sqe.cdw10 3 0 → Does (.clearRingsGetNonce c) s [.hqe] fun u => Ends s u c x stInvalidField 0 0)
    ∧ (Word.fld x.sqe.cdw10 3 0 ≠ 1 → Does (.clearRingsClear c sig) s [] fun _ => True)
    ∧ (Word.fld x.sqe.cdw10 3 0 = 1 →
      (s.rings.nonce = none → Does (.clearRingsClear c sig) s [.hqe] fun u => Ends s u c x stSequence 0 0)
      ∧ (∀ n t, s.rings.nonce = some (n, t) →
        (t ≤ s.clock → Does (.clearRingsClear c sig) s [.hqe, .rings] fun u => Ends s u c x stSequence 0 0 ∧ u.rings = { s.rings with nonce := none })
        ∧ (s.clock < t → sig = false ∨ x.data.take 32 ≠ n ∨ (∀ k ∈ s.fus.usable, k = 0) ∨ zeroBytes x.data 48 64 = false ∨
              (x.data.drop 32).take 8 ≠ leBytes 4 (Tbl.getD s.fus.eff 8 0).toNat ++ leBytes 4 (Tbl.getD s.fus.eff 9 0).toNat →
            Does (.clearRingsClear c sig) s [.hqe, .rings] fun u => Ends s u c x stInvalidField 0 0 ∧ u.rings = { s.rings with nonce := none })
        ∧ (s.clock < t → sig = true → x.data.take 32 = n → (∃ k ∈ s.fus.usable, 1 ≤ k) → zeroBytes x.data 48 64 = true →
            (x.data.drop 32).take 8 = leBytes 4 (Tbl.getD s.fus.eff 8 0).toNat ++ leBytes 4 (Tbl.getD s.fus.eff 9 0).toNat →
          (s.rings.clearUsed = true → Does (.clearRingsClear c sig) s [.hqe, .rings] fun u => ctxOf u c = some { x with stage := .waiting }
            ∧ u.rings = { s.rings with nonce := none, waitClear := s.rings.waitClear ++ [⟨leNat ((x.data.drop 40).take 8), 1, some c, none⟩] })
          ∧ (∀ floor, ClearsNow s (leNat ((x.data.drop 40).take 8)) floor → Does (.clearRingsClear c sig) s [.hqe, .rings, .regs, .mem, .tap] fun u => Ends s u c x stOk 0 0
              ∧ Cleared s u floor 1 ∧ u.rings.nonce = none)))))
  ∧ (∀ (s : State) (via : Option (Fin 8)) (id upto : Nat),
    (spdmHere s via = false → Does (.spdmClearRings via id upto) s [] fun _ => True)
    ∧ (spdmHere s via = true →
      ((∀ x, sessionOf s id = some x → x.operator = false) → Does (.spdmClearRings via id upto) s [.resp, .ports] fun u => SaysError s u via 1)
      ∧ (∀ x, sessionOf s id = some x → x.operator = true →
        (s.rings.clearUsed = true → Does (.spdmClearRings via id upto) s [.resp, .rings] fun u =>
          u.rings = { s.rings with waitClear := s.rings.waitClear ++ [⟨upto, 2, none, via.map (·.val)⟩] } ∧ u.resp.bytes = (if via = none then spdmAck else []))
        ∧ (∀ floor, ClearsNow s upto floor → Does (.spdmClearRings via id upto) s [.resp, .rings, .regs, .mem, .tap, .ports] fun u => Cleared s u floor 2
          ∧ (via = none → u.resp.code = .ok ∧ u.resp.bytes = spdmAck)
          ∧ ∀ p, via = some p → (portOf u p).doe.busy = false ∧ (portOf u p).doe.response = leBytes 2 1 ++ leBytes 2 2 ++ leBytes 4 3 ++ spdmAck))))

/-- SPDM_REQUEST, GET_MEASUREMENTS, SPDM_HEARTBEAT_EXPIRY, NVME_MI_REQUEST, TEMP_SENSOR_SAMPLE and THERMAL_TRIP (R435 to R437, R576, R578, R617, R618, R620, R621). -/
def Obligations.ManagementAndTemperature : Prop :=
  (∀ (s : State) (via : Option (Fin 8)) (r : SpdmReq) (i : Fin 256) (sg : Bool), spdmHere s via = false →
    Does (.spdmRequest via r) s [] (fun _ => True) ∧ Does (.getMeasurements via i sg) s [] fun _ => True)
  ∧ (∀ (s : State) (via : Option (Fin 8)) (b : Fin 8), spdmHere s via = true →
    Does (.spdmRequest via .getVersion) s [.resp, .ports] (fun u => Says s u via 1 [0x10, 0x04, 0, 0, 0, 2, 0, 0x12, 0, 0x13])
    ∧ Does (.spdmRequest via .getCapabilities) s [.resp, .ports, .freeCtr] (fun u => SaysMsg s u via 0x61 16)
    ∧ Does (.spdmRequest via .negotiate) s [.resp, .ports, .freeCtr] (fun u => SaysMsg s u via 0x63 32)
    ∧ Does (.spdmRequest via .getDigests) s [.resp, .ports, .freeCtr] (fun u => SaysMsg s u via 0x01 48)
    ∧ Does (.spdmRequest via (.getCertificate b)) s [.resp, .ports, .freeCtr] (fun u => SaysMsg s u via 0x02 1024)
    ∧ Does (.spdmRequest via .other) s [.resp, .ports] (fun u => SaysError s u via 1)
    ∧ (blkRetired s 0x0B = true → Does (.spdmRequest via (.challenge b)) s [.resp, .ports] (fun u => SaysError s u via 5)
      ∧ Does (.spdmRequest via (.keyExchange b)) s [.resp, .ports] (fun u => SaysError s u via 5) ∧ ∀ i, Does (.getMeasurements via i true) s [.resp, .ports] fun u => SaysError s u via 5)
    ∧ (blkRetired s 0x0B = false → Does (.spdmRequest via (.challenge b)) s [.resp, .ports, .freeCtr] (fun u => SaysMsg s u via 0x03 176)
      ∧ (16 ≤ s.sec.sessions.length ∨ (freeGcm s).length < 2 → Does (.spdmRequest via (.keyExchange b)) s [.resp, .ports] fun u => SaysError s u via 0x0A)
      ∧ (∀ n, 1 ≤ n → n ≤ 16 → sessionOf s n = none → (∀ m, 1 ≤ m → m < n → (sessionOf s m).isSome = true) → s.sec.sessions.length < 16 → (freeGcm s).length = 2 →
        Does (.spdmRequest via (.keyExchange b)) s [.resp, .ports, .freeCtr, .sec] fun u => SaysMsg s u via 0x64 138 ∧ u.sec.sessions = s.sec.sessions ++ [{ id := n, gcm := freeGcm s }]
          ∧ u.sec.xts = s.sec.xts ∧ u.sec.kek = s.sec.kek ∧ (∀ k ∈ freeGcm s, (gcmSlot u k).key.length = 32 ∧ (gcmSlot u k).cnt = 0) ∧ ∀ k, k ∉ freeGcm s → gcmSlot u k = gcmSlot s k))
    ∧ (∀ (id : Nat) (root : Option (Fin 5)), sessionOf s id = none → Does (.spdmRequest via (.finish id root)) s [.resp, .ports] (fun u => SaysError s u via 1)
      ∧ Does (.spdmRequest via (.heartbeat id)) s [.resp, .ports] (fun u => SaysError s u via 1) ∧ Does (.spdmRequest via (.keyUpdate id)) s [.resp, .ports] (fun u => SaysError s u via 1)
      ∧ Does (.spdmRequest via (.endSession id)) s [.resp, .ports] (fun u => SaysError s u via 1) ∧ Does (.spdmRequest via (.keyLimit id)) s [] fun _ => True)
    ∧ (∀ (id : Nat) (x : SpdmSession) (root : Option (Fin 5)), sessionOf s id = some x →
      Does (.spdmRequest via (.finish id root)) s [.resp, .ports, .sec, .freeCtr] (fun u => SaysMsg s u via 0x65 0
        ∧ SessionIs s u id { x with alive := true, operator := match root with
          | some k => decide (1 ≤ k.val) && s.fus.usable.contains k.val
          | none => false })
      ∧ Does (.spdmRequest via (.heartbeat id)) s [.resp, .ports, .sec, .freeCtr] (fun u => SaysMsg s u via 0x68 0 ∧ SessionIs s u id { x with alive := true })
      ∧ Does (.spdmRequest via (.keyUpdate id)) s [.resp, .ports, .sec, .freeCtr] (fun u => SaysMsg s u via 0x69 0 ∧ sessionOf u id = some { x with alive := true }
        ∧ (∀ k ∈ x.gcm, (gcmSlot u k).key.length = 32 ∧ (gcmSlot u k).cnt = 0) ∧ (∀ k, k ∉ x.gcm → gcmSlot u k = gcmSlot s k) ∧ ∀ j, j ≠ id → sessionOf u j = sessionOf s j)
      ∧ Does (.spdmRequest via (.endSession id)) s [.resp, .ports, .sec, .freeCtr] (fun u => SaysMsg s u via 0x6C 0 ∧ SessionGone s u id x)
      ∧ Does (.spdmRequest via (.keyLimit id)) s [.sec] fun u => SessionGone s u id x)
    ∧ (∀ (i : Fin 256) (sg : Bool), sg = false ∨ blkRetired s 0x0B = false →
      (10 < i.val → i ≠ 255 → Does (.getMeasurements via i sg) s [.resp, .ports] fun u => SaysError s u via 1)
      ∧ (∀ l d, (i = 0 ∧ l = []) ∨ (1 ≤ i.val ∧ i.val ≤ 10 ∧ l = [i.val]) ∨ (i = 255 ∧ l = [1, 2, 3, 4, 5, 6, 7, 8, 9, 10]) → d = (l.map (measBlock s)).flatten →
        Does (.getMeasurements via i sg) s [.resp, .ports, .freeCtr] fun u => ∃ nonce sig, nonce.length = 32 ∧ sig.length = (if sg then 96 else 0)
          ∧ Says s u via 1 ([0x13, 0x60, if i = 0 then 10 else 0, 0] ++ leBytes 1 l.length ++ leBytes 3 d.length ++ d ++ nonce ++ [0, 0] ++ sig))))
  ∧ (∀ (s : State) (id : Nat), (sessionOf s id = none → Does (.spdmHeartbeatExpiry id) s [] fun _ => True)
    ∧ ∀ x, sessionOf s id = some x → (x.alive = true → Does (.spdmHeartbeatExpiry id) s [.sec] fun u => SessionIs s u id { x with alive := false })
      ∧ (x.alive = false → Does (.spdmHeartbeatExpiry id) s [.sec] fun u => SessionGone s u id x))
  ∧ (∀ (s : State) (r : MiReq), spdmUp s = false ∨ (r = .reset ∧ (s.dev.crown = false ∨ s.pwr.flush ≠ none)) → Serves (.nvmeMiRequest r) s [] fun _ => True)
  ∧ (∀ s : State, spdmUp s = true → Serves (.nvmeMiRequest .logC0) s [.resp] (fun u => u.resp.code = .ok ∧ u.resp.bytes = logC0 s)
    ∧ Serves (.nvmeMiRequest .logC4) s [.resp] (fun u => u.resp.code = .ok ∧ u.resp.bytes = logC4 s)
    ∧ (∀ snap lpo len, Serves (.nvmeMiRequest (.logC3 snap lpo len)) s [.resp, .rings] fun u => u.rings = { s.rings with snaps := u.rings.snaps })
    ∧ (∀ lpo len, lpo ≠ 0 → Serves (.nvmeMiRequest (.logC3 true lpo len)) s [.resp] fun u => u.resp.code = .decode)
    ∧ (∀ snap len, len ≤ 64 → snap = true ∨ Tbl.find s.rings.snaps 0xFFFF = none → Serves (.nvmeMiRequest (.logC3 snap 0 len)) s [.resp, .rings] fun u => u.resp.code = .ok
      ∧ u.resp.bytes = (ringsHeader s (ringsSpan s).1 (ringsSpan s).2).take len ∧ Tbl.find u.rings.snaps 0xFFFF = some (ringsSpan s))
    ∧ (∀ a b q, Tbl.find s.rings.snaps 0xFFFF = some (a, b) → a + q < b → (ringsSpan s).1 ≤ a + q → Serves (.nvmeMiRequest (.logC3 false (64 + 64 * q) 64)) s [.resp, .rings] fun u =>
      u.resp.code = .ok ∧ u.resp.bytes = recAt s (a + q))
    ∧ (∀ a b q, Tbl.find s.rings.snaps 0xFFFF = some (a, b) → a + q < b → a + q < (ringsSpan s).1 → Serves (.nvmeMiRequest (.logC3 false (64 + 64 * q) 64)) s [.resp, .rings] fun u =>
      u.resp.code = .decode)
    ∧ (s.dev.crown = true → s.pwr.flush = none →
      (s.dev.ready = false → s.dev.rstn = false → Serves (.nvmeMiRequest .reset) s resetParts fun u => IsReset s u 3 [])
      ∧ (s.dev.ready = false → s.dev.rstn = true → s.pwr.cstate = .charging ∨ s.pwr.cstate = .protected_ → Serves (.nvmeMiRequest .reset) s resetParts fun u =>
        IsReset s u 3 [(0, 0x110), (0, 0x114)] ∧ Starts s u)
      ∧ (s.dev.ready = true → LossQuiet s → Serves (.nvmeMiRequest .reset) s lossParts fun u => ∃ f, FlushBegins s u f true 3 false ∧ u.pwr = { s.pwr with flush := some f })))
  ∧ ∀ (s : State) (t conv : Nat),
    Does (.tempSensorSample t conv) s [.regs, .pwr, .hqe] (fun u => rd u 0 0x118 = w32 (t % 65536) ∧ RegsOnly [(0, 0x118)] s u
        ∧ u.pwr = { s.pwr with
            conv := conv, thermWarn := decide (368 ≤ t % 65536) || (s.pwr.thermWarn && decide (363 ≤ t % 65536)), thermCrit := decide (378 ≤ t % 65536) || (s.pwr.thermCrit && decide (373 ≤ t % 65536)) }
        ∧ thermAlert u = (pwrGood s && u.pwr.thermCrit))
    ∧ (388 ≤ rdF s 0 0x118 15 0 → s.pwr.pl = false → s.pwr.cstate ≠ .off → s.pwr.flush = none → LossQuiet s →
        Serves .thermalTrip s lossParts fun u => LossBegins s u 4 false ∧ u.pwr.trip = true)
    ∧ (rdF s 0 0x118 15 0 < 388 ∨ s.pwr.pl = true ∨ s.pwr.cstate = .off ∨ s.pwr.flush.isSome = true → Serves .thermalTrip s [] fun _ => True)
    ∧ (pwrGood s = false → thermAlert s = false ∧ ddrRunning s = false ∧ ∀ k, ledN s k = .dark)
    ∧ (pwrGood s = true → s.dev.started = true → Word.bit (rd s 0x00 0x134) 8 = true → (devState s = 4 → ledN s 0 = .blink) ∧ (devState s = 3 → ledN s 2 = .lit)
      ∧ (devState s = 1 ∨ devState s = 2 → ledN s 2 = .blink) ∧ (ledN s 1 = .lit ↔ s.hqe.lit = true ∨ s.win.lit = true))
/-! ### The host ports -/

/-- RECEIVER_DETECTED to SURPRISE_DOWN, POISONED_TLP_RECEIVED, MALFORMED_TLP_RECEIVED, CONTAIN_RELEASE, L0P_REQUEST and ASPM_L1_REQUEST (R50 to R61, R72, R75 to R78, R80, R628,
R629). -/
def Obligations.PortLinks : Prop :=
  (∀ (s : State) (p : Fin 8) (x : Port), x = portOf s p →
    (portMayTrain s p = true → x.ltssm = .detect ∨ x.ltssm = .hotReset ∨ x.ltssm = .disabled →
      Does (.receiverDetected p) s [.ports] fun u => PortIs s u p { x with ltssm := .polling, detActive := false, pstate := if x.pstate = .contained then .contained else .training })
    ∧ (portMayTrain s p = true → x.ltssm = .detect → Does (.detectIntervalExpiry p) s [.ports] fun u => PortIs s u p { x with detActive := !x.detActive })
    ∧ (portMayTrain s p = false ∨ (x.ltssm ≠ .detect ∧ x.ltssm ≠ .hotReset ∧ x.ltssm ≠ .disabled) → Does (.receiverDetected p) s [] fun _ => True)
    ∧ (portMayTrain s p = false ∨ x.ltssm ≠ .detect → Does (.detectIntervalExpiry p) s [] fun _ => True)
    ∧ (∀ (rate : Fin 6) (width : Fin 17) (flit cxl c f : Bool) (r w : Nat),
        (portMayTrain s p = false ∨ (x.ltssm ≠ .polling ∧ x.ltssm ≠ .configuration) ∨ width = 0 → Does (.dlActiveReached p rate width flit cxl) s [] fun _ => True)
        ∧ (portMayTrain s p = true → x.ltssm = .polling ∨ x.ltssm = .configuration → width ≠ 0 →
          c = (cxl && decide (Word.fld x.link 3 2 = 0)) → f = (flit || c) → r = min (min rate.val (Word.fld x.link 7 5)) (if f then 5 else 4) →
          w = min width.val (portWidthOf (s.dev.straps % 16) p) → Does (.dlActiveReached p rate width flit cxl) s anyParts (fun u => Word.bit (rd u (portRgn p) 0x18) 1 = true)
            ∧ (PortIdle s p → Does (.dlActiveReached p rate width flit cxl) s [.ports, .regs, .resp, .win] fun u => Word.bit (rd u (portRgn p) 0x18) 1 = true
            ∧ RegsOnly [(portRgn p, 0x18)] s u ∧ PortIs s u p { x with
                ltssm := .l0, dlActive := true, rate := r, width := w, trained := w, flit := f, cxl := c, replays := 0, credits := some ⟨some 128, some 1024, some 128, some 32, none, none⟩
                pstate := if x.pstate = .contained then .contained else .up })))
    ∧ (x.ltssm = .polling ∨ x.ltssm = .configuration → Does (.trainingReturnToDetect p) s [.ports, .regs, .evq] fun u => Word.bit (rd u (portRgn p) 0x18) 6 = true
        ∧ rdF u (portRgn p) 0x108 15 0 = min (rdF s (portRgn p) 0x108 15 0 + 1) 65535 ∧ RegsOnly [(portRgn p, 0x18), (portRgn p, 0x108)] s u
        ∧ (∃ e, u.evq = s.evq ++ [e] ∧ e.code = 0x3001 ∧ e.sev = sevNotice) ∧ PortFalls s u p { x with pstate := if x.pstate = .contained then .contained else .down })
    ∧ (x.ltssm ≠ .polling → x.ltssm ≠ .configuration → Does (.trainingReturnToDetect p) s [] fun _ => True)
    ∧ (portPresent s p = false → Serves (.perstAssert p) s [.ports] fun u => PortIs s u p { x with perst := true })
    ∧ (portPresent s p = true → Serves (.perstAssert p) s anyParts (fun u => (portOf u p).perst = true ∧ (portOf u p).dlActive = false ∧ (portOf u p).pstate = .down)
      ∧ (PortQuiet s p → Serves (.perstAssert p) s [.ports, .regs, .hqe, .win, .pwr, .graft, .rings] fun u => PortIsReset s u p .detect true))
    ∧ (x.dlActive = true → ∀ (i : Instr) (l : Ltssm), (i = .hotResetReceived p ∧ l = .hotReset) ∨ (i = .linkDisableReceived p ∧ l = .disabled) →
      Serves i s anyParts (fun u => (portOf u p).dlActive = false ∧ (portOf u p).pstate = .down ∧ (portOf u p).ltssm = l)
      ∧ (PortQuiet s p → Serves i s [.ports, .regs, .hqe, .win, .pwr, .graft, .rings] fun u => PortIsReset s u p l x.perst))
    ∧ (x.dlActive = false → Serves (.hotResetReceived p) s [] (fun _ => True) ∧ Serves (.linkDisableReceived p) s [] (fun _ => True) ∧ Does (.surpriseDown p) s [] fun _ => True)
    ∧ (x.perst = false → Does (.perstDeassert p) s [] fun _ => True)
    ∧ (x.perst = true → portPresent s p = true → Does (.perstDeassert p) s [.ports] fun u => PortFalls s u p { x with perst := false })
    ∧ (x.perst = true → portPresent s p = false → Does (.perstDeassert p) s [.ports] fun u => PortIs s u p { x with perst := false }))
  ∧ (∀ (s : State) (p : Fin 8) (who : Who) (i : Instr) (v w : Word) (x : Port), x = portOf s p → Admits s who (portRgn p) 0x100 v →
      (i = .linkRetrain who p w ∧ v = w ||| 2) ∨ (i = .linkEnClear who p w ∧ v = w &&& 0xFFFFFFFE) ∨ (i = .linkEnSet who p w ∧ v = w ||| 1) →
    (Word.bit v 1 = true ∨ (Word.bit (rd s (portRgn p) 0x100) 0 = true ∧ Word.bit v 0 = false) →
      Does i s anyParts (fun u => LinkStored (rd s (portRgn p) 0x100) (rd u (portRgn p) 0x100) v ∧ (portOf u p).dlActive = false ∧ (portOf u p).ltssm = .detect ∧ (portOf u p).np = [])
      ∧ (x.np = [] → s.ftl.hmbMem = [] → Does i s [.ports, .regs, .resp, .evq] fun u => LinkStored (rd s (portRgn p) 0x100) (rd u (portRgn p) 0x100) v
        ∧ RegsOnly [(portRgn p, 0x100), (portRgn p, 0x18), (portRgn p, 0x108)] s u ∧ Word.bit (rd u (portRgn p) 0x18) 2 = (x.dlActive || Word.bit (rd s (portRgn p) 0x18) 2)
        ∧ (x.ltssm = .polling ∨ x.ltssm = .configuration → rdF u (portRgn p) 0x108 15 0 = min (rdF s (portRgn p) 0x108 15 0 + 1) 65535 ∧ Word.bit (rd u (portRgn p) 0x18) 6 = true
            ∧ ∃ e, u.evq = s.evq ++ [e] ∧ e.code = 0x3001)
        ∧ (x.ltssm ≠ .polling → x.ltssm ≠ .configuration → u.evq = s.evq ∧ rd u (portRgn p) 0x108 = rd s (portRgn p) 0x108)
        ∧ PortFalls s u p { x with pstate := if x.pstate = .contained then .contained else .down }))
    ∧ (Word.bit v 1 = false → Word.bit (rd s (portRgn p) 0x100) 0 = false ∨ Word.bit v 0 = true →
      Does i s [.ports, .regs, .resp] fun u => LinkStored (rd s (portRgn p) 0x100) (rd u (portRgn p) 0x100) v ∧ RegsOnly [(portRgn p, 0x100)] s u ∧ u.resp.code = .ok
        ∧ (Word.bit (rd s (portRgn p) 0x100) 0 = false → Word.bit v 0 = true → x.ltssm = .detect → PortFalls s u p x)
        ∧ (Word.bit (rd s (portRgn p) 0x100) 0 = true ∨ Word.bit v 0 = false ∨ x.ltssm ≠ .detect → u.ports = s.ports)))
  ∧ (∀ (s : State) (p : Fin 8) (x : Port) (e : LinkErr) (fec again : Bool), x = portOf s p →
    (x.dlActive = false → Does (.flitCrcFail p fec again e) s [] fun _ => True)
    ∧ (x.dlActive = true → x.flit = false → Does (.flitCrcFail p fec again e) s [.ports] fun u => LinkLogged s u p e)
    ∧ (x.dlActive = true → x.flit = true →
      Does (.flitCrcFail p true again e) s [.regs] (fun u => RegsOnly [(portRgn p, 0x10C)] s u ∧ rdF u (portRgn p) 0x10C 31 16 = min (rdF s (portRgn p) 0x10C 31 16 + 1) 65535
        ∧ rdF u (portRgn p) 0x10C 15 0 = rdF s (portRgn p) 0x10C 15 0)
      ∧ Does (.flitCrcFail p false again e) s [.regs, .ports] fun u => RegsOnly [(portRgn p, 0x10C), (portRgn p, 0x108)] s u ∧ LinkLogged s u p e
          ∧ rdF u (portRgn p) 0x10C 15 0 = min (rdF s (portRgn p) 0x10C 15 0 + 1) 65535
          ∧ rdF u (portRgn p) 0x108 31 16 = (if again = true ∧ 3 ≤ x.replays then min (rdF s (portRgn p) 0x108 31 16 + 1) 65535 else rdF s (portRgn p) 0x108 31 16)
          ∧ (again = true → 3 ≤ x.replays → (fnOf u (p * 64)).aerCor.testBit 8 = true)
          ∧ ∃ fns ras, PortIs s u p (if again = true ∧ 3 ≤ x.replays then { x with ltssm := .recovery, replays := 0, fns := fns, ras := ras }
            else { x with replays := if again then x.replays + 1 else 1, fns := fns, ras := ras })))
  ∧ (∀ (s : State) (p : Fin 8) (x : Port), x = portOf s p →
    (∀ ok, x.ltssm ≠ .recovery → x.ltssm ≠ .l1 → Does (.recoveryEnd p ok) s [] fun _ => True)
    ∧ (x.ltssm = .recovery ∨ x.ltssm = .l1 → Does (.recoveryEnd p true) s [.ports] fun u => PortIs s u p { x with ltssm := .l0, replays := 0 })
    ∧ (∀ i : Instr, (i = .surpriseDown p ∧ x.dlActive = true) ∨ (i = .recoveryEnd p false ∧ (x.ltssm = .recovery ∨ x.ltssm = .l1)) →
      (x.pstate ≠ .up → x.pstate ≠ .contained → Does i s [] fun _ => True)
      ∧ (x.pstate = .up ∨ x.pstate = .contained → Does i s anyParts (fun u => (portOf u p).pstate = .contained ∧ (portOf u p).dlActive = false ∧ (portOf u p).np = [] ∧ (portOf u p).bar2 = [])
        ∧ (x.np = [] → PortQuiet s p →
          (x.pstate = .up → Does i s [.ports, .regs, .evq, .win] fun u => Word.bit (rd u (portRgn p) 0x18) 3 = true ∧ (x.dlActive = true → Word.bit (rd u (portRgn p) 0x18) 2 = true)
            ∧ (∀ k : Fin 4, rd u (portRgn p) (0x114 + 4 * k) = 0) ∧ (∃ e, u.evq = s.evq ++ [e] ∧ e.code = 0x3002 ∧ e.detail = [4, 0])
            ∧ PortFalls s u p { x with pstate := .contained, cause := 4, causeFn := 0, bar2 := [] })
          ∧ (x.pstate = .contained → Does i s [.ports, .regs, .win] fun u => PortFalls s u p { x with bar2 := [] }))))
    ∧ (∀ (f : Fin 64) (hdr : Nat) (i : Instr) (cause bit : Nat), (i = .poisonedTlpReceived p f hdr ∧ cause = 1 ∧ bit = 12) ∨ (i = .malformedTlpReceived p (some f) hdr ∧ cause = 2 ∧ bit = 18)
            ∨ (i = .malformedTlpReceived p none hdr ∧ cause = 2 ∧ bit = 18 ∧ f = 0) →
      (x.dlActive = false → Does i s [] fun _ => True)
      ∧ (x.dlActive = true → x.pstate ≠ .up → Does i s [.ports] fun u => (fnOf u (p * 64 + f)).aerUnc = (fnOf s (p * 64 + f)).aerUnc ||| 2 ^ bit ∧ ∃ fns, PortIs s u p { x with fns := fns })
      ∧ (x.dlActive = true → x.pstate = .up → Does i s anyParts (fun u => (portOf u p).pstate = .contained ∧ (portOf u p).cause = cause)
        ∧ (s.ftl.hmbMem = [] ∨ p.val ≠ mgmtPort s → Does i s [.ports, .regs, .evq] fun u => Word.bit (rd u (portRgn p) 0x18) 3 = true
          ∧ (∀ k : Fin 4, rd u (portRgn p) (0x114 + 4 * k) = w32 (hdr / 2 ^ (32 * k.val))) ∧ (∃ e, u.evq = s.evq ++ [e] ∧ e.code = 0x3002 ∧ e.detail = [BitVec.ofNat 8 cause, BitVec.ofNat 8 f])
          ∧ (∃ fns, PortIs s u p { x with pstate := .contained, cause := cause, causeFn := f.val, fns := fns }) ∧ (fnOf u (p * 64 + f)).aerUnc = (fnOf s (p * 64 + f)).aerUnc ||| 2 ^ bit
          ∧ ∀ m, m ≠ p * 64 + f.val → fnOf u m = fnOf s m)))
    ∧ (∀ who, Admits s who (portRgn p) 0x110 2 →
      (x.pstate ≠ .contained → Does (.containRelease who p) s [.resp] fun u => u.resp.code = .ok)
      ∧ (x.pstate = .contained → x.dlActive = true → Does (.containRelease who p) s anyParts (fun u => (portOf u p).pstate = .up ∧ u.resp.code = .ok)
        ∧ (PortIdle s p → Does (.containRelease who p) s [.resp, .ports] fun u => PortIs s u p { x with pstate := .up }))
      ∧ (x.pstate = .contained → x.dlActive = false → Does (.containRelease who p) s [.resp, .regs, .evq] fun u => Captured s u (portRgn p) 16))
    ∧ (∀ lanes : Fin 17,
        (x.dlActive = true → x.ltssm = .l0 ∨ x.ltssm = .l0p → lanes ≠ 0 → lanes.val ≤ x.trained → x.flit = true → Does (.l0pRequest p lanes) s [.ports] fun u =>
          PortIs s u p { x with width := lanes, ltssm := if lanes.val = x.trained then .l0 else .l0p })
        ∧ (x.dlActive = false ∨ x.flit = false ∨ lanes = 0 ∨ x.trained < lanes.val ∨ (x.ltssm ≠ .l0 ∧ x.ltssm ≠ .l0p) → Does (.l0pRequest p lanes) s [] fun _ => True))
    ∧ (x.dlActive = true → x.ltssm = .l0 → (x.cxl = false → Word.bit x.link 8 = true → Does (.aspmL1Request p) s [.ports, .resp] fun u => u.resp.data = 1 ∧ PortIs s u p { x with ltssm := .l1 })
        ∧ (x.cxl = true ∨ Word.bit x.link 8 = false → Does (.aspmL1Request p) s [.resp] fun u => u.resp.data = 0))
    ∧ (x.dlActive = false ∨ x.ltssm ≠ .l0 → Does (.aspmL1Request p) s [] fun _ => True))

/-- HOST_COMPLETION_RECEIVED, COMPLETION_TIMEOUT, BAR2_READ, BAR2_WRITE, BAR2_READ_TIMEOUT, BAR2_LATE_RESPONSE, CONFIG_REQUEST, FUNCTION_READY, FLR_INITIATE, FLR_COMPLETE, BME_CLEAR,
BME_SET, D3HOT_ENTRY, DOE_REQUEST and DOE_ABORT (R62 to R66, R68, R70 to R76, R79 to R81, R86, R90). -/
def Obligations.PortRequests : Prop :=
  (∀ (s : State) (p : Fin 8) (tag hdr : Nat) (r : HostCpl),
    ((∀ n ∈ (portOf s p).np, n.tag ≠ tag) → Does (.completionTimeout p tag hdr) s [] (fun _ => True)
      ∧ ((portOf s p).dlActive = false → Does (.hostCompletionReceived p tag r) s [] fun _ => True)
      ∧ ((portOf s p).dlActive = true → Does (.hostCompletionReceived p tag r) s [.ports, .freeCtr] fun u => (fnOf u (p * 64)).aerUnc = (fnOf s (p * 64)).aerUnc ||| 2 ^ 16
        ∧ ∃ fns, PortIs s u p { portOf s p with fns := fns }))
    ∧ ((portOf s p).ctoOff = true → Does (.completionTimeout p tag hdr) s [] fun _ => True)
    ∧ (∀ n : NpReq, (portOf s p).np.find? (fun y => y.tag = tag) = some n →
      Does (.hostCompletionReceived p tag r) s anyParts (fun _ => True)
      ∧ (∀ b mid sqid idx l, r = .ok b → n.discard = false → s.dev.fault = false → n.purpose = .entries mid sqid idx l → Does (.hostCompletionReceived p tag r) s [] fun _ => True)
      ∧ (∀ b c o a len, r = .ok b → n.discard = false → s.dev.fault = false → n.purpose = .data c o a len ∨ n.purpose = .table c o a len → b.length ≠ len →
          Does (.hostCompletionReceived p tag r) s [] fun _ => True)
      ∧ ((∃ b, r = .ok b) → n.discard = true ∨ s.dev.fault = true → Does (.hostCompletionReceived p tag r) s [.ports] fun u =>
          PortIs s u p { portOf s p with np := (portOf s p).np.filter fun y => decide (y.tag ≠ tag) })
      ∧ ((portOf s p).ctoOff = false → n.discard = true → Does (.completionTimeout p tag hdr) s [.ports] fun u =>
          PortIs s u p { portOf s p with np := (portOf s p).np.filter fun y => decide (y.tag ≠ tag) })
      ∧ ((portOf s p).ctoOff = false → n.discard = false → Does (.completionTimeout p tag hdr) s anyParts fun u => (portOf s p).pstate = .up → (portOf u p).pstate = .contained
          ∧ (portOf u p).cause = 3 ∧ (portOf u p).causeFn = n.mid % 64))
    ∧ (∀ (n : NpReq) (x : Ctx) (a len : Nat) (b : List Byte), (portOf s p).np = [n] → n.tag = tag → n.discard = false → n.mid / 64 = p.val → n.mid = x.id.mid → n.purpose = .data x.id 0 a len →
        s.hqe.ctxs = [x] → x.stage = .dataIn → x.want = [] → x.twant = [] → x.got = [] → isNvmWrite s x = true → s.grv.execs = [] → (∀ f ∈ (portOf s p).fns, f.2.pba = []) →
        (b.length = len → s.dev.fault = false → Does (.hostCompletionReceived p tag (.ok b)) s [.ports, .hqe, .resp] fun u => PortIs s u p { portOf s p with np := [] }
            ∧ ctxOf u x.id = some { x with data := b, got := [], stage := .received })
        ∧ (r = .ur ∨ r = .ca → Does (.hostCompletionReceived p tag r) s [.ports, .hqe, .resp] fun u => PortIs s u p { portOf s p with np := [] } ∧ Ends s u x.id x stTransferErr 0 0)
        ∧ ((portOf s p).pstate = .up → s.ftl.hmbMem = [] → ∀ (i : Instr) (cause bit : Nat), (i = .hostCompletionReceived p tag (.poisoned hdr) ∧ cause = 1 ∧ bit = 12)
              ∨ (i = .hostCompletionReceived p tag (.malformed hdr) ∧ cause = 2 ∧ bit = 18) ∨ (i = .completionTimeout p tag hdr ∧ cause = 3 ∧ bit = 14 ∧ (portOf s p).ctoOff = false) →
            Does i s [.ports, .hqe, .regs, .evq] fun u => Ends s u x.id x stTransferErr 0 0 ∧ (portOf u p).pstate = .contained ∧ (portOf u p).cause = cause ∧ (portOf u p).np = []
              ∧ (portOf u p).causeFn = n.mid % 64 ∧ (fnOf u n.mid).aerUnc = (fnOf s n.mid).aerUnc ||| 2 ^ bit ∧ Word.bit (rd u (portRgn p) 0x18) 3 = true ∧ ∀ q, q ≠ p.val → portOf u q = portOf s q)))
  ∧ (∀ (s : State) (off size data : Nat) (b : Bool),
    (bar2Up s = false → Serves (.bar2Read .bar2 off size b) s [] (fun _ => True) ∧ Serves (.bar2Write .bar2 off size data b) s [] fun _ => True)
    ∧ (bar2Up s = true → (fnOf s (mgmtPf s)).d3hot = true ∨ bar2Fits off size = false → Serves (.bar2Read .bar2 off size b) s readParts (fun u => HostGets s u (mgmtPf s) { cpl := 1 })
      ∧ Serves (.bar2Write .bar2 off size data b) s [.ports, .freeCtr] fun u => (fnOf u (mgmtPf s)).aerUnc = (fnOf s (mgmtPf s)).aerUnc ||| 2 ^ 20 ∧ ∀ k, k ≠ mgmtPf s → fnOf u k = fnOf s k)
    ∧ (bar2Up s = true → (fnOf s (mgmtPf s)).d3hot = false → bar2Fits off size = true → ∀ a, a = carriedAcc s (bar2Acc s off size 0 .read) →
      (b = true ∨ isBcast (regPlace a).1 = true ∨ trunkAdmits s a = false → ∀ c d w t, regSpace s a = (c, d, t) → KeepsBut w s t → mgmtPf t = mgmtPf s → Serves (.bar2Read .bar2 off size b) s (readParts ++ w) fun u =>
          (c = .ok → HostGets t u (mgmtPf s) { cpl := 0, data := d }) ∧ (c = .decode → HostGets t u (mgmtPf s) { cpl := 1 })
          ∧ (c = .denied ∨ c = .domainOff ∨ c = .timeout → HostGets t u (mgmtPf s) { cpl := 4 }) ∧ (c = .poison → HostGets t u (mgmtPf s) { cpl := 0, data := d, ep := true }))
      ∧ (isBcast (regPlace a).1 = false → trunkAdmits s a = true → Serves (.bar2Read .bar2 off size false) s [.ports, .trunk, .blk] fun u =>
          u.trunk = { s.trunk with reqs := s.trunk.reqs ++ [⟨s.trunk.nextId, a, 0⟩], nextId := s.trunk.nextId + 1 }
          ∧ PortIs s u (mgmtPort s) { portOf s (mgmtPort s) with bar2 := (portOf s (mgmtPort s)).bar2 ++ [{ id := s.trunk.nextId, off := off, size := size }] }))
    ∧ (bar2Up s = true → (fnOf s (mgmtPf s)).d3hot = false → bar2Fits off size = true → ∀ a, a = carriedAcc s (bar2Acc s off size data .write) →
      (b = true ∨ isBcast (regPlace a).1 = true ∨ trunkAdmits s a = false → ∀ c d w t, regSpace s a = (c, d, t) → KeepsBut w s t →
        (c = .ok → Serves (.bar2Write .bar2 off size data b) s w fun u => u = t)
        ∧ (c ≠ .ok → Serves (.bar2Write .bar2 off size data b) s (.regs :: .evq :: w) fun u => (∃ e, u.evq = t.evq ++ [e] ∧ e.code = 0x3003)
          ∧ (Word.bit (rd t (portRgn (mgmtPort t)) 0x134) 0 = false → rd u (portRgn (mgmtPort t)) 0x134 = w32 (1 + tcodeNum c * 2)
            ∧ rd u (portRgn (mgmtPort t)) 0x138 = w32 (off % 2 ^ 23) ∧ Word.bit (rd u (portRgn (mgmtPort t)) 0x18) 7 = true)
          ∧ (Word.bit (rd t (portRgn (mgmtPort t)) 0x134) 0 = true → RegsOnly [] t u)))
      ∧ (isBcast (regPlace a).1 = false → trunkAdmits s a = true → Serves (.bar2Write .bar2 off size data false) s [.trunk, .blk] fun u =>
          u.trunk = { s.trunk with reqs := s.trunk.reqs ++ [⟨s.trunk.nextId, a, 0⟩], nextId := s.trunk.nextId + 1 })))
  ∧ (∀ (s : State) (m : Fin 512) (off size data : Nat) (b four : Bool) (bar : HostBar), bar = (if four then .bar4 m else .bar0 m) →
    (barUp s m = false → Serves (.bar2Read bar off size b) s [] (fun _ => True) ∧ Serves (.bar2Write bar off size data b) s [] fun _ => True)
    ∧ (barUp s m = true → (fnOf s m).d3hot = true ∨ barFits (barSize m four) off size = false → Serves (.bar2Read bar off size b) s readParts (fun u => HostGets s u m { cpl := 1 })
      ∧ Serves (.bar2Write bar off size data b) s [.ports, .freeCtr] fun u => (fnOf u m).aerUnc = (fnOf s m).aerUnc ||| 2 ^ 20 ∧ ∀ k, k ≠ m.val → fnOf u k = fnOf s k)
    ∧ (barUp s m = true → (fnOf s m).d3hot = false → barFits (barSize m four) off size = true →
      (barOpen m off four = true → Serves (.bar2Read bar off size b) s readParts fun u => ∃ v, HostGets s u m { cpl := 0, data := v })
      ∧ (barOpen m off four = false → Serves (.bar2Read bar off size b) s readParts fun u =>
          (four = false → HostGets s u m { cpl := 0, data := bar0Dword s m off + if size = 8 then bar0Dword s m (off + 4) * 2 ^ 32 else 0 })
          ∧ (four = true → HostGets s u m { cpl := 0, data := bar4Dword s m off + if size = 8 then bar4Dword s m (off + 4) * 2 ^ 32 else 0 }))
      ∧ Serves (.bar2Write bar off size data b) s anyParts (fun u => u.resp.code = .ok)
      ∧ (∀ y, four = false → size = 4 → off = 0x1000 + 8 * y → Serves (.bar2Write bar off size data b) s anyParts fun u =>
          u = hostKeep (sqDoorbell { s with resp := {} } m y (data % 65536)))
      ∧ (∀ y, four = false → size = 4 → off = 0x1004 + 8 * y → Serves (.bar2Write bar off size data b) s anyParts fun u =>
          u = hostKeep (cqDoorbell { s with resp := {} } m y (data % 65536)))
      ∧ (∀ y, four = false → size = 8 → off = 0x1000 + 8 * y → Serves (.bar2Write bar off size data b) s anyParts fun u =>
          u = hostKeep (cqDoorbell (sqDoorbell { s with resp := {} } m y (data % 65536)) m y (data / 2 ^ 32 % 65536)))
      ∧ (four = false → size = 4 → off = 0x24 → (ctrlOf s m).en = false → Serves (.bar2Write bar off size data b) s [.resp, .hqe] fun u =>
          ctrlOf u m = { ctrlOf s m with aqa := w32 (data % 2 ^ 32) &&& 0x0FFF0FFF } ∧ ∀ k, k ≠ m.val → ctrlOf u k = ctrlOf s k)
      ∧ (four = true → size = 4 → off < 16 * msixVectors m → (fnOf s m).pba = [] → Serves (.bar2Write bar off size data b) s [.resp, .ports] fun u => bar4Dword u m off =
          (w32 (data % 2 ^ 32) &&& (if off % 16 = 0 then 0xFFFFFFFC else if off % 16 = 12 then 1 else 0xFFFFFFFF)).toNat ∧ ∀ k, k ≠ m.val → fnOf u k = fnOf s k))
    ∧ (barUp s m = true → (fnOf s m).d3hot = false → Serves (.bar2Read (.bar0 m) 0 8 b) s readParts (fun u => HostGets s u m { cpl := 0, data := 0x004008203C03FFFF })
      ∧ Serves (.bar2Read (.bar0 m) 0x1C 4 b) s readParts fun u => HostGets s u m { cpl := 0, data := (ctrlOf s m).rdy.toNat + s.dev.fault.toNat * 2 + (ctrlOf s m).shst * 4 }))
  ∧ (∀ (s : State) (id off size : Nat),
      ((portOf s (mgmtPort s)).bar2 = [{ id := id, off := off, size := size }] → Does (.bar2ReadTimeout id) s [.ports, .resp, .freeCtr] fun u => u.resp.cpl = 4
        ∧ (fnOf u (mgmtPf s)).aerUnc = (fnOf s (mgmtPf s)).aerUnc ||| 2 ^ 15
        ∧ ∃ fns, PortIs s u (mgmtPort s) { portOf s (mgmtPort s) with bar2 := [{ id := id, off := off, size := size, timedOut := true }], fns := fns })
      ∧ (∀ b l, (portOf s (mgmtPort s)).bar2 = b :: l → b.id ≠ id → b.timedOut = false → b.ans = none → (∃ y ∈ l, y.id = id ∧ y.ans = none ∧ y.timedOut = false) →
        Does (.bar2ReadTimeout id) s [.ports, .freeCtr] fun u => (portOf u (mgmtPort s)).bar2.head? = some b ∧ ∃ y ∈ (portOf u (mgmtPort s)).bar2, y.id = id ∧ y.ans = some { cpl := 4 })
      ∧ ((∀ y ∈ (portOf s (mgmtPort s)).bar2, y.id = id → y.ans ≠ none ∨ y.timedOut = true) → Does (.bar2ReadTimeout id) s [] fun _ => True)
      ∧ ((∀ y ∈ (portOf s (mgmtPort s)).bar2, y.id = id → y.timedOut = false) ∨ (∀ r ∈ s.trunk.reqs, r.id ≠ id) → Does (.bar2LateResponse id) s [] fun _ => True)
      ∧ (∀ b l r rest, takeFirst (fun y : Bar2 => y.id = id && y.timedOut) (portOf s (mgmtPort s)).bar2 = some (b, l) → takeFirst (fun r : TrkReq => r.id = id) s.trunk.reqs = some (r, rest) →
        Does (.bar2LateResponse id) s [.ports, .trunk, .blk, .evq] fun u => u.trunk = { s.trunk with reqs := rest } ∧ PortIs s u (mgmtPort s) { portOf s (mgmtPort s) with bar2 := l }
          ∧ ∃ e, u.evq = s.evq ++ [e] ∧ e.code = 0x4003 ∧ e.sev = sevWarning))
  ∧ (∀ (s : State) (p : Fin 8) (fn : Fin 64) (m : Nat), m = p * 64 + fn →
    (∀ r w, (portOf s p).dlActive = false → Serves (.configRequest p fn r w) s [] fun _ => True)
    ∧ (∀ r w, (portOf s p).dlActive = true → fnPresent s m = false → Serves (.configRequest p fn r w) s [.resp, .ports, .freeCtr] fun u => u.resp.cpl = 1
        ∧ (fnOf u (p * 64)).aerUnc = (fnOf s (p * 64)).aerUnc ||| 2 ^ 20 ∧ ∀ k, k ≠ p.val * 64 → fnOf u k = fnOf s k)
    ∧ (∀ r w, (portOf s p).dlActive = true → fnPresent s m = true → (fnOf s m).ready = false ∨ (fnOf s m).flrPend = true → Serves (.configRequest p fn r w) s [.resp] fun u => u.resp.cpl = 2)
    ∧ ((portOf s p).dlActive = true → fnPresent s m = true → (fnOf s m).ready = true → (fnOf s m).flrPend = false →
        (∀ r, cfgOpen (fn = 0) (cfgOff r) = true → Serves (.configRequest p fn r none) s [.resp, .freeCtr] fun u => u.resp.cpl = 0 ∧ u.resp.data < 2 ^ 32)
        ∧ (∀ r, cfgOpen (fn = 0) (cfgOff r) = false → Serves (.configRequest p fn r none) s [.resp] fun u => u.resp.cpl = 0 ∧ u.resp.data = cfgRead s m r)
        ∧ (∀ r v, Serves (.configRequest p fn r (some v)) s anyParts fun u => u.resp.code = .ok ∧ u.resp.cpl = 0)
        ∧ (∀ r v, r ∈ ([.ids, .classRev, .totalVfs, .serialLo, .serialHi] : List CfgReg) → Serves (.configRequest p fn r (some v)) s [.resp] fun u => u.resp.cpl = 0)
        ∧ Serves (.configRequest p fn .ids none) s [.resp] (fun u => u.resp.cpl = 0 ∧ u.resp.data = if fn = 0 then 0x09601F3D else 0x09611F3D)
        ∧ Serves (.configRequest p fn .classRev none) s [.resp] (fun u => u.resp.cpl = 0 ∧ u.resp.data = 0x010802B1)
        ∧ Serves (.configRequest p fn .totalVfs none) s [.resp] (fun u => u.resp.cpl = 0 ∧ u.resp.data = if fn = 0 then 0x003F003F else 0)
        ∧ Serves (.configRequest p fn (.other 0x2C) none) s [.resp] (fun u => u.resp.data = s.ten.saved.subsys.toNat)
        ∧ (fn = 0 → Serves (.configRequest p fn .serialLo none) s [.resp] (fun u => u.resp.data = (Tbl.getD s.fus.eff 8 0).toNat)
          ∧ Serves (.configRequest p fn .serialHi none) s [.resp] (fun u => u.resp.data = (Tbl.getD s.fus.eff 9 0).toNat)
          ∧ (∀ v : Word, Serves (.configRequest p fn .devCtl2 (some v)) s [.resp, .ports] fun u => u.resp.cpl = 0 ∧ ∃ fns, PortIs s u p { portOf s p with
            ctoEnc := if (ctoMicros (Word.fld v 3 0)).isSome then Word.fld v 3 0 else (portOf s p).ctoEnc, ctoOff := Word.bit v 4, fns := fns })
          ∧ (∀ v : Word, s.dev.dormant = true → Serves (.configRequest p fn .sriovCtl (some v)) s [.resp] fun u => u.resp.cpl = 0)
          ∧ (∀ v : Word, s.dev.dormant = false → (portOf s p).vfEn = false ∨ Word.bit v 0 = true → Serves (.configRequest p fn .sriovCtl (some v)) s [.resp, .ports] fun u =>
              ∃ fns, PortIs s u p { portOf s p with vfEn := Word.bit v 0, fns := fns })
          ∧ (∀ v : Word, (portOf s p).vfEn = false → Word.fld v 15 0 ≤ 63 → Serves (.configRequest p fn .numVfs (some v)) s [.resp, .ports] fun u =>
              PortIs s u p { portOf s p with numVfs := Word.fld v 15 0 })
          ∧ (∀ v : Word, (portOf s p).vfEn = true ∨ 63 < Word.fld v 15 0 → Serves (.configRequest p fn .numVfs (some v)) s [.resp] fun u => u.resp.cpl = 0))
        ∧ (∀ v : Word, Word.bit v 2 = (fnOf s m).bme → Serves (.configRequest p fn .command (some v)) s [.resp, .ports] fun u => (fnOf u m).bme = (fnOf s m).bme)
        ∧ (∀ v : Word, Word.bit v 2 = true → (fnOf s m).bme = false → PortIdle s p → Serves (.configRequest p fn .command (some v)) s [.resp, .ports] fun u => (fnOf u m).bme = true
            ∧ ∀ k, k ≠ m → fnOf u k = fnOf s k)
        ∧ (∀ v : Word, Word.bit v 2 = false → (fnOf s m).bme = true → s.ftl.hmbMem = [] → Serves (.configRequest p fn .command (some v)) s [.resp, .ports, .regs] fun u => (fnOf u m).bme = false
            ∧ hostOpen u m = false ∧ Word.bit (rd u (portRgn p) 0x18) 5 = true)
        ∧ (∀ v : Word, Word.fld v 1 0 = 3 → (fnOf s m).d3hot = false → s.ftl.hmbMem = [] → Serves (.configRequest p fn .pmcsr (some v)) s [.resp, .ports, .regs] fun u =>
            FnIs s u m { fnOf s m with d3hot := true } ∧ hostOpen u m = false)
        ∧ (∀ v : Word, Word.fld v 1 0 = 0 → PortIdle s p → Serves (.configRequest p fn .pmcsr (some v)) s [.resp, .ports] fun u => FnIs s u m { fnOf s m with d3hot := false })
        ∧ (∀ v : Word, (fnOf s m).pba = [] → Serves (.configRequest p fn .msix (some v)) s [.resp, .ports] fun u => FnIs s u m { fnOf s m with msixEn := Word.bit v 31, msixMask := Word.bit v 30 })
        ∧ (∀ v : Word, Word.bit v 15 = false → Serves (.configRequest p fn .devCtl (some v)) s [.resp, .ports] fun u => (fnOf u m).flrPend = false ∧ (∀ k, k ≠ m → fnOf u k = fnOf s k)
            ∧ (Word.fld v 7 5 ≤ 2 → (fnOf u m).mps = Word.fld v 7 5) ∧ (Word.fld v 14 12 ≤ 5 → (fnOf u m).mrrs = Word.fld v 14 12))
        ∧ (∀ v : Word, Serves (.configRequest p fn .aerUnc (some v)) s [.resp, .ports] fun u => FnIs s u m { fnOf s m with aerUnc := (w32 (fnOf s m).aerUnc &&& ~~~v).toNat })
        ∧ (∀ v : Word, Serves (.configRequest p fn .aerCor (some v)) s [.resp, .ports] fun u => FnIs s u m { fnOf s m with aerCor := (w32 (fnOf s m).aerCor &&& ~~~v).toNat }))
    ∧ ((portOf s p).dlActive = true → fnPresent s m = true → (fnOf s m).flrPend = false → Does (.functionReady p fn) s [.ports] fun u => FnIs s u m { fnOf s m with ready := true })
    ∧ ((portOf s p).dlActive = false ∨ fnPresent s m = false ∨ (fnOf s m).flrPend = true → Does (.functionReady p fn) s [] fun _ => True)
    ∧ (fnPresent s m = false → Does (.bmeSet p fn) s [] (fun _ => True) ∧ Does (.d3hotEntry p fn) s [] fun _ => True)
    ∧ (fnPresent s m = true → Does (.bmeSet p fn) s anyParts (fun _ => True)
      ∧ (PortIdle s p → Does (.bmeSet p fn) s [.ports, .resp] fun u => FnIs s u m { fnOf s m with bme := true }))
    ∧ ((fnOf s m).bme = false → Does (.bmeClear p fn) s [] fun _ => True)
    ∧ ((fnOf s m).bme = true → Does (.bmeClear p fn) s anyParts (fun u => (fnOf u m).bme = false)
      ∧ (s.ftl.hmbMem = [] ∨ m ≠ mgmtPf s → Does (.bmeClear p fn) s [.ports, .regs] fun u => FnIs s u m { fnOf s m with bme := false } ∧ hostOpen u m = false
        ∧ Word.bit (rd u (portRgn p) 0x18) 5 = true ∧ RegsOnly [(portRgn p, 0x18)] s u))
    ∧ ((fnOf s m).d3hot = true → Does (.d3hotEntry p fn) s [] fun _ => True)
    ∧ (fnPresent s m = true → (fnOf s m).d3hot = false → Does (.d3hotEntry p fn) s anyParts (fun u => (fnOf u m).d3hot = true)
      ∧ (s.ftl.hmbMem = [] ∨ m ≠ mgmtPf s → Does (.d3hotEntry p fn) s [.ports, .regs] fun u => FnIs s u m { fnOf s m with d3hot := true } ∧ hostOpen u m = false
        ∧ ((fnOf s m).bme = true → Word.bit (rd u (portRgn p) 0x18) 5 = true) ∧ RegsOnly [(portRgn p, 0x18)] s u))
    ∧ ((fnOf s m).ready = false → Serves (.flrInitiate p fn) s [] fun _ => True)
    ∧ ((fnOf s m).ready = true → fnPresent s m = false ∨ (fnOf s m).flrPend = true → Serves (.flrInitiate p fn) s [.resp] fun u => u.resp.cpl = 0)
    ∧ ((fnOf s m).ready = true → fnPresent s m = true → (fnOf s m).flrPend = false → Serves (.flrInitiate p fn) s anyParts (fun u => u.resp.cpl = 0 ∧ (fnOf u m).flrPend = true)
      ∧ (fn ≠ 0 → PortIdle s p → Serves (.flrInitiate p fn) s [.ports, .hqe, .graft, .rings, .regs, .pwr, .resp] fun u => u.resp.cpl = 0
          ∧ FnIs s u m { fnOf s m with flrPend := true } ∧ (ctrlOf u m).en = false ∧ (ctrlOf u m).rdy = false
          ∧ (∀ q, q ∈ u.hqe.sqs ↔ q ∈ s.hqe.sqs ∧ q.1 / 65536 ≠ m) ∧ (∀ k, k ≠ m → ctrlOf u k = ctrlOf s k))
      ∧ (fn = 0 → PortIdle s p → s.ftl.hmbMem = [] → Serves (.flrInitiate p fn) s [.ports, .hqe, .graft, .rings, .regs, .pwr, .resp] fun u => u.resp.cpl = 0
          ∧ ∀ f : Fin 64, (ctrlOf u (p * 64 + f)).en = false ∧ (f = 0 ∨ (Tbl.find (portOf s p).fns f).isSome = true → fnOf u (p * 64 + f) = { fnOf s (p * 64 + f) with flrPend := true })))
    ∧ (fn = 0 → (fnOf s m).flrPend = true → Does (.flrComplete p fn) s [.ports, .regs] fun u => (portOf u p).vfEn = false ∧ (portOf u p).numVfs = 0
        ∧ (portOf u p).ctoOff = false ∧ (portOf u p).ctoEnc = 0 ∧ (portOf u p).doe = {} ∧ Word.bit (rd u (portRgn p) 0x18) 4 = true ∧ (∀ q, q ≠ p.val → portOf u q = portOf s q)
        ∧ (fnOf u m).ready = true ∧ FnIsReset (fnOf s m) { fnOf u m with ready := false }
        ∧ ∀ f : Fin 64, f ≠ 0 → (Tbl.find (portOf s p).fns f).isSome = true → FnIsReset (fnOf s (p * 64 + f)) (fnOf u (p * 64 + f)))
    ∧ (fn ≠ 0 → (fnOf s m).flrPend = true → Does (.flrComplete p fn) s [.ports, .regs] fun u => (fnOf u m).ready = true ∧ FnIsReset (fnOf s m) { fnOf u m with ready := false }
        ∧ (∀ k, k ≠ m → fnOf u k = fnOf s k) ∧ Word.bit (rd u (portRgn p) 0x18) 4 = true ∧ RegsOnly [(portRgn p, 0x18)] s u)
    ∧ ((fnOf s m).flrPend = false → Does (.flrComplete p fn) s [] fun _ => True))
  ∧ ∀ (s : State) (p : Fin 8) (d : List Byte) (v : Fin 65536) (t : Fin 256) (e : Doe), e = (portOf s p).doe →
    Does (.doeAbort p) s [.ports] (fun u => PortIs s u p { portOf s p with doe := { intEn := e.intEn } })
    ∧ ((portOf s p).dlActive = false ∨ (fnOf s (p * 64)).ready = false → Does (.doeRequest p v t d) s [.resp] fun _ => True)
    ∧ ((portOf s p).dlActive = true → (fnOf s (p * 64)).ready = true →
      (e.busy = true ∨ 4088 < d.length → Does (.doeRequest p v t d) s [.resp, .ports] fun u => (portOf u p).doe = { e with error := true, intSts := true }
        ∧ (e.intEn = false → PortIs s u p { portOf s p with doe := { e with error := true, intSts := true } }))
      ∧ (e.busy = false → d.length ≤ 4088 →
        (t = 1 ∨ t = 2 → Does (.doeRequest p 1 t d) s [.resp, .ports] fun u => PortIs s u p { portOf s p with doe := { e with busy := true } })
        ∧ (3 ≤ t.val → Does (.doeRequest p 1 t d) s [.resp] fun _ => True) ∧ (v ≠ 1 → (v = 0x1E98 → t ≠ 2) → Does (.doeRequest p v t d) s [.resp] fun _ => True)
        ∧ (∀ r, (v = 1 ∧ t = 0) ∨ (v = 0x1E98 ∧ t = 2) → doeAnswer s p v t d = some r → Does (.doeRequest p v t d) s [.resp, .ports] fun u =>
            (portOf u p).doe = { e with response := leBytes 2 v ++ leBytes 2 t ++ leBytes 4 (ceilDiv (r.length + 8) 4) ++ r, intSts := true }
            ∧ (e.intEn = false → ∃ q, PortIs s u p { portOf s p with doe := q })
            ∧ (e.intEn = true → (fnOf s (p * 64)).msixEn = true → vecMasked (fnOf s (p * 64)) 0 = false → hostOpen s (p * 64) = true → u.resp.tlps = [{ mid := p * 64, kind := .msix 0 }]))
        ∧ (∀ i : Fin 4, leNat (d.take 1) = i → doeAnswer s p 1 0 d = some ((([[1, 0, 0], [1, 0, 1], [1, 0, 2], [0x98, 0x1E, 2]] : List (List Byte)).getD i []) ++ [BitVec.ofNat 8 ((i + 1) % 4)]))
        ∧ ((portOf s p).cxl = false → doeAnswer s p 0x1E98 2 d = some [])))
/-! ### Host commands: queues, contexts, controllers -/

/-- SQ_TAIL_DOORBELL, CQ_HEAD_DOORBELL, SQ_FETCH, SQ_ENTRY_ARRIVAL, CQ_POST, CREATE_IO_SQ, CREATE_IO_CQ, DELETE_IO_SQ, DELETE_IO_CQ, ABORT, ASYNC_EVENT_REQUEST, RESUME_QUEUE,
CONTROLLER_RESET, CONTROLLER_ENABLE, CONTROLLER_READY, SHUTDOWN_NOTIFICATION and SHUTDOWN_COMPLETE (R73, R86 to R93, R96 to R103, R107, R115 to R119, R573, R582). -/
def Obligations.HostQueues : Prop :=
  (∀ (s : State) (mid : Fin 512) (qid v : Fin 65536) (k : Ctrl), ctrlOf s mid = k →
    (s.dev.fault = true ∨ k.en = false → Does (.sqTailDoorbell mid qid v) s [] (fun _ => True) ∧ Does (.cqHeadDoorbell mid qid v) s [] fun _ => True)
    ∧ (s.dev.fault = false → k.en = true →
      (sqOf s mid qid = none → Does (.sqTailDoorbell mid qid v) s [.hqe] fun u => AerSent s u mid 0x10000 ∧ u.hqe.sqs = s.hqe.sqs)
      ∧ (∀ q, sqOf s mid qid = some q →
        (v.val < q.size → q.head = v ∨ k.psReq < 3 → Does (.sqTailDoorbell mid qid v) s [.hqe] fun u => sqOf u mid qid = some { q with tail := v } ∧ u.hqe.ctxs = s.hqe.ctxs ∧ u.hqe.cqs = s.hqe.cqs
            ∧ ctrlOf u mid = k ∧ ∀ m j, j < 65536 → (m, j) ≠ (mid.val, qid.val) → sqOf u m j = sqOf s m j)
        ∧ (v.val < q.size → q.head ≠ v → 3 ≤ k.psReq → Does (.sqTailDoorbell mid qid v) s [.hqe, .pwr, .regs] fun u => sqOf u mid qid = some { q with tail := v }
            ∧ ctrlOf u mid = { k with psReq := k.psLast } ∧ u.pwr.psEff = psEffNow u ∧ u.hqe.ctxs = s.hqe.ctxs)
        ∧ (q.size ≤ v.val → q.st = .errored → Does (.sqTailDoorbell mid qid v) s [] fun _ => True)
        ∧ (q.size ≤ v.val → q.st ≠ .errored → Does (.sqTailDoorbell mid qid v) s [.hqe, .regs, .evq] fun u => AerSent s u mid (7 + 0xC2 * 256 + 0xC2 * 65536)
            ∧ SqLatched s u mid qid { q with st := .errored, reason := 1, latch := q.head, doorbell := v, cidFault := 0xFFFF, stFault := 0, aborted := 0, frag := 0, opsec := s.dev.opsec } 1 0x3004 sevWarning))
      ∧ (cqOf s mid qid = none → Does (.cqHeadDoorbell mid qid v) s [.hqe] fun u => AerSent s u mid 0x10000 ∧ u.hqe.cqs = s.hqe.cqs)
      ∧ (∀ q, cqOf s mid qid = some q →
        (v.val < q.size → (v + q.size - q.head) % q.size ≤ q.entries.length → Does (.cqHeadDoorbell mid qid v) s [.hqe] fun u =>
            cqOf u mid qid = some { q with head := v, entries := q.entries.drop ((v + q.size - q.head) % q.size) } ∧ u.hqe.sqs = s.hqe.sqs ∧ u.hqe.ctxs = s.hqe.ctxs)
        ∧ (q.size ≤ v.val ∨ q.entries.length < (v + q.size - q.head) % q.size → Does (.cqHeadDoorbell mid qid v) s [.hqe] fun u => AerSent s u mid 0x10100 ∧ u.hqe.cqs = s.hqe.cqs))))
  ∧ (∀ s : State, Does .sqFetch s [.hqe, .ports, .regs] fun u => u.hqe.ctxs = s.hqe.ctxs ∧ u.hqe.cqs = s.hqe.cqs ∧ u.hqe.ctrls = s.hqe.ctrls ∧ (u = s ∨ ∃ mid qid q l tag,
      sqOf s mid qid = some q ∧ ctlFetches s mid = true ∧ l ≠ [] ∧ l.length ≤ burstOf s mid qid q ∧ sqOf u mid qid = some { q with head := (q.head + l.length) % q.size }
      ∧ (∀ m j, qKey m j ≠ qKey mid qid → sqOf u m j = sqOf s m j) ∧ (∀ n ∈ (portOf s (mid / 64)).np, n.tag ≠ tag)
      ∧ (portOf u (mid / 64)).np = (portOf s (mid / 64)).np ++ [{ tag := tag, mid := mid, purpose := .entries mid qid q.head l, ro := (tlpAttr s mid).1, ido := (tlpAttr s mid).2 }]
      ∧ ∀ p, p ≠ mid / 64 → portOf u p = portOf s p))
  ∧ (∀ (s : State) (mid qid : Nat) (k : Ctrl) (q : Sq) (src : CtxSrc) (cls : Cls), mid < 512 → s.hqe.ctrls = [(mid, k)] → s.hqe.sqs = [(mid * 65536 + qid, q)] → qid < 65536 → sqFetchable s mid qid q = true →
      q.tail = (q.head + 1) % q.size → q.head < q.size → 2 ≤ q.size → q.prio ≤ 3 → drawOne s mid (qid = 0) [] = some src → 1 ≤ rdF s 0x0D 0x120 3 0 → 1 ≤ portWeight s (mid / 64) → (∀ p, -7 ≤ Tbl.getD s.hqe.deficit p 0) →
      npOut s (mid / 64) < 4096 → cls = (if qid = 0 then .high else if k.ams = false then .medium else if q.prio = 0 then (if tokensOf s (fnTenant s mid) = 0 then .high else .urgent)
        else if q.prio = 1 then .high else if q.prio = 2 then .medium else .low) →
      Does .sqFetch s [.hqe, .ports, .regs] fun u => sqOf u mid qid = some { q with head := (q.head + 1) % q.size } ∧ Counted s u 0x0D (0x1008 + 16 * (mid / 64)) ∧ u.hqe.ctxs = s.hqe.ctxs
        ∧ (∃ n, (portOf u (mid / 64)).np = (portOf s (mid / 64)).np ++ [n] ∧ n.mid = mid ∧ n.purpose = .entries mid qid q.head [(cls, src)] ∧ n.discard = false)
        ∧ (qid ≠ 0 → k.ams = true → q.prio = 0 → tokensOf s (fnTenant s mid) = 0 → Counted s u 0x0D 0x11C ∧ Counted s u 0x0D (0x2010 + 32 * fnTenant s mid))
        ∧ (qid ≠ 0 → k.ams = true → q.prio = 0 → 0 < tokensOf s (fnTenant s mid) → urgRate s (fnTenant s mid) ≠ 0xFFFFFF → tokensOf u (fnTenant s mid) = tokensOf s (fnTenant s mid) - 1)
        ∧ Word.bit (rd u 0x0D 0x18) 3 = (Word.bit (rd s 0x0D 0x18) 3 || (decide (rdF s 0x0D 0x124 15 0 ≤ sharedFree s) && decide (sharedFree u < rdF s 0x0D 0x124 15 0))))
  ∧ (∀ (s : State) (p : Fin 8) (tag : Nat) (e : Sqe),
      ((∀ y ∈ (portOf s p).np, y.tag ≠ tag) → Does (.sqEntryArrival p tag e) s [] fun _ => True)
      ∧ (∀ n c o a l, (portOf s p).np.find? (·.tag = tag) = some n → n.purpose = .table c o a l ∨ n.purpose = .data c o a l → Does (.sqEntryArrival p tag e) s [] fun _ => True)
      ∧ (∀ n mid sqid idx, (portOf s p).np.find? (·.tag = tag) = some n → n.purpose = .entries mid sqid idx [] → Does (.sqEntryArrival p tag e) s [.ports] fun u =>
          PortIs s u p { portOf s p with np := (portOf s p).np.filter fun y => y.tag ≠ tag })
      ∧ (∀ n mid sqid idx cls src t, (portOf s p).np.find? (·.tag = tag) = some n → n.purpose = .entries mid sqid idx ((cls, src) :: t) → n.discard = false → s.dev.fault = false →
          Does (.sqEntryArrival p tag e) s anyParts fun u => ∃ y ∈ u.hqe.ctxs, y.id.mid = mid ∧ y.id.sqid = sqid ∧ y.id.cid % 65536 = e.cid % 65536 ∧ y.tenant = fnTenant s mid ∧ y.idx = idx ∧ y.cls = cls
            ∧ y.src = src ∧ y.admin = decide (sqid = 0) ∧ y.sqe = e))
  ∧ (∀ (s : State) (p : Fin 8) (mid sqid idx : Nat) (cls : Cls) (src : CtxSrc) (t : List (Cls × CtxSrc)) (e : Sqe) (q : Sq) (x : Ctx) (n : NpReq) (l : List NpReq) (len : Nat), (portOf s p).np = [n] →
      n.purpose = .entries mid sqid idx ((cls, src) :: t) → sqOf s mid sqid = some q → e.cid < 65536 → x = entryCtx s mid sqid idx cls src e →
      l = (if t = [] then [] else [{ n with purpose := .entries mid sqid ((idx + 1) % q.size) t }]) → len = max (xferOf s x).ofHost (xferOf s x).toHost →
      (n.discard = true ∨ s.dev.fault = true → Does (.sqEntryArrival p n.tag e) s [.ports] fun u => PortIs s u p { portOf s p with np := l })
      ∧ (n.discard = false → s.dev.fault = false → (∃ y ∈ s.hqe.ctxs, y.id.mid = mid ∧ y.id.sqid = sqid ∧ y.id.cid % 65536 = e.cid) → Does (.sqEntryArrival p n.tag e) s [.ports, .hqe, .ftl] fun u =>
          ∃ z, u.hqe.ctxs = s.hqe.ctxs ++ [z] ∧ z.stage = .done ∧ z.status = some stCidConflict ∧ z.id.cid % 65536 = e.cid ∧ z.sqe = e)
      ∧ (n.discard = false → s.dev.fault = false → (∀ y ∈ s.hqe.ctxs, ¬(y.id.mid = mid ∧ y.id.sqid = sqid ∧ y.id.cid % 65536 = e.cid)) →
        (sqid = 0 → adminMay s mid e = false → Does (.sqEntryArrival p n.tag e) s [.ports, .hqe, .ftl] fun u => Arrived s u p l { x with stage := .done, status := some stInvalidOpcode })
        ∧ (sqid ≠ 0 → e.opc = 0x19 → Does (.sqEntryArrival p n.tag e) s [.ports, .hqe, .ftl] fun u => Arrived s u p l { x with stage := .ready })
        ∧ (sqid ≠ 0 → e.opc ≠ 0x19 → s.ftl.replayDue = true → Does (.sqEntryArrival p n.tag e) s [.ports, .hqe, .ftl] fun u => Arrived s u p l x)
        ∧ (∀ st, sqid ≠ 0 → e.opc ≠ 0x19 → s.ftl.replayDue = false → ioCheck s x = some st → Does (.sqEntryArrival p n.tag e) s [.ports, .hqe, .ftl, .regs] fun u =>
            Arrived s u p l { x with stage := .done, status := some st } ∧ (if st = stAccessDenied then Counted s u 0x0A 0x11C ∧ RegsOnly [(0x0A, 0x11C)] s u else RegsOnly [] s u))
        ∧ (sqid = 0 → adminMay s mid e = true → e.fuse ≠ 0 ∨ e.psdt = 3 ∨ sqeReserved s x = true → Does (.sqEntryArrival p n.tag e) s [.ports, .hqe, .ftl] fun u =>
            Arrived s u p l { x with stage := .done, status := some stInvalidField })
        ∧ (sqid ≠ 0 → e.opc ≠ 0x19 → s.ftl.replayDue = false → ioCheck s x = none → e.fuse ≠ 0 ∨ e.psdt = 3 ∨ sqeReserved s x = true → Does (.sqEntryArrival p n.tag e) s [.ports, .hqe, .ftl] fun u =>
            Arrived s u p l { x with stage := .done, status := some stInvalidField })
        ∧ (EntryPasses s x →
          (2 ^ 21 < len → Does (.sqEntryArrival p n.tag e) s [.ports, .hqe, .ftl] fun u => Arrived s u p l { x with stage := .done, status := some stInvalidField })
          ∧ (len = 0 → sqid ≠ 0 ∨ e.opc ∈ [0x00, 0x01, 0x04, 0x05, 0x08, 0x0C, 0x10, 0x80, 0x88, 0xC4] → Does (.sqEntryArrival p n.tag e) s [.ports, .hqe, .ftl] fun u => Arrived s u p l { x with stage := .ready })
          ∧ (len = 0 → sqid = 0 → e.opc = 0x09 → Word.bit e.cdw10 31 = false → Word.fld e.cdw10 7 0 = 0x0B → Does (.sqEntryArrival p n.tag e) s [.ports, .hqe, .ftl] fun u =>
              (ctrlOf u mid).aec = e.cdw11 ∧ ∃ y, ctxOf u x.id = some y ∧ y.stage = .done ∧ y.status = some stOk)
          ∧ (0 < len → len ≤ 2 ^ 21 → e.psdt = 0 → e.prp1 % 4 ≠ 0 → Does (.sqEntryArrival p n.tag e) s [.ports, .hqe, .ftl] fun u => Arrived s u p l { x with stage := .done, status := some ⟨0, 0x13⟩ })
          ∧ (0 < len → len ≤ 2 ^ 21 → e.psdt = 0 → e.prp1 % 4 = 0 → len ≤ pageSize s mid - e.prp1 % pageSize s mid →
            (sqid ≠ 0 → (xferOf s x).ofHost = 0 ∨ isNvmWrite s x = true → Does (.sqEntryArrival p n.tag e) s [.ports, .hqe, .ftl] fun u =>
              Arrived s u p l { x with stage := .ready, xlen := len, frags := [(e.prp1, len, false)] })
            ∧ ((xferOf s x).ofHost ≠ 0 → isNvmWrite s x = false → p.val = mid / 64 → len ≤ min (128 * 2 ^ (fnOf s mid).mrrs) (4096 - e.prp1 % 4096) → hostOpen s mid = true → s.ftl.moving = [] →
              Does (.sqEntryArrival p n.tag e) s [.ports, .hqe, .ftl] fun u => u.hqe.ctxs = s.hqe.ctxs ++ [{ x with stage := .dataIn, xlen := len, frags := [(e.prp1, len, false)] }]
                ∧ ∃ m, (portOf u p).np = l ++ [m] ∧ m.mid = mid ∧ m.purpose = .data x.id 0 e.prp1 len ∧ m.discard = false))
          ∧ (len ≤ 2 ^ 21 → e.psdt = 0 → e.prp1 % 4 = 0 → 2 * pageSize s mid - e.prp1 % pageSize s mid < len → p.val = mid / 64 →
            (e.prp2 % 8 = 0 → hostOpen s mid = true → s.ftl.moving = [] → Does (.sqEntryArrival p n.tag e) s [.ports, .hqe, .ftl] fun u => ∃ y m a, ctxOf u x.id = some y ∧ y.stage = .fetched
                ∧ y.frags = [(e.prp1, pageSize s mid - e.prp1 % pageSize s mid, false)] ∧ y.xlen = len ∧ m ∈ (portOf u p).np ∧ m.mid = mid ∧ m.purpose = .table x.id 0 e.prp2 a ∧ 0 < a)
            ∧ (e.prp2 % 8 ≠ 0 → t = [] → q.st = .active → (ctrlOf s mid).aers = [] → Does (.sqEntryArrival p n.tag e) s [.ports, .hqe, .ftl, .regs, .evq] fun u => (portOf u p).np = []
                ∧ u.hqe.ctxs = s.hqe.ctxs ++ [{ x with stage := .done, status := some stMalformedEntry }]
                ∧ SqLatched s u mid sqid { q with
                    head := idx, st := .errored, reason := 3, latch := idx, doorbell := q.tail, cidFault := e.cid, stFault := 7 * 256 + 0xC1, aborted := 0, frag := e.prp2, opsec := s.dev.opsec } 1 0x3004 sevWarning)))))
  ∧ (∀ (s : State) (c : CmdId),
      (ctxOf s c = none ∨ sqOf s c.mid c.sqid = none ∨ hostOpen s c.mid = false ∨ s.pwr.pl = true ∨ mapWaits s c = true → Serves (.cqPost c) s [] fun _ => True)
      ∧ (∀ x q, ctxOf s c = some x → sqOf s c.mid c.sqid = some q →
        (x.status = none ∨ x.stage ≠ .done ∨ cqOf s c.mid q.cq = none → Serves (.cqPost c) s [] fun _ => True)
        ∧ (∀ k, cqOf s c.mid q.cq = some k → k.size ≤ k.entries.length + 1 → Serves (.cqPost c) s [] fun _ => True)
        ∧ (∀ k st, cqOf s c.mid q.cq = some k → x.stage = .done → x.status = some st → hostOpen s c.mid = true → s.pwr.pl = false → k.entries.length + 1 < k.size → mapWaits s c = false →
          Serves (.cqPost c) s anyParts (fun u => ctxOf u c = none ∧ cqOf u c.mid q.cq = some (postedTo k c x q st) ∧ u.hqe.lit = true)
          ∧ (q.ordered = false → q.resume = none → x.bufs = [] → c = x.id → Serves (.cqPost c) s [.hqe, .ports, .bpm, .resp] fun u =>
              u.hqe = { s.hqe with ctxs := s.hqe.ctxs.filter (fun y => y.id ≠ c), cqs := u.hqe.cqs, lit := true } ∧ cqOf u c.mid q.cq = some (postedTo k c x q st)
              ∧ u.resp.code = .ok ∧ u.resp.data = (if Signals s c.mid k then 1 + k.vector else 0) ∧ u.resp.bytes = (if x.moved then hostData x.frags x.data else [])
              ∧ u.resp.tlps = (if x.moved then [{ mid := c.mid, kind := .data, ro := (tlpAttr s c.mid).1, ido := (tlpAttr s c.mid).2 }] else []) ++ [{ mid := c.mid, kind := .cqe }]
                  ++ (if Signals s c.mid k then [{ mid := c.mid, kind := .msix k.vector }] else [])
              ∧ (k.ien = true → (fnOf s c.mid).msixEn = true → vecMasked (fnOf s c.mid) k.vector = true → k.vector ∈ (fnOf u c.mid).pba) ∧ ∀ w ∈ u.bpm.waiters, w.purpose ≠ .cmd c)
          ∧ (∀ rest, q.ordered = true → q.st ≠ .frozen → q.resume = none → st ≠ stOk → x.bufs = [] → c = x.id → s.hqe.ctxs = x :: rest → (∀ y ∈ rest, y.id.mid = c.mid ∧ y.id.sqid = c.sqid ∧ y.id ≠ c) →
              Serves (.cqPost c) s anyParts (fun u => (∀ y ∈ rest, ∃ z, ctxOf u y.id = some z ∧ z.stage = .done ∧ z.status = some stQueueFrozen ∧ z.data = []) ∧ u.hqe.ctxs.length = rest.length
                ∧ ∃ r, sqOf u c.mid c.sqid = some r ∧ r.st = .frozen ∧ r.reason = 8 ∧ r.latch = (x.idx + 1) % q.size ∧ r.aborted = rest.length ∧ r.tail = q.tail)
              ∧ (rest = [] → (portOf s (c.mid / 64)).np = [] → (ctrlOf s c.mid).aers = [] → Serves (.cqPost c) s [.hqe, .ports, .bpm, .resp, .regs, .evq] fun u => u.hqe.ctxs = [] ∧ SqLatched s u c.mid c.sqid { q with
                  st := .frozen, reason := 8, latch := (x.idx + 1) % q.size, doorbell := q.tail, cidFault := c.cid % 65536, stFault := st.sct * 256 + st.sc, aborted := 0, frag := 0, opsec := s.dev.opsec } 2 0x3005 sevNotice)))))
  ∧ (∀ (s : State) (c : CmdId), ((∀ x, ¬CmdReady s c true 0x05 x) → Does (.createIoCq c) s [] fun _ => True) ∧ ((∀ x, ¬CmdReady s c true 0x01 x) → Does (.createIoSq c) s [] fun _ => True)
      ∧ ((∀ x, ¬CmdReady s c true 0x04 x) → Does (.deleteIoCq c) s [] fun _ => True) ∧ ((∀ x, ¬CmdReady s c true 0x00 x) → Serves (.deleteIoSq c) s [] fun _ => True)
      ∧ ((∀ x, ¬CmdReady s c true 0x08 x) → Serves (.abort c) s [] fun _ => True) ∧ ((∀ x, ¬CmdReady s c true 0x0C x) → Does (.asyncEventRequest c) s [] fun _ => True)
      ∧ ((∀ x, ¬CmdReady s c true 0xC4 x) → Does (.resumeQueue c) s [] fun _ => True))
  ∧ (∀ (s : State) (c : CmdId) (x : Ctx) (qid n : Nat), CmdReady s c true 0x05 x → qid = Word.fld x.sqe.cdw10 15 0 → n = Word.fld x.sqe.cdw10 31 16 + 1 →
      (qid = 0 ∨ allotOf s c.mid < qid ∨ (cqOf s c.mid qid).isSome ∨ 16384 ≤ ioCqs s → Does (.createIoCq c) s [.hqe] fun u => Ends s u c x ⟨1, 0x01⟩ 0 0 ∧ u.hqe.cqs = s.hqe.cqs)
      ∧ (qid ≠ 0 → qid ≤ allotOf s c.mid → cqOf s c.mid qid = none → ioCqs s < 16384 →
        (n < 2 → Does (.createIoCq c) s [.hqe] fun u => Ends s u c x ⟨1, 0x02⟩ 0 0 ∧ u.hqe.cqs = s.hqe.cqs)
        ∧ (2 ≤ n → Word.bit x.sqe.cdw11 0 = false → Does (.createIoCq c) s [.hqe] fun u => Ends s u c x stInvalidField 0 0 ∧ u.hqe.cqs = s.hqe.cqs)
        ∧ (2 ≤ n → Word.bit x.sqe.cdw11 0 = true → msixVectors c.mid ≤ Word.fld x.sqe.cdw11 31 16 → Does (.createIoCq c) s [.hqe] fun u => Ends s u c x ⟨1, 0x08⟩ 0 0 ∧ u.hqe.cqs = s.hqe.cqs)
        ∧ (2 ≤ n → Word.bit x.sqe.cdw11 0 = true → Word.fld x.sqe.cdw11 31 16 < msixVectors c.mid → Does (.createIoCq c) s [.hqe] fun u => Ends s u c x stOk 0 0 ∧ u.hqe.sqs = s.hqe.sqs
            ∧ cqOf u c.mid qid = some { size := n, vector := Word.fld x.sqe.cdw11 31 16, ien := Word.bit x.sqe.cdw11 1, base := x.sqe.prp1 }
            ∧ ∀ m j, qKey m j ≠ qKey c.mid qid → cqOf u m j = cqOf s m j)))
  ∧ (∀ (s : State) (c : CmdId) (x : Ctx) (qid n cq : Nat), CmdReady s c true 0x01 x → qid = Word.fld x.sqe.cdw10 15 0 → n = Word.fld x.sqe.cdw10 31 16 + 1 → cq = Word.fld x.sqe.cdw11 31 16 →
      (qid = 0 ∨ allotOf s c.mid < qid ∨ (sqOf s c.mid qid).isSome ∨ 16384 ≤ ioSqs s → Does (.createIoSq c) s [.hqe] fun u => Ends s u c x ⟨1, 0x01⟩ 0 0 ∧ u.hqe.sqs = s.hqe.sqs)
      ∧ (qid ≠ 0 → qid ≤ allotOf s c.mid → sqOf s c.mid qid = none → ioSqs s < 16384 →
        (n < 2 → Does (.createIoSq c) s [.hqe] fun u => Ends s u c x ⟨1, 0x02⟩ 0 0 ∧ u.hqe.sqs = s.hqe.sqs)
        ∧ (2 ≤ n → Word.bit x.sqe.cdw11 0 = false → Does (.createIoSq c) s [.hqe] fun u => Ends s u c x stInvalidField 0 0 ∧ u.hqe.sqs = s.hqe.sqs)
        ∧ (2 ≤ n → Word.bit x.sqe.cdw11 0 = true → cq = 0 ∨ cqOf s c.mid cq = none → Does (.createIoSq c) s [.hqe] fun u => Ends s u c x ⟨1, 0x00⟩ 0 0 ∧ u.hqe.sqs = s.hqe.sqs)
        ∧ (2 ≤ n → Word.bit x.sqe.cdw11 0 = true → cq ≠ 0 → (cqOf s c.mid cq).isSome = true → Does (.createIoSq c) s [.hqe] fun u => Ends s u c x stOk 0 0 ∧ u.hqe.cqs = s.hqe.cqs
            ∧ sqOf u c.mid qid = some { size := n, prio := Word.fld x.sqe.cdw11 2 1, cq := cq, base := x.sqe.prp1 } ∧ ∀ m j, qKey m j ≠ qKey c.mid qid → sqOf u m j = sqOf s m j)))
  ∧ (∀ (s : State) (c : CmdId) (x : Ctx) (qid : Nat), qid = Word.fld x.sqe.cdw10 15 0 →
      (CmdReady s c true 0x04 x → (qid = 0 ∨ cqOf s c.mid qid = none → Does (.deleteIoCq c) s [.hqe] fun u => Ends s u c x ⟨1, 0x01⟩ 0 0 ∧ u.hqe.cqs = s.hqe.cqs)
        ∧ (qid ≠ 0 → (cqOf s c.mid qid).isSome = true → ((∃ j q, (j, q) ∈ s.hqe.sqs ∧ j / 65536 = c.mid ∧ q.cq = qid) → Does (.deleteIoCq c) s [.hqe] fun u => Ends s u c x ⟨1, 0x0C⟩ 0 0 ∧ u.hqe.cqs = s.hqe.cqs)
          ∧ ((∀ j q, (j, q) ∈ s.hqe.sqs → j / 65536 = c.mid → q.cq ≠ qid) → Does (.deleteIoCq c) s [.hqe] fun u => Ends s u c x stOk 0 0 ∧ u.hqe.sqs = s.hqe.sqs
            ∧ u.hqe.cqs = s.hqe.cqs.filter fun p => p.1 ≠ c.mid * 65536 + qid)))
      ∧ (CmdReady s c true 0x00 x → c.sqid = 0 → (qid = 0 ∨ sqOf s c.mid qid = none → Serves (.deleteIoSq c) s [.hqe] fun u => Ends s u c x ⟨1, 0x01⟩ 0 0 ∧ u.hqe.sqs = s.hqe.sqs)
        ∧ (∀ q, qid ≠ 0 → sqOf s c.mid qid = some q →
          Serves (.deleteIoSq c) s anyParts (fun u => Done u c stOk ∧ sqOf u c.mid qid = none ∧ u.hqe.cqs = s.hqe.cqs ∧ (ctrlOf u c.mid).c2hGen = (ctrlOf s c.mid).c2hGen + (if q.st = .active then 0 else 1)
            ∧ (∀ y ∈ u.hqe.ctxs, y.id.mid = c.mid → y.id.sqid ≠ qid)
            ∧ ∀ r h y, q.resume = some (r, h) → r ≠ c → r.sqid = 0 → ctxOf s r = some y → y.stage = .waiting → Done u r stAborted)
          ∧ (q.resume = none → (∀ y ∈ s.hqe.ctxs, y.id.mid = c.mid → y.id.sqid ≠ qid) → Serves (.deleteIoSq c) s [.hqe, .ports] fun u => Ends s u c x stOk 0 0
            ∧ sqOf u c.mid qid = none ∧ u.hqe.cqs = s.hqe.cqs ∧ (ctrlOf u c.mid).c2hGen = (ctrlOf s c.mid).c2hGen + (if q.st = .active then 0 else 1)))))
  ∧ (∀ (s : State) (c t : CmdId) (x : Ctx) (k : Nat), CmdReady s c true 0x08 x → t = ⟨c.mid, Word.fld x.sqe.cdw10 15 0, Word.fld x.sqe.cdw10 31 16⟩ →
      k = countOf (fun y => y.id.mid = c.mid && y.admin && y.sqe.opc = 0x08 && y.id ≠ c) (s.hqe.ctxs.takeWhile fun y => y.id ≠ c) →
      Serves (.abort c) s anyParts (fun u => ∃ z, ctxOf u c = some z ∧ z.stage = .done)
      ∧ (8 ≤ k → Serves (.abort c) s [.hqe] fun u => Ends s u c x ⟨1, 0x03⟩ 0 0)
      ∧ (k < 8 → (ctxOf s t = none → Serves (.abort c) s [.hqe] fun u => Ends s u c x stOk 1 0)
        ∧ (∀ y, ctxOf s t = some y →
          (y.admin = true ∨ y.stage = .done ∨ (y.sqe.opc = 0 ∧ y.nsid = 0xFFFFFFFF) → Serves (.abort c) s [.hqe] fun u => Ends s u c x stOk 1 0)
          ∧ (s.grv.execs = [] → y.stage = .received ∨ y.stage = .held ∨ y.stage = .transferring ∨ y.stage = .waiting ∨ (y.stage = .waitClose ∧ y.sqe.opc ≠ 0x02) → Serves (.abort c) s [.hqe] fun u => Ends s u c x stOk 1 0)
          ∧ (c ≠ t → y.admin = false → y.sqe.opc ≠ 0 → s.grv.execs = [] → s.ldc.cws = [] → s.bpm.waiters = [] → y.stage = .fetched ∨ y.stage = .ready ∨ y.stage = .waitBuf ∨ y.stage = .dataIn ∨ y.stage = .reading →
              Serves (.abort c) s [.hqe, .bpm] fun u => u.bpm = s.bpm ∧ ctxOf u c = some { x with stage := .done, status := some stOk, dw0 := 0, dw1 := 0 }
                ∧ ctxOf u t = some { y with stage := .done, status := some stAborted, dw0 := 0, dw1 := 0, data := [], moved := false, want := [] } ∧ ∀ d, d ≠ c → d ≠ t → ctxOf u d = ctxOf s d)
          ∧ (∀ e, c ≠ t → y.admin = false → y.stage ≠ .done → y.sqe.opc ≠ 0 → s.grv.execs = [e] → e.cmd = t →
              (e.engine = none → Serves (.abort c) s [.hqe, .grv] fun u => u.grv.execs = [] ∧ Done u t stAborted ∧ Done u c stOk)
              ∧ (∀ j, e.engine = some j → Serves (.abort c) s [.hqe, .grv] fun u => (engOf u j).aborting = true ∧ (engOf u j).mip.testBit 17 = true ∧ (∀ f, f ≠ j → engOf u f = engOf s f) ∧ Ends s u c x stOk 0 0)))))
  ∧ (∀ (s : State) (c : CmdId) (x : Ctx), CmdReady s c true 0x0C x →
      ((ctrlOf s c.mid).aers.length < 8 → Does (.asyncEventRequest c) s [.hqe] fun u => ctxOf u c = some { x with stage := .waiting } ∧ (ctrlOf u c.mid).aers = (ctrlOf s c.mid).aers ++ [c.cid]
          ∧ ∀ d, d ≠ c → ctxOf u d = ctxOf s d)
      ∧ (8 ≤ (ctrlOf s c.mid).aers.length → Does (.asyncEventRequest c) s [.hqe] fun u => Ends s u c x ⟨1, 0x05⟩ 0 0))
  ∧ (∀ (s : State) (c : CmdId) (x : Ctx) (qid h first : Nat) (q : Sq), CmdReady s c true 0xC4 x → qid = Word.fld x.sqe.cdw10 15 0 → h = Word.fld x.sqe.cdw11 15 0 →
      (sqOf s c.mid qid = none → Does (.resumeQueue c) s [.hqe] fun u => Ends s u c x stInvalidField 0 0)
      ∧ (sqOf s c.mid qid = some q → first = (if q.st = .frozen then (q.latch + q.size - 1) % q.size else q.latch) →
        (qid = 0 ∨ q.st = .active ∨ q.size ≤ h ∨ (q.tail + q.size - first) % q.size < (h + q.size - first) % q.size → Does (.resumeQueue c) s [.hqe] fun u => Ends s u c x stInvalidField 0 0 ∧ u.hqe.sqs = s.hqe.sqs)
        ∧ (qid ≠ 0 → q.st ≠ .active → h < q.size → (h + q.size - first) % q.size ≤ (q.tail + q.size - first) % q.size →
          (q.resume.isSome = true → Does (.resumeQueue c) s [.hqe] fun u => Ends s u c x stSequence 0 0 ∧ u.hqe.sqs = s.hqe.sqs)
          ∧ (q.resume = none →
            ((∀ y ∈ s.hqe.ctxs, y.id.mid = c.mid → y.id.sqid ≠ qid) → entriesDue s c.mid qid = false → Does (.resumeQueue c) s [.hqe] fun u => Ends s u c x stOk 0 0
              ∧ sqOf u c.mid qid = some { q with st := .active, head := h, resume := none, reason := 0 } ∧ (ctrlOf u c.mid).c2hGen = (ctrlOf s c.mid).c2hGen + 1)
            ∧ ((∃ y ∈ s.hqe.ctxs, y.id.mid = c.mid ∧ y.id.sqid = qid) ∨ entriesDue s c.mid qid = true → Does (.resumeQueue c) s [.hqe] fun u => ctxOf u c = some { x with stage := .waiting }
              ∧ sqOf u c.mid qid = some { q with resume := some (c, h) })))))
  ∧ (∀ (s : State) (mid : Fin 512) (k : Ctrl), ctrlOf s mid = k →
      (k.en = false → Serves (.controllerReset mid) s [] fun _ => True)
      ∧ (k.en = true → Serves (.controllerReset mid) s anyParts (fun u => (ctrlOf u mid).en = false ∧ (ctrlOf u mid).rdy = false ∧ (∀ x ∈ u.hqe.ctxs, x.id.mid ≠ mid.val)
            ∧ (∀ q ∈ u.hqe.sqs, q.1 / 65536 ≠ mid.val) ∧ ∀ q ∈ u.hqe.cqs, q.1 / 65536 ≠ mid.val)
        ∧ (PortIdle s (mid / 64) → s.ftl.hmbMem = [] → Serves (.controllerReset mid) s [.hqe, .ports, .graft, .rings, .regs, .pwr, .resp] fun u =>
            ctrlOf u mid = { tsOff := k.tsOff, tsSet := k.tsSet, c2hGen := k.c2hGen + countOf (fun q => q.1 / 65536 = mid.val && q.2.st ≠ .active) s.hqe.sqs }
            ∧ u.hqe.sqs = s.hqe.sqs.filter (fun q => q.1 / 65536 ≠ mid.val) ∧ u.hqe.cqs = s.hqe.cqs.filter (fun q => q.1 / 65536 ≠ mid.val) ∧ (∀ m, m ≠ mid.val → ctrlOf u m = ctrlOf s m) ∧ u.hqe.ctxs = s.hqe.ctxs
            ∧ (portOf u (mid / 64)).pstate = (if (portOf s (mid / 64)).pstate = .contained ∧ (portOf s (mid / 64)).dlActive = true then .up else (portOf s (mid / 64)).pstate)))
      ∧ (∀ ams mps aqa asq acq, (k.en = true ∨ fnPresent s mid = false → Does (.controllerEnable mid ams mps aqa asq acq) s [] fun _ => True)
        ∧ (k.en = false → fnPresent s mid = true → Does (.controllerEnable mid ams mps aqa asq acq) s [.hqe] fun u =>
            ctrlOf u mid = { k with en := true, rdy := false, ams := ams, mps := mps, aqa := aqa &&& 0x0FFF0FFF, asq := asq / 4096 * 4096, acq := acq / 4096 * 4096, shn := 0, shst := 0 }
            ∧ sqOf u mid 0 = some { size := Word.fld aqa 11 0 + 1, base := asq / 4096 * 4096 }
            ∧ cqOf u mid 0 = some { size := Word.fld aqa 27 16 + 1, base := acq / 4096 * 4096 } ∧ ∀ m, m ≠ mid.val → ctrlOf u m = ctrlOf s m))
      ∧ (∀ ms, (k.en = false ∨ k.rdy = true ∨ s.dev.fault = true ∨ powerUpDone s = false → Serves (.controllerReady mid ms) s [] fun _ => True)
        ∧ (k.en = true → k.rdy = false → s.dev.fault = false → powerUpDone s = true →
          Serves (.controllerReady mid ms) s anyParts (fun u => ctrlOf u mid = { k with rdy := true } ∧ u.dev.ready = true ∧ (∀ m, m ≠ mid.val → ctrlOf u m = ctrlOf s m)
            ∧ (s.ten.applied = false → s.dev.dormant = false → u.ten.applied = true ∧ u.ten.keySlots = s.ten.saved.keySlots ∧ ∀ id n, nsOf s id = some n →
                ∃ m, nsOf u id = some m ∧ m.owner = Tbl.getD s.ten.saved.nsOwner id 0 ∧ m.sharers = Tbl.getD s.ten.saved.nsShare id []))
          ∧ (s.ten.applied = true ∨ s.dev.dormant = true →
            (s.dev.ready = true → Serves (.controllerReady mid ms) s [.hqe] fun u => ctrlOf u mid = { k with rdy := true } ∧ ∀ m, m ≠ mid.val → ctrlOf u m = ctrlOf s m)
            ∧ (s.dev.ready = false → s.graft.trial = false → Serves (.controllerReady mid ms) s [.hqe, .dev, .regs] fun u => ctrlOf u mid = { k with rdy := true } ∧ u.dev = { s.dev with ready := true }
                ∧ rd u 0x00 0x11C = w32 (min ms 65535) ∧ RegsOnly [(0x00, 0x11C)] s u))))
      ∧ (∀ kind : Fin 3, (kind = 0 ∨ k.en = false → Serves (.shutdownNotification mid kind) s [] fun _ => True)
        ∧ (kind ≠ 0 → k.en = true → Serves (.shutdownNotification mid kind) s anyParts (fun u => ctrlOf u mid = { k with shn := kind, shst := 1 } ∧ ctlFetches u mid = false)
          ∧ (s.hqe.vwc = false → Serves (.shutdownNotification mid kind) s [.hqe] fun u => ctrlOf u mid = { k with shn := kind, shst := 1 } ∧ u.hqe.ctxs = s.hqe.ctxs)
          ∧ (s.hqe.vwc = true → s.cpc.rus = [] → Serves (.shutdownNotification mid kind) s [.hqe, .ftl, .cpc] fun u => ctrlOf u mid = { k with shn := kind, shst := 1 } ∧ ∀ p ∈ u.ftl.pwt, openWrite p = true → p.fua = true)))
      ∧ (k.shst ≠ 1 ∨ (∃ y ∈ s.hqe.ctxs, y.id.mid = mid.val ∧ y.admin = false) ∨ (s.hqe.vwc = true ∧ ∃ p ∈ s.ftl.pwt, openWrite p = true) → Does (.shutdownComplete mid) s [] fun _ => True)
      ∧ (k.shst = 1 → (∀ y ∈ s.hqe.ctxs, y.id.mid = mid.val → y.admin = true ∧ y.sqe.opc = 0x0C ∧ y.stage = .waiting) → s.hqe.vwc = false ∨ (∀ p ∈ s.ftl.pwt, openWrite p = false) →
          Does (.shutdownComplete mid) s [.hqe] fun u => ctrlOf u mid = { k with shst := 2 } ∧ (∀ m, m ≠ mid.val → ctrlOf u m = ctrlOf s m) ∧ u.hqe.ctxs = s.hqe.ctxs))
/-! ### Host commands: I/O -/

/-- WRITE_POWER_PROTECTED, FLUSH, WRITE, READ, WRITE_UNCORRECTABLE, COMPARE, WRITE_ZEROES, DATASET_MANAGEMENT, VERIFY, RESERVATION_REGISTER, RESERVATION_REPORT, RESERVATION_ACQUIRE,
RESERVATION_RELEASE, COPY and RECLAIM_UNIT_HANDLE_UPDATE (R99, R105, R108 to R114, R136, R142, R150, R177, R181, R182, R211, R215). -/
def Obligations.HostIo : Prop :=
  (∀ (s : State) (c : CmdId),
      (∀ p ∈ ([(0x02, .read), (0x05, .compare), (0x0C, .verify), (0x04, .writeUncorrectable), (0x08, .writeZeroes), (0x09, .datasetManagement), (0x0D, .reservationRegister), (0x11, .reservationAcquire),
          (0x15, .reservationRelease), (0x1D, .reclaimUnitHandleUpdate)] : List (Nat × (CmdId → Instr))), (∀ x n, ¬IoHere s c p.1 x n) → Serves (p.2 c) s [] fun _ => True)
      ∧ ((∀ x n, ¬IoHere s c 0x0E x n) → Does (.reservationReport c) s [] fun _ => True) ∧ ((∀ x, ¬CmdReady s c false 0x19 x) → Does (.copy c) s [] fun _ => True)
      ∧ ((∀ x, ¬CmdReady s c false 0x00 x) → Serves (.flush c) s [] fun _ => True)
      ∧ (ctxOf s c = none → Does (.write c) s [] (fun _ => True) ∧ Serves (.writePowerProtected c) s [] fun _ => True)
      ∧ (∀ x, ctxOf s c = some x → (isNvmWrite s x = false ∨ (x.stage ≠ .ready ∧ x.stage ≠ .dataIn) → Does (.write c) s [] fun _ => True)
        ∧ (nsOf s x.nsid = none ∨ x.stage ≠ .received ∨ s.pwr.pl = true ∨ earlierWrite s x = true → Serves (.writePowerProtected c) s [] fun _ => True)))
  ∧ (∀ (s : State) (c : CmdId) (x : Ctx) (n : Ns) (l : List Nat), ctxOf s c = some x → nsOf s x.nsid = some n → l = muRange n x.lba x.nlb →
      (fitsShare s x n = false → Serves (.writePowerProtected c) s [] fun _ => True)
      ∧ (x.stage = .received → s.pwr.pl = false → earlierWrite s x = false → fitsShare s x n = true →
        (pwtRoom s l.length = false → Serves (.writePowerProtected c) s [.regs] fun u => Word.bit (rd u 0x0E 0x18) 4 = true ∧ RegsOnly [(0x0E, 0x18)] s u)
        ∧ (pwtRoom s l.length = true →
          Serves (.writePowerProtected c) s anyParts (fun u => u.hqe.writeCmds = s.hqe.writeCmds + 1 ∧ u.hqe.unitsWritten = s.hqe.unitsWritten + x.nlb * lbaBytes n
            ∧ ∃ y, ctxOf u c = some y ∧ y.sqe = x.sqe ∧ if sqeFua x.sqe then y.stage = .waitClose else y.stage = .done ∧ y.status = some stOk)
          ∧ (n.lbaf = 0 → s.ftl.stood = [] → (∀ q ∈ s.ftl.pwt, q.wseq < x.wseq) → Serves (.writePowerProtected c) s [.hqe, .ftl, .cpc] fun u =>
            (if sqeFua x.sqe then ctxOf u c = some { x with stage := .waitClose, cover := l.map fun _ => x.wseq } ∧ ∀ d, d ≠ c → ctxOf u d = ctxOf s d else Ends s u c x stOk 0 0)
            ∧ (Tbl.getD u.cpc.eg n.owner {}).wr = (Tbl.getD s.cpc.eg n.owner {}).wr + x.nlb * 4096
            ∧ (∃ b, u.ftl.pwt = s.ftl.pwt ++ b ∧ b.map (fun p => (p.gmu, p.data)) = l.map (fun mu => (gmuOf n mu, (x.data.drop ((mu - x.lba) * 4096)).take 4096))
              ∧ ∀ p ∈ b, p.wseq = x.wseq ∧ p.cmd = x.id ∧ p.tenant = n.owner ∧ p.fua = sqeFua x.sqe ∧ p.mask = 255 ∧ p.held = mapWaits s c ∧ p.queued = !mapWaits s c)
            ∧ (∃ b, u.cpc.queue = s.cpc.queue ++ b ∧ b.map (·.src) = (if mapWaits s c then [] else l.map fun mu => .host (gmuOf n mu) x.wseq) ∧ ∀ it ∈ b, it.force = sqeFua x.sqe))
          ∧ (∀ mu, n.lbaf = 1 → l = [mu] → s.ftl.stood = [] → s.ftl.pwt = [] → mapWaits s c = false → x.data.length = 512 * x.nlb → Unmapped s (gmuOf n mu) → Serves (.writePowerProtected c) s [.hqe, .ftl, .cpc] fun u =>
            ∃ p, u.ftl.pwt = [p] ∧ p.gmu = gmuOf n mu ∧ p.wseq = x.wseq ∧ p.merged = true ∧ p.queued = true
              ∧ p.data = List.replicate (x.lba % 8 * 512) 0 ++ x.data ++ List.replicate ((8 - (x.lba % 8 + x.nlb)) * 512) 0 ∧ p.lost = 0 ∧ ∀ i, i < 8 → p.mask.testBit i = (decide (x.lba % 8 ≤ i) && decide (i < x.lba % 8 + x.nlb))))))
  ∧ (∀ (s : State) (c : CmdId) (x : Ctx) (l : List Nat), CmdReady s c false 0x00 x →
      l = (s.ftl.pwt.filter fun p => (x.nsid = 0xFFFFFFFF || p.nsid = x.nsid) && p.cmdSeq < x.wseq && !p.held && !p.dead && !p.closed
        && !(s.hqe.ctxs.any fun y => y.id = p.cmd && y.wseq = p.cmdSeq && y.stage ≠ .done)).map (·.wseq) →
      (s.hqe.vwc = false → Serves (.flush c) s [.hqe] fun u => Ends s u c x stOk 0 0)
      ∧ (s.hqe.vwc = true → Serves (.flush c) s anyParts (fun u => ctxOf u c = some { x with stage := .waitClose, cover := l })
        ∧ (s.cpc.rus = [] → Serves (.flush c) s [.hqe, .ftl, .cpc] fun u => ctxOf u c = some { x with stage := .waitClose, cover := l } ∧ (∀ d, d ≠ c → ctxOf u d = ctxOf s d)
          ∧ u.ftl.pwt = s.ftl.pwt.map (fun p => { p with fua := p.fua || l.contains p.wseq }) ∧ u.cpc.queue.map (·.src) = s.cpc.queue.map (·.src))))
  ∧ (∀ (s : State) (c : CmdId) (x : Ctx) (n : Ns) (w : List (Nat × Nat × Nat)) (t : State), IoReady s c 0x01 x n → w = cutFrags (128 * 2 ^ (fnOf s c.mid).mrrs) 0 x.frags →
      t = askBufs (ctxUpd s c fun y => { y with want := w, got := [] }) x x.xlen →
      Does (.write c) s anyParts (fun u => ∃ y, ctxOf u c = some y ∧ y.sqe = x.sqe ∧ (y.stage = .waitBuf ∨ y.stage = .dataIn ∨ (y.stage = .done ∧ y.status = some stAccessDenied)))
      ∧ (∀ k, 0 < x.xlen → x.xlen ≤ 262144 → classFor s x.xlen = some k → (bpmTry s (ownerOf s x.tenant) k false).1 = none → (bpmTry s (ownerOf s x.tenant) k false).2 = s → Does (.write c) s [.hqe, .bpm] fun u =>
          ctxOf u c = some { x with stage := .waitBuf, need := 1, bufs := [], want := w, got := [] } ∧ u.bpm = { s.bpm with waiters := s.bpm.waiters ++ [⟨ownerOf s x.tenant, k, false, .cmd c⟩] })
      ∧ (∀ y, ctxOf t c = some y → y.stage = .dataIn →
        ((bufsMay t c).1 = false → Does (.write c) s anyParts fun u => Done u c stAccessDenied)
        ∧ (bufsMay t c = (true, t) →
          (hostOpen s c.mid = false → Does (.write c) s [.hqe, .bpm, .regs, .freeCtr, .dmc, .mem] fun u => ctxOf u c = some y ∧ y.bufs ≠ [] ∧ y.want = w)
          ∧ (∀ a b k, w = [(a, b, k)] → hostOpen s c.mid = true → npOut s (c.mid / 64) < 4096 → Does (.write c) s [.hqe, .bpm, .regs, .freeCtr, .dmc, .mem, .ports] fun u => ctxOf u c = some { y with want := [] }
              ∧ ∃ m, (portOf u (c.mid / 64)).np = (portOf s (c.mid / 64)).np ++ [m] ∧ m.mid = c.mid ∧ m.purpose = .data c a b k ∧ m.discard = false))))
  ∧ (∀ (s : State) (c : CmdId) (x : Ctx), ctxOf s c = some x → isNvmWrite s x = true → x.stage = .dataIn →
      ((bufsMay s c).1 = false → Does (.write c) s anyParts fun u => Done u c stAccessDenied)
      ∧ (bufsMay s c = (true, s) → Does (.write c) s [.hqe, .ports] fun u => ∃ a b m, x.want = a ++ b ∧ ctxOf u c = some { x with want := b } ∧ (portOf u (c.mid / 64)).np = (portOf s (c.mid / 64)).np ++ m
          ∧ m.map (·.purpose) = a.map (fun k => .data c k.1 k.2.1 k.2.2) ∧ (b = [] ∨ hostOpen s c.mid = false ∨ 4096 ≤ npOut u (c.mid / 64))))
  ∧ (∀ (s : State) (c : CmdId) (x : Ctx) (n : Ns) (p : Nat × (CmdId → Instr)), p ∈ ([(0x02, .read), (0x05, .compare), (0x0C, .verify)] : List (Nat × (CmdId → Instr))) → IoHere s c p.1 x n →
      (readWaits s x = true → Serves (p.2 c) s [] fun _ => True)
      ∧ (readWaits s x = false →
        Serves (p.2 c) s anyParts (fun u => ∃ y, ctxOf u c = some y ∧ y.sqe = x.sqe ∧ (y.stage = .waitBuf ∨ y.stage = .waitClose ∨ y.stage = .reading ∨ y.stage = .done))
        ∧ (∀ k, x.bufs = [] → (p.1 = 0x02 → shareWith s x n = none) → 0 < x.nlb * lbaBytes n → x.nlb * lbaBytes n ≤ 262144 → classFor s (x.nlb * lbaBytes n) = some k →
          (bpmTry s (ownerOf s x.tenant) k false).1 = none → (bpmTry s (ownerOf s x.tenant) k false).2 = s → Serves (p.2 c) s [.hqe, .bpm] fun u =>
            ctxOf u c = some { x with stage := .waitBuf, need := 1, bufs := [] } ∧ u.bpm = { s.bpm with waiters := s.bpm.waiters ++ [⟨ownerOf s x.tenant, k, false, .cmd c⟩] })
        ∧ (∀ y t, p.1 = 0x02 → x.bufs = [] → shareWith s x n = some y → takeShares s x.tenant y.bufs = some t → Serves (p.2 c) s [.hqe, .bpm] fun u => u.bpm = t.bpm
            ∧ ctxOf u c = some { x with stage := .reading, bufs := y.bufs, leader := some y.id, mus := (readMus n x).map fun m => { m with st := .page } } ∧ ∀ d, d ≠ c → ctxOf u d = ctxOf s d)
        ∧ (x.bufs ≠ [] → (bufsMay s c).1 = false → Serves (p.2 c) s anyParts fun u => Done u c stAccessDenied)
        ∧ (∀ mu, x.bufs ≠ [] → bufsMay s c = (true, s) → muRange n x.lba x.nlb = [mu] → (∀ y ∈ s.hqe.ctxs, y.leader ≠ some c) →
          (s.ftl.pwt = [] → Unmapped s (gmuOf n mu) → Serves (p.2 c) s [.hqe, .cpc] fun u => ReadEnds s u c x n (List.replicate (x.nlb * lbaBytes n) 0))
          ∧ (s.ftl.pwt = [] → Holds s (gmuOf n mu) 0 → Serves (p.2 c) s [.hqe, .cpc, .ftl, .regs] fun u => ReadEnds s u c x n (List.replicate (x.nlb * lbaBytes n) 0))
          ∧ (s.ftl.pwt = [] → Holds s (gmuOf n mu) entUncorr → Serves (p.2 c) s anyParts fun u => Done u c stUnrecRead ∧ u.hqe.mediaErrors = s.hqe.mediaErrors + 1)
          ∧ (s.ftl.pwt = [] → gmuOf n mu / 2048 ∈ s.ftl.rebuilding → Serves (p.2 c) s anyParts fun u => Done u c stUnrecRead)
          ∧ (∀ a, s.ftl.pwt = [] → a < 2 ^ 38 → Holds s (gmuOf n mu) (entMapped a) → entMalformed s (entMapped a) = false → dieUsable s (puaDie a) = true → (∀ b ∈ s.ldc.bg, b.pua ≠ a) → Serves (p.2 c) s anyParts fun u =>
              ∃ w ∈ u.ldc.cws, w.pua = a ∧ w.purpose = .cmd c (gmuOf n mu) ∧ w.cls = flashCls x.cls)
          ∧ (∀ q, s.ftl.pwt = [q] → q.gmu = gmuOf n mu → q.dead = false → q.held = false → q.merged = true →
            (p.1 = 0x02 → q.closed = false → sqeFua x.sqe = true → s.hqe.vwc = true → Serves (p.2 c) s [.hqe] fun u => ctxOf u c = some { x with stage := .waitClose, cover := [q.wseq], mus := [{ gmu := gmuOf n mu }] })
            ∧ (p.1 ≠ 0x02 ∨ q.closed = true ∨ sqeFua x.sqe = false ∨ s.hqe.vwc = false → n.lbaf = 0 ∨ q.lost = 0 → Serves (p.2 c) s [.hqe, .cpc] fun u =>
                ReadEnds s u c x n ((q.data.drop (x.lba % nsK n * lbaBytes n)).take (x.nlb * lbaBytes n)))))))
  ∧ (∀ (s : State) (c : CmdId) (x : Ctx) (n : Ns),
      (IoHere s c 0x04 x n →
        (deallocWaits s c x = true → Serves (.writeUncorrectable c) s [] fun _ => True)
        ∧ (deallocWaits s c x = false → pwtRoom s (partMus n x.lba x.nlb) = false → Serves (.writeUncorrectable c) s [.regs] fun u => Word.bit (rd u 0x0E 0x18) 4 = true)
        ∧ (deallocWaits s c x = false → pwtRoom s (partMus n x.lba x.nlb) = true → Serves (.writeUncorrectable c) s anyParts fun u => Done u c stOk))
      ∧ (IoHere s c 0x08 x n → Word.bit x.sqe.cdw12 25 = true →
        (deallocWaits s c x = true → Serves (.writeZeroes c) s [] fun _ => True)
        ∧ (deallocWaits s c x = false → pwtRoom s (partMus n x.lba x.nlb) = false → Serves (.writeZeroes c) s [.regs] fun u => Word.bit (rd u 0x0E 0x18) 4 = true)
        ∧ (deallocWaits s c x = false → pwtRoom s (partMus n x.lba x.nlb) = true → Serves (.writeZeroes c) s anyParts fun u => Done u c stOk))
      ∧ (IoHere s c 0x08 x n → Word.bit x.sqe.cdw12 25 = false →
        (mapWaits s c = true ∨ earlierWrite s x = true ∨ fitsShare s x n = false → Serves (.writeZeroes c) s [] fun _ => True)
        ∧ (mapWaits s c = false → earlierWrite s x = false → fitsShare s x n = true →
          (pwtRoom s (muRange n x.lba x.nlb).length = false → Serves (.writeZeroes c) s [.regs] fun u => Word.bit (rd u 0x0E 0x18) 4 = true)
          ∧ (pwtRoom s (muRange n x.lba x.nlb).length = true → Serves (.writeZeroes c) s anyParts (fun u => ∃ y, ctxOf u c = some y ∧ if sqeFua x.sqe then y.stage = .waitClose else y.stage = .done ∧ y.status = some stOk)
            ∧ (n.lbaf = 0 → x.nlb = 1 → s.ftl.stood = [] → s.ftl.pwt = [] → Serves (.writeZeroes c) s [.hqe, .ftl, .cpc] fun u =>
              (if sqeFua x.sqe then ctxOf u c = some { x with stage := .waitClose, cover := [x.wseq] } else Ends s u c x stOk 0 0)
              ∧ ∃ p, u.ftl.pwt = [p] ∧ p.gmu = gmuOf n x.lba ∧ p.wseq = x.wseq ∧ p.data = List.replicate 4096 0 ∧ p.queued = true))))
      ∧ (IoHere s c 0x09 x n → ∀ l, l = dsmRanges x.data (Word.fld x.sqe.cdw10 7 0 + 1) →
        ((∃ r ∈ l, n.lbas < r.1 + r.2) → Serves (.datasetManagement c) s [.hqe] fun u => Ends s u c x stLbaRange 0 0)
        ∧ ((∀ r ∈ l, r.1 + r.2 ≤ n.lbas) →
          (Word.bit x.sqe.cdw11 2 = false → Serves (.datasetManagement c) s [.hqe] fun u => Ends s u c x stOk 0 0)
          ∧ (Word.bit x.sqe.cdw11 2 = true → deallocWaits s c x = true → Serves (.datasetManagement c) s [] fun _ => True)
          ∧ (Word.bit x.sqe.cdw11 2 = true → deallocWaits s c x = false → pwtRoom s (sumOf (fun r => partMus n r.1 r.2) l) = false → Serves (.datasetManagement c) s [.regs] fun u => Word.bit (rd u 0x0E 0x18) 4 = true)
          ∧ (Word.bit x.sqe.cdw11 2 = true → deallocWaits s c x = false → pwtRoom s (sumOf (fun r => partMus n r.1 r.2) l) = true → Serves (.datasetManagement c) s anyParts fun u => Done u c stOk))))
  ∧ (∀ (s : State) (c : CmdId) (x : Ctx) (n : Ns) (i : Nat) (f : Frame), n.lbaf = 0 → x.nlb = 1 → LeafHere s (gmuOf n x.lba) i f → deallocWaits s c x = false →
      (IoReady s c 0x04 x n → Serves (.writeUncorrectable c) s [.hqe, .ftl, .regs] fun u => Ends s u c x stOk 0 0 ∧ LeafChanged s u (gmuOf n x.lba) i f .uncorr entUncorr)
      ∧ (IoReady s c 0x08 x n → Word.bit x.sqe.cdw12 25 = true → Serves (.writeZeroes c) s [.hqe, .ftl, .regs] fun u => Ends s u c x stOk 0 0 ∧ LeafChanged s u (gmuOf n x.lba) i f .trim 0)
      ∧ (IoReady s c 0x09 x n → dsmRanges x.data (Word.fld x.sqe.cdw10 7 0 + 1) = [(x.lba, 1)] → x.lba < n.lbas → Word.bit x.sqe.cdw11 2 = true → Serves (.datasetManagement c) s [.hqe, .ftl, .regs] fun u =>
            Ends s u c x stOk 0 0 ∧ LeafChanged s u (gmuOf n x.lba) i f .trim 0))
  ∧ (∀ (s : State) (c : CmdId) (x : Ctx) (n : Ns) (host key new : Nat), host = (ctrlOf s c.mid).hostId → key = leNat (x.data.take 8) → new = leNat ((x.data.drop 8).take 8) →
      (IoHere s c 0x0D x n → ∀ p, p = (if Word.fld x.sqe.cdw10 31 30 = 2 then false else if Word.fld x.sqe.cdw10 31 30 = 3 then true else n.ptpl) →
        (∀ m, resvRegister n host c.mid x.sqe x.data = .ok m → Serves (.reservationRegister c) s [.hqe, .ten, .ftl, .regs] fun u => ResvIs s u c x m ∧ m.ptpl = p)
        ∧ (∀ st, resvRegister n host c.mid x.sqe x.data = .error st → Serves (.reservationRegister c) s [.hqe] fun u => Ends s u c x st 0 0)
        ∧ (Word.fld x.sqe.cdw10 2 0 = 0 →
          (regOf n host = none → Serves (.reservationRegister c) s [.hqe, .ten, .ftl, .regs] fun u => ResvIs s u c x { n with ptpl := p, regs := n.regs ++ [⟨host, c.mid, new⟩], rgen := n.rgen + 1 })
          ∧ (∀ r, regOf n host = some r → (r.key ≠ new → Serves (.reservationRegister c) s [.hqe] fun u => Ends s u c x stResvConflict 0 0)
            ∧ (r.key = new → Serves (.reservationRegister c) s [.hqe, .ten, .ftl, .regs] fun u => ResvIs s u c x { n with ptpl := p })))
        ∧ (∀ r, Word.fld x.sqe.cdw10 2 0 = 1 → regOf n host = some r →
          (r.key = key ∨ Word.bit x.sqe.cdw10 3 = true → Serves (.reservationRegister c) s [.hqe, .ten, .ftl, .regs] fun u => ∃ m, ResvIs s u c x m ∧ m.regs = n.regs.filter (fun y => y.hostId ≠ host)
            ∧ m.rgen = n.rgen + 1 ∧ (n.rtype < 5 → n.holder = some host → m.rtype = 0 ∧ m.holder = none) ∧ (n.rtype < 5 → n.holder ≠ some host → m.rtype = n.rtype ∨ m.rtype = 0))
          ∧ (r.key ≠ key → Word.bit x.sqe.cdw10 3 = false → Serves (.reservationRegister c) s [.hqe] fun u => Ends s u c x stResvConflict 0 0))
        ∧ (∀ r, Word.fld x.sqe.cdw10 2 0 = 2 → regOf n host = some r → r.key = key ∨ Word.bit x.sqe.cdw10 3 = true → Serves (.reservationRegister c) s [.hqe, .ten, .ftl, .regs] fun u =>
            ResvIs s u c x { n with ptpl := p, regs := n.regs.map fun r => if r.hostId = host then { r with key := new } else r, rgen := n.rgen + 1 }))
      ∧ (IoHere s c 0x11 x n →
        (∀ m g, resvAcquire n host x.sqe x.data = .ok (m, g) →
          Serves (.reservationAcquire c) s anyParts (fun u => nsOf u x.nsid = some m ∧ ∃ y, ctxOf u c = some y ∧ (y.stage = .done ∨ y.stage = .waitClose))
          ∧ (Word.fld x.sqe.cdw10 2 0 ≠ 2 → Serves (.reservationAcquire c) s [.hqe, .ten, .ftl, .regs] fun u => ResvIs s u c x m))
        ∧ (∀ st, resvAcquire n host x.sqe x.data = .error st → Serves (.reservationAcquire c) s [.hqe] fun u => Ends s u c x st 0 0)
        ∧ (∀ t, Word.fld x.sqe.cdw10 2 0 = 0 → t = Word.fld x.sqe.cdw10 15 8 → 1 ≤ t → t ≤ 6 →
          (regOf n host = none → Serves (.reservationAcquire c) s [.hqe] fun u => Ends s u c x stResvConflict 0 0)
          ∧ (∀ r, regOf n host = some r → r.key = key ∨ Word.bit x.sqe.cdw10 3 = true → (n.rtype = 0 → Serves (.reservationAcquire c) s [.hqe, .ten, .ftl, .regs] fun u =>
                ResvIs s u c x { n with rtype := t, holder := if 5 ≤ t then none else some host })
            ∧ (n.rtype ≠ 0 → resvHolds n host = false → Serves (.reservationAcquire c) s [.hqe] fun u => Ends s u c x stResvConflict 0 0))))
      ∧ (IoHere s c 0x15 x n →
        (∀ m, resvRelease n host x.sqe x.data = .ok m → Serves (.reservationRelease c) s [.hqe, .ten, .ftl, .regs] fun u => ResvIs s u c x m)
        ∧ (∀ st, resvRelease n host x.sqe x.data = .error st → Serves (.reservationRelease c) s [.hqe] fun u => Ends s u c x st 0 0)
        ∧ (∀ r, regOf n host = some r → r.key = key →
          (Word.fld x.sqe.cdw10 2 0 = 0 → n.rtype ≠ 0 → resvHolds n host = true → (n.rtype = Word.fld x.sqe.cdw10 15 8 → Serves (.reservationRelease c) s [.hqe, .ten, .ftl, .regs] fun u =>
              ResvIs s u c x { n with rtype := 0, holder := none })
            ∧ (n.rtype ≠ Word.fld x.sqe.cdw10 15 8 → Serves (.reservationRelease c) s [.hqe] fun u => Ends s u c x stInvalidField 0 0))
          ∧ (Word.fld x.sqe.cdw10 2 0 = 1 → Serves (.reservationRelease c) s [.hqe, .ten, .ftl, .regs] fun u => ResvIs s u c x { n with regs := [], rtype := 0, holder := none, rgen := n.rgen + 1 })))
      ∧ (IoHere s c 0x0E x n → Does (.reservationReport c) s [.hqe] fun u => ∃ y, ctxOf u c = some y ∧ y.stage = .done ∧ y.status = some stOk ∧ y.moved = true ∧ y.data.length = (x.sqe.cdw10.toNat + 1) * 4
          ∧ y.data.take 4 = (leBytes 4 n.rgen).take ((x.sqe.cdw10.toNat + 1) * 4) ∧ (8 ≤ y.data.length → (y.data.drop 4).take 3 = leBytes 1 n.rtype ++ leBytes 2 n.regs.length))
      ∧ (CmdReady s c false 0x19 x → Does (.copy c) s [.hqe] fun u => Ends s u c x stInvalidOpcode 0 0)
      ∧ (IoHere s c 0x1D x n → ∀ l, l = (List.range (Word.fld x.sqe.cdw10 31 16 + 1)).map (fun i => leNat ((x.data.drop (2 * i)).take 2)) →
        (Word.fld x.sqe.cdw10 7 0 ≠ 1 → Serves (.reclaimUnitHandleUpdate c) s [.hqe] fun u => Ends s u c x stOk 0 0)
        ∧ (Word.fld x.sqe.cdw10 7 0 = 1 → Tbl.getD s.ten.fdp n.owner false = false → Serves (.reclaimUnitHandleUpdate c) s [.hqe] fun u => Ends s u c x ⟨0, 0x29⟩ 0 0)
        ∧ (Word.fld x.sqe.cdw10 7 0 = 1 → Tbl.getD s.ten.fdp n.owner false = true →
          ((∃ d ∈ l, 8 ≤ d % 1024 ∨ Tbl.find s.cpc.dsets (d / 1024) = none) → Serves (.reclaimUnitHandleUpdate c) s [.hqe] fun u => Ends s u c x stInvalidField 0 0)
          ∧ ((∀ d ∈ l, d % 1024 < 8 ∧ (Tbl.find s.cpc.dsets (d / 1024)).isSome = true) → Serves (.reclaimUnitHandleUpdate c) s anyParts (fun u => Done u c stOk)
            ∧ ((∀ d ∈ l, Tbl.find s.cpc.opens (openKey n.owner (d % 1024) (d / 1024)) = none) → Serves (.reclaimUnitHandleUpdate c) s [.hqe] fun u => Ends s u c x stOk 0 0)
            ∧ (∀ d j, l = [d] → Tbl.find s.cpc.opens (openKey n.owner (d % 1024) (d / 1024)) = some j → (ruAt s j).st = .opened → Serves (.reclaimUnitHandleUpdate c) s anyParts fun u =>
                (ruAt u j).closing = true ∨ (ruAt u j).st = .closed)))))
/-! ### Host commands: Identify, log pages, features -/

/-- IDENTIFY, GET_LOG_PAGE_C0H, GET_LOG_PAGE_C2H, GET_LOG_PAGE_C3H, GET_LOG_PAGE_C4H, GET_LOG_PAGE_C5H, GET_LOG_PAGE_SMART, GET_LOG_PAGE_FW_SLOT and the Set and Get Features rows (R87, R88,
R100, R113, R120, R121, R123, R173, R215, R234, R235, R288, R300, R342, R464, R468, R474, R539, R562, R563, R617). -/
def Obligations.HostAdmin : Prop :=
  (∀ (s : State) (c : CmdId) (p : Nat × (CmdId → Instr)),
      ((∀ x, ¬CmdReady s c true 0x06 x) → Does (.identify c) s [] fun _ => True)
      ∧ (p ∈ ([(0xC0, .getLogPageC0h), (0xC2, .getLogPageC2h), (0xC3, .getLogPageC3h), (0xC4, .getLogPageC4h), (0xC5, .getLogPageC5h), (0x02, .getLogPageSmart), (0x03, .getLogPageFwSlot)] : List (Nat × (CmdId → Instr))) →
        (∀ x, CmdReady s c true 0x02 x → Word.fld x.sqe.cdw10 7 0 ≠ p.1) → Does (p.2 c) s [] fun _ => True)
      ∧ (p ∈ ([(0x07, .setFeaturesNumberOfQueues), (0x01, .setFeaturesArbitration), (0xC1, .setFeaturesOrderedQueue), (0xC2, .setFeaturesUrgentBudget), (0xC4, .setFeaturesPortWeights), (0x02, .setFeaturesPowerManagement),
          (0x1D, .setFeaturesFdp), (0x04, .setFeaturesTempThreshold), (0x0E, .setFeaturesTimestamp), (0x05, .setFeaturesErrorRecovery)] : List (Nat × (CmdId → Instr))) → (∀ x, ¬FeatReady s c 0x09 p.1 x) → Does (p.2 c) s [] fun _ => True)
      ∧ (p ∈ ([(0xC1, .getFeaturesOrderedQueue), (0xC2, .getFeaturesUrgentBudget), (0xC4, .getFeaturesPortWeights), (0x05, .getFeaturesErrorRecovery)] : List (Nat × (CmdId → Instr))) →
        (∀ x, ¬FeatReady s c 0x0A p.1 x) → Does (p.2 c) s [] fun _ => True)
      ∧ (∀ sizes, (∀ x, ¬FeatReady s c 0x09 0x0D x) → Serves (.setFeaturesHostMemoryBuffer c sizes) s [] fun _ => True))
  ∧ (∀ (s : State) (c : CmdId) (x : Ctx) (k : Nat), CmdReady s c true 0x06 x → k = Word.fld x.sqe.cdw10 7 0 →
      (∀ n, k = 0x00 → nsOf s x.sqe.nsid = some n → Does (.identify c) s [.hqe] fun u => Gives s u c x (if c.mid ∈ n.attached then identifyNs s n else List.replicate 4096 0))
      ∧ (k = 0x00 → nsOf s x.sqe.nsid = none →
        (x.sqe.nsid = 0xFFFFFFFF → Does (.identify c) s [.hqe] fun u => Gives s u c x (identifyNs s {}))
        ∧ (x.sqe.nsid ≠ 0xFFFFFFFF → x.sqe.nsid = 0 ∨ 4096 < x.sqe.nsid → Does (.identify c) s [.hqe] fun u => Ends s u c x stInvalidNs 0 0)
        ∧ (x.sqe.nsid ≠ 0 → x.sqe.nsid ≤ 4096 → Does (.identify c) s [.hqe] fun u => Gives s u c x (List.replicate 4096 0)))
      ∧ (k = 0x01 → Does (.identify c) s [.hqe, .freeCtr] fun u => ∃ d, Gives s u c x d ∧ d.length = 4096 ∧ d.take 4 = leBytes 2 0x1F3D ++ leBytes 2 (Word.fld s.ten.saved.subsys 15 0) ∧ (d.drop 64).take 8 = slotRevision s s.graft.running ∧ (d.drop 78).take 2 = leBytes 2 c.mid
          ∧ (d.drop 525).take 1 = leBytes 1 (s.hqe.vwc.toNat + 6) ∧ (d.drop 516).take 4 = leBytes 4 (if s.dev.dormant then 0 else 4096))
      ∧ (∀ l : List Nat, k = 0x02 ∨ k = 0x10 → l = (s.ten.nss.filter fun n => x.sqe.nsid < n.1 && (k = 0x10 || n.2.attached.contains c.mid)).map (·.1) →
        Does (.identify c) s [.hqe] fun u => ∃ d, Gives s u c x d ∧ d.length = 4096 ∧ ∀ i, i < 1024 → (d.drop (4 * i)).take 4 = leBytes 4 (l.getD i 0))
      ∧ (∀ n, k = 0x11 → nsOf s x.sqe.nsid = some n → Does (.identify c) s [.hqe] fun u => Gives s u c x (identifyNs s n))
      ∧ (∀ l : List Nat, (∃ n, k = 0x12 ∧ nsOf s x.sqe.nsid = some n ∧ l = n.attached.filter (Word.fld x.sqe.cdw10 31 16 ≤ ·)) ∨ (k = 0x13 ∧ l = (List.range 512).filter fun m => fnPresent s m && Word.fld x.sqe.cdw10 31 16 ≤ m) →
        Does (.identify c) s [.hqe] fun u => ∃ d, Gives s u c x d ∧ d.length = 4096 ∧ ∀ i, i < 2048 → (d.drop (2 * i)).take 2 = leBytes 2 ((l.length :: l).getD i 0))
      ∧ (k = 0x11 ∨ k = 0x12 → nsOf s x.sqe.nsid = none → Does (.identify c) s [.hqe] fun u => Ends s u c x stInvalidNs 0 0)
      ∧ (k ∉ [0x00, 0x01, 0x02, 0x10, 0x11, 0x12, 0x13] → Does (.identify c) s [.hqe] fun u => Ends s u c x stInvalidField 0 0))
  ∧ (∀ (s : State) (c : CmdId) (x : Ctx) (p : Nat × (CmdId → Instr) × List Byte) (o n : Nat), CmdReady s c true 0x02 x → Word.fld x.sqe.cdw10 7 0 = p.1 → o = cdw64 x.sqe.cdw12 x.sqe.cdw13 → n = numd x.sqe →
      p ∈ [(0xC0, .getLogPageC0h, logC0 s), (0xC2, .getLogPageC2h, logC2 s c.mid), (0xC4, .getLogPageC4h, logC4 s), (0xC5, .getLogPageC5h, logC5 s (fnTenant s c.mid)), (0x03, .getLogPageFwSlot, logFwSlot s)] →
      (p.2.2.length < o ∨ o % 4 ≠ 0 → Does (p.2.1 c) s [.hqe] fun u => Ends s u c x stInvalidField 0 0)
      ∧ (o ≤ p.2.2.length → o % 4 = 0 → Does (p.2.1 c) s [.hqe] fun u => ∃ d, Gives s u c x d ∧ d.length = n ∧ ∀ i, i < n → d.getD i 0 = p.2.2.getD (o + i) 0))
  ∧ (∀ (s : State) (t mid : Nat), (logC0 s).length = 512 ∧ (logC4 s).length = 512 ∧ (logC5 s t).length = 512 ∧ (logFwSlot s).length = 512
      ∧ (logC0 s).take 4 = leBytes 2 1 ++ leBytes 1 (devState s) ++ leBytes 1 s.cpc.readOnly ∧ ((logC0 s).drop 56).take 48 = leBytes 8 s.cpc.hostMus ++ leBytes 8 s.cpc.cwProg ++ leBytes 8 s.cpc.relocMus
        ++ leBytes 8 s.cpc.padSlots ++ leBytes 8 s.cpc.refreshed ++ leBytes 8 s.cpc.flushMus
      ∧ (logC2 s mid).take 12 = leBytes 8 (ctrlOf s mid).c2hGen ++ leBytes 4 (countOf (fun q => q.2.st ≠ .active) (sqsOf s mid))
      ∧ (∀ i q, ((sqsOf s mid).filter fun q => q.2.st ≠ .active)[i]? = some q → ((logC2 s mid).drop (32 + 32 * i)).take 6 = leBytes 2 q.1 ++ leBytes 1 (if q.2.st = .frozen then 2 else 1) ++ leBytes 1 q.2.reason ++ leBytes 2 q.2.latch)
      ∧ ((logC4 s).drop 4).take 6 = leBytes 4 s.pwr.c ++ leBytes 2 s.pwr.esr ∧ ((logC4 s).drop 24).take 8 = leBytes 4 (wbShare s) ++ leBytes 4 (winShare s)
      ∧ ((logC5 s t).drop 2).take 1 = leBytes 1 s.win.state ∧ (t ≠ 0 → ((logC5 s t).drop 4).take 60 = List.replicate 60 0) ∧ ((logC5 s t).drop 64).take 2 = leBytes 2 t
      ∧ ((logC5 s t).drop 76).take 4 = leBytes 4 (tenDirty s t) ∧ (logFwSlot s).take 1 = leBytes 1 (s.graft.running + 1 + nextSlot s * 16))
  ∧ (∀ (s : State) (c : CmdId) (x : Ctx) (o n : Nat), CmdReady s c true 0x02 x → Word.fld x.sqe.cdw10 7 0 = 0x02 → o = cdw64 x.sqe.cdw12 x.sqe.cdw13 → n = numd x.sqe →
      (512 < o ∨ o % 4 ≠ 0 → Does (.getLogPageSmart c) s [.hqe, .freeCtr] fun u => Ends s u c x stInvalidField 0 0)
      ∧ (o ≤ 512 → o % 4 = 0 → Does (.getLogPageSmart c) s [.hqe, .freeCtr] fun u => ∃ f d, f.length = 32 ∧ Gives s u c x d ∧ d.length = n ∧ ∀ i, i < n → d.getD i 0 = (logSmart s c.mid f).getD (o + i) 0))
  ∧ (∀ (s : State) (mid : Nat) (f d : List Byte), f.length = 32 → d = logSmart s mid f → d.length = 512
      ∧ d.take 6 = leBytes 1 (critWarn s (ctrlOf s mid)) ++ leBytes 2 ((temps s).getD 0 0) ++ leBytes 1 (availSpare s) ++ leBytes 1 (rdF s 0x0F 0x148 15 8) ++ leBytes 1 (pctUsed s)
      ∧ (d.drop 32).take 64 = leBytes 16 (ceilDiv s.hqe.unitsRead 512000) ++ leBytes 16 (ceilDiv s.hqe.unitsWritten 512000) ++ leBytes 16 s.hqe.readCmds ++ leBytes 16 s.hqe.writeCmds
      ∧ (d.drop 112).take 32 = leBytes 16 s.aon.pwrcyc ++ leBytes 16 (s.dev.opsec / 3600) ∧ (d.drop 160).take 48 = leBytes 16 s.hqe.mediaErrors ++ leBytes 16 s.hqe.errLog.length
        ++ leBytes 4 s.dev.warnMin ++ leBytes 4 s.dev.critMin ++ leBytes 2 ((temps s).getD 1 0) ++ leBytes 2 ((temps s).getD 2 0) ++ leBytes 2 ((temps s).getD 3 0) ++ leBytes 2 0)
  ∧ (∀ (s : State) (c : CmdId) (x : Ctx) (o n first past : Nat), CmdReady s c true 0x02 x → Word.fld x.sqe.cdw10 7 0 = 0xC3 → o = cdw64 x.sqe.cdw12 x.sqe.cdw13 → n = numd x.sqe →
      (first, past) = (if Word.bit x.sqe.cdw10 8 then ringsSpan s else (Tbl.find s.rings.snaps c.mid).getD (ringsSpan s)) →
      (fnTenant s c.mid ≠ 0 → Does (.getLogPageC3h c) s [.hqe] fun u => Ends s u c x ⟨1, 0x09⟩ 0 0)
      ∧ (fnTenant s c.mid = 0 → Word.bit x.sqe.cdw10 8 = true → o ≠ 0 → Does (.getLogPageC3h c) s [.hqe] fun u => Ends s u c x stInvalidField 0 0)
      ∧ (fnTenant s c.mid = 0 → Word.bit x.sqe.cdw10 8 = false ∨ o = 0 → Does (.getLogPageC3h c) s [.hqe, .rings] fun u =>
          Tbl.find u.rings.snaps c.mid = some (first, past) ∧ u.rings = { s.rings with snaps := u.rings.snaps } ∧ (∀ m, m ≠ c.mid → Tbl.find u.rings.snaps m = Tbl.find s.rings.snaps m)
          ∧ if 64 < o + n ∧ first + (max o 64 - 64) / 64 < min past (ringsSpan s).1 then Ends s u c x ⟨7, 0xC2⟩ 0 0
            else ∃ d, Gives s u c x d ∧ d.length = n ∧ ∀ i, i < n → d.getD i 0 = if o + i < 64 then (ringsHeader s first past).getD (o + i) 0
              else if first + (o + i - 64) / 64 < past then (recAt s (first + (o + i - 64) / 64)).getD ((o + i - 64) % 64) 0 else 0))
  ∧ (∀ (s : State) (c : CmdId) (x : Ctx) (p : Nat × (CmdId → Instr)), FeatReady s c 0x09 p.1 x → Word.bit x.sqe.cdw10 31 = true →
      p ∈ ([(0x07, .setFeaturesNumberOfQueues), (0x01, .setFeaturesArbitration), (0xC1, .setFeaturesOrderedQueue), (0xC2, .setFeaturesUrgentBudget), (0xC4, .setFeaturesPortWeights), (0x02, .setFeaturesPowerManagement),
        (0x1D, .setFeaturesFdp), (0x04, .setFeaturesTempThreshold), (0x0E, .setFeaturesTimestamp)] : List (Nat × (CmdId → Instr))) → Does (p.2 c) s [.hqe] fun u => Ends s u c x ⟨1, 0x0D⟩ 0 0)
  ∧ (∀ (s : State) (c : CmdId) (x : Ctx) (k : Ctrl), ctrlOf s c.mid = k →
      (SetReady s c 0x07 x → Does (.setFeaturesNumberOfQueues c) s [.hqe] fun u => Ends s u c x stOk ((allotOf s c.mid - 1) * 65537) 0)
      ∧ (SetReady s c 0x01 x → Does (.setFeaturesArbitration c) s [.hqe] fun u => CtrlIs s u c x { k with arb := x.sqe.cdw11 &&& 0xFFFFFF07 })
      ∧ (∀ ms, SetReady s c 0x02 x →
        (4 < Word.fld x.sqe.cdw11 4 0 → Does (.setFeaturesPowerManagement c) s [.hqe] fun u => Ends s u c x stInvalidField 0 0)
        ∧ (Word.fld x.sqe.cdw11 4 0 = ms → ms ≤ 4 → Does (.setFeaturesPowerManagement c) s [.hqe, .pwr, .regs] fun u => CtrlIs s u c x { k with psReq := ms, psLast := if ms < 3 then ms else k.psLast }
            ∧ u.pwr = { s.pwr with psEff := psEffNow u } ∧ RegsOnly [(0x02, 0x18)] s u ∧ (psEffNow u ≠ s.pwr.psEff → Word.bit (rd u 0x02 0x18) 5 = true)))
      ∧ (∀ i t, SetReady s c 0x04 x → i = Word.fld x.sqe.cdw11 19 16 → t = Word.fld x.sqe.cdw11 15 0 →
        (4 ≤ i ∨ 2 ≤ Word.fld x.sqe.cdw11 21 20 → Does (.setFeaturesTempThreshold c) s [.hqe] fun u => Ends s u c x stInvalidField 0 0)
        ∧ (i < 4 → Word.fld x.sqe.cdw11 21 20 < 2 → Does (.setFeaturesTempThreshold c) s [.hqe] fun u => Done u c stOk
            ∧ (ctrlOf u c.mid).overK = (if Word.fld x.sqe.cdw11 21 20 = 0 then setAt k.overK i t else k.overK) ∧ (ctrlOf u c.mid).underK = if Word.fld x.sqe.cdw11 21 20 = 1 then setAt k.underK i t else k.underK)
        ∧ (i < 4 → (∀ p ∈ s.hqe.ctrls, p.2.aers = []) →
          (Word.fld x.sqe.cdw11 21 20 = 0 → Does (.setFeaturesTempThreshold c) s [.hqe] fun u => CtrlIs s u c x { k with overK := setAt k.overK i t } ∧ (i < k.overK.length → (ctrlOf u c.mid).overK.getD i 0 = t))
          ∧ (Word.fld x.sqe.cdw11 21 20 = 1 → Does (.setFeaturesTempThreshold c) s [.hqe] fun u => CtrlIs s u c x { k with underK := setAt k.underK i t } ∧ (i < k.underK.length → (ctrlOf u c.mid).underK.getD i 0 = t))))
      ∧ (∀ ms, SetReady s c 0x0E x → ms = leNat (x.data.take 6) →
        (c.mid = mgmtPf s → s.aon.rtcValid = false → Does (.setFeaturesTimestamp c) s [.hqe, .dev, .aon] fun u => CtrlIs s u c x { k with tsSet := true, tsOff := 0 } ∧ u.dev = { s.dev with rtc := ms / 1000 } ∧ u.aon = { s.aon with rtcValid := true })
        ∧ (c.mid ≠ mgmtPf s ∨ s.aon.rtcValid = true → Does (.setFeaturesTimestamp c) s [.hqe] fun u => CtrlIs s u c x { k with tsSet := true, tsOff := (ctrlOf u c.mid).tsOff } ∧ (s.dev.rtc * 1000 + (ctrlOf u c.mid).tsOff) % 2 ^ 48 = ms)))
  ∧ (∀ (s : State) (c : CmdId) (x : Ctx) (qid : Nat), qid = Word.fld x.sqe.cdw11 15 0 →
      (SetReady s c 0xC1 x →
        (qid = 0 ∨ sqOf s c.mid qid = none → Does (.setFeaturesOrderedQueue c) s [.hqe] fun u => Ends s u c x stInvalidField 0 0)
        ∧ (∀ q, qid ≠ 0 → sqOf s c.mid qid = some q →
          ((∃ y ∈ s.hqe.ctxs, y.id.mid = c.mid ∧ y.id.sqid = qid) ∨ entriesDue s c.mid qid = true ∨ q.st ≠ .active → Does (.setFeaturesOrderedQueue c) s [.hqe] fun u => Ends s u c x stSequence 0 0 ∧ u.hqe.sqs = s.hqe.sqs)
          ∧ ((∀ y ∈ s.hqe.ctxs, y.id.mid = c.mid → y.id.sqid ≠ qid) → entriesDue s c.mid qid = false → q.st = .active → Does (.setFeaturesOrderedQueue c) s [.hqe] fun u => Ends s u c x stOk 0 0
              ∧ sqOf u c.mid qid = some { q with ordered := Word.bit x.sqe.cdw11 16 } ∧ ∀ j, j < 65536 → j ≠ qid → sqOf u c.mid j = sqOf s c.mid j)))
      ∧ (FeatReady s c 0x0A 0xC1 x → (qid = 0 ∨ sqOf s c.mid qid = none → Does (.getFeaturesOrderedQueue c) s [.hqe] fun u => Ends s u c x stInvalidField 0 0)
        ∧ (∀ q, qid ≠ 0 → sqOf s c.mid qid = some q → Does (.getFeaturesOrderedQueue c) s [.hqe] fun u => Ends s u c x stOk q.ordered.toNat 0)))
  ∧ (∀ (s : State) (c : CmdId) (x : Ctx) (t : Nat), t = Word.fld x.sqe.cdw11 8 0 →
      (SetReady s c 0xC2 x →
        (fnTenant s c.mid ≠ 0 ∨ Word.fld x.sqe.cdw12 31 24 = 0 → Does (.setFeaturesUrgentBudget c) s [.hqe] fun u => Ends s u c x stInvalidField 0 0)
        ∧ (fnTenant s c.mid = 0 → Word.fld x.sqe.cdw12 31 24 ≠ 0 → Does (.setFeaturesUrgentBudget c) s [.hqe, .regs] fun u => Ends s u c x stOk 0 0
            ∧ urgRate u t = Word.fld x.sqe.cdw12 23 0 ∧ urgBurst u t = Word.fld x.sqe.cdw12 31 24 ∧ RegsOnly [(0x0D, 0x2008 + 32 * t)] s u))
      ∧ (FeatReady s c 0x0A 0xC2 x → ∀ k, k = (if fnTenant s c.mid = 0 then t else fnTenant s c.mid) → Does (.getFeaturesUrgentBudget c) s [.hqe] fun u =>
          Gives s u c x (leBytes 4 (urgRate s k) ++ leBytes 1 (urgBurst s k) ++ leBytes 3 0 ++ leBytes 8 (rd s 0x0D (0x2010 + 32 * k)).toNat))
      ∧ (SetReady s c 0xC4 x →
        (c.mid ≠ mgmtPf s ∨ (∃ i : Fin 8, cdwByte x.sqe.cdw11 x.sqe.cdw12 i = 0) → Does (.setFeaturesPortWeights c) s [.hqe] fun u => Ends s u c x stInvalidField 0 0)
        ∧ (c.mid = mgmtPf s → (∀ i : Fin 8, cdwByte x.sqe.cdw11 x.sqe.cdw12 i ≠ 0) → Does (.setFeaturesPortWeights c) s [.hqe, .regs] fun u => Ends s u c x stOk 0 0
            ∧ (∀ i : Fin 8, portWeight u i = cdwByte x.sqe.cdw11 x.sqe.cdw12 i) ∧ RegsOnly ((List.range 8).map fun i => (0x0D, 0x1000 + 16 * i)) s u))
      ∧ (FeatReady s c 0x0A 0xC4 x → Does (.getFeaturesPortWeights c) s [.hqe] fun u => Ends s u c x stOk
          (portWeight s 0 + portWeight s 1 * 2 ^ 8 + portWeight s 2 * 2 ^ 16 + portWeight s 3 * 2 ^ 24) (portWeight s 4 + portWeight s 5 * 2 ^ 8 + portWeight s 6 * 2 ^ 16 + portWeight s 7 * 2 ^ 24)))
  ∧ (∀ (s : State) (c : CmdId) (x : Ctx) (sizes : List Nat),
      (FeatReady s c 0x09 0x0D x → Word.bit x.sqe.cdw10 31 = true → Serves (.setFeaturesHostMemoryBuffer c sizes) s [.hqe] fun u => Ends s u c x ⟨1, 0x0D⟩ 0 0)
      ∧ (SetReady s c 0x0D x → Word.bit x.sqe.cdw11 0 = true →
        (c.mid ≠ mgmtPf s ∨ sizes.sum < 262144 → Serves (.setFeaturesHostMemoryBuffer c sizes) s [.hqe] fun u => Ends s u c x stInvalidField 0 0)
        ∧ (c.mid = mgmtPf s → 262144 ≤ sizes.sum → Serves (.setFeaturesHostMemoryBuffer c sizes) s [.hqe, .ftl, .regs] fun u => CtrlIs s u c x { ctrlOf s c.mid with hmbOn := true }
            ∧ u.ftl = { s.ftl with hmbMem := u.ftl.hmbMem } ∧ Word.bit (rd u 0x0E 0x148) 0 = true ∧ RegsOnly [(0x0E, 0x148)] s u
            ∧ u.ftl.hmbMem.length = sizes.length ∧ ∀ i, i < sizes.length → u.ftl.hmbMem[i]? = some (4 * (sizes.take i).sum, 4 * sizes.getD i 0)))
      ∧ (SetReady s c 0x0D x → Word.bit x.sqe.cdw11 0 = false →
        (c.mid ≠ mgmtPf s → Serves (.setFeaturesHostMemoryBuffer c sizes) s [.hqe] fun u => Ends s u c x stOk 0 0)
        ∧ (c.mid = mgmtPf s → Serves (.setFeaturesHostMemoryBuffer c sizes) s anyParts fun u => (∃ y, ctxOf u c = some y ∧ y.stage = .done) ∧ (ctrlOf u c.mid).hmbOn = false ∧ Word.bit (rd u 0x0E 0x148) 0 = false ∧ u.ftl.hmbMem = []
            ∧ (s.ftl.hmbMem ≠ [] → u.ftl.hmbDropping = true ∧ u.ftl.hmb = []))
        ∧ (c.mid = mgmtPf s → (∀ p ∈ s.ftl.pageIns, ∀ d, p.2.src ≠ .hmb d) → Serves (.setFeaturesHostMemoryBuffer c sizes) s [.hqe, .ftl, .regs] fun u => CtrlIs s u c x { ctrlOf s c.mid with hmbOn := false }
            ∧ Word.bit (rd u 0x0E 0x148) 0 = false ∧ RegsOnly [(0x0E, 0x148)] s u ∧ u.ftl.hmbMem = [] ∧ (s.ftl.hmbMem = [] → u.ftl = s.ftl) ∧ (s.ftl.hmbMem ≠ [] → u.ftl.hmbDropping = true ∧ u.ftl.hmb = []
              ∧ ∀ p ∈ s.ftl.hmb, ∃ q ∈ s.ftl.hmb, q.2.leaf = p.2.leaf ∧ (rootOf u p.2.leaf).tier = .flash q.2.loc))))
  ∧ (∀ (s : State) (c : CmdId) (x : Ctx) (n : Nat), n = x.sqe.nsid →
      (FeatReady s c 0x09 0x05 x →
        (Word.bit x.sqe.cdw11 16 = true → Does (.setFeaturesErrorRecovery c) s [.hqe] fun u => Ends s u c x stInvalidField 0 0)
        ∧ (Word.bit x.sqe.cdw11 16 = false → n ≠ 0xFFFFFFFF →
          (nsOf s n = none → Does (.setFeaturesErrorRecovery c) s [.hqe] fun u => Ends s u c x stInvalidNs 0 0)
          ∧ (∀ m, nsOf s n = some m → c.mid ∉ m.attached → Does (.setFeaturesErrorRecovery c) s [.hqe] fun u => Ends s u c x stInvalidNs 0 0)
          ∧ (∀ m, nsOf s n = some m → c.mid ∈ m.attached → Does (.setFeaturesErrorRecovery c) s [.hqe, .regs, .ten] fun u => Ends s u c x stOk 0 0 ∧ rd u 0x1A (tlerOff n) = w32 (Word.fld x.sqe.cdw11 15 0))
          ∧ (∀ m, nsOf s n = some m → c.mid ∈ m.attached → 1 ≤ n → n ≤ 4096 → Does (.setFeaturesErrorRecovery c) s [.hqe, .regs, .ten] fun u => Ends s u c x stOk 0 0
              ∧ rd u 0x1A (0x1000 + 4 * (n - 1)) = w32 (Word.fld x.sqe.cdw11 15 0) ∧ RegsOnly [(0x1A, 0x1000 + 4 * (n - 1))] s u ∧ u.ten = { s.ten with savedTler := u.ten.savedTler }
              ∧ Tbl.find u.ten.savedTler n = (if Word.bit x.sqe.cdw10 31 then some (w32 (Word.fld x.sqe.cdw11 15 0)) else Tbl.find s.ten.savedTler n)
              ∧ ∀ j, j ≠ n → Tbl.find u.ten.savedTler j = Tbl.find s.ten.savedTler j))
        ∧ (Word.bit x.sqe.cdw11 16 = false → n = 0xFFFFFFFF → Does (.setFeaturesErrorRecovery c) s [.hqe, .regs, .ten] fun u => Ends s u c x stOk 0 0)
        ∧ (Word.bit x.sqe.cdw11 16 = false → n = 0xFFFFFFFF → (∀ p ∈ s.ten.nss, 1 ≤ p.1 ∧ p.1 ≤ 4096) → Does (.setFeaturesErrorRecovery c) s [.hqe, .regs, .ten] fun u => Ends s u c x stOk 0 0
            ∧ (∀ p ∈ s.ten.nss, rd u 0x1A (0x1000 + 4 * (p.1 - 1)) = if ∃ q ∈ s.ten.nss, q.1 = p.1 ∧ c.mid ∈ q.2.attached then w32 (Word.fld x.sqe.cdw11 15 0) else rd s 0x1A (0x1000 + 4 * (p.1 - 1)))
            ∧ RegsOnly ((List.range 4096).map fun i => (0x1A, 0x1000 + 4 * i)) s u ∧ u.ten = { s.ten with savedTler := u.ten.savedTler }))
      ∧ (FeatReady s c 0x0A 0x05 x → (nsOf s n = none → Does (.getFeaturesErrorRecovery c) s [.hqe] fun u => Ends s u c x stInvalidNs 0 0)
        ∧ (∀ m, nsOf s n = some m → (c.mid ∉ m.attached → Does (.getFeaturesErrorRecovery c) s [.hqe] fun u => Ends s u c x stInvalidNs 0 0)
          ∧ (c.mid ∈ m.attached → Does (.getFeaturesErrorRecovery c) s [.hqe] fun u => match Word.fld x.sqe.cdw10 10 8 with
            | 0 => Ends s u c x stOk (rdF s 0x1A (tlerOff n) 15 0) 0
            | 1 => Ends s u c x stOk 0 0
            | 2 => Ends s u c x stOk (Tbl.getD s.ten.savedTler n 0).toNat 0
            | 3 => Ends s u c x stOk 7 0
            | _ => Ends s u c x stInvalidField 0 0))))
  ∧ (∀ (s : State) (c : CmdId) (x : Ctx) (g : Nat), SetReady s c 0x1D x → g = Word.fld x.sqe.cdw11 15 0 →
      (g = 0 ∨ 512 < g ∨ Word.fld x.sqe.cdw12 15 8 ≠ 0 ∨ (fnTenant s c.mid ≠ 0 ∧ fnTenant s c.mid ≠ g - 1) → Does (.setFeaturesFdp c) s [.hqe] fun u => Ends s u c x stInvalidField 0 0)
      ∧ (1 ≤ g → g ≤ 512 → Word.fld x.sqe.cdw12 15 8 = 0 → fnTenant s c.mid = 0 ∨ fnTenant s c.mid = g - 1 →
        ((∃ p ∈ s.ten.nss, p.2.owner = g - 1) → Does (.setFeaturesFdp c) s [.hqe] fun u => Ends s u c x stSequence 0 0)
        ∧ ((∀ p ∈ s.ten.nss, p.2.owner ≠ g - 1) → Does (.setFeaturesFdp c) s [.hqe, .ten] fun u => Ends s u c x stOk 0 0 ∧ u.ten = { s.ten with fdp := u.ten.fdp }
            ∧ Tbl.getD u.ten.fdp (g - 1) false = Word.bit x.sqe.cdw12 0 ∧ ∀ t, t ≠ g - 1 → Tbl.find u.ten.fdp t = Tbl.find s.ten.fdp t)))
/-! ### Host commands: tenants and namespaces -/

/-- TENANT_BIND_FUNCTION, TENANT_QUEUE_ALLOTMENT, TENANT_HOST_LIMITS, TENANT_POOL_OWNER, TENANT_POOL_LIMITS, TENANT_INTERNAL_RESERVE, TENANT_NAMESPACE_OWNER, TENANT_NAMESPACE_SHARE,
TENANT_KEY_SLOTS, TENANT_ENGINE_ASSIGNMENT, TENANT_WINDOW_SLICES, TENANT_CLEAR_WINDOW_SLICES, TRK_FN_TENANT_WRITE, HQE_FN_QALLOT_WRITE, HQE_TENANT_TABLE_WRITE, BPM_TEN_OWNER_WRITE,
NAMESPACE_MGMT_CREATE, NAMESPACE_MGMT_DELETE, NAMESPACE_DELETE_RESUME, NAMESPACE_ATTACHMENT and FORMAT_NVM (R88, R98, R128, R130 to R136, R144, R152, R154, R155, R403, R405, R407, R414,
R418, R631). -/
def Obligations.TenancyAdmin : Prop :=
  (∀ (s : State) (c : CmdId) (p : Nat × (CmdId → Instr) × Word × Word × Word × Word),
      (p ∈ ([(0x01, .tenantBindFunction, 0x1FF, 0x1FF, 0, 0), (0x02, .tenantQueueAllotment, 0x1FF, 0x1FFF, 0, 0), (0x03, .tenantHostLimits, 0x1FF, 0xFFFF, 0x1FFFF, 0xFFFFFFFF),
          (0x09, .tenantKeySlots, 0x1FF, 0xFFF, 0x1FFF, 0x1FFFF)] : List (Nat × (CmdId → Instr) × Word × Word × Word × Word)) →
        ((∀ x, CmdReady s c true 0xC9 x → Word.fld x.sqe.cdw10 7 0 ≠ p.1 ∨ tcFirst s c = false) → Does (p.2.1 c) s [] fun _ => True)
        ∧ (∀ x, CmdReady s c true 0xC9 x → Word.fld x.sqe.cdw10 7 0 = p.1 → tcFirst s c = true → tcFits x.sqe p.2.2.1 p.2.2.2.1 p.2.2.2.2.1 p.2.2.2.2.2 = false → Does (p.2.1 c) s [.hqe] fun u => Ends s u c x stInvalidField 0 0))
      ∧ (p ∈ ([(0x04, .tenantPoolOwner, 0x1FF, 0x3F, 0, 0), (0x05, .tenantPoolLimits, 0x73F, 0xFFFFFFF, 0xFFFFFFF, 0), (0x06, .tenantInternalReserve, 0x3F, 0x3FFFFF, 0, 0),
          (0x07, .tenantNamespaceOwner, 0xFFFFFFFF, 0x1FF, 0, 0), (0x08, .tenantNamespaceShare, 0xFFFFFFFF, 0x1FF, 1, 0), (0x0A, .tenantEngineAssignment, 0x1FF, 0, 0, 0),
          (0x0B, .tenantWindowSlices, 0x1FF, 0x1FF, 0x3FF, 0), (0x0C, .tenantClearWindowSlices, 0x1FF, 0x3FF, 0, 0)] : List (Nat × (CmdId → Instr) × Word × Word × Word × Word)) →
        ((∀ x, CmdReady s c true 0xC9 x → Word.fld x.sqe.cdw10 7 0 ≠ p.1 ∨ tcFirst s c = false) → Serves (p.2.1 c) s [] fun _ => True)
        ∧ (∀ x, CmdReady s c true 0xC9 x → Word.fld x.sqe.cdw10 7 0 = p.1 → tcFirst s c = true → tcFits x.sqe p.2.2.1 p.2.2.2.1 p.2.2.2.2.1 p.2.2.2.2.2 = false → Serves (p.2.1 c) s [.hqe] fun u => Ends s u c x stInvalidField 0 0))
      ∧ ((∀ x, CmdReady s c true 0x0D x → Word.fld x.sqe.cdw10 3 0 ≠ 0) → Serves (.namespaceMgmtCreate c) s [] fun _ => True)
      ∧ ((∀ x, CmdReady s c true 0x0D x → Word.fld x.sqe.cdw10 3 0 ≠ 1) → Serves (.namespaceMgmtDelete c) s [] fun _ => True)
      ∧ ((∀ x, ¬CmdReady s c true 0x15 x) → Does (.namespaceAttachment c) s [] fun _ => True) ∧ ((∀ x, ¬CmdReady s c true 0x80 x) → Serves (.formatNvm c) s [] fun _ => True))
  ∧ (∀ (s : State) (c : CmdId) (x : Ctx) (m v : Nat), m = Word.fld x.sqe.cdw11 8 0 →
      (TcReady s c 0x01 0x1FF 0x1FF 0 0 x → v = Word.fld x.sqe.cdw12 8 0 →
        (m = mgmtPf s → Does (.tenantBindFunction c) s [.hqe] fun u => Ends s u c x stInvalidField 0 0)
        ∧ (m ≠ mgmtPf s → fnBusy s m = true → Does (.tenantBindFunction c) s [.hqe] fun u => Ends s u c x stSequence 0 0)
        ∧ (m ≠ mgmtPf s → fnBusy s m = false → Does (.tenantBindFunction c) s [.hqe, .regs, .ten, .graft] fun u =>
            TcDone s u c x { s.ten.saved with fnTenant := Tbl.put s.ten.saved.fnTenant m v } ∧ fnTenant u m = v ∧ RegsOnly [(0x01, 0x2000 + 4 * m)] s u))
      ∧ (TcReady s c 0x02 0x1FF 0x1FFF 0 0 x → v = Word.fld x.sqe.cdw12 12 0 →
        (4096 < v ∨ v < fnSqs s m ∨ 16384 - ioSqs s < v - fnSqs s m → Does (.tenantQueueAllotment c) s [.hqe] fun u => Ends s u c x stInvalidField 0 0)
        ∧ (v ≤ 4096 → fnSqs s m ≤ v → v - fnSqs s m ≤ 16384 - ioSqs s → Does (.tenantQueueAllotment c) s [.hqe, .regs, .ten, .graft] fun u =>
            TcDone s u c x (keepReg 0x0D (0x1800 + 4 * m) (w32 v) s.ten.saved) ∧ allotOf u m = v ∧ RegsOnly [(0x0D, 0x1800 + 4 * m)] s u)))
  ∧ (∀ (s : State) (c : CmdId) (x : Ctx) (t mn cap : Nat), TcReady s c 0x03 0x1FF 0xFFFF 0x1FFFF 0xFFFFFFFF x → t = Word.fld x.sqe.cdw11 8 0 → mn = Word.fld x.sqe.cdw12 15 0 → cap = Word.fld x.sqe.cdw13 16 0 →
      (cap = 0 ∨ 65536 < cap ∨ Word.fld x.sqe.cdw14 31 24 = 0 ∨ 49152 < mn ∨ cap < mn → Does (.tenantHostLimits c) s [.hqe] fun u => Ends s u c x stInvalidField 0 0)
      ∧ (1 ≤ cap → cap ≤ 65536 → Word.fld x.sqe.cdw14 31 24 ≠ 0 → mn ≤ 49152 → mn ≤ cap →
        (49152 < ctxMinSum s - ctxMin s t + mn → Does (.tenantHostLimits c) s [.hqe, .regs] fun u => Ends s u c x stInvalidField 0 0 ∧ ctxMin u t = ctxMin s t ∧ ctxCap u t = ctxCap s t
            ∧ Word.bit (rd u 0x0D 0x28) 17 = true)
        ∧ (ctxMinSum s - ctxMin s t + mn ≤ 49152 → Does (.tenantHostLimits c) s [.hqe, .regs, .ten, .graft] fun u => ctxMin u t = mn ∧ ctxCap u t = cap ∧ urgRate u t = Word.fld x.sqe.cdw14 23 0
            ∧ urgBurst u t = Word.fld x.sqe.cdw14 31 24 ∧ RegsOnly [(0x0D, 0x2000 + 32 * t), (0x0D, 0x2004 + 32 * t), (0x0D, 0x2008 + 32 * t), (0x0D, 0x18)] s u
            ∧ (rdF s 0x0D 0x124 15 0 ≤ sharedFree s → sharedFree u < rdF u 0x0D 0x124 15 0 → Word.bit (rd u 0x0D 0x18) 3 = true)
            ∧ TcDone s u c x (keepReg 0x0D (0x2008 + 32 * t) x.sqe.cdw14 (keepReg 0x0D (0x2004 + 32 * t) (w32 cap) (keepReg 0x0D (0x2000 + 32 * t) (w32 mn) s.ten.saved))))))
  ∧ (∀ (s : State) (c : CmdId) (x : Ctx) (t o : Nat), TcReady s c 0x04 0x1FF 0x3F 0 0 x → t = Word.fld x.sqe.cdw11 8 0 → o = Word.fld x.sqe.cdw12 5 0 →
      (x.jmark.isSome = true → (ownerLeft s t = false → Serves (.tenantPoolOwner c) s [.hqe] fun u => Ends s u c x stOk 0 0)
        ∧ (ownerLeft s t = true → Serves (.tenantPoolOwner c) s anyParts (fun u => ∃ y, ctxOf u c = some y ∧ y.sqe = x.sqe) ∧ ((∀ p ∈ s.ftl.frames, p.2.wb = true) → Serves (.tenantPoolOwner c) s [] fun _ => True)))
      ∧ (∀ st, x.jmark = none → ownerRefusal s t o = some st → Serves (.tenantPoolOwner c) s [.hqe] fun u => Ends s u c x st 0 0)
      ∧ (x.jmark = none → ownerRefusal s t o = none →
        Serves (.tenantPoolOwner c) s anyParts (fun u => ownerOf u t = o ∧ ∃ y, ctxOf u c = some y ∧ (y.stage = .done ∨ y.jmark = some 0))
        ∧ ((ownerOf s t = o ∧ ownerLeft s t = false) ∨ (∀ p ∈ s.ftl.frames, leafTenant s p.2.leaf ≠ t ∧ staleFrame s p.2 = false) → Serves (.tenantPoolOwner c) s [.hqe, .regs, .ten, .graft] fun u =>
            TcDone s u c x (keepReg 0xC (0x3400 + 4 * t) (w32 o) s.ten.saved) ∧ ownerOf u t = o ∧ RegsOnly [(0xC, 0x3400 + 4 * t)] s u)
        ∧ (ownerOf s t ≠ o → (∃ p ∈ s.ftl.frames, leafTenant s p.2.leaf = t ∧ p.2.owner ≠ o) → (∀ p ∈ s.ftl.frames, p.2.wb = true) → Serves (.tenantPoolOwner c) s [.hqe, .regs, .ten, .graft] fun u =>
            ctxOf u c = some { x with jmark := some 0 } ∧ ownerOf u t = o ∧ RegsOnly [(0xC, 0x3400 + 4 * t)] s u)))
  ∧ (∀ (s : State) (t : Nat) (o : Nat), (ownerRefusal s t o = some stInvalidField ↔ ∃ p ∈ s.ten.nss, t ∈ p.2.party ∧ ∃ v ∈ p.2.party, v ≠ t ∧ ownerOf s v ≠ o)
      ∧ (ownerRefusal s t o = none ↔ (∀ p ∈ s.ten.nss, t ∈ p.2.party → ∀ v ∈ p.2.party, v ≠ t → ownerOf s v = o) ∧ tenUsed s t = 0 ∧ ∀ e ∈ s.grv.eng, e.2.st = .running → e.2.tenant ≠ t))
  ∧ (∀ (s : State) (who : Who) (t : Fin 512) (v : Word), Admits s who 0xC (0x3400 + 4 * t) v →
      (∀ st, ownerRefusal s t (Word.fld v 5 0) = some st → Serves (.bpmTenOwnerWrite who t v) s [.resp, .regs] fun u => u.resp.code = .ok ∧ ownerOf u t = ownerOf s t ∧ Word.bit (rd u 0xC 0x28) 17 = true)
      ∧ (ownerRefusal s t (Word.fld v 5 0) = none → Serves (.bpmTenOwnerWrite who t v) s anyParts (fun u => ownerOf u t = Word.fld v 5 0 ∧ u.resp.code = .ok)
        ∧ (ownerOf s t = Word.fld v 5 0 ∨ (∀ p ∈ s.ftl.frames, leafTenant s p.2.leaf ≠ t ∧ staleFrame s p.2 = false) → Serves (.bpmTenOwnerWrite who t v) s [.resp, .regs] fun u =>
            ownerOf u t = Word.fld v 5 0 ∧ u.resp.code = .ok ∧ RegsOnly [(0xC, 0x3400 + 4 * t)] s u)))
  ∧ (∀ (s : State) (c : CmdId) (x : Ctx) (o k off : Nat) (t : State),
      (TcReady s c 0x05 0x73F 0xFFFFFFF 0xFFFFFFF 0 x → o = Word.fld x.sqe.cdw11 5 0 → k = Word.fld x.sqe.cdw11 10 8 → off = 0x1000 + 128 * o + 16 * k → t = wr (wr s 0xC off x.sqe.cdw12) 0xC (off + 4) x.sqe.cdw13 →
        (6 ≤ k ∨ x.sqe.cdw13.toNat < x.sqe.cdw12.toNat → Serves (.tenantPoolLimits c) s [.hqe] fun u => Ends s u c x stInvalidField 0 0)
        ∧ (k < 6 → x.sqe.cdw12.toNat ≤ x.sqe.cdw13.toNat →
          (rsvOk t = false → Serves (.tenantPoolLimits c) s [.hqe, .regs] fun u => Ends s u c x stInvalidField 0 0 ∧ bpmMin u o k = bpmMin s o k ∧ bpmCap u o k = bpmCap s o k ∧ Word.bit (rd u 0xC 0x28) 17 = true)
          ∧ (rsvOk t = true → Serves (.tenantPoolLimits c) s anyParts (fun u => Done u c stOk ∧ bpmMin u o k = x.sqe.cdw12.toNat ∧ bpmCap u o k = x.sqe.cdw13.toNat)
            ∧ (s.bpm.waiters = [] → Serves (.tenantPoolLimits c) s [.hqe, .regs, .ten, .graft] fun u => TcDone s u c x (keepReg 0xC (off + 4) x.sqe.cdw13 (keepReg 0xC off x.sqe.cdw12 s.ten.saved))
              ∧ bpmMin u o k = x.sqe.cdw12.toNat ∧ bpmCap u o k = x.sqe.cdw13.toNat ∧ RegsOnly [(0xC, off), (0xC, off + 4), (0xC, 0x18)] s u
              ∧ (0 < unreservedFree s → unreservedFree t = 0 → Word.bit (rd u 0xC 0x18) 2 = true)))))
      ∧ (TcReady s c 0x06 0x3F 0x3FFFFF 0 0 x → o = Word.fld x.sqe.cdw11 5 0 → off = 0x3000 + 16 * o → t = wr s 0xC off x.sqe.cdw12 →
        (rsvOk t = false → Serves (.tenantInternalReserve c) s [.hqe, .regs] fun u => Ends s u c x stInvalidField 0 0 ∧ bpmIrsv u o = bpmIrsv s o ∧ Word.bit (rd u 0xC 0x28) 17 = true)
        ∧ (rsvOk t = true → Serves (.tenantInternalReserve c) s anyParts (fun u => Done u c stOk ∧ bpmIrsv u o = x.sqe.cdw12.toNat)
          ∧ (s.bpm.waiters = [] → Serves (.tenantInternalReserve c) s [.hqe, .regs, .ten, .graft] fun u => TcDone s u c x (keepReg 0xC off x.sqe.cdw12 s.ten.saved) ∧ bpmIrsv u o = x.sqe.cdw12.toNat
              ∧ RegsOnly [(0xC, off), (0xC, 0x18)] s u))))
  ∧ (∀ (s : State) (c : CmdId) (x : Ctx) (id t : Nat), id = x.sqe.cdw11.toNat → t = Word.fld x.sqe.cdw12 8 0 →
      (TcReady s c 0x07 0xFFFFFFFF 0x1FF 0 0 x →
        (nsOf s id = none → Serves (.tenantNamespaceOwner c) s [.hqe] fun u => Ends s u c x stInvalidNs 0 0)
        ∧ (∀ n, nsOf s id = some n →
          (n.attached ≠ [] ∨ (n.kind = .nvm ∧ nuse s n ≠ 0) → Serves (.tenantNamespaceOwner c) s [.hqe] fun u => Ends s u c x stSequence 0 0)
          ∧ (n.attached = [] → n.kind ≠ .nvm ∨ nuse s n = 0 →
            ((∃ v ∈ n.sharers, v ≠ t ∧ ownerOf s v ≠ ownerOf s t) → Serves (.tenantNamespaceOwner c) s [.hqe] fun u => Ends s u c x stInvalidField 0 0)
            ∧ (∀ v, v = { s.ten.saved with nsOwner := Tbl.put s.ten.saved.nsOwner id t, nsShare := Tbl.adj s.ten.saved.nsShare id (·.filter (· ≠ t)) } → (∀ v ∈ n.sharers, v ≠ t → ownerOf s v = ownerOf s t) →
              Serves (.tenantNamespaceOwner c) s anyParts (fun u => Edited u c ∧ nsOf u id = some { n with owner := t, sharers := n.sharers.filter (· ≠ t) } ∧ ∀ k, k ≠ id → nsOf u k = nsOf s k)
              ∧ ((∀ b ∈ n.blocks, b < 16384) → Serves (.tenantNamespaceOwner c) s [.hqe, .regs, .ten, .graft, .ftl, .mem, .dmc] fun u =>
                NsEdit s u c x id 0 none ∧ nsOf u id = some { n with owner := t, sharers := n.sharers.filter (· ≠ t) } ∧ Saved s u x v
                ∧ (n.owner = t ∨ n.blocks = [] → u.mem = s.mem ∧ u.dmc = s.dmc ∧ RegsOnly [(0x0E, 0x18), (0x0F, 0x18)] s u)
                ∧ (n.owner ≠ t → ∀ b ∈ n.blocks, ∀ g : Fin 16, refusesRegs s (0x40 + g) = false → rdF u (0x40 + g) (0x3000 + 4 * (b / 2)) (b % 2 * 16 + 15) (b % 2 * 16) = t + 2 ^ 15))))))
      ∧ (TcReady s c 0x08 0xFFFFFFFF 0x1FF 1 0 x →
        (nsOf s id = none → Serves (.tenantNamespaceShare c) s [.hqe] fun u => Ends s u c x stInvalidNs 0 0)
        ∧ (∀ n, nsOf s id = some n →
          (Word.bit x.sqe.cdw13 0 = true →
            (ownerOf s t ≠ ownerOf s n.owner ∨ 15 ≤ n.sharers.length → Serves (.tenantNamespaceShare c) s [.hqe] fun u => Ends s u c x stInvalidField 0 0)
            ∧ (∀ l, ownerOf s t = ownerOf s n.owner → n.sharers.length < 15 → (t ∈ n.party ∧ l = n.sharers ∨ t ∉ n.party ∧ l = n.sharers ++ [t]) → Serves (.tenantNamespaceShare c) s [.hqe, .regs, .ten, .graft, .ftl] fun u =>
                NsEdit s u c x id 0 none ∧ nsOf u id = some { n with sharers := l } ∧ Saved s u x { s.ten.saved with nsShare := Tbl.put s.ten.saved.nsShare id (shareChange n.owner t true (Tbl.getD s.ten.saved.nsShare id [])) } ∧ RegsOnly [(0x0E, 0x18)] s u))
          ∧ (Word.bit x.sqe.cdw13 0 = false →
            ((∃ m ∈ n.attached, fnTenant s m = t) → Serves (.tenantNamespaceShare c) s [.hqe] fun u => Ends s u c x stSequence 0 0)
            ∧ ((∀ m ∈ n.attached, fnTenant s m ≠ t) → Serves (.tenantNamespaceShare c) s [.hqe, .regs, .ten, .graft, .ftl] fun u => NsEdit s u c x id 0 none
                ∧ nsOf u id = some { n with sharers := n.sharers.filter (· ≠ t) } ∧ Saved s u x { s.ten.saved with nsShare := Tbl.put s.ten.saved.nsShare id ((Tbl.getD s.ten.saved.nsShare id []).filter (· ≠ t)) } ∧ RegsOnly [(0x0E, 0x18)] s u)))))
  ∧ (∀ (s v : State) (c : CmdId) (x : Ctx) (t : Nat) (l : List Nat), TcReady s c 0x09 0x1FF 0xFFF 0x1FFF 0x1FFFF x → t = Word.fld x.sqe.cdw11 8 0 →
      l = [Word.fld x.sqe.cdw12 11 0, Word.fld x.sqe.cdw13 12 0, Word.fld x.sqe.cdw14 7 0, Word.fld x.sqe.cdw14 16 8] → v = { s with ten := { s.ten with keySlots := Tbl.put s.ten.keySlots t l } } →
      (4096 < l.getD 0 0 + l.getD 1 0 ∨ 256 < l.getD 2 0 + l.getD 3 0 → Does (.tenantKeySlots c) s [.hqe] fun u => Ends s u c x stInvalidField 0 0)
      ∧ ((∃ p ∈ s.ten.keySlots, p.1 ≠ t ∧ (rangesMeet (l.getD 0 0) (l.getD 1 0) (p.2.getD 0 0) (p.2.getD 1 0) = true ∨ rangesMeet (l.getD 2 0) (l.getD 3 0) (p.2.getD 2 0) (p.2.getD 3 0) = true)) → Does (.tenantKeySlots c) s [.hqe] fun u => Ends s u c x stInvalidField 0 0)
      ∧ (l.getD 0 0 + l.getD 1 0 ≤ 4096 → l.getD 2 0 + l.getD 3 0 ≤ 256 →
        (∀ p ∈ s.ten.keySlots, p.1 ≠ t → rangesMeet (l.getD 0 0) (l.getD 1 0) (p.2.getD 0 0) (p.2.getD 1 0) = false ∧ rangesMeet (l.getD 2 0) (l.getD 3 0) (p.2.getD 2 0) (p.2.getD 3 0) = false) →
        ((∃ b ∈ s.sec.bind, xtsTenant s b.2 ≠ xtsTenant v b.2) → Does (.tenantKeySlots c) s [.hqe] fun u => Ends s u c x stSequence 0 0)
        ∧ ((∀ b ∈ s.sec.bind, xtsTenant s b.2 = xtsTenant v b.2) → Does (.tenantKeySlots c) s [.hqe, .ten, .sec, .graft] fun u => Ends s u c x stOk 0 0 ∧ Saved s u x { s.ten.saved with keySlots := Tbl.put s.ten.saved.keySlots t l }
            ∧ u.ten = { s.ten with keySlots := Tbl.put s.ten.keySlots t l, saved := u.ten.saved } ∧ (∀ k, xtsTenant u k ≠ xtsTenant s k → xtsSlot u k = {}) ∧ (∀ k, xtsTenant u k = xtsTenant s k → xtsSlot u k = xtsSlot s k)
            ∧ (∀ k, gcmTenant u k ≠ gcmTenant s k → gcmSlot u k = {}) ∧ (∀ k, gcmTenant u k = gcmTenant s k → gcmSlot u k = gcmSlot s k) ∧ u.sec = { s.sec with xts := u.sec.xts, gcm := u.sec.gcm })))
  ∧ (∀ (s : State) (c : CmdId) (x : Ctx) (t map e : Nat), TcReady s c 0x0A 0x1FF 0 0 0 x → t = Word.fld x.sqe.cdw11 8 0 → map = leNat (x.data.take 32) → e < 256 →
      (x.jmark.isSome = true → ((∃ p ∈ s.grv.eng, p.2.st = .scrubbing ∧ p.2.tenant = t ∧ p.2.leaving = true) → Serves (.tenantEngineAssignment c) s [] fun _ => True)
        ∧ ((∀ p ∈ s.grv.eng, ¬(p.2.st = .scrubbing ∧ p.2.tenant = t ∧ p.2.leaving = true)) → Serves (.tenantEngineAssignment c) s [.hqe] fun u => Ends s u c x stOk 0 0))
      ∧ (x.jmark = none →
        ((map.testBit e = true ∧ ((∃ v, engAssigned s e = some v ∧ v ≠ t) ∨ (engAssigned s e = none ∧ isReady s (0x40 + e / 16) = false))) ∨ (map.testBit e = false ∧ inSet s e t = true ∧ (engOf s e).st = .running) → Serves (.tenantEngineAssignment c) s [.hqe] fun u => Ends s u c x stSequence 0 0)
        ∧ ((∀ j, j < 256 → map.testBit j = true → engAssigned s j = some t ∨ (engAssigned s j = none ∧ isReady s (0x40 + j / 16) = true ∧ (engOf s j).st ≠ .running)) →
          (∀ j, j < 256 → map.testBit j = false → inSet s j t = true → (engOf s j).st ≠ .running) → Serves (.tenantEngineAssignment c) s [.hqe, .regs, .grv, .win, .ten, .graft] fun u =>
            (∃ y, ctxOf u c = some y ∧ y.jmark = some 0 ∧ (y.stage = .done ∨ y.stage = x.stage))
            ∧ rd u (0x40 + e / 16) (0x1008 + 64 * (e % 16)) = if map.testBit e = true ∧ inSet s e t = false then w32 (t + 2 ^ 15) else if map.testBit e = false ∧ inSet s e t = true then 0 else rd s (0x40 + e / 16) (0x1008 + 64 * (e % 16)))
        ∧ (map = 2 ^ e → engAssigned s e = none → isReady s (0x40 + e / 16) = true → (engOf s e).st = .free → (∀ j, j < 256 → inSet s j t = false) →
          (∀ p ∈ s.grv.eng, ¬(p.2.st = .scrubbing ∧ p.2.tenant = t ∧ p.2.leaving = true)) → Serves (.tenantEngineAssignment c) s [.hqe, .regs, .grv, .win, .ten, .graft] fun u =>
            ctxOf u c = some { x with stage := .done, status := some stOk, dw0 := 0, dw1 := 0, jmark := some 0 } ∧ rd u (0x40 + e / 16) (0x1008 + 64 * (e % 16)) = w32 (t + 2 ^ 15)
            ∧ RegsOnly [(0x40 + e / 16, 0x1008 + 64 * (e % 16))] s u ∧ (engOf u e).st = .scrubbing ∧ (engOf u e).target = some t ∧ EngOnly s u e ∧ Saved s u x { s.ten.saved with engines := Tbl.put s.ten.saved.engines t [e] })
        ∧ (map = 0 → (∀ j, j < 256 → (inSet s j t = true ↔ j = e)) → (engOf s e).st = .assigned → (engOf s e).tenant = t → Serves (.tenantEngineAssignment c) s [.hqe, .regs, .grv, .win, .ten, .graft] fun u =>
            ctxOf u c = some { x with jmark := some 0 } ∧ rd u (0x40 + e / 16) (0x1008 + 64 * (e % 16)) = 0 ∧ RegsOnly [(0x40 + e / 16, 0x1008 + 64 * (e % 16))] s u ∧ (engOf u e).st = .scrubbing
            ∧ (engOf u e).target = none ∧ (engOf u e).leaving = true ∧ EngOnly s u e ∧ Saved s u x { s.ten.saved with engines := Tbl.put s.ten.saved.engines t [] })))
  ∧ (∀ (s : State) (c : CmdId) (x : Ctx) (t a n : Nat), TcReady s c 0x0B 0x1FF 0x1FF 0x3FF 0 x → t = Word.fld x.sqe.cdw11 8 0 → a = Word.fld x.sqe.cdw12 8 0 → n = Word.fld x.sqe.cdw13 9 0 →
      (sliceCount s < a + n ∨ (∃ k, a ≤ k ∧ k < a + n ∧ sliceTen s k ≠ t ∧ sliceTen s k ≠ 0) → Serves (.tenantWindowSlices c) s [.hqe] fun u => Ends s u c x stInvalidField 0 0)
      ∧ (a + n ≤ sliceCount s → (∀ k, a ≤ k → k < a + n → sliceTen s k = t ∨ sliceTen s k = 0) →
        ((∃ k, k < sliceCount s ∧ sliceMapped s k = true ∧ (a ≤ k ∧ k < a + n ∧ sliceTen s k ≠ t ∨ ¬(a ≤ k ∧ k < a + n) ∧ t ≠ 0 ∧ sliceTen s k = t)) → Serves (.tenantWindowSlices c) s [.hqe] fun u => Ends s u c x stSequence 0 0)
        ∧ ((∀ k, k < sliceCount s → sliceMapped s k = true → ¬(a ≤ k ∧ k < a + n ∧ sliceTen s k ≠ t ∨ ¬(a ≤ k ∧ k < a + n) ∧ t ≠ 0 ∧ sliceTen s k = t)) →
          Serves (.tenantWindowSlices c) s anyParts (fun u => Done u c stOk
            ∧ ∀ k, k < sliceCount s → sliceWord u k = Word.setFld (sliceWord s k) 10 2 (if a ≤ k ∧ k < a + n then t else if t ≠ 0 ∧ sliceTen s k = t then 0 else sliceTen s k))
          ∧ (s.win.sf = [] → Serves (.tenantWindowSlices c) s [.hqe, .regs, .ten, .graft] fun u => Ends s u c x stOk 0 0 ∧ u.ten = { s.ten with saved := u.ten.saved }
            ∧ (∀ k, k < sliceCount s → sliceWord u k = Word.setFld (sliceWord s k) 10 2 (if a ≤ k ∧ k < a + n then t else if t ≠ 0 ∧ sliceTen s k = t then 0 else sliceTen s k))
            ∧ RegsOnly ((List.range (sliceCount s)).map fun k => (0x18, 0x1000 + 8 * k)) s u ∧ (Word.bit x.sqe.cdw10 31 = false → u.ten = s.ten ∧ u.graft = s.graft)
            ∧ (Word.bit x.sqe.cdw10 31 = true → ∀ k, k < sliceCount s → Tbl.find u.ten.saved.slices k = if a ≤ k ∧ k < a + n then some t else if t ≠ 0 ∧ Tbl.find s.ten.saved.slices k = some t then some 0
                else Tbl.find s.ten.saved.slices k)))))
  ∧ (∀ (s : State) (c : CmdId) (x : Ctx) (a n : Nat), TcReady s c 0x0C 0x1FF 0x3FF 0 0 x → a = Word.fld x.sqe.cdw11 8 0 → n = Word.fld x.sqe.cdw12 9 0 →
      (sliceCount s < a + n → Serves (.tenantClearWindowSlices c) s [.hqe] fun u => Ends s u c x stInvalidField 0 0)
      ∧ (a + n ≤ sliceCount s →
        ((∃ k, a ≤ k ∧ k < a + n ∧ sliceMapped s k = true) → Serves (.tenantClearWindowSlices c) s [.hqe] fun u => Ends s u c x stSequence 0 0)
        ∧ ((∀ k, a ≤ k → k < a + n → sliceMapped s k = false) → Serves (.tenantClearWindowSlices c) s anyParts fun u => ctxOf u c = some x ∨ (Done u c stOk ∧ ∀ g, a ≤ granSlice g → granSlice g < a + n → granOf u g = {}))
        ∧ ((∀ k, a ≤ k → k < a + n → sliceMapped s k = false) → s.win.sf = [] →
          ((∃ p ∈ s.win.grans, p.2.st = .trickling ∧ a ≤ granSlice p.1 ∧ granSlice p.1 < a + n) → Serves (.tenantClearWindowSlices c) s [] fun _ => True)
          ∧ ((∀ p ∈ s.win.grans, a ≤ granSlice p.1 → granSlice p.1 < a + n → p.2.st ≠ .trickling) → s.win.bdir = [] → s.win.snaps = [] → Serves (.tenantClearWindowSlices c) s [.hqe, .win, .mem, .dmc] fun u =>
              Ends s u c x stOk 0 0 ∧ (∀ g, granOf u g = if a ≤ granSlice g ∧ granSlice g < a + n then {} else granOf s g) ∧ (∀ k, a ≤ k → k < a + n → Tbl.find u.win.floor k = some s.win.gseq)
              ∧ (∀ p ∈ s.win.grans, a ≤ granSlice p.1 → granSlice p.1 < a + n → ∀ line, lineGran line = p.1 → Tbl.find u.win.poison line = none)
              ∧ u.win = { s.win with grans := u.win.grans, floor := u.win.floor, poison := u.win.poison }))))
  ∧ (∀ (s : State) (who : Who) (m : Fin 512) (v : Word),
      (Admits s who 0x01 (0x2000 + 4 * m) v → Does (.trkFnTenantWrite who m v) s [.resp, .regs] fun u => u.resp.code = .ok ∧ RegsOnly [(0x01, 0x2000 + 4 * m)] s u
          ∧ fnTenant u m = if m.val = mgmtPf s ∧ Word.fld v 8 0 ≠ 0 then fnTenant s m else Word.fld v 8 0)
      ∧ (Admits s who 0x0D (0x1800 + 4 * m) v → (allotOk s m (Word.fld v 12 0) = true → Does (.hqeFnQallotWrite who m v) s [.resp, .regs] fun u => u.resp.code = .ok ∧ allotOf u m = Word.fld v 12 0
            ∧ RegsOnly [(0x0D, 0x1800 + 4 * m)] s u)
        ∧ (allotOk s m (Word.fld v 12 0) = false → Does (.hqeFnQallotWrite who m v) s [.resp, .regs] fun u => u.resp.code = .ok ∧ allotOf u m = allotOf s m ∧ Word.bit (rd u 0x0D 0x28) 16 = true))
      ∧ (Admits s who 0x0D (0x2000 + 32 * m) v →
        (ctxMinSum s - ctxMin s m + Word.fld v 15 0 ≤ 49152 → Does (.hqeTenantTableWrite who m 0 v) s [.resp, .regs] fun u => u.resp.code = .ok ∧ ctxMin u m = Word.fld v 15 0 ∧ RegsOnly [(0x0D, 0x2000 + 32 * m), (0x0D, 0x18)] s u)
        ∧ (49152 < ctxMinSum s - ctxMin s m + Word.fld v 15 0 → Does (.hqeTenantTableWrite who m 0 v) s [.resp, .regs] fun u => u.resp.code = .ok ∧ ctxMin u m = ctxMin s m ∧ Word.bit (rd u 0x0D 0x28) 17 = true))
      ∧ (Admits s who 0x0D (0x2004 + 32 * m) v → Does (.hqeTenantTableWrite who m 1 v) s [.resp, .regs] fun u => u.resp.code = .ok ∧ RegsOnly [(0x0D, 0x2004 + 32 * m)] s u
          ∧ ctxCap u m = if Word.fld v 16 0 = 0 ∨ 65536 < Word.fld v 16 0 then ctxCap s m else Word.fld v 16 0)
      ∧ (Admits s who 0x0D (0x2008 + 32 * m) v → Does (.hqeTenantTableWrite who m 2 v) s [.resp, .regs] fun u => u.resp.code = .ok ∧ RegsOnly [(0x0D, 0x2008 + 32 * m)] s u
          ∧ urgRate u m = Word.fld v 23 0 ∧ urgBurst u m = if Word.fld v 31 24 = 0 then urgBurst s m else Word.fld v 31 24))
  ∧ (∀ (s : State) (n a : Nat), 0 < n → freeRoots s n = some a → a + n ≤ rdEntries s ∧ rootFree s a n = true ∧ ∀ b, b < a → rootFree s b n = false)
  ∧ (∀ (s : State) (c : CmdId) (x : Ctx) (size fmt : Nat), CmdReady s c true 0x0D x → Word.fld x.sqe.cdw10 3 0 = 0 → size = leNat (x.data.take 8) → fmt = leNat ((x.data.drop 26).take 1) % 16 →
      (freeNsid s = none → Serves (.namespaceMgmtCreate c) s [.hqe] fun u => Ends s u c x ⟨1, 0x16⟩ 0 0)
      ∧ (∀ id, freeNsid s = some id →
        (Word.fld x.sqe.cdw11 31 24 = 0 →
          (size = 0 → Serves (.namespaceMgmtCreate c) s [.hqe] fun u => Ends s u c x stInvalidField 0 0)
          ∧ (size ≠ 0 → 1 < fmt → Serves (.namespaceMgmtCreate c) s [.hqe] fun u => Ends s u c x ⟨1, 0x0A⟩ 0 0)
          ∧ (size ≠ 0 → fmt ≤ 1 → (freeRoots s (leavesFor size fmt) = none → Serves (.namespaceMgmtCreate c) s [.hqe] fun u => Ends s u c x ⟨1, 0x15⟩ 0 0)
            ∧ (∀ a m, freeRoots s (leavesFor size fmt) = some a → m = { lbas := size, lbaf := fmt, leafBase := a, leafCount := leavesFor size fmt } → Serves (.namespaceMgmtCreate c) s [.hqe, .ten, .ftl, .regs] fun u =>
                NsEdit s u c x id id none ∧ nsOf u id = some m ∧ RootsGone u m ∧ (∀ r, ¬(a ≤ r ∧ r < a + m.leafCount) → rootOf u r = rootOf s r) ∧ rd u 0x1A (0x1000 + 4 * (id - 1)) = 0
                ∧ RegsOnly [(0x1A, 0x1000 + 4 * (id - 1)), (0x0E, 0x18), (0x0F, 0x18)] s u)))
        ∧ (Word.fld x.sqe.cdw11 31 24 = 3 → size = 0 → Serves (.namespaceMgmtCreate c) s [.hqe] fun u => Ends s u c x stInvalidField 0 0)
        ∧ (Word.fld x.sqe.cdw11 31 24 = 3 → size ≠ 0 → (freeBlocks s (ceilDiv size (2 ^ 24)) = none → Serves (.namespaceMgmtCreate c) s [.hqe] fun u => Ends s u c x ⟨1, 0x15⟩ 0 0)
          ∧ (∀ l, freeBlocks s (ceilDiv size (2 ^ 24)) = some l → Serves (.namespaceMgmtCreate c) s [.hqe, .ten, .ftl, .regs, .mem, .dmc] fun u => NsEdit s u c x id id none
              ∧ nsOf u id = some { kind := .memory, lbas := size, blocks := l }
              ∧ ∀ b ∈ l, ∀ g : Fin 16, refusesRegs s (0x40 + g) = false → rdF u (0x40 + g) (0x3000 + 4 * (b / 2)) (b % 2 * 16 + 15) (b % 2 * 16) = 2 ^ 15))
        ∧ (Word.fld x.sqe.cdw11 31 24 = 4 → Serves (.namespaceMgmtCreate c) s [.hqe, .ten, .ftl, .regs] fun u => NsEdit s u c x id id none ∧ nsOf u id = some { kind := .compute })
        ∧ (Word.fld x.sqe.cdw11 31 24 ∉ [0, 3, 4] → Serves (.namespaceMgmtCreate c) s [.hqe] fun u => Ends s u c x stInvalidField 0 0)))
  ∧ (∀ (s : State) (c : CmdId) (x : Ctx) (id : Nat), CmdReady s c true 0x0D x → Word.fld x.sqe.cdw10 3 0 = 1 → id = x.sqe.nsid →
      (id = 0xFFFFFFFF → ((∃ p ∈ s.ten.nss, p.2.deleting = none) → Serves (.namespaceMgmtDelete c) s anyParts fun u => (∃ y, ctxOf u c = some y ∧ (y.stage = .waiting ∨ y.stage = .done ∨ y.stage = .waitClose))
            ∧ ∀ k n, nsOf s k = some n → nsOf u k = none ∨ nsOf u k = some { n with deleting := some (n.deleting.getD c) })
        ∧ ((∀ p ∈ s.ten.nss, p.2.deleting ≠ none) → Serves (.namespaceMgmtDelete c) s [.hqe] fun u => Ends s u c x stOk 0 0)
        ∧ (s.ten.nss ≠ [] → (∀ p ∈ s.ten.nss, p.2.deleting = none ∧ nsInUse s p.1 c = true) → Serves (.namespaceMgmtDelete c) s [.hqe, .ten] fun u => ctxOf u c = some { x with stage := .waiting }
            ∧ ∀ k n, nsOf s k = some n → nsOf u k = some { n with deleting := some c }))
      ∧ (id ≠ 0xFFFFFFFF → nsOf s id = none → Serves (.namespaceMgmtDelete c) s [.hqe] fun u => Ends s u c x stInvalidNs 0 0)
      ∧ (∀ n, id ≠ 0xFFFFFFFF → nsOf s id = some n → (n.deleting.isSome = true → Serves (.namespaceMgmtDelete c) s [.hqe] fun u => Ends s u c x stInvalidNs 0 0)
        ∧ (n.deleting = none → nsInUse s id c = true ∨ (n.leafCount ≠ 0 ∧ jStalled s = true) → Serves (.namespaceMgmtDelete c) s [.hqe, .ten] fun u => ctxOf u c = some { x with stage := .waiting } ∧ nsOf u id = some { n with deleting := some c }
            ∧ (∀ d, d ≠ c → ctxOf u d = ctxOf s d) ∧ ∀ k, k ≠ id → nsOf u k = nsOf s k)
        ∧ (n.deleting = none → nsInUse s id c = false → n.leafCount = 0 ∨ jStalled s = false → Serves (.namespaceMgmtDelete c) s anyParts fun u => nsOf u id = none ∧ (∀ k, k ≠ id → nsOf u k = nsOf s k)
            ∧ ∃ y, ctxOf u c = some y ∧ (y.stage = .waiting ∨ y.stage = .done ∨ y.stage = .waitClose))
        ∧ (n.deleting = none → nsInUse s id c = false → Droppable s n → (∀ p ∈ s.ten.nss, p.2.deleting ≠ some c) → Serves (.namespaceMgmtDelete c) s (walkParts ++ [.ten, .sec, .grv]) fun u => NsGone s u c x id n)))
  ∧ (∀ (s : State) (id : Nat),
      ((∀ n, nsOf s id = some n → n.deleting = none) → Serves (.namespaceDeleteResume id) s [] fun _ => True)
      ∧ (∀ n c, nsOf s id = some n → n.deleting = some c → (nsInUse s id c = true ∨ (n.leafCount ≠ 0 ∧ jStalled s = true) → Serves (.namespaceDeleteResume id) s [] fun _ => True)
        ∧ (nsInUse s id c = false → n.leafCount = 0 ∨ jStalled s = false → Serves (.namespaceDeleteResume id) s anyParts fun u => nsOf u id = none ∧ ∀ k, k ≠ id → nsOf u k = nsOf s k)
        ∧ (∀ x, nsInUse s id c = false → Droppable s n → ctxOf s c = some x → x.stage = .waiting →
          ((∀ p ∈ s.ten.nss, p.1 ≠ id → p.2.deleting ≠ some c) → Serves (.namespaceDeleteResume id) s (walkParts ++ [.ten, .sec, .grv]) fun u => NsGone s u c x id n)
          ∧ ((∃ p ∈ s.ten.nss, p.1 ≠ id ∧ p.2.deleting = some c) → Serves (.namespaceDeleteResume id) s (walkParts ++ [.ten, .sec, .grv]) fun u => nsOf u id = none ∧ RootsGone u n ∧ ctxOf u c = some x))))
  ∧ (∀ (s : State) (c : CmdId) (x : Ctx) (id k : Nat) (l : List Nat), CmdReady s c true 0x15 x → id = x.sqe.nsid → k = Word.fld x.sqe.cdw10 3 0 → l = ctrlList x.data →
      (nsOf s id = none → Does (.namespaceAttachment c) s [.hqe] fun u => Ends s u c x stInvalidNs 0 0)
      ∧ (∀ n, nsOf s id = some n →
        (l = [] ∨ 2047 < leNat (x.data.take 2) ∨ (∃ m ∈ l, 511 < m ∨ fnPresent s m = false) → Does (.namespaceAttachment c) s [.hqe] fun u => Ends s u c x ⟨2, 0x1C⟩ 0 0)
        ∧ (l ≠ [] → leNat (x.data.take 2) ≤ 2047 → (∀ m ∈ l, m ≤ 511 ∧ fnPresent s m = true) →
          (k = 0 → n.deleting ≠ none → Does (.namespaceAttachment c) s [.hqe] fun u => Ends s u c x stInvalidNs 0 0)
          ∧ (k = 0 → n.deleting = none → ((∃ m ∈ l, fnTenant s m ∉ n.party) → Does (.namespaceAttachment c) s [.hqe] fun u => Ends s u c x ⟨2, 0x1C⟩ 0 0)
            ∧ ((∀ m ∈ l, fnTenant s m ∈ n.party) → ((∃ m ∈ l, m ∈ n.attached) → Does (.namespaceAttachment c) s [.hqe] fun u => Ends s u c x ⟨1, 0x18⟩ 0 0)
              ∧ ((∀ m ∈ l, m ∉ n.attached) → Does (.namespaceAttachment c) s [.hqe, .ten] fun u => Ends s u c x stOk 0 0 ∧ (∀ j, j ≠ id → nsOf u j = nsOf s j)
                  ∧ ∃ r, nsOf u id = some { n with attached := r } ∧ ∀ m, m < 512 → (m ∈ r ↔ m ∈ n.attached ∨ m ∈ l))))
          ∧ (k = 1 → ((∃ m ∈ l, m ∉ n.attached) → Does (.namespaceAttachment c) s [.hqe] fun u => Ends s u c x ⟨1, 0x1A⟩ 0 0)
            ∧ ((∀ m ∈ l, m ∈ n.attached) → Does (.namespaceAttachment c) s [.hqe, .ten] fun u => Ends s u c x stOk 0 0 ∧ (∀ j, j ≠ id → nsOf u j = nsOf s j)
                ∧ ∃ r, nsOf u id = some { n with attached := r } ∧ ∀ m, m ∈ r ↔ m ∈ n.attached ∧ m ∉ l))
          ∧ (1 < k → Does (.namespaceAttachment c) s [.hqe] fun u => Ends s u c x stInvalidField 0 0))))
  ∧ (∀ (s : State) (c : CmdId) (x : Ctx) (id f ses : Nat), CmdReady s c true 0x80 x → id = x.sqe.nsid → f = Word.fld x.sqe.cdw10 3 0 → ses = Word.fld x.sqe.cdw10 11 9 →
      (nsOf s id = none → Serves (.formatNvm c) s [.hqe] fun u => Ends s u c x stInvalidNs 0 0)
      ∧ (∀ n, nsOf s id = some n → n.kind ≠ .nvm ∨ n.deleting ≠ none → Serves (.formatNvm c) s [.hqe] fun u => Ends s u c x stInvalidNs 0 0)
      ∧ (∀ n, nsOf s id = some n → n.kind = .nvm → n.deleting = none →
        (c.mid ∉ n.attached → Serves (.formatNvm c) s [.hqe] fun u => Ends s u c x stInvalidNs 0 0)
        ∧ (c.mid ∈ n.attached → (1 < f ∨ Word.fld x.sqe.cdw10 8 4 ≠ 0 → Serves (.formatNvm c) s [.hqe] fun u => Ends s u c x ⟨1, 0x0A⟩ 0 0)
          ∧ (f ≤ 1 → Word.fld x.sqe.cdw10 8 4 = 0 → (2 < ses ∨ (ses = 2 ∧ nsKey s id = none) → Serves (.formatNvm c) s [.hqe] fun u => Ends s u c x stInvalidField 0 0)
            ∧ (ses ≤ 1 ∨ (ses = 2 ∧ nsKey s id ≠ none) →
              (s.cpc.readOnly ≠ 0 → Serves (.formatNvm c) s [.hqe] fun u => Ends s u c x stNsWriteProt 0 0)
              ∧ (s.cpc.readOnly = 0 → earlierOnNs s id c = true ∨ jStalled s = true → Serves (.formatNvm c) s [] fun _ => True)
              ∧ (∀ m, s.cpc.readOnly = 0 → earlierOnNs s id c = false → jStalled s = false → m = { n with lbaf := f, lbas := if n.lbaf = f then n.lbas else if f = 1 then n.lbas * 8 else ceilDiv n.lbas 8 } →
                (∀ k, ses = 2 → nsKey s id = some k → formatKey s k = none → Serves (.formatNvm c) s [.hqe] fun u => Ends s u c x stInternal 0 0)
                ∧ (∀ k v, ses = 2 → nsKey s id = some k → formatKey s k = some v → Serves (.formatNvm c) s anyParts fun u => Edited u c ∧ nsOf u id = some m ∧ u.cpc.lost = false ∧ u.sec = v.sec ∧ (xtsSlot u k).prev = [])
                ∧ (ses ≤ 1 → Serves (.formatNvm c) s anyParts (fun u => Edited u c ∧ nsOf u id = some m ∧ (∀ j, j ≠ id → nsOf u j = nsOf s j) ∧ u.cpc.lost = false)
                  ∧ (Droppable s n → Serves (.formatNvm c) s (walkParts ++ [.ten]) fun u => NsEdit s u c x id 0 (wholeNs n) ∧ RootsGone u n ∧ nsOf u id = some m ∧ u.cpc.lost = false))))))))
  ∧ (∀ (s : State) (k : Nat), s.sec.drbgOk = false → formatKey s k = none)
end

