-- ==== Sys2Proof/Laws/State.lean ====
section
/-! SUPPORT. What each named update of the state leaves unchanged, one lemma per field. -/

namespace Sys2Proof.Laws

open Sys2Proof Sys2Proof.Machine

@[simp] theorem wr_pending (s : State) (rgn off : Nat) (v : Word) : (wr s rgn off v).pending = s.pending := by unfold wr; exact rfl
@[simp] theorem wr_freeCtr (s : State) (rgn off : Nat) (v : Word) : (wr s rgn off v).freeCtr = s.freeCtr := by unfold wr; exact rfl
@[simp] theorem wr_clock (s : State) (rgn off : Nat) (v : Word) : (wr s rgn off v).clock = s.clock := by unfold wr; exact rfl
@[simp] theorem wr_resp (s : State) (rgn off : Nat) (v : Word) : (wr s rgn off v).resp = s.resp := by unfold wr; exact rfl
@[simp] theorem wr_latch (s : State) (rgn off : Nat) (v : Word) : (wr s rgn off v).latch = s.latch := by unfold wr; exact rfl
@[simp] theorem wr_blk (s : State) (rgn off : Nat) (v : Word) : (wr s rgn off v).blk = s.blk := by unfold wr; exact rfl
@[simp] theorem wr_trunk (s : State) (rgn off : Nat) (v : Word) : (wr s rgn off v).trunk = s.trunk := by unfold wr; exact rfl
@[simp] theorem wr_evq (s : State) (rgn off : Nat) (v : Word) : (wr s rgn off v).evq = s.evq := by unfold wr; exact rfl
@[simp] theorem wr_mem (s : State) (rgn off : Nat) (v : Word) : (wr s rgn off v).mem = s.mem := by unfold wr; exact rfl
@[simp] theorem wr_dev (s : State) (rgn off : Nat) (v : Word) : (wr s rgn off v).dev = s.dev := by unfold wr; exact rfl
@[simp] theorem wr_ports (s : State) (rgn off : Nat) (v : Word) : (wr s rgn off v).ports = s.ports := by unfold wr; exact rfl
@[simp] theorem wr_hqe (s : State) (rgn off : Nat) (v : Word) : (wr s rgn off v).hqe = s.hqe := by unfold wr; exact rfl
@[simp] theorem wr_ten (s : State) (rgn off : Nat) (v : Word) : (wr s rgn off v).ten = s.ten := by unfold wr; exact rfl
@[simp] theorem wr_bpm (s : State) (rgn off : Nat) (v : Word) : (wr s rgn off v).bpm = s.bpm := by unfold wr; exact rfl
@[simp] theorem wr_dmc (s : State) (rgn off : Nat) (v : Word) : (wr s rgn off v).dmc = s.dmc := by unfold wr; exact rfl
@[simp] theorem wr_ftl (s : State) (rgn off : Nat) (v : Word) : (wr s rgn off v).ftl = s.ftl := by unfold wr; exact rfl
@[simp] theorem wr_cpc (s : State) (rgn off : Nat) (v : Word) : (wr s rgn off v).cpc = s.cpc := by unfold wr; exact rfl
@[simp] theorem wr_flash (s : State) (rgn off : Nat) (v : Word) : (wr s rgn off v).flash = s.flash := by unfold wr; exact rfl
@[simp] theorem wr_ldc (s : State) (rgn off : Nat) (v : Word) : (wr s rgn off v).ldc = s.ldc := by unfold wr; exact rfl
@[simp] theorem wr_sec (s : State) (rgn off : Nat) (v : Word) : (wr s rgn off v).sec = s.sec := by unfold wr; exact rfl
@[simp] theorem wr_win (s : State) (rgn off : Nat) (v : Word) : (wr s rgn off v).win = s.win := by unfold wr; exact rfl
@[simp] theorem wr_grv (s : State) (rgn off : Nat) (v : Word) : (wr s rgn off v).grv = s.grv := by unfold wr; exact rfl
@[simp] theorem wr_pwr (s : State) (rgn off : Nat) (v : Word) : (wr s rgn off v).pwr = s.pwr := by unfold wr; exact rfl
@[simp] theorem wr_aon (s : State) (rgn off : Nat) (v : Word) : (wr s rgn off v).aon = s.aon := by unfold wr; exact rfl
@[simp] theorem wr_fus (s : State) (rgn off : Nat) (v : Word) : (wr s rgn off v).fus = s.fus := by unfold wr; exact rfl
@[simp] theorem wr_bst (s : State) (rgn off : Nat) (v : Word) : (wr s rgn off v).bst = s.bst := by unfold wr; exact rfl
@[simp] theorem wr_cores (s : State) (rgn off : Nat) (v : Word) : (wr s rgn off v).cores = s.cores := by unfold wr; exact rfl
@[simp] theorem wr_tap (s : State) (rgn off : Nat) (v : Word) : (wr s rgn off v).tap = s.tap := by unfold wr; exact rfl
@[simp] theorem wr_mbx (s : State) (rgn off : Nat) (v : Word) : (wr s rgn off v).mbx = s.mbx := by unfold wr; exact rfl
@[simp] theorem wr_xmv (s : State) (rgn off : Nat) (v : Word) : (wr s rgn off v).xmv = s.xmv := by unfold wr; exact rfl
@[simp] theorem wr_xmvTurn (s : State) (rgn off : Nat) (v : Word) : (wr s rgn off v).xmvTurn = s.xmvTurn := by unfold wr; exact rfl
@[simp] theorem wr_graft (s : State) (rgn off : Nat) (v : Word) : (wr s rgn off v).graft = s.graft := by unfold wr; exact rfl
@[simp] theorem wr_rings (s : State) (rgn off : Nat) (v : Word) : (wr s rgn off v).rings = s.rings := by unfold wr; exact rfl

@[simp] theorem setBlk_pending (s : State) (rgn : Nat) (b : BlkSt) : (setBlk s rgn b).pending = s.pending := by unfold setBlk; exact rfl
@[simp] theorem setBlk_freeCtr (s : State) (rgn : Nat) (b : BlkSt) : (setBlk s rgn b).freeCtr = s.freeCtr := by unfold setBlk; exact rfl
@[simp] theorem setBlk_clock (s : State) (rgn : Nat) (b : BlkSt) : (setBlk s rgn b).clock = s.clock := by unfold setBlk; exact rfl
@[simp] theorem setBlk_resp (s : State) (rgn : Nat) (b : BlkSt) : (setBlk s rgn b).resp = s.resp := by unfold setBlk; exact rfl
@[simp] theorem setBlk_regs (s : State) (rgn : Nat) (b : BlkSt) : (setBlk s rgn b).regs = s.regs := by unfold setBlk; exact rfl
@[simp] theorem setBlk_latch (s : State) (rgn : Nat) (b : BlkSt) : (setBlk s rgn b).latch = s.latch := by unfold setBlk; exact rfl
@[simp] theorem setBlk_trunk (s : State) (rgn : Nat) (b : BlkSt) : (setBlk s rgn b).trunk = s.trunk := by unfold setBlk; exact rfl
@[simp] theorem setBlk_evq (s : State) (rgn : Nat) (b : BlkSt) : (setBlk s rgn b).evq = s.evq := by unfold setBlk; exact rfl
@[simp] theorem setBlk_mem (s : State) (rgn : Nat) (b : BlkSt) : (setBlk s rgn b).mem = s.mem := by unfold setBlk; exact rfl
@[simp] theorem setBlk_dev (s : State) (rgn : Nat) (b : BlkSt) : (setBlk s rgn b).dev = s.dev := by unfold setBlk; exact rfl
@[simp] theorem setBlk_ports (s : State) (rgn : Nat) (b : BlkSt) : (setBlk s rgn b).ports = s.ports := by unfold setBlk; exact rfl
@[simp] theorem setBlk_hqe (s : State) (rgn : Nat) (b : BlkSt) : (setBlk s rgn b).hqe = s.hqe := by unfold setBlk; exact rfl
@[simp] theorem setBlk_ten (s : State) (rgn : Nat) (b : BlkSt) : (setBlk s rgn b).ten = s.ten := by unfold setBlk; exact rfl
@[simp] theorem setBlk_bpm (s : State) (rgn : Nat) (b : BlkSt) : (setBlk s rgn b).bpm = s.bpm := by unfold setBlk; exact rfl
@[simp] theorem setBlk_dmc (s : State) (rgn : Nat) (b : BlkSt) : (setBlk s rgn b).dmc = s.dmc := by unfold setBlk; exact rfl
@[simp] theorem setBlk_ftl (s : State) (rgn : Nat) (b : BlkSt) : (setBlk s rgn b).ftl = s.ftl := by unfold setBlk; exact rfl
@[simp] theorem setBlk_cpc (s : State) (rgn : Nat) (b : BlkSt) : (setBlk s rgn b).cpc = s.cpc := by unfold setBlk; exact rfl
@[simp] theorem setBlk_flash (s : State) (rgn : Nat) (b : BlkSt) : (setBlk s rgn b).flash = s.flash := by unfold setBlk; exact rfl
@[simp] theorem setBlk_ldc (s : State) (rgn : Nat) (b : BlkSt) : (setBlk s rgn b).ldc = s.ldc := by unfold setBlk; exact rfl
@[simp] theorem setBlk_sec (s : State) (rgn : Nat) (b : BlkSt) : (setBlk s rgn b).sec = s.sec := by unfold setBlk; exact rfl
@[simp] theorem setBlk_win (s : State) (rgn : Nat) (b : BlkSt) : (setBlk s rgn b).win = s.win := by unfold setBlk; exact rfl
@[simp] theorem setBlk_grv (s : State) (rgn : Nat) (b : BlkSt) : (setBlk s rgn b).grv = s.grv := by unfold setBlk; exact rfl
@[simp] theorem setBlk_pwr (s : State) (rgn : Nat) (b : BlkSt) : (setBlk s rgn b).pwr = s.pwr := by unfold setBlk; exact rfl
@[simp] theorem setBlk_aon (s : State) (rgn : Nat) (b : BlkSt) : (setBlk s rgn b).aon = s.aon := by unfold setBlk; exact rfl
@[simp] theorem setBlk_fus (s : State) (rgn : Nat) (b : BlkSt) : (setBlk s rgn b).fus = s.fus := by unfold setBlk; exact rfl
@[simp] theorem setBlk_bst (s : State) (rgn : Nat) (b : BlkSt) : (setBlk s rgn b).bst = s.bst := by unfold setBlk; exact rfl
@[simp] theorem setBlk_cores (s : State) (rgn : Nat) (b : BlkSt) : (setBlk s rgn b).cores = s.cores := by unfold setBlk; exact rfl
@[simp] theorem setBlk_tap (s : State) (rgn : Nat) (b : BlkSt) : (setBlk s rgn b).tap = s.tap := by unfold setBlk; exact rfl
@[simp] theorem setBlk_mbx (s : State) (rgn : Nat) (b : BlkSt) : (setBlk s rgn b).mbx = s.mbx := by unfold setBlk; exact rfl
@[simp] theorem setBlk_xmv (s : State) (rgn : Nat) (b : BlkSt) : (setBlk s rgn b).xmv = s.xmv := by unfold setBlk; exact rfl
@[simp] theorem setBlk_xmvTurn (s : State) (rgn : Nat) (b : BlkSt) : (setBlk s rgn b).xmvTurn = s.xmvTurn := by unfold setBlk; exact rfl
@[simp] theorem setBlk_graft (s : State) (rgn : Nat) (b : BlkSt) : (setBlk s rgn b).graft = s.graft := by unfold setBlk; exact rfl
@[simp] theorem setBlk_rings (s : State) (rgn : Nat) (b : BlkSt) : (setBlk s rgn b).rings = s.rings := by unfold setBlk; exact rfl

@[simp] theorem emit_pending (s : State) (code sev rgn : Nat) (tn : Option Nat) (d : List Byte) : (emit s code sev rgn tn d).pending = s.pending := by unfold emit; exact rfl
@[simp] theorem emit_freeCtr (s : State) (code sev rgn : Nat) (tn : Option Nat) (d : List Byte) : (emit s code sev rgn tn d).freeCtr = s.freeCtr := by unfold emit; exact rfl
@[simp] theorem emit_clock (s : State) (code sev rgn : Nat) (tn : Option Nat) (d : List Byte) : (emit s code sev rgn tn d).clock = s.clock := by unfold emit; exact rfl
@[simp] theorem emit_resp (s : State) (code sev rgn : Nat) (tn : Option Nat) (d : List Byte) : (emit s code sev rgn tn d).resp = s.resp := by unfold emit; exact rfl
@[simp] theorem emit_regs (s : State) (code sev rgn : Nat) (tn : Option Nat) (d : List Byte) : (emit s code sev rgn tn d).regs = s.regs := by unfold emit; exact rfl
@[simp] theorem emit_latch (s : State) (code sev rgn : Nat) (tn : Option Nat) (d : List Byte) : (emit s code sev rgn tn d).latch = s.latch := by unfold emit; exact rfl
@[simp] theorem emit_blk (s : State) (code sev rgn : Nat) (tn : Option Nat) (d : List Byte) : (emit s code sev rgn tn d).blk = s.blk := by unfold emit; exact rfl
@[simp] theorem emit_trunk (s : State) (code sev rgn : Nat) (tn : Option Nat) (d : List Byte) : (emit s code sev rgn tn d).trunk = s.trunk := by unfold emit; exact rfl
@[simp] theorem emit_mem (s : State) (code sev rgn : Nat) (tn : Option Nat) (d : List Byte) : (emit s code sev rgn tn d).mem = s.mem := by unfold emit; exact rfl
@[simp] theorem emit_dev (s : State) (code sev rgn : Nat) (tn : Option Nat) (d : List Byte) : (emit s code sev rgn tn d).dev = s.dev := by unfold emit; exact rfl
@[simp] theorem emit_ports (s : State) (code sev rgn : Nat) (tn : Option Nat) (d : List Byte) : (emit s code sev rgn tn d).ports = s.ports := by unfold emit; exact rfl
@[simp] theorem emit_hqe (s : State) (code sev rgn : Nat) (tn : Option Nat) (d : List Byte) : (emit s code sev rgn tn d).hqe = s.hqe := by unfold emit; exact rfl
@[simp] theorem emit_ten (s : State) (code sev rgn : Nat) (tn : Option Nat) (d : List Byte) : (emit s code sev rgn tn d).ten = s.ten := by unfold emit; exact rfl
@[simp] theorem emit_bpm (s : State) (code sev rgn : Nat) (tn : Option Nat) (d : List Byte) : (emit s code sev rgn tn d).bpm = s.bpm := by unfold emit; exact rfl
@[simp] theorem emit_dmc (s : State) (code sev rgn : Nat) (tn : Option Nat) (d : List Byte) : (emit s code sev rgn tn d).dmc = s.dmc := by unfold emit; exact rfl
@[simp] theorem emit_ftl (s : State) (code sev rgn : Nat) (tn : Option Nat) (d : List Byte) : (emit s code sev rgn tn d).ftl = s.ftl := by unfold emit; exact rfl
@[simp] theorem emit_cpc (s : State) (code sev rgn : Nat) (tn : Option Nat) (d : List Byte) : (emit s code sev rgn tn d).cpc = s.cpc := by unfold emit; exact rfl
@[simp] theorem emit_flash (s : State) (code sev rgn : Nat) (tn : Option Nat) (d : List Byte) : (emit s code sev rgn tn d).flash = s.flash := by unfold emit; exact rfl
@[simp] theorem emit_ldc (s : State) (code sev rgn : Nat) (tn : Option Nat) (d : List Byte) : (emit s code sev rgn tn d).ldc = s.ldc := by unfold emit; exact rfl
@[simp] theorem emit_sec (s : State) (code sev rgn : Nat) (tn : Option Nat) (d : List Byte) : (emit s code sev rgn tn d).sec = s.sec := by unfold emit; exact rfl
@[simp] theorem emit_win (s : State) (code sev rgn : Nat) (tn : Option Nat) (d : List Byte) : (emit s code sev rgn tn d).win = s.win := by unfold emit; exact rfl
@[simp] theorem emit_grv (s : State) (code sev rgn : Nat) (tn : Option Nat) (d : List Byte) : (emit s code sev rgn tn d).grv = s.grv := by unfold emit; exact rfl
@[simp] theorem emit_pwr (s : State) (code sev rgn : Nat) (tn : Option Nat) (d : List Byte) : (emit s code sev rgn tn d).pwr = s.pwr := by unfold emit; exact rfl
@[simp] theorem emit_aon (s : State) (code sev rgn : Nat) (tn : Option Nat) (d : List Byte) : (emit s code sev rgn tn d).aon = s.aon := by unfold emit; exact rfl
@[simp] theorem emit_fus (s : State) (code sev rgn : Nat) (tn : Option Nat) (d : List Byte) : (emit s code sev rgn tn d).fus = s.fus := by unfold emit; exact rfl
@[simp] theorem emit_bst (s : State) (code sev rgn : Nat) (tn : Option Nat) (d : List Byte) : (emit s code sev rgn tn d).bst = s.bst := by unfold emit; exact rfl
@[simp] theorem emit_cores (s : State) (code sev rgn : Nat) (tn : Option Nat) (d : List Byte) : (emit s code sev rgn tn d).cores = s.cores := by unfold emit; exact rfl
@[simp] theorem emit_tap (s : State) (code sev rgn : Nat) (tn : Option Nat) (d : List Byte) : (emit s code sev rgn tn d).tap = s.tap := by unfold emit; exact rfl
@[simp] theorem emit_mbx (s : State) (code sev rgn : Nat) (tn : Option Nat) (d : List Byte) : (emit s code sev rgn tn d).mbx = s.mbx := by unfold emit; exact rfl
@[simp] theorem emit_xmv (s : State) (code sev rgn : Nat) (tn : Option Nat) (d : List Byte) : (emit s code sev rgn tn d).xmv = s.xmv := by unfold emit; exact rfl
@[simp] theorem emit_xmvTurn (s : State) (code sev rgn : Nat) (tn : Option Nat) (d : List Byte) : (emit s code sev rgn tn d).xmvTurn = s.xmvTurn := by unfold emit; exact rfl
@[simp] theorem emit_graft (s : State) (code sev rgn : Nat) (tn : Option Nat) (d : List Byte) : (emit s code sev rgn tn d).graft = s.graft := by unfold emit; exact rfl
@[simp] theorem emit_rings (s : State) (code sev rgn : Nat) (tn : Option Nat) (d : List Byte) : (emit s code sev rgn tn d).rings = s.rings := by unfold emit; exact rfl

@[simp] theorem answer_pending (s : State) (c : TCode) (d : Nat) : (answer s c d).pending = s.pending := by unfold answer; exact rfl
@[simp] theorem answer_freeCtr (s : State) (c : TCode) (d : Nat) : (answer s c d).freeCtr = s.freeCtr := by unfold answer; exact rfl
@[simp] theorem answer_clock (s : State) (c : TCode) (d : Nat) : (answer s c d).clock = s.clock := by unfold answer; exact rfl
@[simp] theorem answer_regs (s : State) (c : TCode) (d : Nat) : (answer s c d).regs = s.regs := by unfold answer; exact rfl
@[simp] theorem answer_latch (s : State) (c : TCode) (d : Nat) : (answer s c d).latch = s.latch := by unfold answer; exact rfl
@[simp] theorem answer_blk (s : State) (c : TCode) (d : Nat) : (answer s c d).blk = s.blk := by unfold answer; exact rfl
@[simp] theorem answer_trunk (s : State) (c : TCode) (d : Nat) : (answer s c d).trunk = s.trunk := by unfold answer; exact rfl
@[simp] theorem answer_evq (s : State) (c : TCode) (d : Nat) : (answer s c d).evq = s.evq := by unfold answer; exact rfl
@[simp] theorem answer_mem (s : State) (c : TCode) (d : Nat) : (answer s c d).mem = s.mem := by unfold answer; exact rfl
@[simp] theorem answer_dev (s : State) (c : TCode) (d : Nat) : (answer s c d).dev = s.dev := by unfold answer; exact rfl
@[simp] theorem answer_ports (s : State) (c : TCode) (d : Nat) : (answer s c d).ports = s.ports := by unfold answer; exact rfl
@[simp] theorem answer_hqe (s : State) (c : TCode) (d : Nat) : (answer s c d).hqe = s.hqe := by unfold answer; exact rfl
@[simp] theorem answer_ten (s : State) (c : TCode) (d : Nat) : (answer s c d).ten = s.ten := by unfold answer; exact rfl
@[simp] theorem answer_bpm (s : State) (c : TCode) (d : Nat) : (answer s c d).bpm = s.bpm := by unfold answer; exact rfl
@[simp] theorem answer_dmc (s : State) (c : TCode) (d : Nat) : (answer s c d).dmc = s.dmc := by unfold answer; exact rfl
@[simp] theorem answer_ftl (s : State) (c : TCode) (d : Nat) : (answer s c d).ftl = s.ftl := by unfold answer; exact rfl
@[simp] theorem answer_cpc (s : State) (c : TCode) (d : Nat) : (answer s c d).cpc = s.cpc := by unfold answer; exact rfl
@[simp] theorem answer_flash (s : State) (c : TCode) (d : Nat) : (answer s c d).flash = s.flash := by unfold answer; exact rfl
@[simp] theorem answer_ldc (s : State) (c : TCode) (d : Nat) : (answer s c d).ldc = s.ldc := by unfold answer; exact rfl
@[simp] theorem answer_sec (s : State) (c : TCode) (d : Nat) : (answer s c d).sec = s.sec := by unfold answer; exact rfl
@[simp] theorem answer_win (s : State) (c : TCode) (d : Nat) : (answer s c d).win = s.win := by unfold answer; exact rfl
@[simp] theorem answer_grv (s : State) (c : TCode) (d : Nat) : (answer s c d).grv = s.grv := by unfold answer; exact rfl
@[simp] theorem answer_pwr (s : State) (c : TCode) (d : Nat) : (answer s c d).pwr = s.pwr := by unfold answer; exact rfl
@[simp] theorem answer_aon (s : State) (c : TCode) (d : Nat) : (answer s c d).aon = s.aon := by unfold answer; exact rfl
@[simp] theorem answer_fus (s : State) (c : TCode) (d : Nat) : (answer s c d).fus = s.fus := by unfold answer; exact rfl
@[simp] theorem answer_bst (s : State) (c : TCode) (d : Nat) : (answer s c d).bst = s.bst := by unfold answer; exact rfl
@[simp] theorem answer_cores (s : State) (c : TCode) (d : Nat) : (answer s c d).cores = s.cores := by unfold answer; exact rfl
@[simp] theorem answer_tap (s : State) (c : TCode) (d : Nat) : (answer s c d).tap = s.tap := by unfold answer; exact rfl
@[simp] theorem answer_mbx (s : State) (c : TCode) (d : Nat) : (answer s c d).mbx = s.mbx := by unfold answer; exact rfl
@[simp] theorem answer_xmv (s : State) (c : TCode) (d : Nat) : (answer s c d).xmv = s.xmv := by unfold answer; exact rfl
@[simp] theorem answer_xmvTurn (s : State) (c : TCode) (d : Nat) : (answer s c d).xmvTurn = s.xmvTurn := by unfold answer; exact rfl
@[simp] theorem answer_graft (s : State) (c : TCode) (d : Nat) : (answer s c d).graft = s.graft := by unfold answer; exact rfl
@[simp] theorem answer_rings (s : State) (c : TCode) (d : Nat) : (answer s c d).rings = s.rings := by unfold answer; exact rfl

@[simp] theorem answerBytes_pending (s : State) (b : List Byte) : (answerBytes s b).pending = s.pending := by unfold answerBytes; exact rfl
@[simp] theorem answerBytes_freeCtr (s : State) (b : List Byte) : (answerBytes s b).freeCtr = s.freeCtr := by unfold answerBytes; exact rfl
@[simp] theorem answerBytes_clock (s : State) (b : List Byte) : (answerBytes s b).clock = s.clock := by unfold answerBytes; exact rfl
@[simp] theorem answerBytes_regs (s : State) (b : List Byte) : (answerBytes s b).regs = s.regs := by unfold answerBytes; exact rfl
@[simp] theorem answerBytes_latch (s : State) (b : List Byte) : (answerBytes s b).latch = s.latch := by unfold answerBytes; exact rfl
@[simp] theorem answerBytes_blk (s : State) (b : List Byte) : (answerBytes s b).blk = s.blk := by unfold answerBytes; exact rfl
@[simp] theorem answerBytes_trunk (s : State) (b : List Byte) : (answerBytes s b).trunk = s.trunk := by unfold answerBytes; exact rfl
@[simp] theorem answerBytes_evq (s : State) (b : List Byte) : (answerBytes s b).evq = s.evq := by unfold answerBytes; exact rfl
@[simp] theorem answerBytes_mem (s : State) (b : List Byte) : (answerBytes s b).mem = s.mem := by unfold answerBytes; exact rfl
@[simp] theorem answerBytes_dev (s : State) (b : List Byte) : (answerBytes s b).dev = s.dev := by unfold answerBytes; exact rfl
@[simp] theorem answerBytes_ports (s : State) (b : List Byte) : (answerBytes s b).ports = s.ports := by unfold answerBytes; exact rfl
@[simp] theorem answerBytes_hqe (s : State) (b : List Byte) : (answerBytes s b).hqe = s.hqe := by unfold answerBytes; exact rfl
@[simp] theorem answerBytes_ten (s : State) (b : List Byte) : (answerBytes s b).ten = s.ten := by unfold answerBytes; exact rfl
@[simp] theorem answerBytes_bpm (s : State) (b : List Byte) : (answerBytes s b).bpm = s.bpm := by unfold answerBytes; exact rfl
@[simp] theorem answerBytes_dmc (s : State) (b : List Byte) : (answerBytes s b).dmc = s.dmc := by unfold answerBytes; exact rfl
@[simp] theorem answerBytes_ftl (s : State) (b : List Byte) : (answerBytes s b).ftl = s.ftl := by unfold answerBytes; exact rfl
@[simp] theorem answerBytes_cpc (s : State) (b : List Byte) : (answerBytes s b).cpc = s.cpc := by unfold answerBytes; exact rfl
@[simp] theorem answerBytes_flash (s : State) (b : List Byte) : (answerBytes s b).flash = s.flash := by unfold answerBytes; exact rfl
@[simp] theorem answerBytes_ldc (s : State) (b : List Byte) : (answerBytes s b).ldc = s.ldc := by unfold answerBytes; exact rfl
@[simp] theorem answerBytes_sec (s : State) (b : List Byte) : (answerBytes s b).sec = s.sec := by unfold answerBytes; exact rfl
@[simp] theorem answerBytes_win (s : State) (b : List Byte) : (answerBytes s b).win = s.win := by unfold answerBytes; exact rfl
@[simp] theorem answerBytes_grv (s : State) (b : List Byte) : (answerBytes s b).grv = s.grv := by unfold answerBytes; exact rfl
@[simp] theorem answerBytes_pwr (s : State) (b : List Byte) : (answerBytes s b).pwr = s.pwr := by unfold answerBytes; exact rfl
@[simp] theorem answerBytes_aon (s : State) (b : List Byte) : (answerBytes s b).aon = s.aon := by unfold answerBytes; exact rfl
@[simp] theorem answerBytes_fus (s : State) (b : List Byte) : (answerBytes s b).fus = s.fus := by unfold answerBytes; exact rfl
@[simp] theorem answerBytes_bst (s : State) (b : List Byte) : (answerBytes s b).bst = s.bst := by unfold answerBytes; exact rfl
@[simp] theorem answerBytes_cores (s : State) (b : List Byte) : (answerBytes s b).cores = s.cores := by unfold answerBytes; exact rfl
@[simp] theorem answerBytes_tap (s : State) (b : List Byte) : (answerBytes s b).tap = s.tap := by unfold answerBytes; exact rfl
@[simp] theorem answerBytes_mbx (s : State) (b : List Byte) : (answerBytes s b).mbx = s.mbx := by unfold answerBytes; exact rfl
@[simp] theorem answerBytes_xmv (s : State) (b : List Byte) : (answerBytes s b).xmv = s.xmv := by unfold answerBytes; exact rfl
@[simp] theorem answerBytes_xmvTurn (s : State) (b : List Byte) : (answerBytes s b).xmvTurn = s.xmvTurn := by unfold answerBytes; exact rfl
@[simp] theorem answerBytes_graft (s : State) (b : List Byte) : (answerBytes s b).graft = s.graft := by unfold answerBytes; exact rfl
@[simp] theorem answerBytes_rings (s : State) (b : List Byte) : (answerBytes s b).rings = s.rings := by unfold answerBytes; exact rfl

@[simp] theorem memWrite_pending (s : State) (a : Nat) (b : Byte) : (memWrite s a b).pending = s.pending := by unfold memWrite; exact rfl
@[simp] theorem memWrite_freeCtr (s : State) (a : Nat) (b : Byte) : (memWrite s a b).freeCtr = s.freeCtr := by unfold memWrite; exact rfl
@[simp] theorem memWrite_clock (s : State) (a : Nat) (b : Byte) : (memWrite s a b).clock = s.clock := by unfold memWrite; exact rfl
@[simp] theorem memWrite_resp (s : State) (a : Nat) (b : Byte) : (memWrite s a b).resp = s.resp := by unfold memWrite; exact rfl
@[simp] theorem memWrite_regs (s : State) (a : Nat) (b : Byte) : (memWrite s a b).regs = s.regs := by unfold memWrite; exact rfl
@[simp] theorem memWrite_latch (s : State) (a : Nat) (b : Byte) : (memWrite s a b).latch = s.latch := by unfold memWrite; exact rfl
@[simp] theorem memWrite_blk (s : State) (a : Nat) (b : Byte) : (memWrite s a b).blk = s.blk := by unfold memWrite; exact rfl
@[simp] theorem memWrite_trunk (s : State) (a : Nat) (b : Byte) : (memWrite s a b).trunk = s.trunk := by unfold memWrite; exact rfl
@[simp] theorem memWrite_evq (s : State) (a : Nat) (b : Byte) : (memWrite s a b).evq = s.evq := by unfold memWrite; exact rfl
@[simp] theorem memWrite_dev (s : State) (a : Nat) (b : Byte) : (memWrite s a b).dev = s.dev := by unfold memWrite; exact rfl
@[simp] theorem memWrite_ports (s : State) (a : Nat) (b : Byte) : (memWrite s a b).ports = s.ports := by unfold memWrite; exact rfl
@[simp] theorem memWrite_hqe (s : State) (a : Nat) (b : Byte) : (memWrite s a b).hqe = s.hqe := by unfold memWrite; exact rfl
@[simp] theorem memWrite_ten (s : State) (a : Nat) (b : Byte) : (memWrite s a b).ten = s.ten := by unfold memWrite; exact rfl
@[simp] theorem memWrite_bpm (s : State) (a : Nat) (b : Byte) : (memWrite s a b).bpm = s.bpm := by unfold memWrite; exact rfl
@[simp] theorem memWrite_dmc (s : State) (a : Nat) (b : Byte) : (memWrite s a b).dmc = s.dmc := by unfold memWrite; exact rfl
@[simp] theorem memWrite_ftl (s : State) (a : Nat) (b : Byte) : (memWrite s a b).ftl = s.ftl := by unfold memWrite; exact rfl
@[simp] theorem memWrite_cpc (s : State) (a : Nat) (b : Byte) : (memWrite s a b).cpc = s.cpc := by unfold memWrite; exact rfl
@[simp] theorem memWrite_flash (s : State) (a : Nat) (b : Byte) : (memWrite s a b).flash = s.flash := by unfold memWrite; exact rfl
@[simp] theorem memWrite_ldc (s : State) (a : Nat) (b : Byte) : (memWrite s a b).ldc = s.ldc := by unfold memWrite; exact rfl
@[simp] theorem memWrite_sec (s : State) (a : Nat) (b : Byte) : (memWrite s a b).sec = s.sec := by unfold memWrite; exact rfl
@[simp] theorem memWrite_win (s : State) (a : Nat) (b : Byte) : (memWrite s a b).win = s.win := by unfold memWrite; exact rfl
@[simp] theorem memWrite_grv (s : State) (a : Nat) (b : Byte) : (memWrite s a b).grv = s.grv := by unfold memWrite; exact rfl
@[simp] theorem memWrite_pwr (s : State) (a : Nat) (b : Byte) : (memWrite s a b).pwr = s.pwr := by unfold memWrite; exact rfl
@[simp] theorem memWrite_aon (s : State) (a : Nat) (b : Byte) : (memWrite s a b).aon = s.aon := by unfold memWrite; exact rfl
@[simp] theorem memWrite_fus (s : State) (a : Nat) (b : Byte) : (memWrite s a b).fus = s.fus := by unfold memWrite; exact rfl
@[simp] theorem memWrite_bst (s : State) (a : Nat) (b : Byte) : (memWrite s a b).bst = s.bst := by unfold memWrite; exact rfl
@[simp] theorem memWrite_cores (s : State) (a : Nat) (b : Byte) : (memWrite s a b).cores = s.cores := by unfold memWrite; exact rfl
@[simp] theorem memWrite_tap (s : State) (a : Nat) (b : Byte) : (memWrite s a b).tap = s.tap := by unfold memWrite; exact rfl
@[simp] theorem memWrite_mbx (s : State) (a : Nat) (b : Byte) : (memWrite s a b).mbx = s.mbx := by unfold memWrite; exact rfl
@[simp] theorem memWrite_xmv (s : State) (a : Nat) (b : Byte) : (memWrite s a b).xmv = s.xmv := by unfold memWrite; exact rfl
@[simp] theorem memWrite_xmvTurn (s : State) (a : Nat) (b : Byte) : (memWrite s a b).xmvTurn = s.xmvTurn := by unfold memWrite; exact rfl
@[simp] theorem memWrite_graft (s : State) (a : Nat) (b : Byte) : (memWrite s a b).graft = s.graft := by unfold memWrite; exact rfl
@[simp] theorem memWrite_rings (s : State) (a : Nat) (b : Byte) : (memWrite s a b).rings = s.rings := by unfold memWrite; exact rfl

@[simp] theorem wrF_pending (s : State) (rgn off hi lo v : Nat) : (wrF s rgn off hi lo v).pending = s.pending := by
  unfold wrF; rw [wr_pending]
@[simp] theorem wrF_freeCtr (s : State) (rgn off hi lo v : Nat) : (wrF s rgn off hi lo v).freeCtr = s.freeCtr := by
  unfold wrF; rw [wr_freeCtr]
@[simp] theorem wrF_clock (s : State) (rgn off hi lo v : Nat) : (wrF s rgn off hi lo v).clock = s.clock := by
  unfold wrF; rw [wr_clock]
@[simp] theorem wrF_resp (s : State) (rgn off hi lo v : Nat) : (wrF s rgn off hi lo v).resp = s.resp := by
  unfold wrF; rw [wr_resp]
@[simp] theorem wrF_latch (s : State) (rgn off hi lo v : Nat) : (wrF s rgn off hi lo v).latch = s.latch := by
  unfold wrF; rw [wr_latch]
@[simp] theorem wrF_blk (s : State) (rgn off hi lo v : Nat) : (wrF s rgn off hi lo v).blk = s.blk := by
  unfold wrF; rw [wr_blk]
@[simp] theorem wrF_trunk (s : State) (rgn off hi lo v : Nat) : (wrF s rgn off hi lo v).trunk = s.trunk := by
  unfold wrF; rw [wr_trunk]
@[simp] theorem wrF_evq (s : State) (rgn off hi lo v : Nat) : (wrF s rgn off hi lo v).evq = s.evq := by
  unfold wrF; rw [wr_evq]
@[simp] theorem wrF_mem (s : State) (rgn off hi lo v : Nat) : (wrF s rgn off hi lo v).mem = s.mem := by
  unfold wrF; rw [wr_mem]
@[simp] theorem wrF_dev (s : State) (rgn off hi lo v : Nat) : (wrF s rgn off hi lo v).dev = s.dev := by
  unfold wrF; rw [wr_dev]
@[simp] theorem wrF_ports (s : State) (rgn off hi lo v : Nat) : (wrF s rgn off hi lo v).ports = s.ports := by
  unfold wrF; rw [wr_ports]
@[simp] theorem wrF_hqe (s : State) (rgn off hi lo v : Nat) : (wrF s rgn off hi lo v).hqe = s.hqe := by
  unfold wrF; rw [wr_hqe]
@[simp] theorem wrF_ten (s : State) (rgn off hi lo v : Nat) : (wrF s rgn off hi lo v).ten = s.ten := by
  unfold wrF; rw [wr_ten]
@[simp] theorem wrF_bpm (s : State) (rgn off hi lo v : Nat) : (wrF s rgn off hi lo v).bpm = s.bpm := by
  unfold wrF; rw [wr_bpm]
@[simp] theorem wrF_dmc (s : State) (rgn off hi lo v : Nat) : (wrF s rgn off hi lo v).dmc = s.dmc := by
  unfold wrF; rw [wr_dmc]
@[simp] theorem wrF_ftl (s : State) (rgn off hi lo v : Nat) : (wrF s rgn off hi lo v).ftl = s.ftl := by
  unfold wrF; rw [wr_ftl]
@[simp] theorem wrF_cpc (s : State) (rgn off hi lo v : Nat) : (wrF s rgn off hi lo v).cpc = s.cpc := by
  unfold wrF; rw [wr_cpc]
@[simp] theorem wrF_flash (s : State) (rgn off hi lo v : Nat) : (wrF s rgn off hi lo v).flash = s.flash := by
  unfold wrF; rw [wr_flash]
@[simp] theorem wrF_ldc (s : State) (rgn off hi lo v : Nat) : (wrF s rgn off hi lo v).ldc = s.ldc := by
  unfold wrF; rw [wr_ldc]
@[simp] theorem wrF_sec (s : State) (rgn off hi lo v : Nat) : (wrF s rgn off hi lo v).sec = s.sec := by
  unfold wrF; rw [wr_sec]
@[simp] theorem wrF_win (s : State) (rgn off hi lo v : Nat) : (wrF s rgn off hi lo v).win = s.win := by
  unfold wrF; rw [wr_win]
@[simp] theorem wrF_grv (s : State) (rgn off hi lo v : Nat) : (wrF s rgn off hi lo v).grv = s.grv := by
  unfold wrF; rw [wr_grv]
@[simp] theorem wrF_pwr (s : State) (rgn off hi lo v : Nat) : (wrF s rgn off hi lo v).pwr = s.pwr := by
  unfold wrF; rw [wr_pwr]
@[simp] theorem wrF_aon (s : State) (rgn off hi lo v : Nat) : (wrF s rgn off hi lo v).aon = s.aon := by
  unfold wrF; rw [wr_aon]
@[simp] theorem wrF_fus (s : State) (rgn off hi lo v : Nat) : (wrF s rgn off hi lo v).fus = s.fus := by
  unfold wrF; rw [wr_fus]
@[simp] theorem wrF_bst (s : State) (rgn off hi lo v : Nat) : (wrF s rgn off hi lo v).bst = s.bst := by
  unfold wrF; rw [wr_bst]
@[simp] theorem wrF_cores (s : State) (rgn off hi lo v : Nat) : (wrF s rgn off hi lo v).cores = s.cores := by
  unfold wrF; rw [wr_cores]
@[simp] theorem wrF_tap (s : State) (rgn off hi lo v : Nat) : (wrF s rgn off hi lo v).tap = s.tap := by
  unfold wrF; rw [wr_tap]
@[simp] theorem wrF_mbx (s : State) (rgn off hi lo v : Nat) : (wrF s rgn off hi lo v).mbx = s.mbx := by
  unfold wrF; rw [wr_mbx]
@[simp] theorem wrF_xmv (s : State) (rgn off hi lo v : Nat) : (wrF s rgn off hi lo v).xmv = s.xmv := by
  unfold wrF; rw [wr_xmv]
@[simp] theorem wrF_xmvTurn (s : State) (rgn off hi lo v : Nat) : (wrF s rgn off hi lo v).xmvTurn = s.xmvTurn := by
  unfold wrF; rw [wr_xmvTurn]
@[simp] theorem wrF_graft (s : State) (rgn off hi lo v : Nat) : (wrF s rgn off hi lo v).graft = s.graft := by
  unfold wrF; rw [wr_graft]
@[simp] theorem wrF_rings (s : State) (rgn off hi lo v : Nat) : (wrF s rgn off hi lo v).rings = s.rings := by
  unfold wrF; rw [wr_rings]

@[simp] theorem bump_pending (s : State) (rgn off n : Nat) : (bump s rgn off n).pending = s.pending := by
  unfold bump; rw [wr_pending]
@[simp] theorem bump_freeCtr (s : State) (rgn off n : Nat) : (bump s rgn off n).freeCtr = s.freeCtr := by
  unfold bump; rw [wr_freeCtr]
@[simp] theorem bump_clock (s : State) (rgn off n : Nat) : (bump s rgn off n).clock = s.clock := by
  unfold bump; rw [wr_clock]
@[simp] theorem bump_resp (s : State) (rgn off n : Nat) : (bump s rgn off n).resp = s.resp := by
  unfold bump; rw [wr_resp]
@[simp] theorem bump_latch (s : State) (rgn off n : Nat) : (bump s rgn off n).latch = s.latch := by
  unfold bump; rw [wr_latch]
@[simp] theorem bump_blk (s : State) (rgn off n : Nat) : (bump s rgn off n).blk = s.blk := by
  unfold bump; rw [wr_blk]
@[simp] theorem bump_trunk (s : State) (rgn off n : Nat) : (bump s rgn off n).trunk = s.trunk := by
  unfold bump; rw [wr_trunk]
@[simp] theorem bump_evq (s : State) (rgn off n : Nat) : (bump s rgn off n).evq = s.evq := by
  unfold bump; rw [wr_evq]
@[simp] theorem bump_mem (s : State) (rgn off n : Nat) : (bump s rgn off n).mem = s.mem := by
  unfold bump; rw [wr_mem]
@[simp] theorem bump_dev (s : State) (rgn off n : Nat) : (bump s rgn off n).dev = s.dev := by
  unfold bump; rw [wr_dev]
@[simp] theorem bump_ports (s : State) (rgn off n : Nat) : (bump s rgn off n).ports = s.ports := by
  unfold bump; rw [wr_ports]
@[simp] theorem bump_hqe (s : State) (rgn off n : Nat) : (bump s rgn off n).hqe = s.hqe := by
  unfold bump; rw [wr_hqe]
@[simp] theorem bump_ten (s : State) (rgn off n : Nat) : (bump s rgn off n).ten = s.ten := by
  unfold bump; rw [wr_ten]
@[simp] theorem bump_bpm (s : State) (rgn off n : Nat) : (bump s rgn off n).bpm = s.bpm := by
  unfold bump; rw [wr_bpm]
@[simp] theorem bump_dmc (s : State) (rgn off n : Nat) : (bump s rgn off n).dmc = s.dmc := by
  unfold bump; rw [wr_dmc]
@[simp] theorem bump_ftl (s : State) (rgn off n : Nat) : (bump s rgn off n).ftl = s.ftl := by
  unfold bump; rw [wr_ftl]
@[simp] theorem bump_cpc (s : State) (rgn off n : Nat) : (bump s rgn off n).cpc = s.cpc := by
  unfold bump; rw [wr_cpc]
@[simp] theorem bump_flash (s : State) (rgn off n : Nat) : (bump s rgn off n).flash = s.flash := by
  unfold bump; rw [wr_flash]
@[simp] theorem bump_ldc (s : State) (rgn off n : Nat) : (bump s rgn off n).ldc = s.ldc := by
  unfold bump; rw [wr_ldc]
@[simp] theorem bump_sec (s : State) (rgn off n : Nat) : (bump s rgn off n).sec = s.sec := by
  unfold bump; rw [wr_sec]
@[simp] theorem bump_win (s : State) (rgn off n : Nat) : (bump s rgn off n).win = s.win := by
  unfold bump; rw [wr_win]
@[simp] theorem bump_grv (s : State) (rgn off n : Nat) : (bump s rgn off n).grv = s.grv := by
  unfold bump; rw [wr_grv]
@[simp] theorem bump_pwr (s : State) (rgn off n : Nat) : (bump s rgn off n).pwr = s.pwr := by
  unfold bump; rw [wr_pwr]
@[simp] theorem bump_aon (s : State) (rgn off n : Nat) : (bump s rgn off n).aon = s.aon := by
  unfold bump; rw [wr_aon]
@[simp] theorem bump_fus (s : State) (rgn off n : Nat) : (bump s rgn off n).fus = s.fus := by
  unfold bump; rw [wr_fus]
@[simp] theorem bump_bst (s : State) (rgn off n : Nat) : (bump s rgn off n).bst = s.bst := by
  unfold bump; rw [wr_bst]
@[simp] theorem bump_cores (s : State) (rgn off n : Nat) : (bump s rgn off n).cores = s.cores := by
  unfold bump; rw [wr_cores]
@[simp] theorem bump_tap (s : State) (rgn off n : Nat) : (bump s rgn off n).tap = s.tap := by
  unfold bump; rw [wr_tap]
@[simp] theorem bump_mbx (s : State) (rgn off n : Nat) : (bump s rgn off n).mbx = s.mbx := by
  unfold bump; rw [wr_mbx]
@[simp] theorem bump_xmv (s : State) (rgn off n : Nat) : (bump s rgn off n).xmv = s.xmv := by
  unfold bump; rw [wr_xmv]
@[simp] theorem bump_xmvTurn (s : State) (rgn off n : Nat) : (bump s rgn off n).xmvTurn = s.xmvTurn := by
  unfold bump; rw [wr_xmvTurn]
@[simp] theorem bump_graft (s : State) (rgn off n : Nat) : (bump s rgn off n).graft = s.graft := by
  unfold bump; rw [wr_graft]
@[simp] theorem bump_rings (s : State) (rgn off n : Nat) : (bump s rgn off n).rings = s.rings := by
  unfold bump; rw [wr_rings]

@[simp] theorem raiseInt_pending (s : State) (rgn bit : Nat) : (raiseInt s rgn bit).pending = s.pending := by
  unfold raiseInt; rw [wr_pending]
@[simp] theorem raiseInt_freeCtr (s : State) (rgn bit : Nat) : (raiseInt s rgn bit).freeCtr = s.freeCtr := by
  unfold raiseInt; rw [wr_freeCtr]
@[simp] theorem raiseInt_clock (s : State) (rgn bit : Nat) : (raiseInt s rgn bit).clock = s.clock := by
  unfold raiseInt; rw [wr_clock]
@[simp] theorem raiseInt_resp (s : State) (rgn bit : Nat) : (raiseInt s rgn bit).resp = s.resp := by
  unfold raiseInt; rw [wr_resp]
@[simp] theorem raiseInt_latch (s : State) (rgn bit : Nat) : (raiseInt s rgn bit).latch = s.latch := by
  unfold raiseInt; rw [wr_latch]
@[simp] theorem raiseInt_blk (s : State) (rgn bit : Nat) : (raiseInt s rgn bit).blk = s.blk := by
  unfold raiseInt; rw [wr_blk]
@[simp] theorem raiseInt_trunk (s : State) (rgn bit : Nat) : (raiseInt s rgn bit).trunk = s.trunk := by
  unfold raiseInt; rw [wr_trunk]
@[simp] theorem raiseInt_evq (s : State) (rgn bit : Nat) : (raiseInt s rgn bit).evq = s.evq := by
  unfold raiseInt; rw [wr_evq]
@[simp] theorem raiseInt_mem (s : State) (rgn bit : Nat) : (raiseInt s rgn bit).mem = s.mem := by
  unfold raiseInt; rw [wr_mem]
@[simp] theorem raiseInt_dev (s : State) (rgn bit : Nat) : (raiseInt s rgn bit).dev = s.dev := by
  unfold raiseInt; rw [wr_dev]
@[simp] theorem raiseInt_ports (s : State) (rgn bit : Nat) : (raiseInt s rgn bit).ports = s.ports := by
  unfold raiseInt; rw [wr_ports]
@[simp] theorem raiseInt_hqe (s : State) (rgn bit : Nat) : (raiseInt s rgn bit).hqe = s.hqe := by
  unfold raiseInt; rw [wr_hqe]
@[simp] theorem raiseInt_ten (s : State) (rgn bit : Nat) : (raiseInt s rgn bit).ten = s.ten := by
  unfold raiseInt; rw [wr_ten]
@[simp] theorem raiseInt_bpm (s : State) (rgn bit : Nat) : (raiseInt s rgn bit).bpm = s.bpm := by
  unfold raiseInt; rw [wr_bpm]
@[simp] theorem raiseInt_dmc (s : State) (rgn bit : Nat) : (raiseInt s rgn bit).dmc = s.dmc := by
  unfold raiseInt; rw [wr_dmc]
@[simp] theorem raiseInt_ftl (s : State) (rgn bit : Nat) : (raiseInt s rgn bit).ftl = s.ftl := by
  unfold raiseInt; rw [wr_ftl]
@[simp] theorem raiseInt_cpc (s : State) (rgn bit : Nat) : (raiseInt s rgn bit).cpc = s.cpc := by
  unfold raiseInt; rw [wr_cpc]
@[simp] theorem raiseInt_flash (s : State) (rgn bit : Nat) : (raiseInt s rgn bit).flash = s.flash := by
  unfold raiseInt; rw [wr_flash]
@[simp] theorem raiseInt_ldc (s : State) (rgn bit : Nat) : (raiseInt s rgn bit).ldc = s.ldc := by
  unfold raiseInt; rw [wr_ldc]
@[simp] theorem raiseInt_sec (s : State) (rgn bit : Nat) : (raiseInt s rgn bit).sec = s.sec := by
  unfold raiseInt; rw [wr_sec]
@[simp] theorem raiseInt_win (s : State) (rgn bit : Nat) : (raiseInt s rgn bit).win = s.win := by
  unfold raiseInt; rw [wr_win]
@[simp] theorem raiseInt_grv (s : State) (rgn bit : Nat) : (raiseInt s rgn bit).grv = s.grv := by
  unfold raiseInt; rw [wr_grv]
@[simp] theorem raiseInt_pwr (s : State) (rgn bit : Nat) : (raiseInt s rgn bit).pwr = s.pwr := by
  unfold raiseInt; rw [wr_pwr]
@[simp] theorem raiseInt_aon (s : State) (rgn bit : Nat) : (raiseInt s rgn bit).aon = s.aon := by
  unfold raiseInt; rw [wr_aon]
@[simp] theorem raiseInt_fus (s : State) (rgn bit : Nat) : (raiseInt s rgn bit).fus = s.fus := by
  unfold raiseInt; rw [wr_fus]
@[simp] theorem raiseInt_bst (s : State) (rgn bit : Nat) : (raiseInt s rgn bit).bst = s.bst := by
  unfold raiseInt; rw [wr_bst]
@[simp] theorem raiseInt_cores (s : State) (rgn bit : Nat) : (raiseInt s rgn bit).cores = s.cores := by
  unfold raiseInt; rw [wr_cores]
@[simp] theorem raiseInt_tap (s : State) (rgn bit : Nat) : (raiseInt s rgn bit).tap = s.tap := by
  unfold raiseInt; rw [wr_tap]
@[simp] theorem raiseInt_mbx (s : State) (rgn bit : Nat) : (raiseInt s rgn bit).mbx = s.mbx := by
  unfold raiseInt; rw [wr_mbx]
@[simp] theorem raiseInt_xmv (s : State) (rgn bit : Nat) : (raiseInt s rgn bit).xmv = s.xmv := by
  unfold raiseInt; rw [wr_xmv]
@[simp] theorem raiseInt_xmvTurn (s : State) (rgn bit : Nat) : (raiseInt s rgn bit).xmvTurn = s.xmvTurn := by
  unfold raiseInt; rw [wr_xmvTurn]
@[simp] theorem raiseInt_graft (s : State) (rgn bit : Nat) : (raiseInt s rgn bit).graft = s.graft := by
  unfold raiseInt; rw [wr_graft]
@[simp] theorem raiseInt_rings (s : State) (rgn bit : Nat) : (raiseInt s rgn bit).rings = s.rings := by
  unfold raiseInt; rw [wr_rings]

@[simp] theorem bumpF_pending (s : State) (rgn off hi lo n : Nat) : (bumpF s rgn off hi lo n).pending = s.pending := by
  unfold bumpF; rw [wrF_pending]
@[simp] theorem bumpF_freeCtr (s : State) (rgn off hi lo n : Nat) : (bumpF s rgn off hi lo n).freeCtr = s.freeCtr := by
  unfold bumpF; rw [wrF_freeCtr]
@[simp] theorem bumpF_clock (s : State) (rgn off hi lo n : Nat) : (bumpF s rgn off hi lo n).clock = s.clock := by
  unfold bumpF; rw [wrF_clock]
@[simp] theorem bumpF_resp (s : State) (rgn off hi lo n : Nat) : (bumpF s rgn off hi lo n).resp = s.resp := by
  unfold bumpF; rw [wrF_resp]
@[simp] theorem bumpF_latch (s : State) (rgn off hi lo n : Nat) : (bumpF s rgn off hi lo n).latch = s.latch := by
  unfold bumpF; rw [wrF_latch]
@[simp] theorem bumpF_blk (s : State) (rgn off hi lo n : Nat) : (bumpF s rgn off hi lo n).blk = s.blk := by
  unfold bumpF; rw [wrF_blk]
@[simp] theorem bumpF_trunk (s : State) (rgn off hi lo n : Nat) : (bumpF s rgn off hi lo n).trunk = s.trunk := by
  unfold bumpF; rw [wrF_trunk]
@[simp] theorem bumpF_evq (s : State) (rgn off hi lo n : Nat) : (bumpF s rgn off hi lo n).evq = s.evq := by
  unfold bumpF; rw [wrF_evq]
@[simp] theorem bumpF_mem (s : State) (rgn off hi lo n : Nat) : (bumpF s rgn off hi lo n).mem = s.mem := by
  unfold bumpF; rw [wrF_mem]
@[simp] theorem bumpF_dev (s : State) (rgn off hi lo n : Nat) : (bumpF s rgn off hi lo n).dev = s.dev := by
  unfold bumpF; rw [wrF_dev]
@[simp] theorem bumpF_ports (s : State) (rgn off hi lo n : Nat) : (bumpF s rgn off hi lo n).ports = s.ports := by
  unfold bumpF; rw [wrF_ports]
@[simp] theorem bumpF_hqe (s : State) (rgn off hi lo n : Nat) : (bumpF s rgn off hi lo n).hqe = s.hqe := by
  unfold bumpF; rw [wrF_hqe]
@[simp] theorem bumpF_ten (s : State) (rgn off hi lo n : Nat) : (bumpF s rgn off hi lo n).ten = s.ten := by
  unfold bumpF; rw [wrF_ten]
@[simp] theorem bumpF_bpm (s : State) (rgn off hi lo n : Nat) : (bumpF s rgn off hi lo n).bpm = s.bpm := by
  unfold bumpF; rw [wrF_bpm]
@[simp] theorem bumpF_dmc (s : State) (rgn off hi lo n : Nat) : (bumpF s rgn off hi lo n).dmc = s.dmc := by
  unfold bumpF; rw [wrF_dmc]
@[simp] theorem bumpF_ftl (s : State) (rgn off hi lo n : Nat) : (bumpF s rgn off hi lo n).ftl = s.ftl := by
  unfold bumpF; rw [wrF_ftl]
@[simp] theorem bumpF_cpc (s : State) (rgn off hi lo n : Nat) : (bumpF s rgn off hi lo n).cpc = s.cpc := by
  unfold bumpF; rw [wrF_cpc]
@[simp] theorem bumpF_flash (s : State) (rgn off hi lo n : Nat) : (bumpF s rgn off hi lo n).flash = s.flash := by
  unfold bumpF; rw [wrF_flash]
@[simp] theorem bumpF_ldc (s : State) (rgn off hi lo n : Nat) : (bumpF s rgn off hi lo n).ldc = s.ldc := by
  unfold bumpF; rw [wrF_ldc]
@[simp] theorem bumpF_sec (s : State) (rgn off hi lo n : Nat) : (bumpF s rgn off hi lo n).sec = s.sec := by
  unfold bumpF; rw [wrF_sec]
@[simp] theorem bumpF_win (s : State) (rgn off hi lo n : Nat) : (bumpF s rgn off hi lo n).win = s.win := by
  unfold bumpF; rw [wrF_win]
@[simp] theorem bumpF_grv (s : State) (rgn off hi lo n : Nat) : (bumpF s rgn off hi lo n).grv = s.grv := by
  unfold bumpF; rw [wrF_grv]
@[simp] theorem bumpF_pwr (s : State) (rgn off hi lo n : Nat) : (bumpF s rgn off hi lo n).pwr = s.pwr := by
  unfold bumpF; rw [wrF_pwr]
@[simp] theorem bumpF_aon (s : State) (rgn off hi lo n : Nat) : (bumpF s rgn off hi lo n).aon = s.aon := by
  unfold bumpF; rw [wrF_aon]
@[simp] theorem bumpF_fus (s : State) (rgn off hi lo n : Nat) : (bumpF s rgn off hi lo n).fus = s.fus := by
  unfold bumpF; rw [wrF_fus]
@[simp] theorem bumpF_bst (s : State) (rgn off hi lo n : Nat) : (bumpF s rgn off hi lo n).bst = s.bst := by
  unfold bumpF; rw [wrF_bst]
@[simp] theorem bumpF_cores (s : State) (rgn off hi lo n : Nat) : (bumpF s rgn off hi lo n).cores = s.cores := by
  unfold bumpF; rw [wrF_cores]
@[simp] theorem bumpF_tap (s : State) (rgn off hi lo n : Nat) : (bumpF s rgn off hi lo n).tap = s.tap := by
  unfold bumpF; rw [wrF_tap]
@[simp] theorem bumpF_mbx (s : State) (rgn off hi lo n : Nat) : (bumpF s rgn off hi lo n).mbx = s.mbx := by
  unfold bumpF; rw [wrF_mbx]
@[simp] theorem bumpF_xmv (s : State) (rgn off hi lo n : Nat) : (bumpF s rgn off hi lo n).xmv = s.xmv := by
  unfold bumpF; rw [wrF_xmv]
@[simp] theorem bumpF_xmvTurn (s : State) (rgn off hi lo n : Nat) : (bumpF s rgn off hi lo n).xmvTurn = s.xmvTurn := by
  unfold bumpF; rw [wrF_xmvTurn]
@[simp] theorem bumpF_graft (s : State) (rgn off hi lo n : Nat) : (bumpF s rgn off hi lo n).graft = s.graft := by
  unfold bumpF; rw [wrF_graft]
@[simp] theorem bumpF_rings (s : State) (rgn off hi lo n : Nat) : (bumpF s rgn off hi lo n).rings = s.rings := by
  unfold bumpF; rw [wrF_rings]

@[simp] theorem wr64_pending (s : State) (rgn off v : Nat) : (wr64 s rgn off v).pending = s.pending := by
  unfold wr64; rw [wr_pending, wr_pending]
@[simp] theorem wr64_freeCtr (s : State) (rgn off v : Nat) : (wr64 s rgn off v).freeCtr = s.freeCtr := by
  unfold wr64; rw [wr_freeCtr, wr_freeCtr]
@[simp] theorem wr64_clock (s : State) (rgn off v : Nat) : (wr64 s rgn off v).clock = s.clock := by
  unfold wr64; rw [wr_clock, wr_clock]
@[simp] theorem wr64_resp (s : State) (rgn off v : Nat) : (wr64 s rgn off v).resp = s.resp := by
  unfold wr64; rw [wr_resp, wr_resp]
@[simp] theorem wr64_latch (s : State) (rgn off v : Nat) : (wr64 s rgn off v).latch = s.latch := by
  unfold wr64; rw [wr_latch, wr_latch]
@[simp] theorem wr64_blk (s : State) (rgn off v : Nat) : (wr64 s rgn off v).blk = s.blk := by
  unfold wr64; rw [wr_blk, wr_blk]
@[simp] theorem wr64_trunk (s : State) (rgn off v : Nat) : (wr64 s rgn off v).trunk = s.trunk := by
  unfold wr64; rw [wr_trunk, wr_trunk]
@[simp] theorem wr64_evq (s : State) (rgn off v : Nat) : (wr64 s rgn off v).evq = s.evq := by
  unfold wr64; rw [wr_evq, wr_evq]
@[simp] theorem wr64_mem (s : State) (rgn off v : Nat) : (wr64 s rgn off v).mem = s.mem := by
  unfold wr64; rw [wr_mem, wr_mem]
@[simp] theorem wr64_dev (s : State) (rgn off v : Nat) : (wr64 s rgn off v).dev = s.dev := by
  unfold wr64; rw [wr_dev, wr_dev]
@[simp] theorem wr64_ports (s : State) (rgn off v : Nat) : (wr64 s rgn off v).ports = s.ports := by
  unfold wr64; rw [wr_ports, wr_ports]
@[simp] theorem wr64_hqe (s : State) (rgn off v : Nat) : (wr64 s rgn off v).hqe = s.hqe := by
  unfold wr64; rw [wr_hqe, wr_hqe]
@[simp] theorem wr64_ten (s : State) (rgn off v : Nat) : (wr64 s rgn off v).ten = s.ten := by
  unfold wr64; rw [wr_ten, wr_ten]
@[simp] theorem wr64_bpm (s : State) (rgn off v : Nat) : (wr64 s rgn off v).bpm = s.bpm := by
  unfold wr64; rw [wr_bpm, wr_bpm]
@[simp] theorem wr64_dmc (s : State) (rgn off v : Nat) : (wr64 s rgn off v).dmc = s.dmc := by
  unfold wr64; rw [wr_dmc, wr_dmc]
@[simp] theorem wr64_ftl (s : State) (rgn off v : Nat) : (wr64 s rgn off v).ftl = s.ftl := by
  unfold wr64; rw [wr_ftl, wr_ftl]
@[simp] theorem wr64_cpc (s : State) (rgn off v : Nat) : (wr64 s rgn off v).cpc = s.cpc := by
  unfold wr64; rw [wr_cpc, wr_cpc]
@[simp] theorem wr64_flash (s : State) (rgn off v : Nat) : (wr64 s rgn off v).flash = s.flash := by
  unfold wr64; rw [wr_flash, wr_flash]
@[simp] theorem wr64_ldc (s : State) (rgn off v : Nat) : (wr64 s rgn off v).ldc = s.ldc := by
  unfold wr64; rw [wr_ldc, wr_ldc]
@[simp] theorem wr64_sec (s : State) (rgn off v : Nat) : (wr64 s rgn off v).sec = s.sec := by
  unfold wr64; rw [wr_sec, wr_sec]
@[simp] theorem wr64_win (s : State) (rgn off v : Nat) : (wr64 s rgn off v).win = s.win := by
  unfold wr64; rw [wr_win, wr_win]
@[simp] theorem wr64_grv (s : State) (rgn off v : Nat) : (wr64 s rgn off v).grv = s.grv := by
  unfold wr64; rw [wr_grv, wr_grv]
@[simp] theorem wr64_pwr (s : State) (rgn off v : Nat) : (wr64 s rgn off v).pwr = s.pwr := by
  unfold wr64; rw [wr_pwr, wr_pwr]
@[simp] theorem wr64_aon (s : State) (rgn off v : Nat) : (wr64 s rgn off v).aon = s.aon := by
  unfold wr64; rw [wr_aon, wr_aon]
@[simp] theorem wr64_fus (s : State) (rgn off v : Nat) : (wr64 s rgn off v).fus = s.fus := by
  unfold wr64; rw [wr_fus, wr_fus]
@[simp] theorem wr64_bst (s : State) (rgn off v : Nat) : (wr64 s rgn off v).bst = s.bst := by
  unfold wr64; rw [wr_bst, wr_bst]
@[simp] theorem wr64_cores (s : State) (rgn off v : Nat) : (wr64 s rgn off v).cores = s.cores := by
  unfold wr64; rw [wr_cores, wr_cores]
@[simp] theorem wr64_tap (s : State) (rgn off v : Nat) : (wr64 s rgn off v).tap = s.tap := by
  unfold wr64; rw [wr_tap, wr_tap]
@[simp] theorem wr64_mbx (s : State) (rgn off v : Nat) : (wr64 s rgn off v).mbx = s.mbx := by
  unfold wr64; rw [wr_mbx, wr_mbx]
@[simp] theorem wr64_xmv (s : State) (rgn off v : Nat) : (wr64 s rgn off v).xmv = s.xmv := by
  unfold wr64; rw [wr_xmv, wr_xmv]
@[simp] theorem wr64_xmvTurn (s : State) (rgn off v : Nat) : (wr64 s rgn off v).xmvTurn = s.xmvTurn := by
  unfold wr64; rw [wr_xmvTurn, wr_xmvTurn]
@[simp] theorem wr64_graft (s : State) (rgn off v : Nat) : (wr64 s rgn off v).graft = s.graft := by
  unfold wr64; rw [wr_graft, wr_graft]
@[simp] theorem wr64_rings (s : State) (rgn off v : Nat) : (wr64 s rgn off v).rings = s.rings := by
  unfold wr64; rw [wr_rings, wr_rings]

@[simp] theorem loadErr_pending (s : State) (rgn bit : Nat) (w : Bool) (size bi inf addr : Nat) (who : Who) : (loadErr s rgn bit w size bi inf addr who).pending = s.pending := by
  unfold loadErr; rw [wr_pending, wr_pending, wr_pending, wr_pending, wr_pending]
@[simp] theorem loadErr_freeCtr (s : State) (rgn bit : Nat) (w : Bool) (size bi inf addr : Nat) (who : Who) : (loadErr s rgn bit w size bi inf addr who).freeCtr = s.freeCtr := by
  unfold loadErr; rw [wr_freeCtr, wr_freeCtr, wr_freeCtr, wr_freeCtr, wr_freeCtr]
@[simp] theorem loadErr_clock (s : State) (rgn bit : Nat) (w : Bool) (size bi inf addr : Nat) (who : Who) : (loadErr s rgn bit w size bi inf addr who).clock = s.clock := by
  unfold loadErr; rw [wr_clock, wr_clock, wr_clock, wr_clock, wr_clock]
@[simp] theorem loadErr_resp (s : State) (rgn bit : Nat) (w : Bool) (size bi inf addr : Nat) (who : Who) : (loadErr s rgn bit w size bi inf addr who).resp = s.resp := by
  unfold loadErr; rw [wr_resp, wr_resp, wr_resp, wr_resp, wr_resp]
@[simp] theorem loadErr_latch (s : State) (rgn bit : Nat) (w : Bool) (size bi inf addr : Nat) (who : Who) : (loadErr s rgn bit w size bi inf addr who).latch = s.latch := by
  unfold loadErr; rw [wr_latch, wr_latch, wr_latch, wr_latch, wr_latch]
@[simp] theorem loadErr_blk (s : State) (rgn bit : Nat) (w : Bool) (size bi inf addr : Nat) (who : Who) : (loadErr s rgn bit w size bi inf addr who).blk = s.blk := by
  unfold loadErr; rw [wr_blk, wr_blk, wr_blk, wr_blk, wr_blk]
@[simp] theorem loadErr_trunk (s : State) (rgn bit : Nat) (w : Bool) (size bi inf addr : Nat) (who : Who) : (loadErr s rgn bit w size bi inf addr who).trunk = s.trunk := by
  unfold loadErr; rw [wr_trunk, wr_trunk, wr_trunk, wr_trunk, wr_trunk]
@[simp] theorem loadErr_evq (s : State) (rgn bit : Nat) (w : Bool) (size bi inf addr : Nat) (who : Who) : (loadErr s rgn bit w size bi inf addr who).evq = s.evq := by
  unfold loadErr; rw [wr_evq, wr_evq, wr_evq, wr_evq, wr_evq]
@[simp] theorem loadErr_mem (s : State) (rgn bit : Nat) (w : Bool) (size bi inf addr : Nat) (who : Who) : (loadErr s rgn bit w size bi inf addr who).mem = s.mem := by
  unfold loadErr; rw [wr_mem, wr_mem, wr_mem, wr_mem, wr_mem]
@[simp] theorem loadErr_dev (s : State) (rgn bit : Nat) (w : Bool) (size bi inf addr : Nat) (who : Who) : (loadErr s rgn bit w size bi inf addr who).dev = s.dev := by
  unfold loadErr; rw [wr_dev, wr_dev, wr_dev, wr_dev, wr_dev]
@[simp] theorem loadErr_ports (s : State) (rgn bit : Nat) (w : Bool) (size bi inf addr : Nat) (who : Who) : (loadErr s rgn bit w size bi inf addr who).ports = s.ports := by
  unfold loadErr; rw [wr_ports, wr_ports, wr_ports, wr_ports, wr_ports]
@[simp] theorem loadErr_hqe (s : State) (rgn bit : Nat) (w : Bool) (size bi inf addr : Nat) (who : Who) : (loadErr s rgn bit w size bi inf addr who).hqe = s.hqe := by
  unfold loadErr; rw [wr_hqe, wr_hqe, wr_hqe, wr_hqe, wr_hqe]
@[simp] theorem loadErr_ten (s : State) (rgn bit : Nat) (w : Bool) (size bi inf addr : Nat) (who : Who) : (loadErr s rgn bit w size bi inf addr who).ten = s.ten := by
  unfold loadErr; rw [wr_ten, wr_ten, wr_ten, wr_ten, wr_ten]
@[simp] theorem loadErr_bpm (s : State) (rgn bit : Nat) (w : Bool) (size bi inf addr : Nat) (who : Who) : (loadErr s rgn bit w size bi inf addr who).bpm = s.bpm := by
  unfold loadErr; rw [wr_bpm, wr_bpm, wr_bpm, wr_bpm, wr_bpm]
@[simp] theorem loadErr_dmc (s : State) (rgn bit : Nat) (w : Bool) (size bi inf addr : Nat) (who : Who) : (loadErr s rgn bit w size bi inf addr who).dmc = s.dmc := by
  unfold loadErr; rw [wr_dmc, wr_dmc, wr_dmc, wr_dmc, wr_dmc]
@[simp] theorem loadErr_ftl (s : State) (rgn bit : Nat) (w : Bool) (size bi inf addr : Nat) (who : Who) : (loadErr s rgn bit w size bi inf addr who).ftl = s.ftl := by
  unfold loadErr; rw [wr_ftl, wr_ftl, wr_ftl, wr_ftl, wr_ftl]
@[simp] theorem loadErr_cpc (s : State) (rgn bit : Nat) (w : Bool) (size bi inf addr : Nat) (who : Who) : (loadErr s rgn bit w size bi inf addr who).cpc = s.cpc := by
  unfold loadErr; rw [wr_cpc, wr_cpc, wr_cpc, wr_cpc, wr_cpc]
@[simp] theorem loadErr_flash (s : State) (rgn bit : Nat) (w : Bool) (size bi inf addr : Nat) (who : Who) : (loadErr s rgn bit w size bi inf addr who).flash = s.flash := by
  unfold loadErr; rw [wr_flash, wr_flash, wr_flash, wr_flash, wr_flash]
@[simp] theorem loadErr_ldc (s : State) (rgn bit : Nat) (w : Bool) (size bi inf addr : Nat) (who : Who) : (loadErr s rgn bit w size bi inf addr who).ldc = s.ldc := by
  unfold loadErr; rw [wr_ldc, wr_ldc, wr_ldc, wr_ldc, wr_ldc]
@[simp] theorem loadErr_sec (s : State) (rgn bit : Nat) (w : Bool) (size bi inf addr : Nat) (who : Who) : (loadErr s rgn bit w size bi inf addr who).sec = s.sec := by
  unfold loadErr; rw [wr_sec, wr_sec, wr_sec, wr_sec, wr_sec]
@[simp] theorem loadErr_win (s : State) (rgn bit : Nat) (w : Bool) (size bi inf addr : Nat) (who : Who) : (loadErr s rgn bit w size bi inf addr who).win = s.win := by
  unfold loadErr; rw [wr_win, wr_win, wr_win, wr_win, wr_win]
@[simp] theorem loadErr_grv (s : State) (rgn bit : Nat) (w : Bool) (size bi inf addr : Nat) (who : Who) : (loadErr s rgn bit w size bi inf addr who).grv = s.grv := by
  unfold loadErr; rw [wr_grv, wr_grv, wr_grv, wr_grv, wr_grv]
@[simp] theorem loadErr_pwr (s : State) (rgn bit : Nat) (w : Bool) (size bi inf addr : Nat) (who : Who) : (loadErr s rgn bit w size bi inf addr who).pwr = s.pwr := by
  unfold loadErr; rw [wr_pwr, wr_pwr, wr_pwr, wr_pwr, wr_pwr]
@[simp] theorem loadErr_aon (s : State) (rgn bit : Nat) (w : Bool) (size bi inf addr : Nat) (who : Who) : (loadErr s rgn bit w size bi inf addr who).aon = s.aon := by
  unfold loadErr; rw [wr_aon, wr_aon, wr_aon, wr_aon, wr_aon]
@[simp] theorem loadErr_fus (s : State) (rgn bit : Nat) (w : Bool) (size bi inf addr : Nat) (who : Who) : (loadErr s rgn bit w size bi inf addr who).fus = s.fus := by
  unfold loadErr; rw [wr_fus, wr_fus, wr_fus, wr_fus, wr_fus]
@[simp] theorem loadErr_bst (s : State) (rgn bit : Nat) (w : Bool) (size bi inf addr : Nat) (who : Who) : (loadErr s rgn bit w size bi inf addr who).bst = s.bst := by
  unfold loadErr; rw [wr_bst, wr_bst, wr_bst, wr_bst, wr_bst]
@[simp] theorem loadErr_cores (s : State) (rgn bit : Nat) (w : Bool) (size bi inf addr : Nat) (who : Who) : (loadErr s rgn bit w size bi inf addr who).cores = s.cores := by
  unfold loadErr; rw [wr_cores, wr_cores, wr_cores, wr_cores, wr_cores]
@[simp] theorem loadErr_tap (s : State) (rgn bit : Nat) (w : Bool) (size bi inf addr : Nat) (who : Who) : (loadErr s rgn bit w size bi inf addr who).tap = s.tap := by
  unfold loadErr; rw [wr_tap, wr_tap, wr_tap, wr_tap, wr_tap]
@[simp] theorem loadErr_mbx (s : State) (rgn bit : Nat) (w : Bool) (size bi inf addr : Nat) (who : Who) : (loadErr s rgn bit w size bi inf addr who).mbx = s.mbx := by
  unfold loadErr; rw [wr_mbx, wr_mbx, wr_mbx, wr_mbx, wr_mbx]
@[simp] theorem loadErr_xmv (s : State) (rgn bit : Nat) (w : Bool) (size bi inf addr : Nat) (who : Who) : (loadErr s rgn bit w size bi inf addr who).xmv = s.xmv := by
  unfold loadErr; rw [wr_xmv, wr_xmv, wr_xmv, wr_xmv, wr_xmv]
@[simp] theorem loadErr_xmvTurn (s : State) (rgn bit : Nat) (w : Bool) (size bi inf addr : Nat) (who : Who) : (loadErr s rgn bit w size bi inf addr who).xmvTurn = s.xmvTurn := by
  unfold loadErr; rw [wr_xmvTurn, wr_xmvTurn, wr_xmvTurn, wr_xmvTurn, wr_xmvTurn]
@[simp] theorem loadErr_graft (s : State) (rgn bit : Nat) (w : Bool) (size bi inf addr : Nat) (who : Who) : (loadErr s rgn bit w size bi inf addr who).graft = s.graft := by
  unfold loadErr; rw [wr_graft, wr_graft, wr_graft, wr_graft, wr_graft]
@[simp] theorem loadErr_rings (s : State) (rgn bit : Nat) (w : Bool) (size bi inf addr : Nat) (who : Who) : (loadErr s rgn bit w size bi inf addr who).rings = s.rings := by
  unfold loadErr; rw [wr_rings, wr_rings, wr_rings, wr_rings, wr_rings]

@[simp] theorem captureErr_pending (s : State) (rgn bit : Nat) (w : Bool) (size bi inf addr : Nat) (who : Who) :
    (captureErr s rgn bit w size bi inf addr who).pending = s.pending := by
  unfold captureErr; split
  · rw [raiseInt_pending, loadErr_pending]
  · rw [emit_pending]
@[simp] theorem blockErr_pending (s : State) (rgn bit inf : Nat) : (blockErr s rgn bit inf).pending = s.pending := by
  unfold blockErr; rw [captureErr_pending]
@[simp] theorem captureErr_freeCtr (s : State) (rgn bit : Nat) (w : Bool) (size bi inf addr : Nat) (who : Who) :
    (captureErr s rgn bit w size bi inf addr who).freeCtr = s.freeCtr := by
  unfold captureErr; split
  · rw [raiseInt_freeCtr, loadErr_freeCtr]
  · rw [emit_freeCtr]
@[simp] theorem blockErr_freeCtr (s : State) (rgn bit inf : Nat) : (blockErr s rgn bit inf).freeCtr = s.freeCtr := by
  unfold blockErr; rw [captureErr_freeCtr]
@[simp] theorem captureErr_clock (s : State) (rgn bit : Nat) (w : Bool) (size bi inf addr : Nat) (who : Who) :
    (captureErr s rgn bit w size bi inf addr who).clock = s.clock := by
  unfold captureErr; split
  · rw [raiseInt_clock, loadErr_clock]
  · rw [emit_clock]
@[simp] theorem blockErr_clock (s : State) (rgn bit inf : Nat) : (blockErr s rgn bit inf).clock = s.clock := by
  unfold blockErr; rw [captureErr_clock]
@[simp] theorem captureErr_resp (s : State) (rgn bit : Nat) (w : Bool) (size bi inf addr : Nat) (who : Who) :
    (captureErr s rgn bit w size bi inf addr who).resp = s.resp := by
  unfold captureErr; split
  · rw [raiseInt_resp, loadErr_resp]
  · rw [emit_resp]
@[simp] theorem blockErr_resp (s : State) (rgn bit inf : Nat) : (blockErr s rgn bit inf).resp = s.resp := by
  unfold blockErr; rw [captureErr_resp]
@[simp] theorem captureErr_latch (s : State) (rgn bit : Nat) (w : Bool) (size bi inf addr : Nat) (who : Who) :
    (captureErr s rgn bit w size bi inf addr who).latch = s.latch := by
  unfold captureErr; split
  · rw [raiseInt_latch, loadErr_latch]
  · rw [emit_latch]
@[simp] theorem blockErr_latch (s : State) (rgn bit inf : Nat) : (blockErr s rgn bit inf).latch = s.latch := by
  unfold blockErr; rw [captureErr_latch]
@[simp] theorem captureErr_blk (s : State) (rgn bit : Nat) (w : Bool) (size bi inf addr : Nat) (who : Who) :
    (captureErr s rgn bit w size bi inf addr who).blk = s.blk := by
  unfold captureErr; split
  · rw [raiseInt_blk, loadErr_blk]
  · rw [emit_blk]
@[simp] theorem blockErr_blk (s : State) (rgn bit inf : Nat) : (blockErr s rgn bit inf).blk = s.blk := by
  unfold blockErr; rw [captureErr_blk]
@[simp] theorem captureErr_trunk (s : State) (rgn bit : Nat) (w : Bool) (size bi inf addr : Nat) (who : Who) :
    (captureErr s rgn bit w size bi inf addr who).trunk = s.trunk := by
  unfold captureErr; split
  · rw [raiseInt_trunk, loadErr_trunk]
  · rw [emit_trunk]
@[simp] theorem blockErr_trunk (s : State) (rgn bit inf : Nat) : (blockErr s rgn bit inf).trunk = s.trunk := by
  unfold blockErr; rw [captureErr_trunk]
@[simp] theorem captureErr_mem (s : State) (rgn bit : Nat) (w : Bool) (size bi inf addr : Nat) (who : Who) :
    (captureErr s rgn bit w size bi inf addr who).mem = s.mem := by
  unfold captureErr; split
  · rw [raiseInt_mem, loadErr_mem]
  · rw [emit_mem]
@[simp] theorem blockErr_mem (s : State) (rgn bit inf : Nat) : (blockErr s rgn bit inf).mem = s.mem := by
  unfold blockErr; rw [captureErr_mem]
@[simp] theorem captureErr_dev (s : State) (rgn bit : Nat) (w : Bool) (size bi inf addr : Nat) (who : Who) :
    (captureErr s rgn bit w size bi inf addr who).dev = s.dev := by
  unfold captureErr; split
  · rw [raiseInt_dev, loadErr_dev]
  · rw [emit_dev]
@[simp] theorem blockErr_dev (s : State) (rgn bit inf : Nat) : (blockErr s rgn bit inf).dev = s.dev := by
  unfold blockErr; rw [captureErr_dev]
@[simp] theorem captureErr_ports (s : State) (rgn bit : Nat) (w : Bool) (size bi inf addr : Nat) (who : Who) :
    (captureErr s rgn bit w size bi inf addr who).ports = s.ports := by
  unfold captureErr; split
  · rw [raiseInt_ports, loadErr_ports]
  · rw [emit_ports]
@[simp] theorem blockErr_ports (s : State) (rgn bit inf : Nat) : (blockErr s rgn bit inf).ports = s.ports := by
  unfold blockErr; rw [captureErr_ports]
@[simp] theorem captureErr_hqe (s : State) (rgn bit : Nat) (w : Bool) (size bi inf addr : Nat) (who : Who) :
    (captureErr s rgn bit w size bi inf addr who).hqe = s.hqe := by
  unfold captureErr; split
  · rw [raiseInt_hqe, loadErr_hqe]
  · rw [emit_hqe]
@[simp] theorem blockErr_hqe (s : State) (rgn bit inf : Nat) : (blockErr s rgn bit inf).hqe = s.hqe := by
  unfold blockErr; rw [captureErr_hqe]
@[simp] theorem captureErr_ten (s : State) (rgn bit : Nat) (w : Bool) (size bi inf addr : Nat) (who : Who) :
    (captureErr s rgn bit w size bi inf addr who).ten = s.ten := by
  unfold captureErr; split
  · rw [raiseInt_ten, loadErr_ten]
  · rw [emit_ten]
@[simp] theorem blockErr_ten (s : State) (rgn bit inf : Nat) : (blockErr s rgn bit inf).ten = s.ten := by
  unfold blockErr; rw [captureErr_ten]
@[simp] theorem captureErr_bpm (s : State) (rgn bit : Nat) (w : Bool) (size bi inf addr : Nat) (who : Who) :
    (captureErr s rgn bit w size bi inf addr who).bpm = s.bpm := by
  unfold captureErr; split
  · rw [raiseInt_bpm, loadErr_bpm]
  · rw [emit_bpm]
@[simp] theorem blockErr_bpm (s : State) (rgn bit inf : Nat) : (blockErr s rgn bit inf).bpm = s.bpm := by
  unfold blockErr; rw [captureErr_bpm]
@[simp] theorem captureErr_dmc (s : State) (rgn bit : Nat) (w : Bool) (size bi inf addr : Nat) (who : Who) :
    (captureErr s rgn bit w size bi inf addr who).dmc = s.dmc := by
  unfold captureErr; split
  · rw [raiseInt_dmc, loadErr_dmc]
  · rw [emit_dmc]
@[simp] theorem blockErr_dmc (s : State) (rgn bit inf : Nat) : (blockErr s rgn bit inf).dmc = s.dmc := by
  unfold blockErr; rw [captureErr_dmc]
@[simp] theorem captureErr_ftl (s : State) (rgn bit : Nat) (w : Bool) (size bi inf addr : Nat) (who : Who) :
    (captureErr s rgn bit w size bi inf addr who).ftl = s.ftl := by
  unfold captureErr; split
  · rw [raiseInt_ftl, loadErr_ftl]
  · rw [emit_ftl]
@[simp] theorem blockErr_ftl (s : State) (rgn bit inf : Nat) : (blockErr s rgn bit inf).ftl = s.ftl := by
  unfold blockErr; rw [captureErr_ftl]
@[simp] theorem captureErr_cpc (s : State) (rgn bit : Nat) (w : Bool) (size bi inf addr : Nat) (who : Who) :
    (captureErr s rgn bit w size bi inf addr who).cpc = s.cpc := by
  unfold captureErr; split
  · rw [raiseInt_cpc, loadErr_cpc]
  · rw [emit_cpc]
@[simp] theorem blockErr_cpc (s : State) (rgn bit inf : Nat) : (blockErr s rgn bit inf).cpc = s.cpc := by
  unfold blockErr; rw [captureErr_cpc]
@[simp] theorem captureErr_flash (s : State) (rgn bit : Nat) (w : Bool) (size bi inf addr : Nat) (who : Who) :
    (captureErr s rgn bit w size bi inf addr who).flash = s.flash := by
  unfold captureErr; split
  · rw [raiseInt_flash, loadErr_flash]
  · rw [emit_flash]
@[simp] theorem blockErr_flash (s : State) (rgn bit inf : Nat) : (blockErr s rgn bit inf).flash = s.flash := by
  unfold blockErr; rw [captureErr_flash]
@[simp] theorem captureErr_ldc (s : State) (rgn bit : Nat) (w : Bool) (size bi inf addr : Nat) (who : Who) :
    (captureErr s rgn bit w size bi inf addr who).ldc = s.ldc := by
  unfold captureErr; split
  · rw [raiseInt_ldc, loadErr_ldc]
  · rw [emit_ldc]
@[simp] theorem blockErr_ldc (s : State) (rgn bit inf : Nat) : (blockErr s rgn bit inf).ldc = s.ldc := by
  unfold blockErr; rw [captureErr_ldc]
@[simp] theorem captureErr_sec (s : State) (rgn bit : Nat) (w : Bool) (size bi inf addr : Nat) (who : Who) :
    (captureErr s rgn bit w size bi inf addr who).sec = s.sec := by
  unfold captureErr; split
  · rw [raiseInt_sec, loadErr_sec]
  · rw [emit_sec]
@[simp] theorem blockErr_sec (s : State) (rgn bit inf : Nat) : (blockErr s rgn bit inf).sec = s.sec := by
  unfold blockErr; rw [captureErr_sec]
@[simp] theorem captureErr_win (s : State) (rgn bit : Nat) (w : Bool) (size bi inf addr : Nat) (who : Who) :
    (captureErr s rgn bit w size bi inf addr who).win = s.win := by
  unfold captureErr; split
  · rw [raiseInt_win, loadErr_win]
  · rw [emit_win]
@[simp] theorem blockErr_win (s : State) (rgn bit inf : Nat) : (blockErr s rgn bit inf).win = s.win := by
  unfold blockErr; rw [captureErr_win]
@[simp] theorem captureErr_grv (s : State) (rgn bit : Nat) (w : Bool) (size bi inf addr : Nat) (who : Who) :
    (captureErr s rgn bit w size bi inf addr who).grv = s.grv := by
  unfold captureErr; split
  · rw [raiseInt_grv, loadErr_grv]
  · rw [emit_grv]
@[simp] theorem blockErr_grv (s : State) (rgn bit inf : Nat) : (blockErr s rgn bit inf).grv = s.grv := by
  unfold blockErr; rw [captureErr_grv]
@[simp] theorem captureErr_pwr (s : State) (rgn bit : Nat) (w : Bool) (size bi inf addr : Nat) (who : Who) :
    (captureErr s rgn bit w size bi inf addr who).pwr = s.pwr := by
  unfold captureErr; split
  · rw [raiseInt_pwr, loadErr_pwr]
  · rw [emit_pwr]
@[simp] theorem blockErr_pwr (s : State) (rgn bit inf : Nat) : (blockErr s rgn bit inf).pwr = s.pwr := by
  unfold blockErr; rw [captureErr_pwr]
@[simp] theorem captureErr_aon (s : State) (rgn bit : Nat) (w : Bool) (size bi inf addr : Nat) (who : Who) :
    (captureErr s rgn bit w size bi inf addr who).aon = s.aon := by
  unfold captureErr; split
  · rw [raiseInt_aon, loadErr_aon]
  · rw [emit_aon]
@[simp] theorem blockErr_aon (s : State) (rgn bit inf : Nat) : (blockErr s rgn bit inf).aon = s.aon := by
  unfold blockErr; rw [captureErr_aon]
@[simp] theorem captureErr_fus (s : State) (rgn bit : Nat) (w : Bool) (size bi inf addr : Nat) (who : Who) :
    (captureErr s rgn bit w size bi inf addr who).fus = s.fus := by
  unfold captureErr; split
  · rw [raiseInt_fus, loadErr_fus]
  · rw [emit_fus]
@[simp] theorem blockErr_fus (s : State) (rgn bit inf : Nat) : (blockErr s rgn bit inf).fus = s.fus := by
  unfold blockErr; rw [captureErr_fus]
@[simp] theorem captureErr_bst (s : State) (rgn bit : Nat) (w : Bool) (size bi inf addr : Nat) (who : Who) :
    (captureErr s rgn bit w size bi inf addr who).bst = s.bst := by
  unfold captureErr; split
  · rw [raiseInt_bst, loadErr_bst]
  · rw [emit_bst]
@[simp] theorem blockErr_bst (s : State) (rgn bit inf : Nat) : (blockErr s rgn bit inf).bst = s.bst := by
  unfold blockErr; rw [captureErr_bst]
@[simp] theorem captureErr_cores (s : State) (rgn bit : Nat) (w : Bool) (size bi inf addr : Nat) (who : Who) :
    (captureErr s rgn bit w size bi inf addr who).cores = s.cores := by
  unfold captureErr; split
  · rw [raiseInt_cores, loadErr_cores]
  · rw [emit_cores]
@[simp] theorem blockErr_cores (s : State) (rgn bit inf : Nat) : (blockErr s rgn bit inf).cores = s.cores := by
  unfold blockErr; rw [captureErr_cores]
@[simp] theorem captureErr_tap (s : State) (rgn bit : Nat) (w : Bool) (size bi inf addr : Nat) (who : Who) :
    (captureErr s rgn bit w size bi inf addr who).tap = s.tap := by
  unfold captureErr; split
  · rw [raiseInt_tap, loadErr_tap]
  · rw [emit_tap]
@[simp] theorem blockErr_tap (s : State) (rgn bit inf : Nat) : (blockErr s rgn bit inf).tap = s.tap := by
  unfold blockErr; rw [captureErr_tap]
@[simp] theorem captureErr_mbx (s : State) (rgn bit : Nat) (w : Bool) (size bi inf addr : Nat) (who : Who) :
    (captureErr s rgn bit w size bi inf addr who).mbx = s.mbx := by
  unfold captureErr; split
  · rw [raiseInt_mbx, loadErr_mbx]
  · rw [emit_mbx]
@[simp] theorem blockErr_mbx (s : State) (rgn bit inf : Nat) : (blockErr s rgn bit inf).mbx = s.mbx := by
  unfold blockErr; rw [captureErr_mbx]
@[simp] theorem captureErr_xmv (s : State) (rgn bit : Nat) (w : Bool) (size bi inf addr : Nat) (who : Who) :
    (captureErr s rgn bit w size bi inf addr who).xmv = s.xmv := by
  unfold captureErr; split
  · rw [raiseInt_xmv, loadErr_xmv]
  · rw [emit_xmv]
@[simp] theorem captureErr_xmvTurn (s : State) (rgn bit : Nat) (w : Bool) (size bi inf addr : Nat) (who : Who) :
    (captureErr s rgn bit w size bi inf addr who).xmvTurn = s.xmvTurn := by
  unfold captureErr; split
  · rw [raiseInt_xmvTurn, loadErr_xmvTurn]
  · rw [emit_xmvTurn]
@[simp] theorem blockErr_xmv (s : State) (rgn bit inf : Nat) : (blockErr s rgn bit inf).xmv = s.xmv := by
  unfold blockErr; rw [captureErr_xmv]
@[simp] theorem blockErr_xmvTurn (s : State) (rgn bit inf : Nat) : (blockErr s rgn bit inf).xmvTurn = s.xmvTurn := by
  unfold blockErr; rw [captureErr_xmvTurn]
@[simp] theorem captureErr_graft (s : State) (rgn bit : Nat) (w : Bool) (size bi inf addr : Nat) (who : Who) :
    (captureErr s rgn bit w size bi inf addr who).graft = s.graft := by
  unfold captureErr; split
  · rw [raiseInt_graft, loadErr_graft]
  · rw [emit_graft]
@[simp] theorem blockErr_graft (s : State) (rgn bit inf : Nat) : (blockErr s rgn bit inf).graft = s.graft := by
  unfold blockErr; rw [captureErr_graft]
@[simp] theorem captureErr_rings (s : State) (rgn bit : Nat) (w : Bool) (size bi inf addr : Nat) (who : Who) :
    (captureErr s rgn bit w size bi inf addr who).rings = s.rings := by
  unfold captureErr; split
  · rw [raiseInt_rings, loadErr_rings]
  · rw [emit_rings]
@[simp] theorem blockErr_rings (s : State) (rgn bit inf : Nat) : (blockErr s rgn bit inf).rings = s.rings := by
  unfold blockErr; rw [captureErr_rings]

@[simp] theorem takeFree_pending (s : State) : (takeFree s).2.pending = s.pending := by unfold takeFree; exact rfl
@[simp] theorem takeFree_clock (s : State) : (takeFree s).2.clock = s.clock := by unfold takeFree; exact rfl
@[simp] theorem takeFree_resp (s : State) : (takeFree s).2.resp = s.resp := by unfold takeFree; exact rfl
@[simp] theorem takeFree_regs (s : State) : (takeFree s).2.regs = s.regs := by unfold takeFree; exact rfl
@[simp] theorem takeFree_latch (s : State) : (takeFree s).2.latch = s.latch := by unfold takeFree; exact rfl
@[simp] theorem takeFree_blk (s : State) : (takeFree s).2.blk = s.blk := by unfold takeFree; exact rfl
@[simp] theorem takeFree_trunk (s : State) : (takeFree s).2.trunk = s.trunk := by unfold takeFree; exact rfl
@[simp] theorem takeFree_evq (s : State) : (takeFree s).2.evq = s.evq := by unfold takeFree; exact rfl
@[simp] theorem takeFree_mem (s : State) : (takeFree s).2.mem = s.mem := by unfold takeFree; exact rfl
@[simp] theorem takeFree_dev (s : State) : (takeFree s).2.dev = s.dev := by unfold takeFree; exact rfl
@[simp] theorem takeFree_ports (s : State) : (takeFree s).2.ports = s.ports := by unfold takeFree; exact rfl
@[simp] theorem takeFree_hqe (s : State) : (takeFree s).2.hqe = s.hqe := by unfold takeFree; exact rfl
@[simp] theorem takeFree_ten (s : State) : (takeFree s).2.ten = s.ten := by unfold takeFree; exact rfl
@[simp] theorem takeFree_bpm (s : State) : (takeFree s).2.bpm = s.bpm := by unfold takeFree; exact rfl
@[simp] theorem takeFree_dmc (s : State) : (takeFree s).2.dmc = s.dmc := by unfold takeFree; exact rfl
@[simp] theorem takeFree_ftl (s : State) : (takeFree s).2.ftl = s.ftl := by unfold takeFree; exact rfl
@[simp] theorem takeFree_cpc (s : State) : (takeFree s).2.cpc = s.cpc := by unfold takeFree; exact rfl
@[simp] theorem takeFree_flash (s : State) : (takeFree s).2.flash = s.flash := by unfold takeFree; exact rfl
@[simp] theorem takeFree_ldc (s : State) : (takeFree s).2.ldc = s.ldc := by unfold takeFree; exact rfl
@[simp] theorem takeFree_sec (s : State) : (takeFree s).2.sec = s.sec := by unfold takeFree; exact rfl
@[simp] theorem takeFree_win (s : State) : (takeFree s).2.win = s.win := by unfold takeFree; exact rfl
@[simp] theorem takeFree_grv (s : State) : (takeFree s).2.grv = s.grv := by unfold takeFree; exact rfl
@[simp] theorem takeFree_pwr (s : State) : (takeFree s).2.pwr = s.pwr := by unfold takeFree; exact rfl
@[simp] theorem takeFree_aon (s : State) : (takeFree s).2.aon = s.aon := by unfold takeFree; exact rfl
@[simp] theorem takeFree_fus (s : State) : (takeFree s).2.fus = s.fus := by unfold takeFree; exact rfl
@[simp] theorem takeFree_bst (s : State) : (takeFree s).2.bst = s.bst := by unfold takeFree; exact rfl
@[simp] theorem takeFree_cores (s : State) : (takeFree s).2.cores = s.cores := by unfold takeFree; exact rfl
@[simp] theorem takeFree_tap (s : State) : (takeFree s).2.tap = s.tap := by unfold takeFree; exact rfl
@[simp] theorem takeFree_mbx (s : State) : (takeFree s).2.mbx = s.mbx := by unfold takeFree; exact rfl
@[simp] theorem takeFree_xmv (s : State) : (takeFree s).2.xmv = s.xmv := by unfold takeFree; exact rfl
@[simp] theorem takeFree_xmvTurn (s : State) : (takeFree s).2.xmvTurn = s.xmvTurn := by unfold takeFree; exact rfl
@[simp] theorem takeFree_graft (s : State) : (takeFree s).2.graft = s.graft := by unfold takeFree; exact rfl
@[simp] theorem takeFree_rings (s : State) : (takeFree s).2.rings = s.rings := by unfold takeFree; exact rfl
@[simp] theorem takeFree_freeCtr (s : State) : (takeFree s).2.freeCtr = s.freeCtr + 1 := by unfold takeFree; exact rfl

end Sys2Proof.Laws
end

