-- ==== Sys2Proof/Laws/Tbl.lean ====
section
/-! SUPPORT. The laws of sparse tables: reading after writing, and the order of the keys. -/

namespace Sys2Proof.Laws

open Sys2Proof.Machine

variable {α : Type}

/-- A table whose first key lies above `k` and whose keys rise. -/
theorem sorted_tail {k : Nat} {v : α} {t : Tbl α} (h : Tbl.sorted ((k, v) :: t) = true) : Tbl.sorted t = true := by
  cases t with
  | nil => rfl
  | cons p t => simp only [Tbl.sorted, Bool.and_eq_true] at h; exact h.2

theorem find_put_same (t : Tbl α) (k : Nat) (v : α) : Tbl.find (Tbl.put t k v) k = some v := by
  induction t with
  | nil => simp [Tbl.put, Tbl.find]
  | cons p t ih =>
    obtain ⟨k', v'⟩ := p
    simp only [Tbl.put]
    split
    · simp [Tbl.find]
    · split
      · simp [Tbl.find]
      · simp only [Tbl.find]; split
        · contradiction
        · exact ih

theorem find_put_other (t : Tbl α) {k j : Nat} (v : α) (h : j ≠ k) : Tbl.find (Tbl.put t k v) j = Tbl.find t j := by
  induction t with
  | nil => simp [Tbl.put, Tbl.find, Ne.symm h]
  | cons p t ih =>
    obtain ⟨k', v'⟩ := p
    simp only [Tbl.put]
    split
    · simp [Tbl.find, Ne.symm h]
    · split
      · subst_vars; simp [Tbl.find, Ne.symm h]
      · simp only [Tbl.find, ih]

theorem find_del_same (t : Tbl α) (k : Nat) : Tbl.find (Tbl.del t k) k = none := by
  induction t with
  | nil => rfl
  | cons p t ih =>
    obtain ⟨k', v'⟩ := p
    simp only [Tbl.del]
    split
    · exact ih
    · simp only [Tbl.find]; split
      · contradiction
      · exact ih

theorem find_del_other (t : Tbl α) {k j : Nat} (h : j ≠ k) : Tbl.find (Tbl.del t k) j = Tbl.find t j := by
  induction t with
  | nil => rfl
  | cons p t ih =>
    obtain ⟨k', v'⟩ := p
    simp only [Tbl.del]
    split
    · subst_vars; simp [Tbl.find, Ne.symm h, ih]
    · simp only [Tbl.find, ih]

theorem find_putC_same [DecidableEq α] (d : α) (t : Tbl α) (k : Nat) (v : α) : (Tbl.find (Tbl.putC d t k v) k).getD d = v := by
  unfold Tbl.putC
  split
  · next h => simp [find_del_same, h]
  · simp [find_put_same]

theorem find_putC_other [DecidableEq α] (d : α) (t : Tbl α) {k j : Nat} (v : α) (h : j ≠ k) :
    Tbl.find (Tbl.putC d t k v) j = Tbl.find t j := by
  unfold Tbl.putC
  split
  · exact find_del_other t h
  · exact find_put_other t v h

/-- The keys of a rising table lie above its first key. -/
theorem sorted_lt {k : Nat} {v : α} {t : Tbl α} (h : Tbl.sorted ((k, v) :: t) = true) : ∀ p ∈ t, k < p.1 := by
  induction t generalizing k v with
  | nil => simp
  | cons p t ih =>
    simp only [Tbl.sorted, Bool.and_eq_true, decide_eq_true_eq] at h
    intro q hq
    rcases List.mem_cons.1 hq with rfl | hq
    · exact h.1
    · exact Nat.lt_trans h.1 (ih h.2 q hq)

theorem sorted_of_lt {k : Nat} {v : α} {t : Tbl α} (hs : Tbl.sorted t = true) (h : ∀ p ∈ t, k < p.1) :
    Tbl.sorted ((k, v) :: t) = true := by
  cases t with
  | nil => rfl
  | cons p t => simp only [Tbl.sorted, Bool.and_eq_true, decide_eq_true_eq]; exact ⟨h p (by simp), hs⟩

theorem mem_put {t : Tbl α} {k : Nat} {v : α} {p : Nat × α} (h : p ∈ Tbl.put t k v) : p = (k, v) ∨ p ∈ t := by
  induction t with
  | nil => simpa [Tbl.put] using h
  | cons q t ih =>
    simp only [Tbl.put] at h
    split at h
    · simpa using h
    · split at h
      · rcases List.mem_cons.1 h with h | h
        · exact .inl h
        · exact .inr (List.mem_cons_of_mem _ h)
      · rcases List.mem_cons.1 h with h | h
        · exact .inr (h ▸ List.mem_cons_self ..)
        · exact (ih h).imp_right (List.mem_cons_of_mem _)

theorem mem_del {t : Tbl α} {k : Nat} {p : Nat × α} (h : p ∈ Tbl.del t k) : p ∈ t := by
  induction t with
  | nil => exact h
  | cons q t ih =>
    simp only [Tbl.del] at h
    split at h
    · exact List.mem_cons_of_mem _ (ih h)
    · rcases List.mem_cons.1 h with h | h
      · exact h ▸ List.mem_cons_self ..
      · exact List.mem_cons_of_mem _ (ih h)

theorem sorted_put {t : Tbl α} (h : Tbl.sorted t = true) (k : Nat) (v : α) : Tbl.sorted (Tbl.put t k v) = true := by
  induction t with
  | nil => rfl
  | cons p t ih =>
    obtain ⟨k', v'⟩ := p
    simp only [Tbl.put]
    split
    · next hk => exact sorted_of_lt h (by
        intro q hq
        rcases List.mem_cons.1 hq with rfl | hq
        · exact hk
        · exact Nat.lt_trans hk (sorted_lt h q hq))
    · split
      · next hk => subst hk; exact sorted_of_lt (sorted_tail h) (sorted_lt h)
      · next hk hne => exact sorted_of_lt (ih (sorted_tail h)) (by
          intro q hq
          rcases mem_put hq with rfl | hq
          · show k' < k; omega
          · exact sorted_lt h q hq)

theorem sorted_del {t : Tbl α} (h : Tbl.sorted t = true) (k : Nat) : Tbl.sorted (Tbl.del t k) = true := by
  induction t with
  | nil => rfl
  | cons p t ih =>
    simp only [Tbl.del]
    split
    · exact ih (sorted_tail h)
    · exact sorted_of_lt (ih (sorted_tail h)) fun q hq => sorted_lt h q (mem_del hq)

theorem sorted_filter {t : Tbl α} (h : Tbl.sorted t = true) (f : Nat × α → Bool) : Tbl.sorted (t.filter f) = true := by
  induction t with
  | nil => rfl
  | cons p t ih =>
    simp only [List.filter_cons]
    split
    · exact sorted_of_lt (ih (sorted_tail h)) fun q hq => sorted_lt h q (List.mem_filter.1 hq).1
    · exact ih (sorted_tail h)

end Sys2Proof.Laws
end

