-- ==== Sys2Proof/Laws/Ops.lean ====
section
/-! SUPPORT. The laws of the register file and of memory: reading after writing, and the canonical forms that every operation keeps. -/

namespace Sys2Proof.Laws

open Sys2Proof Sys2Proof.Machine

/-- A register reads as written. -/
theorem rd_wr_same (s : State) (rgn off : Nat) (v : Word) : rd (wr s rgn off v) rgn off = v := by
  by_cases h : v = resetAt rgn off
  · simp [rd, wr, Tbl.putC, h, find_del_same]
  · simp [rd, wr, Tbl.putC, h, find_put_same]

/-- Writing a register leaves every other register alone. -/
theorem rd_wr_other (s : State) {rgn off rgn' off' : Nat} (v : Word) (h : regKey rgn' off' ≠ regKey rgn off) :
    rd (wr s rgn off v) rgn' off' = rd s rgn' off' := by
  unfold rd wr
  simp [find_putC_other _ _ _ h]

/-- Offsets below 64 KiB give each register its own key. -/
theorem regKey_inj {rgn off rgn' off' : Nat} (h : off < 65536) (h' : off' < 65536) (e : regKey rgn off = regKey rgn' off') :
    rgn = rgn' ∧ off = off' := by
  unfold regKey at e; omega

/-- A byte reads as written. -/
theorem memRead_memWrite_same (s : State) (a : Nat) (b : Byte) : memRead (memWrite s a b) a = b := by
  by_cases h : b = memDefault a
  · simp [memRead, memWrite, Tbl.putC, h, find_del_same]
  · simp [memRead, memWrite, Tbl.putC, h, find_put_same]

/-- Writing a byte leaves every other byte alone. -/
theorem memRead_memWrite_other (s : State) {a a' : Nat} (b : Byte) (h : a' ≠ a) : memRead (memWrite s a b) a' = memRead s a' := by
  unfold memRead memWrite
  simp [find_putC_other _ _ _ h]

/-- Writing a run of bytes leaves every byte outside the run alone. -/
theorem memRead_memWriteN_other (l : List Byte) (s : State) (a a' : Nat) (h : a' < a ∨ a + l.length ≤ a') :
    memRead (memWriteN s a l) a' = memRead s a' := by
  induction l generalizing s a with
  | nil => rfl
  | cons b t ih =>
    simp only [List.length_cons] at h
    simp only [memWriteN]
    rw [ih _ _ (by omega), memRead_memWrite_other _ _ (by omega)]

/-- A run of bytes reads as written. -/
theorem memReadN_memWriteN (l : List Byte) (s : State) (a : Nat) : memReadN (memWriteN s a l) a l.length = l := by
  induction l generalizing s a with
  | nil => rfl
  | cons b t ih =>
    simp only [memWriteN, List.length_cons, memReadN, ih]
    rw [memRead_memWriteN_other _ _ _ _ (by omega), memRead_memWrite_same]

/-- Writing a byte keeps the canonical form of memory. -/
theorem memWrite_wf {s : State} (h : Memory.wf s.mem = true) (a : Nat) (b : Byte) : Memory.wf (memWrite s a b).mem = true := by
  simp only [Memory.wf, Bool.and_eq_true, List.all_eq_true, decide_eq_true_eq] at h ⊢
  simp only [memWrite, Tbl.putC]
  split
  · exact ⟨sorted_del h.1 _, fun p hp => h.2 p (mem_del hp)⟩
  · next hb =>
    refine ⟨sorted_put h.1 _ _, fun p hp => ?_⟩
    rcases mem_put hp with rfl | hp
    · exact hb
    · exact h.2 p hp

/-- Writing a run of bytes keeps the canonical form of memory. -/
theorem memWriteN_wf (l : List Byte) {s : State} (h : Memory.wf s.mem = true) (a : Nat) : Memory.wf (memWriteN s a l).mem = true := by
  induction l generalizing s a with
  | nil => exact h
  | cons b t ih => exact ih (memWrite_wf h a b) _

/-- Forgetting a range keeps the canonical form of memory. -/
theorem memForget_wf {s : State} (h : Memory.wf s.mem = true) (a n : Nat) : Memory.wf (memForget s a n).mem = true := by
  simp only [Memory.wf, Bool.and_eq_true, List.all_eq_true, decide_eq_true_eq] at h ⊢
  exact ⟨sorted_filter h.1 _, fun p hp => h.2 p (List.mem_filter.1 hp).1⟩

/-- Writing a register keeps the canonical form of the register file. -/
theorem wr_wf {s : State} (h : Regs.wf s.regs = true) {rgn off : Nat} (ho : off < 65536) (v : Word) :
    Regs.wf (wr s rgn off v).regs = true := by
  simp only [Regs.wf, Bool.and_eq_true, List.all_eq_true, decide_eq_true_eq] at h ⊢
  simp only [wr, Tbl.putC]
  split
  · exact ⟨sorted_del h.1 _, fun p hp => h.2 p (mem_del hp)⟩
  · next hb =>
    refine ⟨sorted_put h.1 _ _, fun p hp => ?_⟩
    rcases mem_put hp with rfl | hp
    · have h1 : regKey rgn off / 65536 = rgn := by unfold regKey; omega
      have h2 : regKey rgn off % 65536 = off := by unfold regKey; omega
      simpa [h1, h2] using hb
    · exact h.2 p hp

end Sys2Proof.Laws
end

