-- ==== Sys2Proof/Laws/Bus.lean ====
section
/-! SUPPORT. When a read of a whole DRAM line, or a store to one, by the part itself goes through plainly: what it answers and changes. -/

namespace Sys2Proof.Laws

open Sys2Proof Sys2Proof.Machine

/-- A line of DRAM that a master may reach, whose granule is valid and not being filled, and which is neither poisoned, in error nor under an
armed flip, in a machine whose walker, Coppice and window keep no structures in DRAM. -/
structure PlainLine (s : State) (who : Who) (a : Nat) (write : Bool) : Prop where
  dram : placeOf s a = .dram
  pass : (barkCheck s 0x1B ⟨who, a, 64, if write then .write else .read, 0⟩).2 = true
  up : dramUp s = true
  serves : refusesData s 0x1B = false
  bare : tablesOff s = true
  whole : a % 64 = 0
  fills : Tbl.find s.dmc.fills (granuleOf (lineOf a)) = none
  valid : granuleValid s (granuleOf (lineOf a)) = true
  calm : flipArmed s (lineOf a) (if write then 1 else 0) = false
  fresh : neverWritten s (lineOf a) = false
  sound : isPoisoned s (lineOf a) = false
  stored : Tbl.getD s.dmc.stored (lineOf a) [] = []

theorem readLine_plain {s : State} {who : Who} {a : Nat} (h : PlainLine s who a false) : readLine s (lineOf a) [] who = (0, s) := by
  have hc : flipArmed s (lineOf a) 0 = false := h.calm
  simp [readLine, decodeLine, h.valid, hc, h.fresh, h.sound, h.stored, meetErrs, outcomeOf, recordOutcome]

/-- The read answers the bytes that memory holds, and changes nothing. -/
theorem busRead_plain {s : State} {who : Who} {a : Nat} (h : PlainLine s who a false) : busRead s who a 64 = (.ok, memReadN s a 64, s) := by
  have hb : (barkCheck s 0x1B ⟨who, a, 64, .read, 0⟩).2 = true := h.pass
  have ha : busAdmit s ⟨who, a, 64, .read, 0⟩ = (.ok, s) := by
    simp [busAdmit, h.dram, tableOf, hb, h.up, h.serves]
  have hf : fillNow s (granuleOf (lineOf a)) false = s := by simp [fillNow, h.fills]
  have hp : readPiece s who a 64 = (.ok, memReadN s a 64, s) := by
    simp [readPiece, ha, takePiece, h.dram, hf, readLine_plain h, dramBytes, h.bare, plainBytes, h.valid]
  simp [busRead, busReadAux, h.whole, hp]

/-- A plain line stays one when the window engine alone changes. -/
theorem PlainLine.withWin {s : State} {who : Who} {a : Nat} {b : Bool} (h : PlainLine s who a b) (w : Win) : PlainLine { s with win := w } who a b :=
  ⟨h.dram, h.pass, h.up, h.serves, h.bare, h.whole, h.fills, h.valid, h.calm, h.fresh, h.sound, h.stored⟩

/-- Writing bytes changes memory alone. -/
theorem memWriteN_eq (l : List Byte) (s : State) (a : Nat) : memWriteN s a l = { s with mem := (memWriteN s a l).mem } := by
  induction l generalizing s a with
  | nil => rfl
  | cons b t ih => simp only [memWriteN]; rw [ih]; rfl

theorem memWriteN_win (l : List Byte) (s : State) (w : Win) (a : Nat) : (memWriteN { s with win := w } a l).mem = (memWriteN s a l).mem := by
  suffices h : ∀ s t : State, s.mem = t.mem → (memWriteN s a l).mem = (memWriteN t a l).mem from h _ _ rfl
  intro s t h
  induction l generalizing s t a with
  | nil => exact h
  | cons b l ih => exact ih _ _ _ (by simp [memWrite, h])

/-- The state after a store to a plain line. -/
def storedLine (s : State) (a : Nat) (d : List Byte) : State :=
  { s with
    mem := (memWriteN s a (leBytes 64 (leNat d))).mem
    dmc := { s.dmc with
      poison := Tbl.putC false s.dmc.poison (lineOf a) false, stored := Tbl.putC [] s.dmc.stored (lineOf a) []
      uninit := Tbl.adj s.dmc.uninit (granuleOf (lineOf a)) (lineOf a :: ·) } }

/-- Which structures stand in DRAM does not depend on the bytes of memory. -/
theorem tablesOff_mem (s : State) (m : List Host.Cell) : tablesOff { s with mem := m } = tablesOff s := rfl

/-- The store changes the bytes of the line and its marks. -/
theorem busWrite_plain {s : State} {who : Who} {a : Nat} (h : PlainLine s who a true) {d : List Byte} (hd : d.length = 64) :
    busWrite s who a d = (.ok, storedLine s a d) := by
  have hne : d ≠ [] := by intro e; simp [e] at hd
  have hb : (barkCheck s 0x1B ⟨who, a, 64, .write, leNat d⟩).2 = true := (h.pass :)
  have ha : busAdmit s ⟨who, a, 64, .write, leNat d⟩ = (.ok, s) := by
    simp [busAdmit, h.dram, tableOf, hb, h.up, h.serves]
  have hf : fillNow s (granuleOf (lineOf a)) true = s := by simp [fillNow, h.fills, h.valid]
  have hc : flipArmed s (lineOf a) 1 = false := h.calm
  have hq : putPiece s who a d = storedLine s a d := by
    simp only [putPiece, h.dram, hf, hd, applyReq, applyLine]
    rw [memWriteN_eq]
    simp [tableWrite, tablesOff_mem, h.bare, setLine, storedLine, hc]
  have hp : writePiece s who a d = (.ok, storedLine s a d) := by simp [writePiece, hd, ha, hq]
  have ht : d.take 64 = d := List.take_of_length_le (by omega)
  simp [busWrite, busWriteAux, hne, hd, h.whole, ht, hp]

/-- It does so whatever the window engine holds. -/
theorem busWrite_plain_win {s : State} {who : Who} {a : Nat} (h : PlainLine s who a true) {d : List Byte} (hd : d.length = 64) (w : Win) :
    busWrite { s with win := w } who a d = (.ok, { storedLine s a d with win := w }) := by
  rw [busWrite_plain (h.withWin w) hd]
  simp only [storedLine, memWriteN_win]

/-- A plain line of the window gives its bytes to a read. -/
theorem winBytes_plain {s : State} {line : Nat} (hs : (granOf s (lineGran line)).st ≠ .unwritten)
    (h : PlainLine s (winWho s line) (winAddr s line) false) : WinBytes s line (memReadN s (winAddr s line) 64) :=
  .inr ⟨hs, fun w => busRead_plain (h.withWin w)⟩

theorem storedLine_keeps (s : State) (a : Nat) (d : List Byte) : KeepsBut [.mem, .dmc, .regs] s (storedLine s a d) := by
  intro p hp
  cases p <;> first | exact absurd (by decide) hp | simp only [Part.same, storedLine, and_self]

theorem storedLine_regs (s : State) (a : Nat) (d : List Byte) : RegsOnly [(0x1B, 0x12C), (0x1B, 0x130)] s (storedLine s a d) := by
  intro _ _ _ _
  simp only [rd, storedLine]

/-- A plain line of the window takes a store. -/
theorem winStores_plain {s : State} {line : Nat} (h : PlainLine s (winWho s line) (winAddr s line) true) {d : List Byte} (hd : d.length = 64) :
    WinStores s line d (storedLine s (winAddr s line) d) :=
  ⟨storedLine_keeps _ _ _, storedLine_regs _ _ _, busWrite_plain_win h hd⟩

/-- Where the table lets every run through, nothing changes. -/
theorem dramMayAll_pass {s : State} {who : Who} {kind : AccKind} {l : List (Nat × Nat)} (h : ∀ p ∈ l, RunPasses s who kind p) :
    dramMayAll s who kind l = (true, s) := by
  induction l with
  | nil => rfl
  | cons p t ih =>
    obtain ⟨h1, h2⟩ := h p (by simp)
    simp [dramMayAll, dramMay, h1, h2, ih fun q hq => h q (by simp [hq])]

/-- The walker reaches a leaf where the table lets its runs through. -/
theorem walkMay_pass {s : State} {root : Nat} {off : Option Nat} {kind : AccKind} (h : WalkPasses s root off kind) : walkMay s root off kind = (true, s) :=
  dramMayAll_pass h

end Sys2Proof.Laws
end

