-- ==== Sys2Proof/Laws/Settle.lean ====
section
/-! SUPPORT. What drawing the conclusions of a command (`settle`) leaves unchanged. -/

namespace Sys2Proof.Laws

open Sys2Proof.Machine

/-- An operation folded over a list keeps what each of its steps keeps. -/
theorem foldl_keeps {α β : Type} (g : State → β) (f : State → α → State) (h : ∀ s a, g (f s a) = g s) (l : List α) (s : State) :
    g (l.foldl f s) = g s := by
  induction l generalizing s with
  | nil => rfl
  | cons a l ih => rw [List.foldl_cons, ih, h]

@[simp] theorem raiseAer_pending (s : State) (mid typ info page : Nat) : (raiseAer s mid typ info page).pending = s.pending := by
  unfold raiseAer; repeat (first | rfl | split)
@[simp] theorem raiseAer_clock (s : State) (mid typ info page : Nat) : (raiseAer s mid typ info page).clock = s.clock := by
  unfold raiseAer; repeat (first | rfl | split)
@[simp] theorem raiseAer_resp (s : State) (mid typ info page : Nat) : (raiseAer s mid typ info page).resp = s.resp := by
  unfold raiseAer; repeat (first | rfl | split)
@[simp] theorem raiseAer_latch (s : State) (mid typ info page : Nat) : (raiseAer s mid typ info page).latch = s.latch := by
  unfold raiseAer; repeat (first | rfl | split)
@[simp] theorem raiseAer_blk (s : State) (mid typ info page : Nat) : (raiseAer s mid typ info page).blk = s.blk := by
  unfold raiseAer; repeat (first | rfl | split)
@[simp] theorem raiseAer_trunk (s : State) (mid typ info page : Nat) : (raiseAer s mid typ info page).trunk = s.trunk := by
  unfold raiseAer; repeat (first | rfl | split)
@[simp] theorem raiseAer_evq (s : State) (mid typ info page : Nat) : (raiseAer s mid typ info page).evq = s.evq := by
  unfold raiseAer; repeat (first | rfl | split)
@[simp] theorem raiseAer_mem (s : State) (mid typ info page : Nat) : (raiseAer s mid typ info page).mem = s.mem := by
  unfold raiseAer; repeat (first | rfl | split)
@[simp] theorem raiseAer_dev (s : State) (mid typ info page : Nat) : (raiseAer s mid typ info page).dev = s.dev := by
  unfold raiseAer; repeat (first | rfl | split)
@[simp] theorem raiseAer_ports (s : State) (mid typ info page : Nat) : (raiseAer s mid typ info page).ports = s.ports := by
  unfold raiseAer; repeat (first | rfl | split)
@[simp] theorem raiseAer_ten (s : State) (mid typ info page : Nat) : (raiseAer s mid typ info page).ten = s.ten := by
  unfold raiseAer; repeat (first | rfl | split)
@[simp] theorem raiseAer_bpm (s : State) (mid typ info page : Nat) : (raiseAer s mid typ info page).bpm = s.bpm := by
  unfold raiseAer; repeat (first | rfl | split)
@[simp] theorem raiseAer_dmc (s : State) (mid typ info page : Nat) : (raiseAer s mid typ info page).dmc = s.dmc := by
  unfold raiseAer; repeat (first | rfl | split)
@[simp] theorem raiseAer_ftl (s : State) (mid typ info page : Nat) : (raiseAer s mid typ info page).ftl = s.ftl := by
  unfold raiseAer; repeat (first | rfl | split)
@[simp] theorem raiseAer_cpc (s : State) (mid typ info page : Nat) : (raiseAer s mid typ info page).cpc = s.cpc := by
  unfold raiseAer; repeat (first | rfl | split)
@[simp] theorem raiseAer_flash (s : State) (mid typ info page : Nat) : (raiseAer s mid typ info page).flash = s.flash := by
  unfold raiseAer; repeat (first | rfl | split)
@[simp] theorem raiseAer_ldc (s : State) (mid typ info page : Nat) : (raiseAer s mid typ info page).ldc = s.ldc := by
  unfold raiseAer; repeat (first | rfl | split)
@[simp] theorem raiseAer_sec (s : State) (mid typ info page : Nat) : (raiseAer s mid typ info page).sec = s.sec := by
  unfold raiseAer; repeat (first | rfl | split)
@[simp] theorem raiseAer_win (s : State) (mid typ info page : Nat) : (raiseAer s mid typ info page).win = s.win := by
  unfold raiseAer; repeat (first | rfl | split)
@[simp] theorem raiseAer_grv (s : State) (mid typ info page : Nat) : (raiseAer s mid typ info page).grv = s.grv := by
  unfold raiseAer; repeat (first | rfl | split)
@[simp] theorem raiseAer_pwr (s : State) (mid typ info page : Nat) : (raiseAer s mid typ info page).pwr = s.pwr := by
  unfold raiseAer; repeat (first | rfl | split)
@[simp] theorem raiseAer_aon (s : State) (mid typ info page : Nat) : (raiseAer s mid typ info page).aon = s.aon := by
  unfold raiseAer; repeat (first | rfl | split)
@[simp] theorem raiseAer_fus (s : State) (mid typ info page : Nat) : (raiseAer s mid typ info page).fus = s.fus := by
  unfold raiseAer; repeat (first | rfl | split)
@[simp] theorem raiseAer_bst (s : State) (mid typ info page : Nat) : (raiseAer s mid typ info page).bst = s.bst := by
  unfold raiseAer; repeat (first | rfl | split)
@[simp] theorem raiseAer_cores (s : State) (mid typ info page : Nat) : (raiseAer s mid typ info page).cores = s.cores := by
  unfold raiseAer; repeat (first | rfl | split)
@[simp] theorem raiseAer_tap (s : State) (mid typ info page : Nat) : (raiseAer s mid typ info page).tap = s.tap := by
  unfold raiseAer; repeat (first | rfl | split)
@[simp] theorem raiseAer_mbx (s : State) (mid typ info page : Nat) : (raiseAer s mid typ info page).mbx = s.mbx := by
  unfold raiseAer; repeat (first | rfl | split)
@[simp] theorem raiseAer_xmv (s : State) (mid typ info page : Nat) : (raiseAer s mid typ info page).xmv = s.xmv := by
  unfold raiseAer; repeat (first | rfl | split)
@[simp] theorem raiseAer_graft (s : State) (mid typ info page : Nat) : (raiseAer s mid typ info page).graft = s.graft := by
  unfold raiseAer; repeat (first | rfl | split)
@[simp] theorem raiseAer_rings (s : State) (mid typ info page : Nat) : (raiseAer s mid typ info page).rings = s.rings := by
  unfold raiseAer; repeat (first | rfl | split)
@[simp] theorem raiseAer_regs (s : State) (mid typ info page : Nat) : (raiseAer s mid typ info page).regs = s.regs := by
  unfold raiseAer; repeat (first | rfl | split)
@[simp] theorem raiseAer_freeCtr (s : State) (mid typ info page : Nat) : (raiseAer s mid typ info page).freeCtr = s.freeCtr := by
  unfold raiseAer; repeat (first | rfl | split)
@[simp] theorem raiseAerAll_pending (s : State) (typ info page : Nat) : (raiseAerAll s typ info page).pending = s.pending := by
  unfold raiseAerAll; exact foldl_keeps (·.pending) _ (fun s a => by simp) _ s
@[simp] theorem raiseSmart_pending (s : State) (bit info : Nat) : (raiseSmart s bit info).pending = s.pending := by
  unfold raiseSmart; exact foldl_keeps (·.pending) _ (fun s a => by split <;> simp) _ s
@[simp] theorem raiseAerAll_clock (s : State) (typ info page : Nat) : (raiseAerAll s typ info page).clock = s.clock := by
  unfold raiseAerAll; exact foldl_keeps (·.clock) _ (fun s a => by simp) _ s
@[simp] theorem raiseSmart_clock (s : State) (bit info : Nat) : (raiseSmart s bit info).clock = s.clock := by
  unfold raiseSmart; exact foldl_keeps (·.clock) _ (fun s a => by split <;> simp) _ s
@[simp] theorem raiseAerAll_resp (s : State) (typ info page : Nat) : (raiseAerAll s typ info page).resp = s.resp := by
  unfold raiseAerAll; exact foldl_keeps (·.resp) _ (fun s a => by simp) _ s
@[simp] theorem raiseSmart_resp (s : State) (bit info : Nat) : (raiseSmart s bit info).resp = s.resp := by
  unfold raiseSmart; exact foldl_keeps (·.resp) _ (fun s a => by split <;> simp) _ s
@[simp] theorem raiseAerAll_latch (s : State) (typ info page : Nat) : (raiseAerAll s typ info page).latch = s.latch := by
  unfold raiseAerAll; exact foldl_keeps (·.latch) _ (fun s a => by simp) _ s
@[simp] theorem raiseSmart_latch (s : State) (bit info : Nat) : (raiseSmart s bit info).latch = s.latch := by
  unfold raiseSmart; exact foldl_keeps (·.latch) _ (fun s a => by split <;> simp) _ s
@[simp] theorem raiseAerAll_blk (s : State) (typ info page : Nat) : (raiseAerAll s typ info page).blk = s.blk := by
  unfold raiseAerAll; exact foldl_keeps (·.blk) _ (fun s a => by simp) _ s
@[simp] theorem raiseSmart_blk (s : State) (bit info : Nat) : (raiseSmart s bit info).blk = s.blk := by
  unfold raiseSmart; exact foldl_keeps (·.blk) _ (fun s a => by split <;> simp) _ s
@[simp] theorem raiseAerAll_trunk (s : State) (typ info page : Nat) : (raiseAerAll s typ info page).trunk = s.trunk := by
  unfold raiseAerAll; exact foldl_keeps (·.trunk) _ (fun s a => by simp) _ s
@[simp] theorem raiseSmart_trunk (s : State) (bit info : Nat) : (raiseSmart s bit info).trunk = s.trunk := by
  unfold raiseSmart; exact foldl_keeps (·.trunk) _ (fun s a => by split <;> simp) _ s
@[simp] theorem raiseAerAll_evq (s : State) (typ info page : Nat) : (raiseAerAll s typ info page).evq = s.evq := by
  unfold raiseAerAll; exact foldl_keeps (·.evq) _ (fun s a => by simp) _ s
@[simp] theorem raiseSmart_evq (s : State) (bit info : Nat) : (raiseSmart s bit info).evq = s.evq := by
  unfold raiseSmart; exact foldl_keeps (·.evq) _ (fun s a => by split <;> simp) _ s
@[simp] theorem raiseAerAll_mem (s : State) (typ info page : Nat) : (raiseAerAll s typ info page).mem = s.mem := by
  unfold raiseAerAll; exact foldl_keeps (·.mem) _ (fun s a => by simp) _ s
@[simp] theorem raiseSmart_mem (s : State) (bit info : Nat) : (raiseSmart s bit info).mem = s.mem := by
  unfold raiseSmart; exact foldl_keeps (·.mem) _ (fun s a => by split <;> simp) _ s
@[simp] theorem raiseAerAll_dev (s : State) (typ info page : Nat) : (raiseAerAll s typ info page).dev = s.dev := by
  unfold raiseAerAll; exact foldl_keeps (·.dev) _ (fun s a => by simp) _ s
@[simp] theorem raiseSmart_dev (s : State) (bit info : Nat) : (raiseSmart s bit info).dev = s.dev := by
  unfold raiseSmart; exact foldl_keeps (·.dev) _ (fun s a => by split <;> simp) _ s
@[simp] theorem raiseAerAll_ports (s : State) (typ info page : Nat) : (raiseAerAll s typ info page).ports = s.ports := by
  unfold raiseAerAll; exact foldl_keeps (·.ports) _ (fun s a => by simp) _ s
@[simp] theorem raiseSmart_ports (s : State) (bit info : Nat) : (raiseSmart s bit info).ports = s.ports := by
  unfold raiseSmart; exact foldl_keeps (·.ports) _ (fun s a => by split <;> simp) _ s
@[simp] theorem raiseAerAll_ten (s : State) (typ info page : Nat) : (raiseAerAll s typ info page).ten = s.ten := by
  unfold raiseAerAll; exact foldl_keeps (·.ten) _ (fun s a => by simp) _ s
@[simp] theorem raiseSmart_ten (s : State) (bit info : Nat) : (raiseSmart s bit info).ten = s.ten := by
  unfold raiseSmart; exact foldl_keeps (·.ten) _ (fun s a => by split <;> simp) _ s
@[simp] theorem raiseAerAll_bpm (s : State) (typ info page : Nat) : (raiseAerAll s typ info page).bpm = s.bpm := by
  unfold raiseAerAll; exact foldl_keeps (·.bpm) _ (fun s a => by simp) _ s
@[simp] theorem raiseSmart_bpm (s : State) (bit info : Nat) : (raiseSmart s bit info).bpm = s.bpm := by
  unfold raiseSmart; exact foldl_keeps (·.bpm) _ (fun s a => by split <;> simp) _ s
@[simp] theorem raiseAerAll_dmc (s : State) (typ info page : Nat) : (raiseAerAll s typ info page).dmc = s.dmc := by
  unfold raiseAerAll; exact foldl_keeps (·.dmc) _ (fun s a => by simp) _ s
@[simp] theorem raiseSmart_dmc (s : State) (bit info : Nat) : (raiseSmart s bit info).dmc = s.dmc := by
  unfold raiseSmart; exact foldl_keeps (·.dmc) _ (fun s a => by split <;> simp) _ s
@[simp] theorem raiseAerAll_ftl (s : State) (typ info page : Nat) : (raiseAerAll s typ info page).ftl = s.ftl := by
  unfold raiseAerAll; exact foldl_keeps (·.ftl) _ (fun s a => by simp) _ s
@[simp] theorem raiseSmart_ftl (s : State) (bit info : Nat) : (raiseSmart s bit info).ftl = s.ftl := by
  unfold raiseSmart; exact foldl_keeps (·.ftl) _ (fun s a => by split <;> simp) _ s
@[simp] theorem raiseAerAll_cpc (s : State) (typ info page : Nat) : (raiseAerAll s typ info page).cpc = s.cpc := by
  unfold raiseAerAll; exact foldl_keeps (·.cpc) _ (fun s a => by simp) _ s
@[simp] theorem raiseSmart_cpc (s : State) (bit info : Nat) : (raiseSmart s bit info).cpc = s.cpc := by
  unfold raiseSmart; exact foldl_keeps (·.cpc) _ (fun s a => by split <;> simp) _ s
@[simp] theorem raiseAerAll_flash (s : State) (typ info page : Nat) : (raiseAerAll s typ info page).flash = s.flash := by
  unfold raiseAerAll; exact foldl_keeps (·.flash) _ (fun s a => by simp) _ s
@[simp] theorem raiseSmart_flash (s : State) (bit info : Nat) : (raiseSmart s bit info).flash = s.flash := by
  unfold raiseSmart; exact foldl_keeps (·.flash) _ (fun s a => by split <;> simp) _ s
@[simp] theorem raiseAerAll_ldc (s : State) (typ info page : Nat) : (raiseAerAll s typ info page).ldc = s.ldc := by
  unfold raiseAerAll; exact foldl_keeps (·.ldc) _ (fun s a => by simp) _ s
@[simp] theorem raiseSmart_ldc (s : State) (bit info : Nat) : (raiseSmart s bit info).ldc = s.ldc := by
  unfold raiseSmart; exact foldl_keeps (·.ldc) _ (fun s a => by split <;> simp) _ s
@[simp] theorem raiseAerAll_sec (s : State) (typ info page : Nat) : (raiseAerAll s typ info page).sec = s.sec := by
  unfold raiseAerAll; exact foldl_keeps (·.sec) _ (fun s a => by simp) _ s
@[simp] theorem raiseSmart_sec (s : State) (bit info : Nat) : (raiseSmart s bit info).sec = s.sec := by
  unfold raiseSmart; exact foldl_keeps (·.sec) _ (fun s a => by split <;> simp) _ s
@[simp] theorem raiseAerAll_win (s : State) (typ info page : Nat) : (raiseAerAll s typ info page).win = s.win := by
  unfold raiseAerAll; exact foldl_keeps (·.win) _ (fun s a => by simp) _ s
@[simp] theorem raiseSmart_win (s : State) (bit info : Nat) : (raiseSmart s bit info).win = s.win := by
  unfold raiseSmart; exact foldl_keeps (·.win) _ (fun s a => by split <;> simp) _ s
@[simp] theorem raiseAerAll_grv (s : State) (typ info page : Nat) : (raiseAerAll s typ info page).grv = s.grv := by
  unfold raiseAerAll; exact foldl_keeps (·.grv) _ (fun s a => by simp) _ s
@[simp] theorem raiseSmart_grv (s : State) (bit info : Nat) : (raiseSmart s bit info).grv = s.grv := by
  unfold raiseSmart; exact foldl_keeps (·.grv) _ (fun s a => by split <;> simp) _ s
@[simp] theorem raiseAerAll_pwr (s : State) (typ info page : Nat) : (raiseAerAll s typ info page).pwr = s.pwr := by
  unfold raiseAerAll; exact foldl_keeps (·.pwr) _ (fun s a => by simp) _ s
@[simp] theorem raiseSmart_pwr (s : State) (bit info : Nat) : (raiseSmart s bit info).pwr = s.pwr := by
  unfold raiseSmart; exact foldl_keeps (·.pwr) _ (fun s a => by split <;> simp) _ s
@[simp] theorem raiseAerAll_aon (s : State) (typ info page : Nat) : (raiseAerAll s typ info page).aon = s.aon := by
  unfold raiseAerAll; exact foldl_keeps (·.aon) _ (fun s a => by simp) _ s
@[simp] theorem raiseSmart_aon (s : State) (bit info : Nat) : (raiseSmart s bit info).aon = s.aon := by
  unfold raiseSmart; exact foldl_keeps (·.aon) _ (fun s a => by split <;> simp) _ s
@[simp] theorem raiseAerAll_fus (s : State) (typ info page : Nat) : (raiseAerAll s typ info page).fus = s.fus := by
  unfold raiseAerAll; exact foldl_keeps (·.fus) _ (fun s a => by simp) _ s
@[simp] theorem raiseSmart_fus (s : State) (bit info : Nat) : (raiseSmart s bit info).fus = s.fus := by
  unfold raiseSmart; exact foldl_keeps (·.fus) _ (fun s a => by split <;> simp) _ s
@[simp] theorem raiseAerAll_bst (s : State) (typ info page : Nat) : (raiseAerAll s typ info page).bst = s.bst := by
  unfold raiseAerAll; exact foldl_keeps (·.bst) _ (fun s a => by simp) _ s
@[simp] theorem raiseSmart_bst (s : State) (bit info : Nat) : (raiseSmart s bit info).bst = s.bst := by
  unfold raiseSmart; exact foldl_keeps (·.bst) _ (fun s a => by split <;> simp) _ s
@[simp] theorem raiseAerAll_cores (s : State) (typ info page : Nat) : (raiseAerAll s typ info page).cores = s.cores := by
  unfold raiseAerAll; exact foldl_keeps (·.cores) _ (fun s a => by simp) _ s
@[simp] theorem raiseSmart_cores (s : State) (bit info : Nat) : (raiseSmart s bit info).cores = s.cores := by
  unfold raiseSmart; exact foldl_keeps (·.cores) _ (fun s a => by split <;> simp) _ s
@[simp] theorem raiseAerAll_tap (s : State) (typ info page : Nat) : (raiseAerAll s typ info page).tap = s.tap := by
  unfold raiseAerAll; exact foldl_keeps (·.tap) _ (fun s a => by simp) _ s
@[simp] theorem raiseSmart_tap (s : State) (bit info : Nat) : (raiseSmart s bit info).tap = s.tap := by
  unfold raiseSmart; exact foldl_keeps (·.tap) _ (fun s a => by split <;> simp) _ s
@[simp] theorem raiseAerAll_mbx (s : State) (typ info page : Nat) : (raiseAerAll s typ info page).mbx = s.mbx := by
  unfold raiseAerAll; exact foldl_keeps (·.mbx) _ (fun s a => by simp) _ s
@[simp] theorem raiseSmart_mbx (s : State) (bit info : Nat) : (raiseSmart s bit info).mbx = s.mbx := by
  unfold raiseSmart; exact foldl_keeps (·.mbx) _ (fun s a => by split <;> simp) _ s
@[simp] theorem raiseAerAll_xmv (s : State) (typ info page : Nat) : (raiseAerAll s typ info page).xmv = s.xmv := by
  unfold raiseAerAll; exact foldl_keeps (·.xmv) _ (fun s a => by simp) _ s
@[simp] theorem raiseSmart_xmv (s : State) (bit info : Nat) : (raiseSmart s bit info).xmv = s.xmv := by
  unfold raiseSmart; exact foldl_keeps (·.xmv) _ (fun s a => by split <;> simp) _ s
@[simp] theorem raiseAerAll_graft (s : State) (typ info page : Nat) : (raiseAerAll s typ info page).graft = s.graft := by
  unfold raiseAerAll; exact foldl_keeps (·.graft) _ (fun s a => by simp) _ s
@[simp] theorem raiseSmart_graft (s : State) (bit info : Nat) : (raiseSmart s bit info).graft = s.graft := by
  unfold raiseSmart; exact foldl_keeps (·.graft) _ (fun s a => by split <;> simp) _ s
@[simp] theorem raiseAerAll_rings (s : State) (typ info page : Nat) : (raiseAerAll s typ info page).rings = s.rings := by
  unfold raiseAerAll; exact foldl_keeps (·.rings) _ (fun s a => by simp) _ s
@[simp] theorem raiseSmart_rings (s : State) (bit info : Nat) : (raiseSmart s bit info).rings = s.rings := by
  unfold raiseSmart; exact foldl_keeps (·.rings) _ (fun s a => by split <;> simp) _ s
@[simp] theorem raiseAerAll_regs (s : State) (typ info page : Nat) : (raiseAerAll s typ info page).regs = s.regs := by
  unfold raiseAerAll; exact foldl_keeps (·.regs) _ (fun s a => by simp) _ s
@[simp] theorem raiseSmart_regs (s : State) (bit info : Nat) : (raiseSmart s bit info).regs = s.regs := by
  unfold raiseSmart; exact foldl_keeps (·.regs) _ (fun s a => by split <;> simp) _ s
@[simp] theorem raiseAerAll_freeCtr (s : State) (typ info page : Nat) : (raiseAerAll s typ info page).freeCtr = s.freeCtr := by
  unfold raiseAerAll; exact foldl_keeps (·.freeCtr) _ (fun s a => by simp) _ s
@[simp] theorem raiseSmart_freeCtr (s : State) (bit info : Nat) : (raiseSmart s bit info).freeCtr = s.freeCtr := by
  unfold raiseSmart; exact foldl_keeps (·.freeCtr) _ (fun s a => by split <;> simp) _ s
@[simp] theorem cxlEvent_pending (s : State) (d : List Byte) : (cxlEvent s d).pending = s.pending := by
  unfold cxlEvent; exact (foldl_keeps (·.pending) _ (fun s a => by dsimp only; split <;> rfl) _ _).trans rfl
@[simp] theorem cxlEvent_clock (s : State) (d : List Byte) : (cxlEvent s d).clock = s.clock := by
  unfold cxlEvent; exact (foldl_keeps (·.clock) _ (fun s a => by dsimp only; split <;> rfl) _ _).trans rfl
@[simp] theorem cxlEvent_resp (s : State) (d : List Byte) : (cxlEvent s d).resp = s.resp := by
  unfold cxlEvent; exact (foldl_keeps (·.resp) _ (fun s a => by dsimp only; split <;> rfl) _ _).trans rfl
@[simp] theorem cxlEvent_latch (s : State) (d : List Byte) : (cxlEvent s d).latch = s.latch := by
  unfold cxlEvent; exact (foldl_keeps (·.latch) _ (fun s a => by dsimp only; split <;> rfl) _ _).trans rfl
@[simp] theorem cxlEvent_blk (s : State) (d : List Byte) : (cxlEvent s d).blk = s.blk := by
  unfold cxlEvent; exact (foldl_keeps (·.blk) _ (fun s a => by dsimp only; split <;> rfl) _ _).trans rfl
@[simp] theorem cxlEvent_trunk (s : State) (d : List Byte) : (cxlEvent s d).trunk = s.trunk := by
  unfold cxlEvent; exact (foldl_keeps (·.trunk) _ (fun s a => by dsimp only; split <;> rfl) _ _).trans rfl
@[simp] theorem cxlEvent_evq (s : State) (d : List Byte) : (cxlEvent s d).evq = s.evq := by
  unfold cxlEvent; exact (foldl_keeps (·.evq) _ (fun s a => by dsimp only; split <;> rfl) _ _).trans rfl
@[simp] theorem cxlEvent_mem (s : State) (d : List Byte) : (cxlEvent s d).mem = s.mem := by
  unfold cxlEvent; exact (foldl_keeps (·.mem) _ (fun s a => by dsimp only; split <;> rfl) _ _).trans rfl
@[simp] theorem cxlEvent_dev (s : State) (d : List Byte) : (cxlEvent s d).dev = s.dev := by
  unfold cxlEvent; exact (foldl_keeps (·.dev) _ (fun s a => by dsimp only; split <;> rfl) _ _).trans rfl
@[simp] theorem cxlEvent_ports (s : State) (d : List Byte) : (cxlEvent s d).ports = s.ports := by
  unfold cxlEvent; exact (foldl_keeps (·.ports) _ (fun s a => by dsimp only; split <;> rfl) _ _).trans rfl
@[simp] theorem cxlEvent_ten (s : State) (d : List Byte) : (cxlEvent s d).ten = s.ten := by
  unfold cxlEvent; exact (foldl_keeps (·.ten) _ (fun s a => by dsimp only; split <;> rfl) _ _).trans rfl
@[simp] theorem cxlEvent_bpm (s : State) (d : List Byte) : (cxlEvent s d).bpm = s.bpm := by
  unfold cxlEvent; exact (foldl_keeps (·.bpm) _ (fun s a => by dsimp only; split <;> rfl) _ _).trans rfl
@[simp] theorem cxlEvent_dmc (s : State) (d : List Byte) : (cxlEvent s d).dmc = s.dmc := by
  unfold cxlEvent; exact (foldl_keeps (·.dmc) _ (fun s a => by dsimp only; split <;> rfl) _ _).trans rfl
@[simp] theorem cxlEvent_ftl (s : State) (d : List Byte) : (cxlEvent s d).ftl = s.ftl := by
  unfold cxlEvent; exact (foldl_keeps (·.ftl) _ (fun s a => by dsimp only; split <;> rfl) _ _).trans rfl
@[simp] theorem cxlEvent_cpc (s : State) (d : List Byte) : (cxlEvent s d).cpc = s.cpc := by
  unfold cxlEvent; exact (foldl_keeps (·.cpc) _ (fun s a => by dsimp only; split <;> rfl) _ _).trans rfl
@[simp] theorem cxlEvent_flash (s : State) (d : List Byte) : (cxlEvent s d).flash = s.flash := by
  unfold cxlEvent; exact (foldl_keeps (·.flash) _ (fun s a => by dsimp only; split <;> rfl) _ _).trans rfl
@[simp] theorem cxlEvent_ldc (s : State) (d : List Byte) : (cxlEvent s d).ldc = s.ldc := by
  unfold cxlEvent; exact (foldl_keeps (·.ldc) _ (fun s a => by dsimp only; split <;> rfl) _ _).trans rfl
@[simp] theorem cxlEvent_sec (s : State) (d : List Byte) : (cxlEvent s d).sec = s.sec := by
  unfold cxlEvent; exact (foldl_keeps (·.sec) _ (fun s a => by dsimp only; split <;> rfl) _ _).trans rfl
@[simp] theorem cxlEvent_grv (s : State) (d : List Byte) : (cxlEvent s d).grv = s.grv := by
  unfold cxlEvent; exact (foldl_keeps (·.grv) _ (fun s a => by dsimp only; split <;> rfl) _ _).trans rfl
@[simp] theorem cxlEvent_pwr (s : State) (d : List Byte) : (cxlEvent s d).pwr = s.pwr := by
  unfold cxlEvent; exact (foldl_keeps (·.pwr) _ (fun s a => by dsimp only; split <;> rfl) _ _).trans rfl
@[simp] theorem cxlEvent_aon (s : State) (d : List Byte) : (cxlEvent s d).aon = s.aon := by
  unfold cxlEvent; exact (foldl_keeps (·.aon) _ (fun s a => by dsimp only; split <;> rfl) _ _).trans rfl
@[simp] theorem cxlEvent_fus (s : State) (d : List Byte) : (cxlEvent s d).fus = s.fus := by
  unfold cxlEvent; exact (foldl_keeps (·.fus) _ (fun s a => by dsimp only; split <;> rfl) _ _).trans rfl
@[simp] theorem cxlEvent_bst (s : State) (d : List Byte) : (cxlEvent s d).bst = s.bst := by
  unfold cxlEvent; exact (foldl_keeps (·.bst) _ (fun s a => by dsimp only; split <;> rfl) _ _).trans rfl
@[simp] theorem cxlEvent_cores (s : State) (d : List Byte) : (cxlEvent s d).cores = s.cores := by
  unfold cxlEvent; exact (foldl_keeps (·.cores) _ (fun s a => by dsimp only; split <;> rfl) _ _).trans rfl
@[simp] theorem cxlEvent_tap (s : State) (d : List Byte) : (cxlEvent s d).tap = s.tap := by
  unfold cxlEvent; exact (foldl_keeps (·.tap) _ (fun s a => by dsimp only; split <;> rfl) _ _).trans rfl
@[simp] theorem cxlEvent_mbx (s : State) (d : List Byte) : (cxlEvent s d).mbx = s.mbx := by
  unfold cxlEvent; exact (foldl_keeps (·.mbx) _ (fun s a => by dsimp only; split <;> rfl) _ _).trans rfl
@[simp] theorem cxlEvent_xmv (s : State) (d : List Byte) : (cxlEvent s d).xmv = s.xmv := by
  unfold cxlEvent; exact (foldl_keeps (·.xmv) _ (fun s a => by dsimp only; split <;> rfl) _ _).trans rfl
@[simp] theorem cxlEvent_graft (s : State) (d : List Byte) : (cxlEvent s d).graft = s.graft := by
  unfold cxlEvent; exact (foldl_keeps (·.graft) _ (fun s a => by dsimp only; split <;> rfl) _ _).trans rfl
@[simp] theorem cxlEvent_rings (s : State) (d : List Byte) : (cxlEvent s d).rings = s.rings := by
  unfold cxlEvent; exact (foldl_keeps (·.rings) _ (fun s a => by dsimp only; split <;> rfl) _ _).trans rfl
@[simp] theorem cxlEvent_regs (s : State) (d : List Byte) : (cxlEvent s d).regs = s.regs := by
  unfold cxlEvent; exact (foldl_keeps (·.regs) _ (fun s a => by dsimp only; split <;> rfl) _ _).trans rfl
@[simp] theorem winArm_pending (s : State) (v : Bool) : (winArm s v).pending = s.pending := by
  unfold winArm; generalize (if v then 1 else 2) = n; dsimp only; split
  · rfl
  · simp
@[simp] theorem vwcSettle_pending (s : State) : (vwcSettle s).pending = s.pending := by
  unfold vwcSettle; dsimp only; split
  · rfl
  · split <;> simp
@[simp] theorem winArm_clock (s : State) (v : Bool) : (winArm s v).clock = s.clock := by
  unfold winArm; generalize (if v then 1 else 2) = n; dsimp only; split
  · rfl
  · simp
@[simp] theorem vwcSettle_clock (s : State) : (vwcSettle s).clock = s.clock := by
  unfold vwcSettle; dsimp only; split
  · rfl
  · split <;> simp
@[simp] theorem winArm_resp (s : State) (v : Bool) : (winArm s v).resp = s.resp := by
  unfold winArm; generalize (if v then 1 else 2) = n; dsimp only; split
  · rfl
  · simp
@[simp] theorem vwcSettle_resp (s : State) : (vwcSettle s).resp = s.resp := by
  unfold vwcSettle; dsimp only; split
  · rfl
  · split <;> simp
@[simp] theorem winArm_latch (s : State) (v : Bool) : (winArm s v).latch = s.latch := by
  unfold winArm; generalize (if v then 1 else 2) = n; dsimp only; split
  · rfl
  · simp
@[simp] theorem vwcSettle_latch (s : State) : (vwcSettle s).latch = s.latch := by
  unfold vwcSettle; dsimp only; split
  · rfl
  · split <;> simp
@[simp] theorem winArm_blk (s : State) (v : Bool) : (winArm s v).blk = s.blk := by
  unfold winArm; generalize (if v then 1 else 2) = n; dsimp only; split
  · rfl
  · simp
@[simp] theorem vwcSettle_blk (s : State) : (vwcSettle s).blk = s.blk := by
  unfold vwcSettle; dsimp only; split
  · rfl
  · split <;> simp
@[simp] theorem winArm_trunk (s : State) (v : Bool) : (winArm s v).trunk = s.trunk := by
  unfold winArm; generalize (if v then 1 else 2) = n; dsimp only; split
  · rfl
  · simp
@[simp] theorem vwcSettle_trunk (s : State) : (vwcSettle s).trunk = s.trunk := by
  unfold vwcSettle; dsimp only; split
  · rfl
  · split <;> simp
@[simp] theorem winArm_evq (s : State) (v : Bool) : (winArm s v).evq = s.evq := by
  unfold winArm; generalize (if v then 1 else 2) = n; dsimp only; split
  · rfl
  · simp
@[simp] theorem vwcSettle_evq (s : State) : (vwcSettle s).evq = s.evq := by
  unfold vwcSettle; dsimp only; split
  · rfl
  · split <;> simp
@[simp] theorem winArm_mem (s : State) (v : Bool) : (winArm s v).mem = s.mem := by
  unfold winArm; generalize (if v then 1 else 2) = n; dsimp only; split
  · rfl
  · simp
@[simp] theorem vwcSettle_mem (s : State) : (vwcSettle s).mem = s.mem := by
  unfold vwcSettle; dsimp only; split
  · rfl
  · split <;> simp
@[simp] theorem winArm_dev (s : State) (v : Bool) : (winArm s v).dev = s.dev := by
  unfold winArm; generalize (if v then 1 else 2) = n; dsimp only; split
  · rfl
  · simp
@[simp] theorem vwcSettle_dev (s : State) : (vwcSettle s).dev = s.dev := by
  unfold vwcSettle; dsimp only; split
  · rfl
  · split <;> simp
@[simp] theorem winArm_ports (s : State) (v : Bool) : (winArm s v).ports = s.ports := by
  unfold winArm; generalize (if v then 1 else 2) = n; dsimp only; split
  · rfl
  · simp
@[simp] theorem vwcSettle_ports (s : State) : (vwcSettle s).ports = s.ports := by
  unfold vwcSettle; dsimp only; split
  · rfl
  · split <;> simp
@[simp] theorem winArm_ten (s : State) (v : Bool) : (winArm s v).ten = s.ten := by
  unfold winArm; generalize (if v then 1 else 2) = n; dsimp only; split
  · rfl
  · simp
@[simp] theorem vwcSettle_ten (s : State) : (vwcSettle s).ten = s.ten := by
  unfold vwcSettle; dsimp only; split
  · rfl
  · split <;> simp
@[simp] theorem winArm_bpm (s : State) (v : Bool) : (winArm s v).bpm = s.bpm := by
  unfold winArm; generalize (if v then 1 else 2) = n; dsimp only; split
  · rfl
  · simp
@[simp] theorem vwcSettle_bpm (s : State) : (vwcSettle s).bpm = s.bpm := by
  unfold vwcSettle; dsimp only; split
  · rfl
  · split <;> simp
@[simp] theorem winArm_dmc (s : State) (v : Bool) : (winArm s v).dmc = s.dmc := by
  unfold winArm; generalize (if v then 1 else 2) = n; dsimp only; split
  · rfl
  · simp
@[simp] theorem vwcSettle_dmc (s : State) : (vwcSettle s).dmc = s.dmc := by
  unfold vwcSettle; dsimp only; split
  · rfl
  · split <;> simp
@[simp] theorem winArm_ftl (s : State) (v : Bool) : (winArm s v).ftl = s.ftl := by
  unfold winArm; generalize (if v then 1 else 2) = n; dsimp only; split
  · rfl
  · simp
@[simp] theorem vwcSettle_ftl (s : State) : (vwcSettle s).ftl = s.ftl := by
  unfold vwcSettle; dsimp only; split
  · rfl
  · split <;> simp
@[simp] theorem winArm_cpc (s : State) (v : Bool) : (winArm s v).cpc = s.cpc := by
  unfold winArm; generalize (if v then 1 else 2) = n; dsimp only; split
  · rfl
  · simp
@[simp] theorem vwcSettle_cpc (s : State) : (vwcSettle s).cpc = s.cpc := by
  unfold vwcSettle; dsimp only; split
  · rfl
  · split <;> simp
@[simp] theorem winArm_flash (s : State) (v : Bool) : (winArm s v).flash = s.flash := by
  unfold winArm; generalize (if v then 1 else 2) = n; dsimp only; split
  · rfl
  · simp
@[simp] theorem vwcSettle_flash (s : State) : (vwcSettle s).flash = s.flash := by
  unfold vwcSettle; dsimp only; split
  · rfl
  · split <;> simp
@[simp] theorem winArm_ldc (s : State) (v : Bool) : (winArm s v).ldc = s.ldc := by
  unfold winArm; generalize (if v then 1 else 2) = n; dsimp only; split
  · rfl
  · simp
@[simp] theorem vwcSettle_ldc (s : State) : (vwcSettle s).ldc = s.ldc := by
  unfold vwcSettle; dsimp only; split
  · rfl
  · split <;> simp
@[simp] theorem winArm_sec (s : State) (v : Bool) : (winArm s v).sec = s.sec := by
  unfold winArm; generalize (if v then 1 else 2) = n; dsimp only; split
  · rfl
  · simp
@[simp] theorem vwcSettle_sec (s : State) : (vwcSettle s).sec = s.sec := by
  unfold vwcSettle; dsimp only; split
  · rfl
  · split <;> simp
@[simp] theorem winArm_grv (s : State) (v : Bool) : (winArm s v).grv = s.grv := by
  unfold winArm; generalize (if v then 1 else 2) = n; dsimp only; split
  · rfl
  · simp
@[simp] theorem vwcSettle_grv (s : State) : (vwcSettle s).grv = s.grv := by
  unfold vwcSettle; dsimp only; split
  · rfl
  · split <;> simp
@[simp] theorem winArm_pwr (s : State) (v : Bool) : (winArm s v).pwr = s.pwr := by
  unfold winArm; generalize (if v then 1 else 2) = n; dsimp only; split
  · rfl
  · simp
@[simp] theorem vwcSettle_pwr (s : State) : (vwcSettle s).pwr = s.pwr := by
  unfold vwcSettle; dsimp only; split
  · rfl
  · split <;> simp
@[simp] theorem winArm_aon (s : State) (v : Bool) : (winArm s v).aon = s.aon := by
  unfold winArm; generalize (if v then 1 else 2) = n; dsimp only; split
  · rfl
  · simp
@[simp] theorem vwcSettle_aon (s : State) : (vwcSettle s).aon = s.aon := by
  unfold vwcSettle; dsimp only; split
  · rfl
  · split <;> simp
@[simp] theorem winArm_fus (s : State) (v : Bool) : (winArm s v).fus = s.fus := by
  unfold winArm; generalize (if v then 1 else 2) = n; dsimp only; split
  · rfl
  · simp
@[simp] theorem vwcSettle_fus (s : State) : (vwcSettle s).fus = s.fus := by
  unfold vwcSettle; dsimp only; split
  · rfl
  · split <;> simp
@[simp] theorem winArm_bst (s : State) (v : Bool) : (winArm s v).bst = s.bst := by
  unfold winArm; generalize (if v then 1 else 2) = n; dsimp only; split
  · rfl
  · simp
@[simp] theorem vwcSettle_bst (s : State) : (vwcSettle s).bst = s.bst := by
  unfold vwcSettle; dsimp only; split
  · rfl
  · split <;> simp
@[simp] theorem winArm_cores (s : State) (v : Bool) : (winArm s v).cores = s.cores := by
  unfold winArm; generalize (if v then 1 else 2) = n; dsimp only; split
  · rfl
  · simp
@[simp] theorem vwcSettle_cores (s : State) : (vwcSettle s).cores = s.cores := by
  unfold vwcSettle; dsimp only; split
  · rfl
  · split <;> simp
@[simp] theorem winArm_tap (s : State) (v : Bool) : (winArm s v).tap = s.tap := by
  unfold winArm; generalize (if v then 1 else 2) = n; dsimp only; split
  · rfl
  · simp
@[simp] theorem vwcSettle_tap (s : State) : (vwcSettle s).tap = s.tap := by
  unfold vwcSettle; dsimp only; split
  · rfl
  · split <;> simp
@[simp] theorem winArm_mbx (s : State) (v : Bool) : (winArm s v).mbx = s.mbx := by
  unfold winArm; generalize (if v then 1 else 2) = n; dsimp only; split
  · rfl
  · simp
@[simp] theorem vwcSettle_mbx (s : State) : (vwcSettle s).mbx = s.mbx := by
  unfold vwcSettle; dsimp only; split
  · rfl
  · split <;> simp
@[simp] theorem winArm_xmv (s : State) (v : Bool) : (winArm s v).xmv = s.xmv := by
  unfold winArm; generalize (if v then 1 else 2) = n; dsimp only; split
  · rfl
  · simp
@[simp] theorem vwcSettle_xmv (s : State) : (vwcSettle s).xmv = s.xmv := by
  unfold vwcSettle; dsimp only; split
  · rfl
  · split <;> simp
@[simp] theorem winArm_graft (s : State) (v : Bool) : (winArm s v).graft = s.graft := by
  unfold winArm; generalize (if v then 1 else 2) = n; dsimp only; split
  · rfl
  · simp
@[simp] theorem vwcSettle_graft (s : State) : (vwcSettle s).graft = s.graft := by
  unfold vwcSettle; dsimp only; split
  · rfl
  · split <;> simp
@[simp] theorem winArm_rings (s : State) (v : Bool) : (winArm s v).rings = s.rings := by
  unfold winArm; generalize (if v then 1 else 2) = n; dsimp only; split
  · rfl
  · simp
@[simp] theorem vwcSettle_rings (s : State) : (vwcSettle s).rings = s.rings := by
  unfold vwcSettle; dsimp only; split
  · rfl
  · split <;> simp
@[simp] theorem ledgerSettle_pending (s : State) : (ledgerSettle s).pending = s.pending := by
  unfold ledgerSettle; dsimp only; split
  · rfl
  · simp only [winArm_pending, vwcSettle_pending]; split <;> simp
@[simp] theorem devSettle_pending (s : State) : (devSettle s).pending = s.pending := by
  unfold devSettle; dsimp only; split
  · rfl
  · simp
@[simp] theorem settle_pending (s : State) : (settle s).pending = s.pending := by simp [settle]
@[simp] theorem ledgerSettle_clock (s : State) : (ledgerSettle s).clock = s.clock := by
  unfold ledgerSettle; dsimp only; split
  · rfl
  · simp only [winArm_clock, vwcSettle_clock]; split <;> simp
@[simp] theorem devSettle_clock (s : State) : (devSettle s).clock = s.clock := by
  unfold devSettle; dsimp only; split
  · rfl
  · simp
@[simp] theorem settle_clock (s : State) : (settle s).clock = s.clock := by simp [settle]
@[simp] theorem ledgerSettle_resp (s : State) : (ledgerSettle s).resp = s.resp := by
  unfold ledgerSettle; dsimp only; split
  · rfl
  · simp only [winArm_resp, vwcSettle_resp]; split <;> simp
@[simp] theorem devSettle_resp (s : State) : (devSettle s).resp = s.resp := by
  unfold devSettle; dsimp only; split
  · rfl
  · simp
@[simp] theorem settle_resp (s : State) : (settle s).resp = s.resp := by simp [settle]
@[simp] theorem ledgerSettle_latch (s : State) : (ledgerSettle s).latch = s.latch := by
  unfold ledgerSettle; dsimp only; split
  · rfl
  · simp only [winArm_latch, vwcSettle_latch]; split <;> simp
@[simp] theorem devSettle_latch (s : State) : (devSettle s).latch = s.latch := by
  unfold devSettle; dsimp only; split
  · rfl
  · simp
@[simp] theorem settle_latch (s : State) : (settle s).latch = s.latch := by simp [settle]
@[simp] theorem ledgerSettle_blk (s : State) : (ledgerSettle s).blk = s.blk := by
  unfold ledgerSettle; dsimp only; split
  · rfl
  · simp only [winArm_blk, vwcSettle_blk]; split <;> simp
@[simp] theorem devSettle_blk (s : State) : (devSettle s).blk = s.blk := by
  unfold devSettle; dsimp only; split
  · rfl
  · simp
@[simp] theorem settle_blk (s : State) : (settle s).blk = s.blk := by simp [settle]
@[simp] theorem ledgerSettle_trunk (s : State) : (ledgerSettle s).trunk = s.trunk := by
  unfold ledgerSettle; dsimp only; split
  · rfl
  · simp only [winArm_trunk, vwcSettle_trunk]; split <;> simp
@[simp] theorem devSettle_trunk (s : State) : (devSettle s).trunk = s.trunk := by
  unfold devSettle; dsimp only; split
  · rfl
  · simp
@[simp] theorem settle_trunk (s : State) : (settle s).trunk = s.trunk := by simp [settle]
@[simp] theorem ledgerSettle_mem (s : State) : (ledgerSettle s).mem = s.mem := by
  unfold ledgerSettle; dsimp only; split
  · rfl
  · simp only [winArm_mem, vwcSettle_mem]; split <;> simp
@[simp] theorem devSettle_mem (s : State) : (devSettle s).mem = s.mem := by
  unfold devSettle; dsimp only; split
  · rfl
  · simp
@[simp] theorem settle_mem (s : State) : (settle s).mem = s.mem := by simp [settle]
@[simp] theorem ledgerSettle_ports (s : State) : (ledgerSettle s).ports = s.ports := by
  unfold ledgerSettle; dsimp only; split
  · rfl
  · simp only [winArm_ports, vwcSettle_ports]; split <;> simp
@[simp] theorem devSettle_ports (s : State) : (devSettle s).ports = s.ports := by
  unfold devSettle; dsimp only; split
  · rfl
  · simp
@[simp] theorem settle_ports (s : State) : (settle s).ports = s.ports := by simp [settle]
@[simp] theorem ledgerSettle_ten (s : State) : (ledgerSettle s).ten = s.ten := by
  unfold ledgerSettle; dsimp only; split
  · rfl
  · simp only [winArm_ten, vwcSettle_ten]; split <;> simp
@[simp] theorem devSettle_ten (s : State) : (devSettle s).ten = s.ten := by
  unfold devSettle; dsimp only; split
  · rfl
  · simp
@[simp] theorem settle_ten (s : State) : (settle s).ten = s.ten := by simp [settle]
@[simp] theorem ledgerSettle_bpm (s : State) : (ledgerSettle s).bpm = s.bpm := by
  unfold ledgerSettle; dsimp only; split
  · rfl
  · simp only [winArm_bpm, vwcSettle_bpm]; split <;> simp
@[simp] theorem devSettle_bpm (s : State) : (devSettle s).bpm = s.bpm := by
  unfold devSettle; dsimp only; split
  · rfl
  · simp
@[simp] theorem settle_bpm (s : State) : (settle s).bpm = s.bpm := by simp [settle]
@[simp] theorem ledgerSettle_dmc (s : State) : (ledgerSettle s).dmc = s.dmc := by
  unfold ledgerSettle; dsimp only; split
  · rfl
  · simp only [winArm_dmc, vwcSettle_dmc]; split <;> simp
@[simp] theorem devSettle_dmc (s : State) : (devSettle s).dmc = s.dmc := by
  unfold devSettle; dsimp only; split
  · rfl
  · simp
@[simp] theorem settle_dmc (s : State) : (settle s).dmc = s.dmc := by simp [settle]
@[simp] theorem ledgerSettle_ftl (s : State) : (ledgerSettle s).ftl = s.ftl := by
  unfold ledgerSettle; dsimp only; split
  · rfl
  · simp only [winArm_ftl, vwcSettle_ftl]; split <;> simp
@[simp] theorem devSettle_ftl (s : State) : (devSettle s).ftl = s.ftl := by
  unfold devSettle; dsimp only; split
  · rfl
  · simp
@[simp] theorem settle_ftl (s : State) : (settle s).ftl = s.ftl := by simp [settle]
@[simp] theorem ledgerSettle_cpc (s : State) : (ledgerSettle s).cpc = s.cpc := by
  unfold ledgerSettle; dsimp only; split
  · rfl
  · simp only [winArm_cpc, vwcSettle_cpc]; split <;> simp
@[simp] theorem devSettle_cpc (s : State) : (devSettle s).cpc = s.cpc := by
  unfold devSettle; dsimp only; split
  · rfl
  · simp
@[simp] theorem settle_cpc (s : State) : (settle s).cpc = s.cpc := by simp [settle]
@[simp] theorem ledgerSettle_flash (s : State) : (ledgerSettle s).flash = s.flash := by
  unfold ledgerSettle; dsimp only; split
  · rfl
  · simp only [winArm_flash, vwcSettle_flash]; split <;> simp
@[simp] theorem devSettle_flash (s : State) : (devSettle s).flash = s.flash := by
  unfold devSettle; dsimp only; split
  · rfl
  · simp
@[simp] theorem settle_flash (s : State) : (settle s).flash = s.flash := by simp [settle]
@[simp] theorem ledgerSettle_ldc (s : State) : (ledgerSettle s).ldc = s.ldc := by
  unfold ledgerSettle; dsimp only; split
  · rfl
  · simp only [winArm_ldc, vwcSettle_ldc]; split <;> simp
@[simp] theorem devSettle_ldc (s : State) : (devSettle s).ldc = s.ldc := by
  unfold devSettle; dsimp only; split
  · rfl
  · simp
@[simp] theorem settle_ldc (s : State) : (settle s).ldc = s.ldc := by simp [settle]
@[simp] theorem ledgerSettle_sec (s : State) : (ledgerSettle s).sec = s.sec := by
  unfold ledgerSettle; dsimp only; split
  · rfl
  · simp only [winArm_sec, vwcSettle_sec]; split <;> simp
@[simp] theorem devSettle_sec (s : State) : (devSettle s).sec = s.sec := by
  unfold devSettle; dsimp only; split
  · rfl
  · simp
@[simp] theorem settle_sec (s : State) : (settle s).sec = s.sec := by simp [settle]
@[simp] theorem ledgerSettle_grv (s : State) : (ledgerSettle s).grv = s.grv := by
  unfold ledgerSettle; dsimp only; split
  · rfl
  · simp only [winArm_grv, vwcSettle_grv]; split <;> simp
@[simp] theorem devSettle_grv (s : State) : (devSettle s).grv = s.grv := by
  unfold devSettle; dsimp only; split
  · rfl
  · simp
@[simp] theorem settle_grv (s : State) : (settle s).grv = s.grv := by simp [settle]
@[simp] theorem ledgerSettle_aon (s : State) : (ledgerSettle s).aon = s.aon := by
  unfold ledgerSettle; dsimp only; split
  · rfl
  · simp only [winArm_aon, vwcSettle_aon]; split <;> simp
@[simp] theorem devSettle_aon (s : State) : (devSettle s).aon = s.aon := by
  unfold devSettle; dsimp only; split
  · rfl
  · simp
@[simp] theorem settle_aon (s : State) : (settle s).aon = s.aon := by simp [settle]
@[simp] theorem ledgerSettle_fus (s : State) : (ledgerSettle s).fus = s.fus := by
  unfold ledgerSettle; dsimp only; split
  · rfl
  · simp only [winArm_fus, vwcSettle_fus]; split <;> simp
@[simp] theorem devSettle_fus (s : State) : (devSettle s).fus = s.fus := by
  unfold devSettle; dsimp only; split
  · rfl
  · simp
@[simp] theorem settle_fus (s : State) : (settle s).fus = s.fus := by simp [settle]
@[simp] theorem ledgerSettle_bst (s : State) : (ledgerSettle s).bst = s.bst := by
  unfold ledgerSettle; dsimp only; split
  · rfl
  · simp only [winArm_bst, vwcSettle_bst]; split <;> simp
@[simp] theorem devSettle_bst (s : State) : (devSettle s).bst = s.bst := by
  unfold devSettle; dsimp only; split
  · rfl
  · simp
@[simp] theorem settle_bst (s : State) : (settle s).bst = s.bst := by simp [settle]
@[simp] theorem ledgerSettle_cores (s : State) : (ledgerSettle s).cores = s.cores := by
  unfold ledgerSettle; dsimp only; split
  · rfl
  · simp only [winArm_cores, vwcSettle_cores]; split <;> simp
@[simp] theorem devSettle_cores (s : State) : (devSettle s).cores = s.cores := by
  unfold devSettle; dsimp only; split
  · rfl
  · simp
@[simp] theorem settle_cores (s : State) : (settle s).cores = s.cores := by simp [settle]
@[simp] theorem ledgerSettle_tap (s : State) : (ledgerSettle s).tap = s.tap := by
  unfold ledgerSettle; dsimp only; split
  · rfl
  · simp only [winArm_tap, vwcSettle_tap]; split <;> simp
@[simp] theorem devSettle_tap (s : State) : (devSettle s).tap = s.tap := by
  unfold devSettle; dsimp only; split
  · rfl
  · simp
@[simp] theorem settle_tap (s : State) : (settle s).tap = s.tap := by simp [settle]
@[simp] theorem ledgerSettle_mbx (s : State) : (ledgerSettle s).mbx = s.mbx := by
  unfold ledgerSettle; dsimp only; split
  · rfl
  · simp only [winArm_mbx, vwcSettle_mbx]; split <;> simp
@[simp] theorem devSettle_mbx (s : State) : (devSettle s).mbx = s.mbx := by
  unfold devSettle; dsimp only; split
  · rfl
  · simp
@[simp] theorem settle_mbx (s : State) : (settle s).mbx = s.mbx := by simp [settle]
@[simp] theorem ledgerSettle_xmv (s : State) : (ledgerSettle s).xmv = s.xmv := by
  unfold ledgerSettle; dsimp only; split
  · rfl
  · simp only [winArm_xmv, vwcSettle_xmv]; split <;> simp
@[simp] theorem devSettle_xmv (s : State) : (devSettle s).xmv = s.xmv := by
  unfold devSettle; dsimp only; split
  · rfl
  · simp
@[simp] theorem settle_xmv (s : State) : (settle s).xmv = s.xmv := by simp [settle]
@[simp] theorem ledgerSettle_graft (s : State) : (ledgerSettle s).graft = s.graft := by
  unfold ledgerSettle; dsimp only; split
  · rfl
  · simp only [winArm_graft, vwcSettle_graft]; split <;> simp
@[simp] theorem devSettle_graft (s : State) : (devSettle s).graft = s.graft := by
  unfold devSettle; dsimp only; split
  · rfl
  · simp
@[simp] theorem settle_graft (s : State) : (settle s).graft = s.graft := by simp [settle]
@[simp] theorem ledgerSettle_rings (s : State) : (ledgerSettle s).rings = s.rings := by
  unfold ledgerSettle; dsimp only; split
  · rfl
  · simp only [winArm_rings, vwcSettle_rings]; split <;> simp
@[simp] theorem devSettle_rings (s : State) : (devSettle s).rings = s.rings := by
  unfold devSettle; dsimp only; split
  · rfl
  · simp
@[simp] theorem settle_rings (s : State) : (settle s).rings = s.rings := by simp [settle]

end Sys2Proof.Laws
end

