-- ==== Sys2Proof/Tests/Slice0.lean ====
section
/-! SUPPORT. Tests: ill-formed commands that the check refuses, and for every statement states that meet its hypotheses. -/

namespace Sys2Proof.Tests

open Sys2Proof Sys2Proof.Machine Sys2Proof.Laws

set_option Elab.async false

/-- A block that runs. -/
def ready : BlkSt := { enable := true, st := .ready }

/-- Crown core 0. -/
def core0 : Who := ⟨0x300, 0⟩

/-- The state after reset with the given blocks Ready. -/
def up (l : List Nat) : State := { State.reset with blk := l.map fun r => (r, ready) }

/-- The state after reset with one block in a given condition. -/
def blkAt (r : Nat) (b : BlkSt) : State := { State.reset with blk := [(r, b)] }

/-! ### Ill-formed commands -/

theorem test_wf_mid : (Instr.evrDrainAck ⟨4096, 0⟩).wf = false := by decide
theorem test_wf_tenant : (Instr.evrDrainAck ⟨0x300, 512⟩).wf = false := by decide
theorem test_wf_size : (Instr.registerWrite ⟨core0, 0, 3, .write, 0⟩).wf = false := by decide
theorem test_wf_addr : (Instr.registerWrite ⟨core0, 2 ^ 48, 4, .write, 0⟩).wf = false := by decide
theorem test_wf_data : (Instr.registerWrite ⟨core0, 0, 4, .write, 2 ^ 32⟩).wf = false := by decide
theorem test_wf_cmd : (Instr.read ⟨512, 1, 0⟩).wf = false := by decide
theorem test_wf_sqe : (Instr.sqEntryArrival 0 0 { opc := 256, cid := 0 }).wf = false := by decide
theorem test_wf_hdr : (Instr.hostCompletionReceived 0 0 (.poisoned (2 ^ 128))).wf = false := by decide
theorem test_wf_symbol : (Instr.scrubAccess [⟨80, 1⟩] false).wf = false := by decide
theorem test_wf_train : (Instr.dmcTrainDone [⟨8, 0, 0, 1⟩]).wf = false := by decide
theorem test_wf_flash : (Instr.fchOpRead 0 { sub := .fw, cls := 0, pmask := 64 }).wf = false := by decide
theorem test_wf_cfg : (Instr.configRequest 0 0 (.other 4096) none).wf = false := by decide
theorem test_wf_width : (Instr.l0pRequest 0 3).wf = false := by decide
theorem test_wf_who : (Instr.mailboxAck (some ⟨4096, 0⟩) 0 0).wf = false := by decide
theorem test_wf_line : (Instr.birsp 0 (2 ^ 31) .i).wf = false := by decide
theorem test_wf_hpa : (Instr.meminv 0 1 0).wf = false := by decide
theorem test_wf_ok : (Instr.registerWrite ⟨core0, 0x10001003C, 4, .write, 5⟩).wf = true := by decide

/-! ### The Trunk, registers and gating -/

theorem witness_StepSettles : (({ State.reset with pending := [.journalPageTimer] } : State).pending ≠ []) ∧
    (∃ t, step { State.reset with pending := [.journalPageTimer] } = .next t) := ⟨by decide, _, rfl⟩

theorem witness_IdleIsOneSecond : State.reset.pending = [] ∧ State.reset.pwr.psGate = []
    ∧ (State.reset.pwr.psEff = 3 ∧ ∀ r, (blkSt State.reset r).st ≠ .ready) := ⟨by decide, by decide, by decide, fun _ => by simp [blkSt, State.reset, Tbl.getD, Tbl.find]⟩

theorem witness_EveryCommandAnswers : Issued (.trunkRequest ⟨core0, 0, 4, .read, 0⟩ true) ∧ midClass 0x3FF = none :=
  ⟨by unfold Issued; decide, by decide⟩

theorem witness_StoresKeepForm : Regs.wf State.reset.regs = true ∧ Memory.wf State.reset.mem = true := by decide +kernel

/-- A request to Crown SRAM by Crown core 0, which entry 0 of the reset tables admits, and by a host function, which it does not. -/
theorem witness_TrunkRequestServed : (midClass core0.mid).isSome ∧ (barkCheck State.reset 0 ⟨core0, 0x50000000, 4, .read, 0⟩).2 = true
    ∧ (barkCheck State.reset 0 ⟨core0, 0x507FFFFC, 4, .write, 7⟩).2 = true
    ∧ (barkCheck State.reset 0 ⟨⟨0, 0⟩, 0x50000000, 4, .read, 0⟩).2 = false ∧ refusalFaults 0 = false
    ∧ refusesData (up [0]) 0 = false ∧ (barkCheck (up [0]) 0 ⟨core0, 0x507FFFFC, 4, .write, 7⟩).2 = true
    ∧ (barkCheck (up [0]) 0 ⟨⟨0, 0⟩, 0x50000000, 4, .read, 0⟩).2 = false := by decide +kernel

theorem witness_BarkLowestRegion : barkFind State.reset 0 (carriedAcc State.reset ⟨core0, 0x50000000, 4, .read, 0⟩) = some 0
    ∧ barkFind (setBark State.reset 0 0 {}) 0 (carriedAcc (setBark State.reset 0 0 {}) ⟨core0, 0x50000000, 4, .read, 0⟩) = none := by
  decide +kernel

/-- A state in which one request to the window is outstanding, or late. -/
def outstanding (a : Acc) (late : Bool) : State :=
  { up [0x18] with trunk := if late then { late := [⟨4, a, 0⟩] } else { reqs := [⟨4, a, 0⟩] } }

/-- A request of the management port's PF0 waits for its Trunk response. -/
def bar2Wait : State :=
  { outstanding ⟨⟨0, 0⟩, 0x100180000, 4, .read, 0⟩ false with ports := [(0, { bar2 := [{ id := 4, off := 0x180000, size := 4 }] })] }

theorem witness_TrunkTimeoutHoldLate :
    (takeFirst (fun r : TrkReq => r.id = 4) (outstanding ⟨core0, 0x100180000, 4, .read, 0⟩ false).trunk.reqs).isSome
    ∧ (portOf (outstanding ⟨core0, 0x100180000, 4, .read, 0⟩ false) (mgmtPort (outstanding ⟨core0, 0x100180000, 4, .read, 0⟩ false))).bar2 = []
    ∧ placeOf (outstanding ⟨core0, 0x50000000, 4, .write, 9⟩ false) 0x50000000 = .sram ∧ core0.mid ≠ mgmtPf (outstanding ⟨core0, 0x50000000, 4, .write, 9⟩ false)
    ∧ (takeFirst (fun r : TrkReq => r.id = 4) bar2Wait.trunk.reqs).isSome ∧ timeoutFaults 0 = false
    ∧ (portOf bar2Wait (mgmtPort bar2Wait)).bar2 = [{ id := 4, off := 0x180000, size := 4 }]
    ∧ isHeld (outstanding ⟨core0, 0x100180000, 4, .read, 0⟩ false) (.trunk 4) = true
    ∧ isHeld { State.reset with bpm := { waiters := [{ owner := 0, cls := 1, internal := false, purpose := .fw 0 }] } } (.bpm 0) = true
    ∧ (takeFirst (fun r : TrkReq => r.id = 4) (outstanding ⟨core0, 0x100180000, 4, .read, 0⟩ true).trunk.late).isSome := by decide +kernel

theorem witness_HeaderRegisters : blkOf 0x18 = some (.win, 0)
    ∧ (regAdmit (up [0x18]) 0x18 0x3C ⟨core0, regAddr 0x18 0x3C, 4, .write, 5⟩).isNone
    ∧ (regAdmit (up [0x18]) 0x18 0x18 ⟨core0, regAddr 0x18 0x18, 4, .write, 5⟩).isNone
    ∧ (regAdmit (up [0x18]) 0x18 0x38 ⟨core0, regAddr 0x18 0x38, 4, .write, 5⟩).isNone
    ∧ (regAdmit (up [0x08]) 0x08 0x3C ⟨core0, regAddr 0x08 0x3C, 4, .write, 5⟩).isNone ∧ ({ up [0x08] with tap := { step := 2 } } : State).tap.step ≠ 0
    ∧ (regAdmit { up [0x08] with tap := { step := 2 } } 0x08 0x3C ⟨core0, regAddr 0x08 0x3C, 4, .write, 5⟩).isNone
    ∧ (descOf .trk 0x104).isSome ∧ blkView (up [0x01]) .trk 0 0x104 = none ∧ latchedHi (up [0x01]) 0x01 0x104 = none
    ∧ (latchedHi (up [0x01]) 0x01 0x100).isSome = false ∧ freeBits (up [0x01]) 0x01 0x104 = 0 ∧ isRngData 0x01 0x104 = false
    ∧ (regAdmit (up [0x01]) 0x01 0x104 ⟨core0, regAddr 0x01 0x104, 4, .read, 0⟩).isNone := by decide +kernel

/-- The boundary of R32: an 8-byte access at an offset of 4 modulo 8 is refused, at 0 modulo 8 admitted. -/
theorem witness_RegisterAccessOutcome : blkOf 0x7F = none ∧ blkOf 0x18 = some (.win, 0)
    ∧ (barkCheck (up [0x18]) 0x18 ⟨core0, regAddr 0x18 0x3C, 8, .read, 0⟩).2 = true ∧ refusesRegs (up [0x18]) 0x18 = false
    ∧ (barkCheck (up [0x18]) 0x18 ⟨⟨0, 0⟩, regAddr 0x18 0x38, 8, .read, 0⟩).2 = false
    ∧ refusesRegs (blkAt 0x18 { st := .off }) 0x18 = true ∧ pagesOf .win ≤ 0xF000 / 4096 ∧ 0x38 / 4096 < pagesOf .win
    ∧ (regAdmit (up [0x18]) 0x18 0x3C ⟨core0, regAddr 0x18 0x3C, 8, .read, 0⟩).isSome
    ∧ (regAdmit (up [0x18]) 0x18 0x38 ⟨core0, regAddr 0x18 0x38, 8, .read, 0⟩).isNone := by decide +kernel

/-- BARK_SEL names DMC's table. -/
def barkSelected : State := wr (up [0x01]) 0x01 0x108 0x1B

theorem witness_BarkStageCommit : Admits barkSelected core0 0x01 (barkOff 63 2) 5 ∧ Admits barkSelected core0 0x01 (barkOff 63 3) 0x80000000
    ∧ barkHas barkSelected = true ∧ (barkEntry barkSelected (barkSel barkSelected) 63).locked = false ∧ Word.fld (0x80000000 : Word) 26 25 < 2
    ∧ Admits (setBark barkSelected 0x1B 63 ⟨0, 0, 0, 0x40000000⟩) core0 0x01 (barkOff 63 3) 1
    ∧ (barkEntry (setBark barkSelected 0x1B 63 ⟨0, 0, 0, 0x40000000⟩) 0x1B 63).locked = true
    ∧ Admits barkSelected core0 0x01 (barkOff 63 3) 0x06000000 ∧ Word.fld (0x06000000 : Word) 26 25 = 3 ∧ Word.fld (0x04000000 : Word) 26 25 = 2
    ∧ Admits (wr (up [0x01]) 0x01 0x108 0x7F) core0 0x01 (barkOff 0 3) 1 ∧ barkHas (wr (up [0x01]) 0x01 0x108 0x7F) = false := by decide +kernel

theorem witness_BroadcastMembers : isBcast 0x70 = true ∧ bcastMembers (up []) 0x70 ≠ []
    ∧ (∀ r ∈ bcastMembers (up []) 0x70, (regAdmit (up []) r 0x3C ⟨core0, regAddr r 0x3C, 4, .write, 1⟩).isNone = true)
    ∧ (∀ r ∈ bcastMembers (up []) 0x70, (regAdmit (up []) r 0x3C ⟨core0, regAddr r 0x3C, 4, .read, 0⟩).isNone = true)
    ∧ isBcast (regPlace ⟨core0, regAddr 0x61 0x3C, 4, .write, 1⟩).1 = true
    ∧ bcastMembers ((List.range 8).foldl (fun s c => wr s (0x20 + c) 0x110 3) (up [])) 0x61 = [] := by decide +kernel

theorem witness_EnableLife : CtlAdmits State.reset core0 0x0C false 0 true ∧ (blkSt State.reset 0x0C).enable = false ∧ (blkSt State.reset 0x0C).st = .reset
    ∧ CtlAdmits (blkAt 0x18 { st := .draining }) core0 0x18 false 0 true ∧ CtlAdmits (blkAt 0x18 { lock := true }) core0 0x18 false 0 true
    ∧ rd (blkAt 0x18 { lock := true }) 0x18 0x28 = 0
    ∧ CtlAdmits (up [0x0A]) core0 0x0A false 0 false ∧ (blkSt (up [0x0A]) 0x0A).enable = true ∧ (blkSt (up [0x0A]) 0x0A).st = .ready
    ∧ CtlAdmits (blkAt 0x18 { enable := true, st := .init }) core0 0x18 false 0 false
    ∧ CtlAdmits (blkAt 0x18 { enable := true, st := .draining }) core0 0x18 false 0 false
    ∧ CtlAdmits (blkAt 0x18 { enable := true, st := .ready, lock := true }) core0 0x18 false 0 false := by decide +kernel

theorem witness_EnableLife_ends : drained (blkAt 0x18 { st := .draining, why := .disable }) 0x18 = true
    ∧ drained (blkAt 0x20 { st := .draining, why := .isolate, isolate := true }) 0x20 = true
    ∧ drained (blkAt 0x20 { st := .draining, why := .isolate }) 0x20 = true
    ∧ drained (blkAt 0x4F { st := .draining, why := .isolate, isolate := true }) 0x4F = true
    ∧ blkOf 0x20 = some (.fch, 0) ∧ blkOf 0x1B = some (.dmc, 0) ∧ blkOf 0x18 = some (.win, 0)
    ∧ (chanOf (setTs (blkAt 0x20 { enable := true, st := .init }) 0 tsEmpty) 0).tstate = tsEmpty ∧ (blkSt (setTs (blkAt 0x20 { enable := true, st := .init }) 0 tsEmpty) 0x20).st = .init
    ∧ dramUp { blkAt 0x1B { enable := true, st := .init } with dmc := { tstate := 3 } } = true := by decide +kernel

theorem witness_SoftResetLife : CtlAdmits State.reset core0 0x18 false 1 true ∧ CtlAdmits (up [0x18]) core0 0x18 true 1 true
    ∧ CtlAdmits (blkAt 0x2F { st := .isolated, isolate := true }) core0 0x2F true 1 true
    ∧ CtlAdmits (blkAt 0x18 { st := .draining }) core0 0x18 false 1 true ∧ rd (blkAt 0x18 { st := .draining }) 0x18 0x28 = 0
    ∧ CtlAdmits (blkAt 0x20 { st := .off }) core0 0x20 true 1 true ∧ rd (blkAt 0x20 { st := .off }) 0x00 0x28 = 0
    ∧ drained (blkAt 0x18 { st := .draining, why := .softReset }) 0x18 = true ∧ drained (blkAt 0x17 { st := .draining, why := .softReset }) 0x17 = true := by decide +kernel

/-- A gated block. -/
def gated (r : Nat) (st : BState) (iso pow lost : Bool) : State := blkAt r { st := st, isolate := iso, powerReq := pow, lostPower := lost }

theorem witness_IsolatePowerLock_isolate : gateable 0x20 = true ∧ groveIdle (up [0x20]) 0x20 = true ∧ CtlAdmits (up [0x20]) core0 0x20 false 2 true
    ∧ CtlAdmits (up [0x4F]) core0 0x4F true 2 true ∧ gateable 0x4F = true
    ∧ groveIdle { up [0x4F] with grv := { eng := [(255, { st := .running })] } } 0x4F = false
    ∧ CtlAdmits { up [0x4F] with grv := { eng := [(255, { st := .running })] } } core0 0x4F false 2 true
    ∧ CtlAdmits (gated 0x20 .off false false true) core0 0x20 true 2 true ∧ heldOff (gated 0x20 .off false false true) 0x20 = false
    ∧ groveIdle (gated 0x20 .off false false true) 0x20 = true ∧ CtlAdmits (gated 0x20 .draining false true false) core0 0x20 false 2 true
    ∧ groveIdle (gated 0x20 .draining false true false) 0x20 = true := by decide +kernel

theorem witness_IsolatePowerLock_power : CtlAdmits (gated 0x4F .isolated true true false) core0 0x4F true 3 false
    ∧ CtlAdmits (gated 0x10 .isolated true true false) core0 0x10 true 3 false ∧ gateable 0x10 = true ∧ heldOff (gated 0x10 .isolated true true false) 0x10 = false
    ∧ CtlAdmits (up [0x20]) core0 0x20 false 3 false ∧ CtlAdmits (gated 0x4F .off true false true) core0 0x4F true 3 true
    ∧ heldOff (gated 0x4F .off true false true) 0x4F = false ∧ CtlAdmits (gated 0x20 .off false false true) core0 0x20 true 3 true
    ∧ CtlAdmits (gated 0x20 .ready false false false) core0 0x20 false 3 true := by decide +kernel

theorem witness_IsolatePowerLock_back : CtlAdmits (gated 0x4F .isolated true true false) core0 0x4F true 2 false ∧ heldOff (gated 0x4F .isolated true true false) 0x4F = false
    ∧ CtlAdmits (gated 0x20 .isolated true true true) core0 0x20 true 2 false ∧ CtlAdmits (gated 0x20 .off true false true) core0 0x20 true 2 false
    ∧ heldOff (gated 0x20 .off true false true) 0x20 = false ∧ CtlAdmits (gated 0x20 .draining true true false) core0 0x20 false 2 false
    ∧ CtlAdmits (up [0x0C]) core0 0x0C false 31 true ∧ Admits (up [0x0C]) core0 0x0C 0x20 6 ∧ Admits (up [0x08]) core0 0x08 0x20 2
    ∧ (up [0x08]).tap.step = 0 := by decide +kernel

/-! ### Leaf pools and DRAM -/

/-- A pool area of 8 GiB at the start of DRAM. -/
def area (s : State) : State :=
  wr64 (wr64 (wr s 0x1B 0x104 0xFF8200) 0xC 0x100 dramBase) 0xC 0x108 (dramBase + 0x1FFFC0000)

/-- One chunk of owner 5 in class 3 with a buffer of count `n`, and a CAP of `cap`. -/
def pool (owner n cap : Nat) : State :=
  wr { area (up [0x0C]) with bpm := { chunks := [(0, { owner := owner, cls := 3, internal := false, live := [(3, n)] })] } } 0xC (minOff owner 3 + 4) (w32 cap)

/-- An internal chunk with a free slot; a pool whose class 3 has no chunk; and one whose request waits. -/
def poolInternal : State := { pool 0 1 0 with bpm := { chunks := [(0, { owner := 0, cls := 3, internal := true, live := [(3, 1)] })] } }
def poolBare : State := { pool 0 1 9 with bpm := {} }
def poolWaits : State := { pool 0 1 9 with bpm := { waiters := [⟨0, 3, false, .fw 3⟩] } }

/-- The map class has a free slot in the last chunk of its owner. -/
def poolMap : State :=
  wr { area (up [0x0C]) with bpm := { chunks := [(32766, { owner := 63, cls := 5, internal := false, live := [(0, 1)] })] } } 0xC (minOff 63 5 + 4) 9

theorem witness_BufferCounts : classFor (pool 0 1 9) 65536 = some 3 ∧ clsEn (pool 0 1 9) 3 = true ∧ usedOf (pool 0 1 9) 0 3 < bpmCap (pool 0 1 9) 0 3
    ∧ slotChunks (pool 0 1 9) 0 3 false ≠ [] ∧ Tbl.sorted (pool 0 1 9).bpm.chunks = true
    ∧ slotChunks poolInternal 0 3 true ≠ [] ∧ classFor poolInternal 65536 = some 3
    ∧ clsEn poolMap 5 = true ∧ usedOf poolMap 63 5 < bpmCap poolMap 63 5 ∧ slotChunks poolMap 63 5 false ≠ []
    ∧ bpmCap (pool 0 1 1) 0 3 ≤ usedOf (pool 0 1 1) 0 3
    ∧ (bufAt (pool 0 254 9) (slotAddr (pool 0 254 9) 0 3 3)).map (fun b => (b.1, b.2.1.owner, b.2.2)) = some (0, ownerOf (pool 0 254 9) 7, 3, 254)
    ∧ (bufAt (pool 0 255 9) (slotAddr (pool 0 255 9) 0 3 3)).map (·.2.2.2) = some 255
    ∧ (bufAt (pool 5 255 9) (slotAddr (pool 5 255 9) 0 3 3)).map (fun b => decide (b.2.1.owner ≠ ownerOf (pool 5 255 9) 7)) = some true
    ∧ (bufAt (pool 0 1 9) (slotAddr (pool 0 1 9) 0 3 3)).map (·.2.2.2) = some 1
    ∧ bufAt (pool 0 1 9) (slotAddr (pool 0 1 9) 0 2 3) = none := by decide +kernel

theorem witness_BufferCounts_form : usedOf poolBare 0 3 < bpmCap poolBare 0 3 ∧ slotChunks poolBare 0 3 false = [] ∧ 0 < unreservedFree poolBare
    ∧ classFor poolBare 65536 = some 3 := by decide +kernel

/-- The registers of a firmware request: core 3 asks for a buffer of class 3, or for a share of the buffer in slot 3. -/
theorem witness_PoolRegisters : Admits (pool 0 1 9) core0 0xC (0x4000 + 32 * 3) 3 ∧ Word.bit (3 : Word) 16 = false ∧ Word.fld (3 : Word) 2 0 < 5
    ∧ clsEn (pool 0 1 9) (Word.fld (3 : Word) 2 0) = true ∧ ((pool 0 1 9).bpm.waiters.any fun w => w.purpose = .fw 3) = false
    ∧ usedOf (pool 0 1 9) (Word.fld (3 : Word) 13 8) (Word.fld (3 : Word) 2 0) < bpmCap (pool 0 1 9) (Word.fld (3 : Word) 13 8) (Word.fld (3 : Word) 2 0)
    ∧ slotChunks (pool 0 1 9) (Word.fld (3 : Word) 13 8) (Word.fld (3 : Word) 2 0) false ≠ []
    ∧ Admits poolInternal core0 0xC (0x4000 + 32 * 3) 0x10003 ∧ slotChunks poolInternal (Word.fld (0x10003 : Word) 13 8) (Word.fld (0x10003 : Word) 2 0) true ≠ []
    ∧ Admits (pool 0 1 1) core0 0xC (0x4000 + 32 * 3) 3 ∧ Admits (pool 0 1 1) core0 0xC (0x4000 + 32 * 3) 5 ∧ 5 ≤ Word.fld (5 : Word) 2 0
    ∧ Admits poolWaits core0 0xC (0x4000 + 32 * 3) 3 ∧ (poolWaits.bpm.waiters.any fun w => w.purpose = .fw 3) = true ∧ rd poolWaits 0xC 0x28 = 0
    ∧ Admits (pool 0 254 9) core0 0xC (0x4010 + 32 * 3) (w32 (slotAddr (pool 0 254 9) 0 3 3 / 2 ^ 32))
    ∧ (bufAt (pool 0 254 9) (Word.fld (w32 (slotAddr (pool 0 254 9) 0 3 3)) 31 9 * 512
        + Word.fld (w32 (slotAddr (pool 0 254 9) 0 3 3 / 2 ^ 32)) 15 0 * 2 ^ 32)).map (fun b => (b.2.1.owner, b.2.2)) = some (ownerOf (pool 0 254 9) 0, 3, 254)
    ∧ Word.bit (w32 (slotAddr (pool 0 254 9) 0 3 3)) 0 = false ∧ Word.bit (w32 (slotAddr (pool 0 254 9) 0 3 3 + 1)) 0 = true
    ∧ bufAt (pool 0 254 9) (Word.fld (0 : Word) 31 9 * 512 + Word.fld (0 : Word) 15 0 * 2 ^ 32) = none := by decide +kernel

/-- A class word is written whole: class 5 takes MAP; class 0 may not; class 3 holds a chunk. -/
def clsAfter (s : State) (c : Nat) (v : Word) : State :=
  wr s 0xC (0x120 + 4 * c) (w32 ((if 9 ≤ Word.fld v 4 0 ∧ Word.fld v 4 0 ≤ 18 then Word.fld v 4 0 else clsLog s c) + Word.fld v 9 8 * 256))

theorem witness_PoolRegisters_class : Admits (pool 0 1 9) core0 0xC (0x120 + 4 * 6) 0x20C ∧ (blkSt (pool 0 1 9) 0xC).lock = false
    ∧ ((List.range 5).all fun i => clsEn (clsAfter (pool 0 1 9) 5 0x112) i
        && (i = 4 || clsLog (clsAfter (pool 0 1 9) 5 0x112) i < clsLog (clsAfter (pool 0 1 9) 5 0x112) (i + 1))) = true
    ∧ ((pool 0 1 9).bpm.chunks.any fun p => p.2.cls = 5) = false ∧ rsvOk (clsAfter (pool 0 1 9) 5 0x112) = true
    ∧ ((List.range 5).all fun i => clsEn (clsAfter (pool 0 1 9) 0 0) i
        && (i = 4 || clsLog (clsAfter (pool 0 1 9) 0 0) i < clsLog (clsAfter (pool 0 1 9) 0 0) (i + 1))) = false
    ∧ rd (clsAfter (pool 0 1 9) 3 0x20F) 0xC 0x12C ≠ rd (pool 0 1 9) 0xC 0x12C ∧ ((pool 0 1 9).bpm.chunks.any fun p => p.2.cls = 3) = true := by decide +kernel

/-- The reservations that hold after reset fill the pool. -/
def areaTight : State := wr64 (wr64 (wr (up [0x0C]) 0x1B 0x104 0xFF8200) 0xC 0x100 dramBase) 0xC 0x108 (dramBase + 1023 * 2 ^ 18)

theorem witness_PoolRegisters_area : Admits State.reset core0 0xC (0x100 + 4 * 3) 7 ∧ State.reset.bpm.chunks = []
    ∧ areaValid (wr State.reset 0xC (0x100 + 4 * 3) (7 &&& 0xFFFF)) = false ∧ isEnabled State.reset 0xC = false
    ∧ Admits (pool 0 1 9) core0 0xC (0x100 + 4 * 3) 7 ∧ (pool 0 1 9).bpm.chunks ≠ [] ∧ rd (pool 0 1 9) 0xC 0x28 = 0
    ∧ Admits areaTight core0 0xC 0x108 0xFF80000 ∧ areaTight.bpm.chunks = [] ∧ rsvOk areaTight = true
    ∧ areaValid (wr areaTight 0xC 0x108 (0xFF80000 &&& 0xFFFC0000)) = true ∧ rsvOk (wr areaTight 0xC 0x108 (0xFF80000 &&& 0xFFFC0000)) = false := by decide +kernel

theorem witness_PoolRegisters_limits : Admits (pool 0 1 9) core0 0xC (minOff 63 5 + 4) 0xFFFFFFFF ∧ Admits (pool 0 1 9) core0 0xC (minOff 63 5) 0xFFFFFFF
    ∧ Admits (pool 0 1 9) core0 0xC (irsvOff 63) 0xFFFFFFFF ∧ Admits (pool 0 1 9) core0 0xC (irsvOff 0) 1 ∧ Admits (pool 0 1 9) core0 0xC (minOff 63 7 + 4) 1 := by
  decide +kernel

theorem witness_PoolRegisters_sums : rsvOk (wr (pool 0 1 9) 0xC (minOff 63 4) (0xFFFFFFF &&& w32 0xFFFFFFF)) = false := by decide +kernel

theorem witness_PoolRegisters_reserve : rsvOk (wr (pool 0 1 9) 0xC (irsvOff 63) (0xFFFFFFFF &&& w32 0x3FFFFF)) = false := by decide +kernel

theorem witness_PoolRegisters_fits : rsvOk (wr (pool 0 1 9) 0xC (irsvOff 0) (1 &&& w32 0x3FFFFF)) = true := by decide +kernel

/-- A tenant with a running engine keeps its owner. -/
def busyTenant : State := { up [0x0C] with grv := { eng := [(0, { st := .running, tenant := 511 })] } }

theorem witness_PoolRegisters_owner : Admits busyTenant core0 0xC (ownerOff 511) 63 ∧ (ownerRefusal busyTenant 511 (Word.fld (63 : Word) 5 0)).isSome
    ∧ Admits busyTenant core0 0xC (ownerOff 0) 63 ∧ ownerRefusal busyTenant 0 (Word.fld (63 : Word) 5 0) = none := by decide +kernel

/-- DRAM up, with granule 1 written. -/
def dram (f : Dmc → Dmc) : State :=
  wr { up [0x1B] with dmc := f { tstate := 3, valid := [(1, true)] } } 0x1B 0x104 0xFF8200

/-- An access to the last bytes of granule 1. -/
def tail (n : Nat) : Acc := ⟨core0, dramBase + 2 * 65536 - n, n, .write, 5⟩

theorem witness_UnwrittenReadsZero : dramUp (dram id) = true ∧ refusesData (dram id) 0x1B = false
    ∧ Tbl.find (dram id).dmc.fills (granuleOf (lineOf dramBase)) = none ∧ granuleValid (dram id) (granuleOf (lineOf dramBase)) = false
    ∧ tablesOff (dram id) = true := by decide +kernel

theorem witness_DramAccess : Tbl.find (dram id).dmc.fills (granuleOf (lineOf (tail 64).addr)) = none
    ∧ granuleValid (dram id) (granuleOf (lineOf (tail 1).addr)) = true ∧ neverWritten (dram id) (lineOf (tail 1).addr) = false
    ∧ isPoisoned (dram id) (lineOf (tail 1).addr) = false ∧ Tbl.getD (dram id).dmc.stored (lineOf (tail 1).addr) [] = []
    ∧ flipArmed (dram id) (lineOf (tail 1).addr) 0 = false ∧ flipArmed (dram id) (lineOf (tail 1).addr) 1 = false ∧ (tail 1).size < 64
    ∧ outcomeOf none false (meetErrs [] []) = 0 ∧ outcomeOf none false (meetErrs [] [⟨79, 1⟩]) = 1 ∧ outcomeOf none true (meetErrs [] [⟨79, 1⟩]) = 2
    ∧ outcomeOf none false (meetErrs [] [⟨0, 1⟩, ⟨8, 1⟩, ⟨16, 1⟩, ⟨24, 1⟩, ⟨79, 255⟩]) = 3
    ∧ Tbl.find (dram fun d => { d with fills := [(0, [⟨tail 64, true⟩])] }).dmc.fills (granuleOf (lineOf dramBase)) = some [⟨tail 64, true⟩]
    ∧ Tbl.find (dram fun d => { d with fills := [(0, [])] }).dmc.fills 0 = some [] := by decide +kernel

/-- The patrol scrub runs and granule 2 is written too, or granule 1 is the last. -/
def scrubbed : State := wr (dram fun d => { d with valid := [(1, true), (2, true)], scrubLine := 2047 }) 0x1B 0x110 0x10000
def scrubLast : State := wr (dram fun d => { d with scrubLine := 2047 }) 0x1B 0x110 0x10000

theorem witness_DramManagement : (dram fun d => { d with tstate := 1 }).dmc.tstate = 1 ∧ Word.fld (rd (dram id) 0x1B 0x100) 11 8 = 15
    ∧ 64 ≤ ((List.range 8).filter fun i => (Word.fld (rd (dram id) 0x1B 0x100) 11 8).testBit (i / 2) && !(([⟨7, 0, 0, 1⟩] : List TrainFail).any
        fun f => f.sub = i || (f.step = 7 && f.sub / 2 = i / 2))).length * (if Word.bit (rd (dram id) 0x1B 0x100) 6 then 2 else 1) * (16 + 8 * Word.fld (rd (dram id) 0x1B 0x100) 5 4)
    ∧ ((List.range 8).filter fun i => (Word.fld (rd (dram id) 0x1B 0x100) 11 8).testBit (i / 2) && !(([⟨7, 0, 0, 7⟩, ⟨0, 0, 0, 7⟩, ⟨2, 0, 0, 7⟩] : List TrainFail).any
        fun f => f.sub = i || (f.step = 7 && f.sub / 2 = i / 2))).length * (if Word.bit (rd (dram id) 0x1B 0x100) 6 then 2 else 1) * (16 + 8 * Word.fld (rd (dram id) 0x1B 0x100) 5 4) < 64
    ∧ Admits (dram id) core0 0x1B (markOff 7 1) 0x1F ∧ entryOff (dram id) 7 1 = true ∧ entryOff (dram id) 7 0 = false ∧ Admits (dram id) core0 0x1B (markOff 7 0) 0x1F
    ∧ Admits (wr64 (dram id) 0x1B 0x140 dramBase) core0 0x1B 0x148 0x800000 ∧ Word.fld (0x800000 : Word) 23 0 = 8388608 ∧ Word.fld (0x800001 : Word) 23 0 = 8388609
    ∧ Admits (dram id) core0 0x1B 0x148 0x800001 ∧ Admits (dram fun d => { d with inval := some (1, 1) }) core0 0x1B 0x148 1 ∧ rd (dram id) 0x1B 0x28 = 0
    ∧ (dram id).dmc.inval = none ∧ (dram fun d => { d with inval := some (1, 1), fills := [(1, [])] }).dmc.inval = some (1, 1)
    ∧ Admits (dram id) core0 0x1B 0x174 0x80000001
    ∧ Word.bit (rd scrubbed 0x1B 0x110) 16 = true ∧ dramUp scrubbed = true ∧ scrubNext scrubbed scrubbed.dmc.scrubLine = some 2047
    ∧ scrubNext scrubbed 2048 = some 2048 ∧ scrubNext scrubLast scrubLast.dmc.scrubLine = some 2047 ∧ scrubNext scrubLast 2048 = none
    ∧ scrubNext { scrubLast with dmc := { scrubLast.dmc with valid := [] } } 2047 = none
    ∧ granuleValid scrubbed (granuleOf (dramBase / 64 + 2047)) = true
    ∧ neverWritten scrubbed (dramBase / 64 + 2047) = false ∧ flipArmed scrubbed (dramBase / 64 + 2047) 0 = false := by decide +kernel

/-! ### Flash channels -/

/-- Channel 31 in a training state, its die 15 in a given condition. -/
def chan31 (ts : Nat) (d : Die) : State :=
  { up [0x3F] with flash := { chans := [(31, { tstate := ts })], dies := [(511, d)] } }

/-- A parameter page that fits the geometry after `fine`. -/
def page (planes : Nat) : ParamPage :=
  { valid := true, meets := true, gbit := 1024, planes := planes, pagesPerWl := 3, pagesPerBlock := 4096, twoPass := false, blocks := 4096, data := 16384, spare := 1824, luns := 4 }

theorem witness_ChannelBringUp : (chanOf (chan31 1 {}) 31).tstate = tsPower ∧ (chanOf (chan31 2 { st := .lost }) 31).tstate = tsDetect
    ∧ (chanOf (chan31 3 { st := .present }) 31).tstate = tsIdent ∧ (dieOf (chan31 3 { st := .present }) 511).st = .present
    ∧ ((([(15, page 5)] : List (Fin 16 × ParamPage)).find? fun p => p.1 = 15).any fun p => pageFits (chan31 3 {}) p.2) = false
    ∧ (chanOf (chan31 4 { st := .present }) 31).tstate = tsTrain ∧ dieUsable (chan31 4 { st := .present }) (31 * 16 + 15) = true
    ∧ rateOf (chan31 4 {}) 31 [(15, 15)] 15 = 9 ∧ rateOf (chan31 4 {}) 31 [(14, 15)] 15 = 0
    ∧ (chanOf (chan31 5 {}) 31).tstate = tsReady ∧ Admits (chan31 5 {}) core0 0x3F 0x104 1 ∧ Admits (chan31 4 {}) core0 0x3F 0x104 0
    ∧ (chanOf (chan31 7 {}) 31).tstate = tsRetrain
    ∧ (∀ d : Fin 16, (dieOf (chan31 7 {}) (31 * 16 + d)).run = none ∧ (dieOf (chan31 7 {}) (31 * 16 + d)).susp = none) := by decide +kernel

/-- An operation for block 4095 of die 511, from the ring or from Coppice. -/
def fop (sub : Submitter) (opc : Nat) : FOp :=
  { opc := opc, sub := sub, pmask := 0xF, smask := 1, addr := puaMk 511 0 4095 0 0, buf := dramBase, purpose := if sub = .fw then .fw else .none }
def freq (sub : Submitter) (slc : Bool) : FlashReq :=
  { sub := sub, cls := 2, slc := slc, pmask := 0xF, smask := 1, addr := puaMk 511 0 4095 0 0, buf := dramBase }

/-- A device with DRAM and the geometry 4 planes, 4,096 pages, 4,096 blocks, of one pass or two, and die 511 in a given condition. -/
def fine (two : Bool) (d : Die) : State :=
  wr (wr (wr { chan31 5 d with blk := [(0x1B, ready), (0x3F, ready)] } 0x1B 0x104 0xFF8200) 0x0F 0x104 (if two then 0x1000A4 else 0x10001C)) 0x0F 0x108 0x1000

/-- A die that operations may run on. -/
def idle : Die := { st := .ready }

/-- The same with a queue that is full for all but URGENT reads, after the power-loss signal, and on an empty channel. -/
def full : State := fine false { idle with q := List.replicate 7 (fop .coppice 3) }
def lostPower31 : State := { fine false idle with flash := { (fine false idle).flash with withdraw := true } }
def empty31 : State := { fine false idle with flash := { chans := [(31, { tstate := 6 })], dies := [(511, idle)] } }

/-- A page-7 operation runs and block 4095 is read urgently: the hint is due. -/
def urgentDue : State := fine false { idle with run := some (fop .coppice 6), phase := .array, q := [fop .coppice 1] }

theorem witness_FlashOpsAccepted : ([1, 2, 3, 6, 7, 8, 9, 10].all fun k => opBad (fine false idle) 31 (reqOp k (freq .fw false)) = 0
    && decide (Accepts (fine false idle) 31 (reqOp k (freq .fw false)))) = true
    ∧ ([4, 5].all fun k => opBad (fine true idle) 31 (reqOp k (freq .coppice false)) = 0
    && decide (Accepts (fine true idle) 31 (reqOp k (freq .coppice false)))) = true
    ∧ Accepts lostPower31 31 (reqOp 3 (freq .flush false)) ∧ opBad lostPower31 31 (reqOp 3 (freq .flush false)) = 0
    ∧ hintDue urgentDue 511 (offered urgentDue { reqOp 1 (freq .ldc false) with cls := 0 }) = true
    ∧ Accepts urgentDue 31 { reqOp 1 (freq .ldc false) with cls := 0 } := by
  decide +kernel

theorem witness_FlashOpsAccepted_bad : ([4, 5, 7, 8, 9, 10].all fun k => opBad (fine false idle) 31 (reqOp k (freq .ldc false)) ≠ 0) = true
    ∧ ([1, 2, 3, 6].all fun k => opBad (fine false idle) 30 (reqOp k (freq .ldc false)) ≠ 0) = true
    ∧ dieUsable (fine false { st := .lost }) (puaDie (freq .fw false).addr) = false ∧ Takes (fine false { st := .lost }) 31 .fw
    ∧ (chanOf empty31 31).tstate = tsEmpty ∧ lostPower31.flash.withdraw = true ∧ (freq .fw false).sub ≠ .flush
    ∧ Takes full 31 .coppice ∧ slotFits (dieOf full 511) (offered full (reqOp 3 (freq .coppice false))).cls = false
    ∧ (blkSt (chan31 5 idle) (fchRgn 30)).st ≠ .init ∧ (blkSt (chan31 5 idle) (fchRgn 30)).st ≠ .ready := by decide +kernel

/-- What a CANCEL of tag 0 of the ring looks for. -/
def hit0 (y : FOp) : Bool := y.sub = .fw && y.tag = 0

theorem witness_FlashOpsAccepted_cancel : opBad (fine false idle) 31 (reqOp 11 (freq .fw false)) = 0 ∧ Takes (fine false idle) 31 .fw
    ∧ (takeFirst hit0 (dieOf (fine false { idle with q := [fop .fw 1] }) (31 * 16 + 15)).q).isSome
    ∧ (∀ e : Fin 16, e ≠ 15 → (dieOf (fine false { idle with q := [fop .fw 1] }) (31 * 16 + e)).q.any hit0 = false)
    ∧ (∀ e : Fin 16, (dieOf (fine false idle) (31 * 16 + e)).q.any hit0 = false)
    ∧ takeFirst hit0 (chanOf (fine false idle) 31).held = none ∧ (takeFirst hit0 [fop .fw 1]).isSome
    ∧ (dieOf (fine false { idle with run := some (fop .fw 1) }) (31 * 16 + 15)).run.any hit0 = true
    ∧ (∀ d : Fin 16, (dieOf (fine false idle) (31 * 16 + d)).run.any hit0 = false ∧ (dieOf (fine false idle) (31 * 16 + d)).susp.any hit0 = false) := by decide +kernel

/-- A program or an erase that runs, with an URGENT read queued or none. -/
def runs (opc : Nat) (phase : RunPhase) (bursts : Nat) (q : List FOp) : Die :=
  { idle with run := some (fop .coppice opc), phase := phase, bursts := bursts, q := q }
def urgent : FOp := { fop .ldc 1 with cls := 0 }

/-- The suspend settings that hold after reset, as an operation takes them when it starts. -/
def tuned (d : Die) : Die :=
  { d with suspP := rd (chan31 5 {}) 0x3F 0x114, suspE := rd (chan31 5 {}) 0x3F 0x118, suspCfg := rd (chan31 5 {}) 0x3F 0x11C }

theorem witness_DieRuns : chooseOp (dieOf (fine false { idle with q := [fop .coppice 3] }) 511).q [0] (fun x => !((chanOf (fine false idle) (511 / 16)).ring.stopped && x.sub ≠ .flush))
      = some (fop .coppice 3) ∧ dieUsable (fine false idle) 511 = true ∧ progBursts (fine false idle) (fop .coppice 3) = 12
    ∧ suspEligible (tuned idle) urgent = true ∧ urgent.cls = 0
    ∧ (dieOf (fine false (runs 3 .dataIn 11 [])) 511).run = some (fop .coppice 3) ∧ burstNext (fine false (runs 3 .dataIn 11 [])) (511 / 16) [] = some 511
    ∧ (runs 3 .dataIn 0 [urgent]).q.any (fun x => isRead x && x.cls = 0) = true ∧ (0 : Nat) < Word.fld (tuned (runs 3 .dataIn 0 [urgent])).suspCfg 15 14
    ∧ suspLeft (tuned (runs 6 .array 0 [urgent])) (fop .coppice 6) = true
    ∧ (runs 6 .array 0 [urgent]).q.any (suspEligible (tuned (runs 6 .array 0 [urgent]))) = true
    ∧ (dieOf (fine false { idle with susp := some (fop .coppice 3), pausedIn := true }) 511).susp = some (fop .coppice 3)
    ∧ isProg (fop .coppice 3) = true ∧ isErase (fop .coppice 6) = true ∧ (fop .coppice 6).purpose ≠ .fw ∧ (fop .fw 10).purpose = .fw
    ∧ (fine false idle).flash.withdraw = false
    ∧ (dieOf (fine false { runs 3 .array 0 [] with resetting := true }) 511).resetting = true
    ∧ (([] : List Nat).filter fun t => (0 : Nat) < t + 60).length < 2 ∧ 2 ≤ (([0, 0] : List Nat).filter fun t => (0 : Nat) < t + 60).length := by decide +kernel

theorem witness_DieRuns_loss : dieUsable (fine false idle) 511 = true
    ∧ (∀ d : Fin 16, (511 : Nat) / 16 * 16 + d ≠ 511 → dieUsable (fine false idle) (511 / 16 * 16 + d) = false)
    ∧ Admits (fine false idle) core0 0x3F (0x200C + 16 * 15) 1 ∧ Admits (fine false idle) core0 0x3F (0x200C + 16 * 15) 0xFFFFFFFE
    ∧ Admits (fine false idle) core0 0x3F 0x3404 7 ∧ isEnabled (fine false idle) (fchRgn 31) = true
    ∧ Admits (blkAt 0x3F {}) core0 0x3F 0x3404 7 ∧ isEnabled (blkAt 0x3F {}) (fchRgn 31) = false := by decide +kernel

/-! ### Read recovery -/

/-- A codeword of leaf 3 in the ladder, its flash slot, and a state with other codewords too. -/
def word : Cw := { id := 7, pua := puaMk 511 0 4095 0 0, cls := 2, expect := { kind := 2, mu := 3 }, purpose := .leaf 3, decoding := true, served := true }
def leaf3 : Content := .mapLeaf 3 1 true []
def ladderOf (l : List Cw) (rus : Tbl Ru) : State := { fine false idle with
  ldc := { cws := l }, cpc := { rus := rus }, flash := { (fine false idle).flash with cells := [(word.pua, leaf3)], cover := [(puaMk 510 0 4095 0 0, [(word.pua, leaf3)])] } }
def ladder (x : Cw) : State := ladderOf [x] []

/-- A reclaim unit with the codeword's block, whose parity stands on a second die. -/
def stripe : Tbl Ru := [(0, { st := .closed, members := [⟨510, 4095, false⟩, ⟨511, 4095, false⟩] })]

/-- The same codeword as one of user data, without a key. -/
def userWord : Cw := { word with expect := { kind := 1, nsid := 1, mu := 5, tenant := 9 }, purpose := .inner 0 }
def userCell : Content := .user 1 5 9 0 1 (crc32c [1]) [1]

theorem witness_LadderSteps : Decodes (ladder word) word ∧ Tbl.find (ladder word).flash.cells word.pua = some leaf3
    ∧ (leaf3.asRead.kind = word.expect.kind ∧ leaf3.asRead.kind ≠ 1 ∧ leafSlotOk word.expect leaf3.asRead = true)
    ∧ (decMu (ladder userWord) 1 5 (epochOf (ladder userWord) userWord.pua) [1]).1 = [1] ∧ userCell.asRead = userCell
    ∧ rdF (ladder word) 0x1A 0x108 5 0 = 32 ∧ Decodes (ladder { word with step := 4, deep := 30 }) { word with step := 4, deep := 30 }
    ∧ Decodes (ladder { word with step := 4, deep := 31 }) { word with step := 4, deep := 31 } ∧ 0 < rdF (ladder word) 0x1A 0x108 5 0
    ∧ Decodes (ladderOf [{ word with step := 2 }] stripe) { word with step := 2 } ∧ (survivorPuas (ladderOf [{ word with step := 2 }] stripe) word.pua).isSome
    ∧ Decodes (ladder { word with step := 2, rbFirst := true }) { word with step := 2, rbFirst := true }
    ∧ Decodes (ladder { word with step := 2, rbDead := true }) { word with step := 2, rbDead := true } := by decide +kernel

theorem witness_LadderSteps_purpose : ∀ p, word.purpose ≠ .survivor p := by intro p; simp [word]

/-- A survivor of the rebuild of codeword 8, and a codeword whose rebuild has all its survivors. -/
def survivor : Cw := { word with purpose := .survivor 8 }
def rebuilt : Cw := { word with id := 8, decoding := false, rebuild := some {} }

theorem witness_LadderSteps_rebuild : Decodes (ladderOf [survivor, rebuilt] stripe) survivor ∧ cwOf (ladderOf [survivor, rebuilt] stripe) 8 = some rebuilt
    ∧ survivorAccepted (ladderOf [survivor, rebuilt] stripe) survivor.pua = true ∧ survivor.step = 0
    ∧ cwOf (ladderOf [rebuilt] stripe) 8 = some rebuilt ∧ rebuilt.rebuild = some { left := 0, waiting := false, failed := false }
    ∧ xorOf (ladderOf [rebuilt] stripe) rebuilt.pua = some leaf3
    ∧ xorOf (ladderOf [rebuilt] []) rebuilt.pua = none ∧ (∀ y ∈ (ladderOf [rebuilt] []).ldc.cws, y.purpose = .survivor rebuilt.id → y.id ≠ rebuilt.id) := by decide +kernel

/-- An URGENT codeword whose read waits with a hint; the rebuild-first cap or the accumulators as given. -/
def waits : Cw := { word with cls := 0, decoding := false, served := false, op := some 4 }
def hinted (cap accs : Word) (rus : Tbl Ru) : State :=
  wr (wr { fine false { idle with hint := true, q := [{ fop .ldc 1 with id := 4 }] } with ldc := { cws := [waits] }, cpc := { rus := rus } } 0x1A 0x10C cap) 0x19 0x100 accs

theorem witness_LadderSteps_hint : cwOf (hinted 0 0 stripe) 7 = some waits ∧ waits.step ≤ 2 ∧ ldcRbfEn (hinted 0 0 stripe) = true
    ∧ (dieOf (hinted 0 0 stripe) (puaDie waits.pua)).hint = true ∧ (dieOf (hinted 0 0 stripe) (puaDie waits.pua)).q.any (fun o => some o.id = waits.op) = true
    ∧ rdF (hinted 0 0 stripe) 0x1A 0x10C 5 0 ≤ rbfActive (hinted 0 0 stripe) ∧ rbfActive (hinted 1 0 stripe) < rdF (hinted 1 0 stripe) 0x1A 0x10C 5 0
    ∧ (survivorPuas (hinted 1 0 stripe) waits.pua).isSome ∧ rdF (hinted 1 0 stripe) 0x19 0x100 7 0 ≤ rebuildsActive (hinted 1 0 stripe)
    ∧ rebuildsActive (hinted 1 1 stripe) < rdF (hinted 1 1 stripe) 0x19 0x100 7 0 ∧ survivorPuas (hinted 1 0 []) waits.pua = none := by decide +kernel

/-- A read of namespace 4096 that waits for a map leaf, and a Memory Copy that reads it. -/
def reader : Ctx := { id := ⟨511, 9, 65535⟩, tenant := 0, idx := 0, cls := .high, src := .shared, sqe := { opc := 2, cid := 65535, nsid := 4096 },
                      stage := .reading, nsid := 4096, mus := [{ gmu := 0, st := .page }] }
def inner : InnerRead := { id := 3, who := .copy reader.id, tenant := 0, nsid := 4096, gmu := 0, off := 0, len := 4096, cls := 2 }
def entry : BgEntry := { pua := 12, gmu := 0, expect := { kind := 1 }, step := 5, deadline := 0 }
def limited (mus : List MuXfer) : State :=
  let s : State := { State.reset with hqe := { ctxs := [{ reader with mus := mus }] } }
  wr { s with grv := { reads := [inner] }, ldc := { bg := [entry], tracked := [(31 * 32 + 15 + 1, 64)] } } 0x1A (0x1000 + 4 * 4095) 1

theorem witness_RecoveryLimits : ctxOf (limited reader.mus) reader.id = some reader ∧ rdF (limited reader.mus) 0x1A (0x1000 + 4 * (reader.nsid - 1)) 15 0 ≠ 0
    ∧ (reader.mus.any fun m => m.st ≠ .data) = true
    ∧ (rdsOf (limited []) (.copy reader.id)).find? (fun r => !r.st.ended) = some inner ∧ rdOf (limited []) inner.id = some inner
    ∧ (limited []).ldc.bg.find? (fun y => y.pua = entry.pua) = some entry ∧ entry.deadline ≤ (limited []).clock ∧ ruOfPua (limited []) entry.pua = none
    ∧ ldcTrackEn (limited []) = true ∧ rdF (limited []) 0x1A 0x104 23 8 ≤ Tbl.getD (limited []).ldc.tracked (31 * 32 + 15 + 1) 0 := by decide +kernel

/-! ### The map -/

/-- A device with DRAM, frames and one chunk of map granules of owner 0, whose table lets the walker reach DRAM. -/
def roomy (f : Ftl) : State :=
  setBark (wr (wr (wr { area (up [0x0C, 0x0E, 0x1B]) with
      ftl := f, dmc := { tstate := 3, valid := [(0, true)] }
      bpm := { chunks := [(0, { owner := 0, cls := 5, internal := false, live := [(0, 1)] })] } }
    0xC (minOff 0 5 + 4) 0x100) 0x0E 0x118 4) 0x0E 0x10C 0x1000000) 0x1B 0 ⟨0, 0x3FFF0000, 0xFFFFFFFF, 0x9A00FFFF⟩

/-- A frame of the leaf with root index 0xFFFFFF, raw and whole. -/
def frame : Frame :=
  { leaf := 0xFFFFFF, raw := true, lseq := 5, entries := [(2047, entMapped 9)], grans := (List.range 10).map fun g => (g, 1024 * g), loc := locMk 77 0 10 false }
def resident (f : Frame) (dirty : Bool) (x : Ftl) : State :=
  roomy { x with frames := [(3, f)], root := [(0xFFFFFF, { tier := .canopy 3, dirty := dirty })] }
def held : HmbDesc := { leaf := 0xFFFFFF, loc := locMk 77 0 1 true, granule := 0, ngran := 1, raw := false, lseq := 5, entries := [(2047, entMapped 9)] }

/-- A copy of that leaf in three slots, and the page-in that has read it. -/
def copied : Content := .mapLeaf 0xFFFFFF 6 true [(0, entMapped 8)]
def paged (f : Bool) (l : List Nat) : PageIn :=
  { src := .flash (locMk 77 0 10 false), frame := some 3, issued := true, failed := f, parts := l.map fun k => (k, copied) }
def moving : State :=
  roomy { moving := [(0xFFFFFF, 0)], hmb := [(0, held)], root := [(0xFFFFFF, { tier := .hmb 0, busy := true })], pageIns := [(0xFFFFFF, { src := .hmb 0, issued := true })] }

theorem witness_LeavesMove_page : Tbl.find (roomy { pageIns := [(0xFFFFFF, paged false [0, 1, 2])] }).ftl.pageIns 0xFFFFFF = some (paged false [0, 1, 2])
    ∧ pgDecode (geomPlanes (roomy {})) 0xFFFFFF (locMk 77 0 10 false) (paged false [0, 1, 2]).parts = some (6, [(0, entMapped 8)])
    ∧ residentOf (roomy {}) 0xFFFFFF = none ∧ residentOf (resident { frame with grans := [] } true {}) 0xFFFFFF = some (3, { frame with grans := [] })
    ∧ (paged true []).failed = true ∧ pgDecode (geomPlanes (roomy {})) 0xFFFFFF (locMk 77 0 10 false) (paged false []).parts = none := by decide +kernel

theorem witness_LeavesMove_hmb : Tbl.find moving.ftl.moving 0xFFFFFF = some 0 ∧ Tbl.find moving.ftl.hmb 0 = some held
    ∧ Tbl.find moving.ftl.pageIns 0xFFFFFF = some { src := .hmb 0, issued := true } ∧ (rootOf moving 0xFFFFFF).busy = true
    ∧ (roomy { hmbDropping := true }).ftl.hmbDropping = true := by decide +kernel

theorem witness_LeavesMove_one : ∀ k x, Tbl.find moving.ftl.hmb k = some x → x.leaf = 0xFFFFFF → k = 0 := by
  intro k x h _
  have e : moving.ftl.hmb = [(0, held)] := rfl
  rw [e] at h
  by_cases hk : 0 = k
  · exact hk.symm
  · simp [Tbl.find, hk] at h

theorem witness_LeavesMove_write :
    wbMay (resident { frame with grans := [] } true { wbQueue := [0xFFFFFF] }) 0xFFFFFF = true
    ∧ residentOf (resident frame true { wbQueue := [0xFFFFFF] }) 0xFFFFFF = some (3, frame) ∧ (rootOf (resident frame true {}) 0xFFFFFF).dirty = true
    ∧ (rootOf (resident frame true {}) 0xFFFFFF).busy = false ∧ locGlen frame.loc ≠ 0 ∧ 10 ≤ frame.grans.length
    ∧ allUnmapped frame = false ∧ allUnmapped { frame with entries := [] } = true
    ∧ Tbl.find { (resident { frame with wb := true } true { wbDone := [(0xFFFFFF, 8)] }) with
        flash := { cells := [(8, .mapLeaf 0xFFFFFF 5 true frame.entries)] } }.flash.cells 8 = some (.mapLeaf 0xFFFFFF 5 true frame.entries 0) := by
  decide +kernel

/-- A fetched work entry: opcode, ARG0, ARG1, ARG2. -/
def work (opc a0 a1 a2 : Nat) : List Byte := leBytes 2 opc ++ leBytes 2 513 ++ leBytes 4 a0 ++ leBytes 8 a1 ++ leBytes 8 a2 ++ leBytes 8 0
def works (opc a0 a1 a2 : Nat) (x : Ftl) : State := resident frame false { x with ring := { fetched := [(0, work opc a0 a1 a2)] } }

/-- A MAP record for the last MU of the map, and one past it. -/
def mapRec (jseq : Nat) : JRec := ⟨jseq, .mapRec, 0xFFFFFF * 2048 + 2047, 1234, 0, 0⟩
def pastRec : JRec := ⟨6, .mapRec, 0x1000000 * 2048, 1234, 0, 0⟩

/-- A checkpoint whose snapshot is gone, and a leaf that is being paged in. -/
def lostCkpt : Ckpt := { number := 1, start := 6, words := [], pages := [8] }

theorem witness_FtlWork : ([1, 2, 3, 4, 5, 6, 7, 8, 9, 10, 11].all fun k => (ringTake (works k 0xFFFFFF 1 0 {}).ftl.ring k).isSome) = true
    ∧ (works 1 0 0 0 {}).dev.fault = false ∧ (rootOf (works 3 0xFFFFFF 0 0 {}) (entArg0 (work 3 0xFFFFFF 0 0))).dirty = false
    ∧ 0xFFFFFF ∈ (works 3 0xFFFFFF 0 0 { rebuilding := [0xFFFFFF] }).ftl.rebuilding ∧ (rootOf (resident frame true {}) 0xFFFFFF).dirty = true
    ∧ toWrite (resident frame true {}) 0xFFFFFF = true ∧ 0 < entArg1 (work 5 0 1 0) ∧ entArg1 (work 5 0 0 0) = 0 ∧ (works 5 0 1 0 {}).ftl.snapRun = none
    ∧ (works 5 0 1 0 {}).cpc.sysDone = [] ∧ entArg0 (work 8 0xFFFFFF 0 0) ≠ 0xFFFFFFFF ∧ entArg0 (work 8 0xFFFFFFFF 0 0) = 0xFFFFFFFF
    ∧ leafHeld (works 8 5 0 0 {}) 5 = false ∧ leafHeld (works 8 0xFFFFFF 0 0 {}) 0xFFFFFF = true := by decide +kernel

theorem witness_FtlWork_replay : entArg1 (work 7 0 6 0) ≤ (mapRec 6).jseq ∧ (mapRec 6).typ = .mapRec ∧ (mapRec 6).c = 0
    ∧ residentOf (works 7 0 6 0 { jpages := [[mapRec 6]] }) ((mapRec 6).mu / 2048) = some (3, frame) ∧ frame.raw = true
    ∧ recBad (works 7 0 6 0 {}) (mapRec 6) = false ∧ (rootOf (works 7 0 6 0 {}) ((mapRec 6).mu / 2048)).busy = false
    ∧ entPresent frame ((mapRec 6).mu % 2048) = true ∧ frame.lseq < (mapRec 6).jseq ∧ (mapRec 5).jseq ≤ frame.lseq
    ∧ recBad (works 7 0 6 0 {}) pastRec = true ∧ lostCkpt.start = entArg1 (work 7 0 6 0) ∧ snapReadable (works 7 0 6 0 { ckpts := [lostCkpt] }) lostCkpt = false := by
  decide +kernel

theorem witness_FtlWork_walk : WalkPasses (works 7 0 6 0 { jpages := [[mapRec 6]] }) ((mapRec 6).mu / 2048) none .write := by decide +kernel

theorem witness_FtlWork_evict : (∀ p ∈ (works 11 5 0 0 {}).ftl.frames, leafTenant (works 11 5 0 0 {}) p.2.leaf ≠ entArg0 (work 11 5 0 0))
    ∧ (works 11 0 0 0 {}).ftl.frames = [(3, frame)] ∧ residentOf (works 11 0 0 0 {}) frame.leaf = some (3, frame)
    ∧ leafTenant (works 11 0 0 0 {}) frame.leaf = entArg0 (work 11 0 0 0) ∧ (rootOf (works 11 0 0 0 {}) frame.leaf).dirty = false
    ∧ (works 11 0 0 0 {}).ftl.pageIns = [] ∧ leafTenant (works 11 0 0 0 { pageIns := [(9, paged false [])] }) 9 = entArg0 (work 11 0 0 0) := by decide +kernel

/-- A namespace whose last leaf is rebuilt. -/
def scanned (l : List Nat) : State :=
  let s := resident frame false { rebuilds := [{ ent := work 8 0xFFFFFF 0 0, left := l }], rebuilding := l }
  { s with ten := { nss := [(1, { lbas := 8, kind := .nvm, leafBase := 0xFFFFFF, leafCount := 1 })] } }

theorem witness_FtlWork_rebuild : (scanned []).ftl.rebuilds = [{ ent := work 8 0xFFFFFF 0 0, left := [] }]
    ∧ nsOfRoot (scanned [0xFFFFFF]) 0xFFFFFF = some (1, { lbas := 8, kind := .nvm, leafBase := 0xFFFFFF, leafCount := 1 })
    ∧ (scanned [0xFFFFFF]).ftl.jbuf = [] ∧ (scanned [0xFFFFFF]).cpc.rus = [] := by decide +kernel

/-- A descriptor list of one entry in DRAM. -/
def granted (n : Byte) : State :=
  let s := works 9 0 dramBase 1 {}
  { s with mem := [(dramBase + 10, n)], ftl := { s.ftl with ring := {} } }

/-- The grant as the oldest entry, and a completion to post in DRAM. -/
def grant9 (n : Byte) : State := { granted n with ftl := { (granted n).ftl with ring := { fetched := [(0, work 9 0 dramBase 1)] } } }
def posted : State := wr (wr64 { granted 4 with ftl := { (granted 4).ftl with ring := { done := [leBytes 16 77] } } } 0x0E 0x1014 dramBase) 0x0E 0x1008 1

theorem witness_FtlWork_bus : (ringTake (grant9 4).ftl.ring 9).map (·.2) = some (granted 4).ftl.ring
    ∧ (busRead (granted 4) ⟨0x3A0, 0⟩ (entArg1 (work 9 0 dramBase 1)) (16 * entArg2 (work 9 0 dramBase 1))).1 = .ok
    ∧ (busRead (granted 4) ⟨0x3A0, 0⟩ dramBase 16).2.2 = granted 4
    ∧ leNat (((busRead (granted 4) ⟨0x3A0, 0⟩ dramBase 16).2.1.drop 8).take 4) * 4 = 1048576
    ∧ leNat (((busRead (granted 3) ⟨0x3A0, 0⟩ dramBase 16).2.1.drop 8).take 4) * 4 < 1048576
    ∧ (ringTake (works 10 0 0 0 { hmbMem := [(1, 2)] }).ftl.ring 10).isSome ∧ (ringTake (works 6 0 0 0 { ckpt := some { number := 3, start := 4 } }).ftl.ring 6).isSome
    ∧ (busRead (granted 4) ⟨0x3A0, 0⟩ dramBase 4096).1 = .ok ∧ (busRead (granted 4) ⟨0x3A0, 0⟩ dramBase 4096).2.2 = granted 4 := by
  decide +kernel

theorem witness_FtlWork_post : posted.ftl.ring.done = [leBytes 16 77] ∧ posted.ftl.ring.stopped = false ∧ posted.dev.fault = false
    ∧ ¬ RingFull posted 0x0E ∧ RingFull (wr posted 0x0E 0x1020 1) 0x0E
    ∧ baseAt posted 0x0E 0x1014 = dramBase ∧ (busWrite posted ⟨0x3A0, 0⟩ dramBase (leBytes 16 77)).1 = .ok
    ∧ (busWrite posted ⟨0x3A0, 0⟩ dramBase (leBytes 16 77)).2.ftl = posted.ftl := by decide +kernel

/-! ### Media management -/

/-- A die set of eight dies on eight channels with four units, in the geometry of 4 planes, 3 pages to a word line and 12 to a block. -/
def dset8 : DieSet := { members := (List.range 8).map fun k => (k * 16, false, false), firstRu := 0, rus := 4 }
def plant (c : Cpc) : State :=
  wr (wr (wr { area (up [0x0C, 0x0F, 0x1B, 0x20]) with cpc := { c with dsets := [(0, dset8)] }, bpm := { chunks := [(0, { owner := 0, cls := 4, internal := false, live := [(0, 1)] })] } }
    0x0F 0x104 0xC1C) 0x0F 0x108 0x10005) 0x1B 0x104 0xFF8200

/-- Unit 1, open, with its row 2 taking slots. -/
def mems (b : Nat) : List RuMember := (List.range 8).map fun k => { die := k * 16, block := b, skip := false }
def open1 (w : Row) : Ru := { st := .opened, tenant := 5, ruh := 3, members := mems 1, nextRow := 3, open_ := [(2, w)], eraseCnt := 7 }
def leafItem : Item := { tenant := 5, ruh := 3, src := .leaf 77, content := .pad }
def filling (w : Row) (q : List Item) : State := plant { rus := [(1, open1 w)], opens := [(openKey 5 3 0, 1)], queue := q, rot := [(5 * 16 + 3, 0)] }

theorem witness_RowsFill : (takeFirst (fun x : Item => decide (x.tenant = 5) && decide (x.ruh = 3)) (filling { fill := 46 } [leafItem]).cpc.queue).isSome = true
    ∧ ruFor (filling { fill := 46 } [leafItem]) leafItem = some 1 ∧ fillingRow (open1 { fill := 46 }) = some 2
    ∧ (sealItem (filling { fill := 46 } [leafItem]) leafItem).map (·.1) = some .pad ∧ 46 + 1 < unitSlots (filling { fill := 46 } [leafItem]) (open1 {})
    ∧ dataMembers (open1 {}) 2 = [0, 1, 3, 4, 5, 6, 7]
    ∧ ruFor (plant { queue := [leafItem] }) leafItem = none ∧ allocating (plant { queue := [leafItem] }) leafItem = false
    ∧ mayAlloc (plant { queue := [leafItem], stopAlloc := [5] }) 5 3 = false ∧ itemSet (plant { queue := [leafItem] }) leafItem = 0
    ∧ mayAlloc (plant { queue := [leafItem], rus := [(0, { st := .retired }), (2, { eraseCnt := 3 }), (3, { eraseCnt := 9 })] }) 5 12 = true
    ∧ (Tbl.find (plant { rus := [(0, { st := .retired }), (2, { eraseCnt := 3 }), (3, { eraseCnt := 9 })] }).cpc.dsets 0).map (lowestFree (plant { rus := [(0, { st := .retired }), (2, { eraseCnt := 3 }), (3, { eraseCnt := 9 })] })) = some [1]
    ∧ ruWidth (ruAt (plant {}) 1) = 8 ∧ (∀ m ∈ (ruAt (plant {}) 1).members, m.skip = false ∧ isBad (plant {}) m.die m.block = false)
    ∧ rowOf (filling { fill := 46 } []) 1 2 = some { fill := 46 } ∧ rowOf (filling { fill := 46, full := true } []) 1 2 = some { fill := 46, full := true }
    ∧ ((filling { fill := 46 } [leafItem]).cpc.opens.any fun p => decide (p.1 / 64 = 5 * 16 + 3) && descBroken (filling { fill := 46 } [leafItem]) p.2) = false
    ∧ leafItem.buf = 0 ∧ (setRus dset8).any (descBroken (plant {})) = false
    ∧ { plant { queue := [leafItem] } with flash := { withdraw := true } }.flash.withdraw = true
    ∧ ruFor (plant { queue := [leafItem], rus := [(1, { st := .erasing })], opens := [(openKey 5 3 0, 1)] }) leafItem = none
    ∧ allocating (plant { queue := [leafItem], rus := [(1, { st := .erasing })], opens := [(openKey 5 3 0, 1)] }) leafItem = true := by decide +kernel

/-- A closed unit of tenant 5 with one valid MU. -/
def user (mu : Nat) : Content := .user 1 mu 5 0 1 (crc32c []) []
def closedRu (r : Ru) : Ru := { r with st := .closed, tenant := 5, ruh := 3, members := mems 1 }
def reclaim (r : Ru) : State :=
  { plant { rus := [(1, closedRu r)] } with
    ten := { nss := [(1, { owner := 5, lbas := 4096, leafBase := 0 })] }, flash := { cells := [(puaMk 0 0 1 0 0, user 9)] } }

theorem witness_UnitsAreReclaimed : ((reclaim {}).cpc.rus.any fun p => p.2.tenant = 5 && descBroken (reclaim {}) p.1) = false
    ∧ ((reclaim {}).cpc.rus.any fun p => p.2.st = .victim && p.2.tenant = 5 && !p.2.wear) = false
    ∧ tenantMismatch { reclaim {} with flash := { cells := [(puaMk 0 0 1 0 0, .user 1 9 6 0 1 0 [])] } } (closedRu { valid := [puaMk 0 0 1 0 0] }) = true
    ∧ (plant { nextVictim := [1], rus := [(1, closedRu {})] }).cpc.nextVictim.find? (fun j => (ruAt (plant { rus := [(1, closedRu {})] }) j).st = .closed) = some 1
    ∧ sysNeeded (plant { rus := [(1, { closedRu {} with st := .victim })] }) { closedRu {} with st := .victim } = false
    ∧ (ruAt (plant { rus := [(1, { st := .opened, readMax := 100000 })] }) 1).open_ = [] ∧ (reclaim {}).cpc.nextVictim = [] ∧ headroom (reclaim {}) 5 ≤ (freeTgt (reclaim {}) 5 : Int)
    ∧ bestVictims (reclaim { valid := [puaMk 0 0 1 0 0] }) 5 = [1] ∧ tenantMismatch (reclaim {}) (closedRu { valid := [puaMk 0 0 1 0 0] }) = false
    ∧ (contentGmu (reclaim {}) (user 9)).isSome = true
    ∧ relocsSafe (plant { rus := [(1, { closedRu {} with st := .victim })] }) 1 = true
    ∧ rdF (plant {}) 0x0F 0x134 15 0 = 256
    ∧ ((setRus { firstRu := 0, rus := 4 }).map fun i => (ruAt (reclaim { eraseCnt := 257 }) i).eraseCnt).foldl max 0 = 257
    ∧ ((setRus { firstRu := 0, rus := 4 }).filter fun i => (ruAt (reclaim { eraseCnt := 257 }) i).st = .closed) = [1]
    ∧ rdF (reclaim { readMax := 100000 }) 0x0F 0x144 23 0 ≤ (ruAt (reclaim { readMax := 100000 }) 1).readMax
    ∧ (ruAt (filling { fill := 46 } []) 1).open_ ≠ [] := by decide +kernel

/-- A fetched work entry of CPC, and a completion ring that is full. -/
def job (opc a0 a1 : Nat) (s : State) : State :=
  wr { s with cpc := { s.cpc with ring := { fetched := [(0, work opc a0 a1 dramBase)] } } } 0x0F 0x1020 1

theorem witness_CoppiceWork : RingFull (job 1 0 0 (plant {})) 0x0F ∧ ¬ RingFull (plant {}) 0x0F
    ∧ ([1, 2, 3, 4, 5, 6, 7, 8].all fun k => (ringTake (job k 0 0 (plant {})).cpc.ring k).isSome) = true
    ∧ rdF (wr (plant {}) 0x04 0x104 4) 0x04 0x104 2 0 ≠ 0 ∧ rdF (plant {}) 0x04 0x104 2 0 = 0 ∧ (plant {}).dev.fault = false
    ∧ 16 ∉ (plant {}).cpc.retiredDies ∧ 16 ∈ (plant { retiredDies := [16] }).cpc.retiredDies
    ∧ (job 5 0 0 (plant { sumRun := some { ent := [], count := 0, pages := 1 } })).cpc.sumRun.isSome = true ∧ entArg0 (work 8 0xFFFFFFFF 0 0) = 0xFFFFFFFF
    ∧ (mems 1).any (fun m => decide (m.die = 16) && !m.skip) = true
    ∧ (ruAt (plant { rus := [(1, { closedRu {} with ruh := ruhFlush })] }) 1).ruh = ruhFlush := by decide +kernel

/-- A die-set entry in memory that DRAM returns. -/
def dset0 : State :=
  let s := wr64 (wr { plant {} with cpc := {} } 0x04 0x104 4) 0x0F 0x118 dramBase
  { setBark s 0x1B 0 ⟨0, 0x3FFF0000, 0xFFFFFFFF, 0x9A00FFFF⟩ with
    dmc := { tstate := 3, valid := [(0, true)] }, mem := [(dramBase, 8), (dramBase + 1, 1), (dramBase + 4, 1), (dramBase + 8, 2)] }

theorem witness_CoppiceWork_init : busRead dset0 ⟨0x3A1, 0⟩ dramBase 256 = (.ok, memReadN dset0 dramBase 256, dset0)
    ∧ (Word.fld (rd dset0 0x0F 0x118) 31 6 * 64 + rdF dset0 0x0F 0x11C 15 0 * 2 ^ 32 + 256 * 0) = dramBase
    ∧ 8 ≤ (dsetFrom { dset0 with flash := { dies := (List.range 8).map fun k => (k, idle) } } 0 (memReadN dset0 dramBase 256)).present
    ∧ (dsetFrom dset0 0 (memReadN dset0 dramBase 256)).present < 8 := by decide +kernel

def jobPost : State := wr64 { dset0 with cpc := { dset0.cpc with ring := { done := [leBytes 16 77] } } } 0x0F 0x1014 dramBase

theorem witness_CoppiceWork_post : (busWrite jobPost ⟨0x3A1, 0⟩ (baseAt jobPost 0x0F 0x1014 + rdF jobPost 0x0F 0x101C 11 0 * 16) (leBytes 16 77)).1 = .ok
    ∧ ¬ RingFull jobPost 0x0F := by decide +kernel

theorem witness_TenantReservations : Admits (plant {}) core0 0x0F (0x2000 + 16 * 511) 4 ∧ Admits (plant {}) core0 0x0F (0x2008 + 16 * 511) 0x4020
    ∧ rsvOwed (wr (plant {}) 0x0F (0x2000 + 16 * 511) (4 &&& 0x3FFFF)) ≤ freeCount (plant {})
    ∧ freeCount (plant {}) < rsvOwed (wr (plant {}) 0x0F (0x2000 + 16 * 511) (5 &&& 0x3FFFF)) ∧ rd (plant {}) 0x0F 0x28 = 0 := by decide +kernel

/-- Rings in DRAM of the four engines, each with an entry of bytes zero but for its opcode. -/
def ringed : State :=
  let s := { dset0 with blk := [0x0A, 0x0C, 0x0E, 0x0F, 0x1B, 0x20].map fun r => (r, ready), mem := [(dramBase, 4)] }
  [0x0A, 0x0E, 0x0F, 0x20].foldl (fun s r => wr64 s r 0x1000 dramBase) s

theorem witness_WorkRings : OneEntry ringed core0 ⟨0x3A0, 0⟩ 0x0E 32 1 (memReadN ringed dramBase 32)
    ∧ OneEntry ringed core0 ⟨0x3A1, 0⟩ 0x0F 32 1 (memReadN ringed dramBase 32) ∧ OneEntry ringed core0 secWho 0x0A 64 1 (memReadN ringed dramBase 64)
    ∧ ftlBad ringed (memReadN ringed dramBase 32) = 0 ∧ cpcBad (wr ringed 0x0F 0x114 9) (memReadN ringed dramBase 32) = 0 := by decide +kernel

/-- Bytes as memory cells from an address on. -/
def cellsAt (a : Nat) (l : List Byte) : List Host.Cell :=
  ((List.range l.length).map fun k => (a + k, l.getD k 0)).filter fun p => p.2 ≠ 0

/-- An erase as a ring entry of channel 31, and a GCM entry of SEC. -/
def eraseEntry : List Byte :=
  leBytes 2 6 ++ leBytes 2 9 ++ leBytes 2 0 ++ [0xF, 1] ++ leBytes 8 (puaMk 511 0 4095 0 0) ++ leBytes 8 dramBase ++ leBytes 8 0
def gcmEntry : List Byte :=
  leBytes 4 1 ++ leBytes 4 0 ++ leBytes 8 dramBase ++ leBytes 8 dramBase ++ leBytes 4 64 ++ leBytes 36 0
def openBark (s : State) (l : List Byte) : State :=
  { setBark s 0x1B 0 ⟨0, 0x3FFF0000, 0xFFFFFFFF, 0x9A00FFFF⟩ with dmc := { tstate := 3, valid := [(0, true)] }, mem := cellsAt dramBase l }
def fchRing : State := wr64 (openBark (fine false idle) eraseEntry) 0x3F 0x1000 dramBase

theorem witness_WorkRings_fch : OneEntry fchRing core0 ⟨0x380 + 31, 0⟩ (fchRgn 31) 32 1 eraseEntry ∧ opBad (wr fchRing 0x3F 0x100C 1) 31 (parseOp eraseEntry) = 0
    ∧ opBad (wr fchRing 0x3F 0x100C 1) 31 (parseOp (leBytes 32 99)) ≠ 0 ∧ (blkSt fchRing 0x3F).st ≠ .draining
    ∧ (parseOp eraseEntry).opc ≠ 11 ∧ Accepts fchRing 31 (parseOp eraseEntry) := by decide +kernel

def secRing : State := wr64 (openBark { ringed with trunk := {} } gcmEntry) 0x0A 0x1000 dramBase

theorem witness_WorkRings_sec : OneEntry secRing core0 secWho 0x0A 64 1 gcmEntry ∧ secBad (wr secRing 0x0A 0x100C (1 &&& 0xFFF)) gcmEntry = 0
    ∧ secBad (wr ringed 0x0A 0x100C (1 &&& 0xFFF)) (memReadN ringed dramBase 64) = 3 ∧ ringSize ringed 0x0A ≤ Word.fld (100 : Word) 11 0 := by decide +kernel

/-! ### Cipher and public-key engines -/

/-- SEC and PKE ready with a generator, and memory that DRAM returns. -/
def secUp (b : Sec) (l : List Byte) : State :=
  { openBark (wr (up [0x0A, 0x0B, 0x1B]) 0x1B 0x104 0xFF8200) l with sec := { b with drbgOk := true } }

/-- The word of a key operation: opcode, kind, slot, KEK and GCM slot. -/
def kopW (op ty slot kek g : Nat) : Word := w32 (op + ty * 16 + slot * 64 + kek * 2 ^ 18 + g * 2 ^ 22)
def counting (n : Nat) : List Byte := (List.range n).map fun k => BitVec.ofNat 8 k
def srcAt (a : Nat) (s : State) : State := wr64 s 0x0A 0x2004 a
def kek0 : Sec := { kek := [(0, { key := counting 32 })] }

/-- The bytes 0 to 63, wrapped under the bytes 0 to 31. -/
def wrapped64 : List Byte := beBytes 72
  244797520180074546506567804085164646697427604832733906241233947913956359613549084575715696396502153276657555470845914483948079138678651177128127894482933064509207650326011627

theorem test_unwrap : keyUnwrap (counting 32) wrapped64 = some (counting 64) := by decide +kernel
theorem test_unwrap_fails : keyUnwrap (counting 32) (List.replicate 72 0) = none := by decide +kernel

/-- A key operation that runs, with what the registers name. -/
def running (w : Word) (s : State) : State := { s with sec := { s.sec with kop := some (kopOf s w 0) } }

theorem witness_KeysLoad_write : (∀ op : Fin 12, KopFree (secUp {} []) core0 (Word.setFld (kopW 0 0 4095 0 0) 3 0 op.val))
    ∧ Admits (secUp { kop := some { op := 1, word := 1 } } []) core0 0x0A 0x2000 (kopW 1 0 5 0 0) ∧ rd (secUp {} []) 0x0A 0x28 = 0 := by decide +kernel

theorem kopRuns_running (s : State) (w : Word) : KopRuns (running w s) (Word.fld w 3 0) w :=
  ⟨kopOf s w 0, rfl, rfl, by simp [kopOf, w32], rfl⟩

theorem witness_KeysLoad_gen : (∀ op : Fin 12, ∀ ty : Fin 3, Word.fld (kopW op ty 5 0 0) 3 0 = op ∧ kopTtype (kopW op ty 5 0 0) = ty ∧ kopTarget (kopW op ty 5 0 0) = true)
    ∧ kopTarget (kopW 1 2 0 0 0) = false ∧ (secUp {} []).sec.drbgOk = true ∧ State.reset.sec.drbgOk = false
    ∧ inSram (kopSrc (running (kopW 2 0 5 0 0) (secUp {} []))) 64 = false := by decide +kernel

/-- Crown SRAM with the bytes of a key, which the Bark lets SEC read. -/
def sramKey (l : List Byte) : State :=
  { setBark (secUp {} []) 0 0 ⟨0x50000000, 0x3FFF0000, 0x507FFFC0, 0x9A000000⟩ with
    mem := cellsAt 0x50000000 l, blk := [0x00, 0x0A, 0x1B].map fun r => (r, ready) }
def clearing (n : Nat) (l : List Byte) : State := running (kopW 2 (if n = 64 then 0 else if n = 48 then 1 else 2) 5 0 0) (srcAt 0x50000000 (sramKey l))

theorem witness_KeysLoad_clear : (∀ n ∈ [32, 48, 64], inSram (kopSrc (clearing n (counting n))) n = true
      ∧ busRead (clearing n (counting n)) secWho (kopSrc (clearing n (counting n))) n = (.ok, counting n, clearing n (counting n)))
    ∧ halvesEqual (counting 64) = false ∧ halvesEqual (List.replicate 64 0) = true
    ∧ busRead (clearing 64 []) secWho 0x50000000 64 = (.ok, List.replicate 64 0, clearing 64 []) := by decide +kernel

/-- An operation whose source is a blob in DRAM. -/
def blobOp (w : Word) (b : Sec) (l : List Byte) : State := running w (srcAt dramBase (secUp b l))

theorem witness_KeysLoad_unwrap : (∀ b ∈ [wrapped64, List.replicate 72 0],
      busRead (blobOp (kopW 3 0 5 0 0) kek0 b) secWho (kopSrc (blobOp (kopW 3 0 5 0 0) kek0 b)) 72 = (.ok, b, blobOp (kopW 3 0 5 0 0) kek0 b))
    ∧ (kekSlot (blobOp (kopW 3 0 5 0 0) kek0 wrapped64) (kopKek (kopW 3 0 5 0 0))).key = counting 32 ∧ kopKek (kopW 3 2 5 1 0) ≠ 0
    ∧ (kekSlot (blobOp (kopW 3 0 5 1 0) kek0 []) (kopKek (kopW 3 0 5 1 0))).key = []
    ∧ busRead (blobOp (kopW 0xB 0 5 0 0) kek0 wrapped64) secWho dramBase 161 = (.ok, wrapped64 ++ List.replicate 89 0, blobOp (kopW 0xB 0 5 0 0) kek0 wrapped64)
    ∧ busRead (blobOp (kopW 0xB 0 5 0 0) kek0 (wrapped64 ++ wrapped64)) secWho dramBase 161
        = (.ok, wrapped64 ++ wrapped64 ++ List.replicate 17 0, blobOp (kopW 0xB 0 5 0 0) kek0 (wrapped64 ++ wrapped64))
    ∧ busRead (blobOp (kopW 0xB 0 5 0 0) kek0 []) secWho dramBase 161 = (.ok, List.replicate 161 0, blobOp (kopW 0xB 0 5 0 0) kek0 []) := by decide +kernel

/-- A key record of TCG's kind under GCM slot 3, with no associated data. -/
def gcm3 : Sec := { gcm := [(3, { key := counting 32 })] }
def imported : List Byte :=
  let p := gcmEnc (counting 32) (counting 12) [] (counting 48)
  counting 12 ++ p.2 ++ [0, 0] ++ p.1
def importing : State := blobOp (kopW 4 1 7 0 3) gcm3 imported

theorem witness_KeysLoad_import : gcmTenant importing (kopGslot (kopW 4 1 7 0 3)) = targetTenant importing (kopW 4 1 7 0 3)
    ∧ (gcmSlot importing (kopGslot (kopW 4 1 7 0 3))).key ≠ [] ∧ (gcmSlot importing 3).cnt < 2 ^ 32 ∧ (gcmSlot importing 4).key = []
    ∧ busRead importing secWho (kopSrc importing) 30 = (.ok, imported.take 30, importing)
    ∧ busRead importing secWho (kopSrc importing + 30) 48 = (.ok, imported.drop 30, importing)
    ∧ gcmDec (counting 32) ((imported.take 30).take 12) [] (imported.drop 30) (((imported.take 30).drop 12).take 16) = some (counting 48)
    ∧ gcmDec (counting 32) ((imported.take 30).take 12) [] (imported.drop 29) (((imported.take 30).drop 12).take 16) = none
    ∧ gcmTenant { importing with ten := { keySlots := [(4, [0, 8, 200, 1])] } } 200 ≠ targetTenant { importing with ten := { keySlots := [(4, [0, 8, 200, 1])] } } (kopW 4 1 7 0 200) := by decide +kernel

/-- A loaded XTS slot 5. -/
def slot5 (x : XtsSlot) : Sec := { kek0 with xts := [(5, { x with cur := counting 64 })] }
def nsAt (n : Ns) (s : State) : State := { s with ten := { nss := [(1, n)] } }
def wrapping : State := running (kopW 5 0 5 0 0) (wr64 (secUp (slot5 {}) []) 0x0A 0x200C dramBase)

theorem witness_KeysLoad_rest : slotMaterial wrapping (kopW 5 0 5 0 0) = some (counting 64, false) ∧ slotMaterial wrapping (kopW 5 0 6 0 0) = none
    ∧ kopDst wrapping = dramBase ∧ (busWrite wrapping secWho dramBase wrapped64).1 = .ok
    ∧ slotBound (secUp { bind := [(0, 5)] } []) (kopSlot (kopW 6 0 5 0 0)) = true ∧ slotBound (secUp {} []) 5 = false := by decide +kernel

/-- BIND_NS of namespace 1 that runs. -/
def binding (on : Bool) : State :=
  running (kopW 7 0 5 0 0) (wr (nsAt { owner := 0, lbas := 8, leafBase := 0 } (secUp (slot5 {}) [])) 0x0A 0x2014 (if on then 0x1000 else 0))

theorem witness_KeysTurnOver_bind : (∀ on ∈ [true, false], nsOf (binding on) (kopArg (binding on) % 4096 + 1) = some { owner := 0, lbas := 8, leafBase := 0 }
      ∧ (kopArg (binding on)).testBit 12 = on ∧ xtsTenant (binding on) 5 = 0 ∧ nuse (binding on) { owner := 0, lbas := 8, leafBase := 0 } = 0)
    ∧ nsOf (running (kopW 7 0 5 0 0) (secUp {} [])) (kopArg (running (kopW 7 0 5 0 0) (secUp {} [])) % 4096 + 1) = none := by decide +kernel

theorem witness_KeysTurnOver_rekey : KopFree (secUp (slot5 { gseq := true }) []) core0 (kopW 8 0 5 0 0) ∧ flushHolds (secUp (slot5 {}) []) = false
    ∧ (xtsSlot (secUp (slot5 { gseq := true }) []) 5).gseq = true ∧ (xtsSlot (secUp (slot5 {}) []) 6).cur = [] ∧ kopTtype (kopW 8 1 5 0 0) ≠ 0
    ∧ kopSrc (running (kopW 8 0 5 0 0) (secUp (slot5 {}) [])) = 0 ∧ kopSrc (blobOp (kopW 8 0 5 0 0) (slot5 {}) wrapped64) ≠ 0
    ∧ busRead (blobOp (kopW 8 0 5 0 0) (slot5 {}) wrapped64) secWho dramBase 72 = (.ok, wrapped64, blobOp (kopW 8 0 5 0 0) (slot5 {}) wrapped64)
    ∧ epochFar (secUp (slot5 {}) []) 5 = false ∧ (secUp (slot5 {}) []).cpc.rus = []
    ∧ (xtsSlot (secUp (slot5 { prev := [1] }) []) 5).prev ≠ [] ∧ stillPaused (secUp (slot5 { paused := true }) []) 0 5 = false
    ∧ prevInUse { secUp (slot5 { prev := [1], ref := 9 }) [] with cpc := { rus := [(1, { st := .closed, epoch := 8 })] } } 5 = true
    ∧ prevInUse { secUp (slot5 { prev := [1], ref := 9 }) [] with cpc := { rus := [(1, { st := .closed, epoch := 9 })] } } 5 = false
    ∧ secBusy (secUp { slot5 {} with queues := [(3, [⟨0, true, 5, 0, 0, [], counting 64⟩])] } []) 5 = true ∧ secBusy (secUp (slot5 {}) []) 5 = false
    ∧ (secUp { kop := some { op := 8, word := 8, status := 11 } } []).sec.kop = some { op := 8, word := 8, status := 11 }
    ∧ prevCopies (secUp (slot5 { prev := [1], gseq := true }) []) = [] := by decide +kernel

/-- A ring entry of SEC: opcode, tag, slot, source, destination, length, associated data and initial vector. -/
def secEntry (opc slot len : Nat) (iv : List Byte) : List Byte :=
  [BitVec.ofNat 8 opc, 0] ++ leBytes 2 7 ++ leBytes 2 slot ++ [0, 0] ++ leBytes 8 dramBase ++ leBytes 8 dramBase ++ leBytes 4 len ++ leBytes 4 0 ++ leBytes 8 0
    ++ (if iv = [] then List.replicate 12 0 else iv) ++ leBytes 8 0 ++ leBytes 4 0
def ringWith (b : Sec) (d l : List Byte) : State := wr (secUp { b with ring := { fetched := [(0, d)] } } l) 0x0A 0x1020 1
def owned : State := wr { secUp (slot5 {}) [] with ten := { keySlots := [(4, [0, 8, 0, 0])] } } 0xC 0x3410 4
def gcmMsg : List Byte := let p := gcmEnc (counting 32) (counting 12) [] (counting 16); p.1 ++ p.2

theorem witness_CipherRequests : xtsStatus (secUp (slot5 {}) []) 0 5 = 0 ∧ resOut (secUp (slot5 {}) []) 4 0x0A 11 = false
    ∧ keyAccess owned 0 (xtsTenant owned 5) = false
    ∧ keyAccess (secUp {} []) 0 (xtsTenant (secUp {} []) 5) = true ∧ (secUp {} []).sec.waits = []
    ∧ (∀ i : Fin 6, 64 ≤ (Tbl.getD (secUp { slot5 {} with queues := (List.range 12).map fun q => (q, List.replicate 64 ⟨0, true, 5, 0, 0, [], []⟩) } []).sec.queues i []).length)
    ∧ 2 ^ 36 < (xtsSlot (secUp (slot5 { cnt := 2 ^ 36 }) []) 5).cnt + (List.replicate 4096 (0 : Byte)).length / 4096
    ∧ (secNext [⟨0, true, 5, 2, 0, [], []⟩, ⟨1, true, 5, 1, 0, [], []⟩]).map (fun p => p.1.id) = some 1 := by decide +kernel

theorem witness_CipherRequests_gcm : RingFull (ringWith gcm3 (secEntry 1 3 16 []) []) 0x0A ∧ (ringTake (ringWith gcm3 (secEntry 1 3 16 []) []).sec.ring 1).isSome = true
    ∧ seSlot (secEntry 1 3 16 []) = 3 ∧ gcmStatus (ringWith gcm3 (secEntry 1 3 16 []) []) 3 = 0
    ∧ busRead (ringWith gcm3 (secEntry 1 3 16 []) []) secWho (seAad (secEntry 1 3 16 [])) (seAadLen (secEntry 1 3 16 [])) = (.ok, [], ringWith gcm3 (secEntry 1 3 16 []) [])
    ∧ busRead (ringWith gcm3 (secEntry 1 3 16 []) []) secWho (seSrc (secEntry 1 3 16 [])) 16 = (.ok, List.replicate 16 0, ringWith gcm3 (secEntry 1 3 16 []) [])
    ∧ (busWrite (ringWith gcm3 (secEntry 1 3 16 []) []) secWho (seDst (secEntry 1 3 16 [])) (List.replicate 32 5)).1 = .ok
    ∧ busRead (ringWith gcm3 (secEntry 2 3 16 (counting 12)) gcmMsg) secWho dramBase 32 = (.ok, gcmMsg, ringWith gcm3 (secEntry 2 3 16 (counting 12)) gcmMsg)
    ∧ gcmDec (counting 32) (seIv (secEntry 2 3 16 (counting 12))) [] (gcmMsg.take 16) (gcmMsg.drop 16) = some (counting 16)
    ∧ gcmDec (counting 32) (seIv (secEntry 2 3 16 (counting 12))) [] (gcmMsg.take 16) (gcmMsg.drop 17) = none
    ∧ (ringTake (ringWith (slot5 {}) (secEntry 3 5 4096 []) []).sec.ring 3).isSome = true ∧ xtsStatus (ringWith (slot5 {}) (secEntry 3 5 4096 []) []) 0 5 = 0
    ∧ (ringTake (ringWith (slot5 {}) (secEntry 4 5 4096 []) []).sec.ring 4).isSome = true := by decide +kernel

theorem witness_CipherRequests_xts : busRead (ringWith (slot5 {}) (secEntry 4 5 64 []) []) secWho dramBase 64 = (.ok, List.replicate 64 0, ringWith (slot5 {}) (secEntry 4 5 64 []) [])
    ∧ (busWrite (ringWith (slot5 {}) (secEntry 4 5 64 []) []) secWho dramBase (List.replicate 64 3)).1 = .ok ∧ seLen (secEntry 4 5 64 []) / 4096 = 0
    ∧ 2 ^ 36 < (xtsSlot (secUp (slot5 { cnt := 2 ^ 36 }) []) 5).cnt + seLen (secEntry 3 5 4096 []) / 4096
    ∧ gcmStatus (secUp { gcm := [(3, { key := [1], cnt := 2 ^ 32 })] } []) 3 = 3 ∧ gcmStatus (secUp {} []) 3 = 2 ∧ xtsStatus (secUp {} []) 0 5 = 2 := by decide +kernel

/-- A curve point in the operand registers. -/
def pkeWith (d x y : Nat) (s : State) : State := setPke (setPke (setPke s 0x1000 d) 0x1080 x) 0x10C0 y

theorem witness_RandomAndPublicKeys : Word.bit (rd (secUp {} []) 0x0A 0x2064) 3 = false ∧ (secUp { gens := 2 ^ 20 } []).sec.drbgOk = true ∧ (pkeScalar (secUp {} []) 0x101).toOption = none
    ∧ (pkeScalar (pkeWith 7 0 0 (secUp {} [])) 0x1).toOption = some 7 ∧ (pkeScalar (secUp { pke := [(2, (false, 9))] } []) 0x141).toOption = some 9
    ∧ Admits (secUp { pkeOp := some { op := 1, curve := false, status := 0 } } []) core0 0x0B 0x100 1 ∧ Word.bit (rd (wr (secUp {} []) 0x0A 0x2064 8) 0x0A 0x2064) 3 = true ∧ Admits (secUp {} []) core0 0x0A 0x2068 1
    ∧ (regAdmit (secUp {} []) 0x0A 0x2060 (rdAcc core0 0x0A 0x2060)).isNone = true ∧ Admits (secUp {} []) core0 0x0B 0x10C 0x80
    ∧ (∀ op : Fin 7, op.val ≠ 0 → PkeFree (secUp {} []) core0 (w32 (op + 16))) ∧ w32 (3 + 16) = Word.setFld 16 3 0 3 ∧ pkeKsrc 0x1F = false
    ∧ pkeNum (pkeWith 1 p256.gx p256.gy (secUp {} [])) 0x1000 = 1 ∧ pkeNum (pkeWith 1 p256.gx p256.gy (secUp {} [])) 0x1080 = p256.gx
    ∧ pkePoint p256 p256.gx p256.gy = 0 ∧ pkePoint p384 0 0 = 16 ∧ pkeD p256 p256.n = 22 ∧ pkeD p384 1 = 0 ∧ pkeKslot 0xE4 = 7 ∧ pkeKslot 0x24 < 2
    ∧ pkeKsrc 0x145 = true ∧ pkeP384 0x145 ≠ true ∧ (Tbl.find (secUp { pke := [(2, (true, 9))] } []).sec.pke (pkeKslot 0x145)) = some (true, 9) := by decide +kernel

/-! ### The Heartwood window -/

/-- Port 0 in CXL mode, a volatile slice 0 and a persistent slice 1 of tenant 0 in its layout, mapped from address 0 by two decoders. -/
def winUp (w : Win) : State :=
  let s := openBark (wr (up [0x1B]) 0x1B 0x104 0xFF8200) []
  let s := wr (wr (wr64 (wr (wr s 0x18 0x100 2) 0x18 0x11C 5) 0x18 0x104 dramBase) 0x18 0x1000 1) 0x18 0x1008 3
  { s with
    ports := [(0, { pstate := .up, cxl := true, dlActive := true })]
    win := { w with state := 1, decs := [(0, { committed := true, size := 1 }), (1, { committed := true, base := 2 ^ 28, dpaBase := 1, size := 1 })], layouts := [(0, ⟨[0], [1]⟩)] } }

/-- A Clean granule of the volatile slice, and line 65 of it. -/
def winClean (w : Win) : State := winUp { w with grans := [(0, { st := .clean })] }

theorem winClean_line : PlainLine (winClean {}) (winWho (winClean {}) 65) (winAddr (winClean {}) 65) false := by
  constructor <;> decide +kernel

theorem winClean_store (d : List Byte) (hd : d.length = 64) :
    WinStores (winClean {}) 65 d (storedLine (winClean {}) (winAddr (winClean {}) 65) d) :=
  winStores_plain (by constructor <;> decide +kernel) hd

/-- Line 65 held by port 5 in state A, or by ports 1 and 5 in state S. -/
def heldA : Win := { sf := [(65, { a := true, holders := [5], tenant := 0 })] }
def heldS : Win := { sf := [(65, { a := false, holders := [1, 5], tenant := 0 })] }

theorem witness_WindowRequests : WinQuiet (winClean {}) 0 0x1040 65 ∧ sfOthers (winClean {}) 65 0 = [] ∧ SfPlace (winClean {}) 65 (portTenant (winClean {}) 0)
    ∧ WinQuiet (winClean heldA) 0 0x1040 65 ∧ sfOthers (winClean heldA) 65 0 = [5] ∧ sfA (winClean heldA) 65 = true ∧ sfOthers (winClean heldS) 65 1 = [5] ∧ sfA (winClean heldS) 65 = false
    ∧ sfOthers (winClean heldA) 65 5 = [] ∧ (sfOf (winClean heldA) 65).map (·.holders) = some [5] := by decide +kernel

/-- 1,024 BISnps are out. -/
def snoopsFull : State := winClean { heldA with pends := [{ line := 99, snoop := .inv, left := List.replicate 1024 0 }] }

theorem witness_WindowRequests_more : cxlUp (winUp {}) 7 = false ∧ cxlCredit (winUp { owed := List.replicate 2048 ⟨0, 0, 0, .cmp⟩ }) 0 = false ∧ WinLinked (winUp {}) 0
    ∧ WinQuiet snoopsFull 0 0x1040 65 ∧ sfOthers snoopsFull 65 0 = [5] ∧ 1024 < bisnpOut snoopsFull + countOf (· < 8) [5] ∧ WinAdmitted (winClean {}) 65 ∧ WinAdmitted (winUp {}) (2 ^ 22) ∧ WinQuiet (winUp {}) 0 (2 ^ 28) (2 ^ 22)
    ∧ ¬ WinAdmitted (wr (winUp {}) 0x18 0x11C 0) (2 ^ 22) ∧ WinQuiet (wr (winUp {}) 0x18 0x11C 0) 0 (2 ^ 28) (2 ^ 22)
    ∧ hpaLine (winUp {}) 0 (2 ^ 29) = none ∧ rd (winUp {}) 0x18 0x28 = 0 ∧ cxlUp (winUp {}) 0 = true := by
  decide +kernel

theorem witness_WindowRequests_bytes : WinBytes (winClean {}) 65 (memReadN (winClean {}) (winAddr (winClean {}) 65) 64) ∧ WinBytes (winUp {}) (2 ^ 22) (List.replicate 64 0)
    ∧ WinStores (winClean {}) 65 ((([1, 2, 3] : List Byte) ++ List.replicate 64 0).take 64) (storedLine (winClean {}) (winAddr (winClean {}) 65) ((([1, 2, 3] : List Byte) ++ List.replicate 64 0).take 64)) :=
  ⟨winBytes_plain (by decide +kernel) winClean_line, .inl (by decide +kernel), winClean_store _ (by decide)⟩

/-- A tenant at its SF_MAX of one entry, which lies on another line. -/
def atMax : State := wr (winClean { sf := [(64, { a := true, holders := [5], tenant := 0 })] }) 0x18 0x2004 1

theorem witness_WindowRequests_max : WinQuiet atMax 0 0x1040 65 ∧ sfOf atMax 65 = none ∧ Tbl.sorted atMax.win.sf = true ∧ (∀ e ∈ atMax.win.sf, e.2.holders.length ≤ 24)
    ∧ sfMax atMax (portTenant atMax 0) ≤ sfUsed atMax (portTenant atMax 0) ∧ sfUsed atMax (portTenant atMax 0) ≠ 0 := by decide +kernel

/-- A snoop of line 65 that ports 2 and 5 or port 5 alone have to answer, for a read of port 0. -/
def snooped (k : Snoop) (l : List Nat) : State := winClean { heldA with pends := [{ line := 65, snoop := k, left := l }] }
def waitRd : WReq := { id := 0, holder := 0, mid := 0, tenant := 0, tag := 9, line := 65, kind := .rd, meta_ := .a }
def lastSnoop : State := winClean { heldA with pends := [{ line := 65, snoop := .inv, left := [5] }], queue := [waitRd] }

theorem witness_WindowSnoops : pendOf (winClean {}) 65 = none ∧ pendOf (snooped .inv [2, 5]) 65 = some { line := 65, snoop := .inv, left := [2, 5] }
    ∧ [2, 5].filter (· ≠ 5) ≠ [] ∧ (sfOf (snooped .data [2, 5]) 65).map (·.holders) = some [5] ∧ rd (snooped .inv [2, 5]) 0x18 0x28 = 0
    ∧ lastSnoop.win.sf.length < 16 ∧ sfUsed lastSnoop waitRd.tenant < sfMax lastSnoop waitRd.tenant ∧ lastSnoop.win.state ≠ 0
    ∧ hpaLine (winClean {}) 0 0x1040 = some 65 ∧ (65, 0) ∈ (winClean { saidI := [(65, 0)] }).win.saidI ∧ WinAdmitted (winClean {}) 65 := by decide +kernel

theorem lastSnoop_line : WinBytes lastSnoop 65 (memReadN lastSnoop (winAddr lastSnoop 65) 64) :=
  winBytes_plain (by decide +kernel) (by constructor <;> decide +kernel)

/-- A held write, a cap that lets nothing pass, and a grove that holds line 65 dirty. -/
def heldWr : WReq := { id := 0, holder := 0, mid := 0, tenant := 0, line := 65, kind := .wr, meta_ := .i, held := true }
def recalled : State :=
  { winClean { sf := [(65, { a := true, holders := [8, 5], tenant := 0 })], pends := [{ line := 65, snoop := .inv, left := [8, 5] }] } with
    grv := { dirty := [(0, 65, 3)], lines := [(65, List.replicate 64 7)] } }

theorem witness_WindowSnoops_held : WinAdmitted (winClean { queue := [heldWr] }) heldWr.line ∧ (Tbl.getD (winClean {}).ports heldWr.holder {}).dlActive = true ∧ (winClean {}).win.state = 1
    ∧ (∀ x, pendOf (winClean {}) 65 = some x → 8 ∉ x.left) ∧ (pendOf (winClean { queue := [{ heldWr with cross := true }], pends := [{ line := 65, snoop := .inv, left := [0] }] }) 65).map (·.left) = some [0] ∧ sfOf (winClean { queue := [heldWr] }) 65 = none
    ∧ (∀ r ∈ (wr (winUp { queue := [{ heldWr with line := 2 ^ 22 }] }) 0x18 0x11C 0).win.queue, r.held = true → ¬ WinAdmitted (wr (winUp { queue := [{ heldWr with line := 2 ^ 22 }] }) 0x18 0x11C 0) r.line)
    ∧ (pendOf recalled 65).map (·.left) = some [8, 5] ∧ gDirty recalled 0 65 = true ∧ gLine recalled 0 65 = some (List.replicate 64 7) ∧ WinAdmitted recalled 65
    ∧ gDirty { recalled with grv := {} } 0 65 = false := by decide +kernel

theorem witness_WindowSnoops_store : WinStores recalled 65 (List.replicate 64 7) (storedLine recalled (winAddr recalled 65) (List.replicate 64 7)) :=
  winStores_plain (by constructor <;> decide +kernel) (by decide)

theorem witness_WindowUpkeep_commit : (decOf { winUp {} with win := {} } 0 0).committed = false ∧ (decOf (winUp {}) 0 2).committed = false
    ∧ layoutNow (winUp {}) (portTenant (winUp {}) 3) = ⟨[0], [1]⟩ ∧ (decOf (winUp {}) 3 0).committed = false ∧ 256 ∈ [256, 512, 1024, 2048, 4096, 8192, 16384] := by decide +kernel

/-- A Dirty granule of the persistent slice, and a chunk of internal buffers. -/
def dirtyWin (w : Win) : State :=
  { area (winUp { w with grans := [(4096, { st := .dirty })], rate := 1 }) with
    blk := [0xC, 0x18, 0x1B].map fun r => (r, ready), bpm := { chunks := [(0, { owner := 0, cls := 3, internal := true, live := [(0, 1), (1, 1), (2, 1)] })] } }

/-- Where the snapshot goes, and the pools after that. -/
def trickleTo : Nat := ((bpmTry (dirtyWin {}) 0 3 true).1).getD 0
def trickleAt : State := (bpmTry (dirtyWin {}) 0 3 true).2

/-- The granule is Clean and marked. -/
def markedWin : State := { dirtyWin {} with win := { (dirtyWin {}).win with grans := [(4096, { st := .clean, retrickle := true })] } }

theorem witness_WindowUpkeep_trickle : firstMarked (dirtyWin { rate := 1 }) = none ∧ oldestDirty (dirtyWin {}) = some 4096 ∧ oldestDirty (winUp {}) = none
    ∧ sliceKey (dirtyWin {}) (granSlice 4096) = none
    ∧ bpmTry (dirtyWin {}) (ownerOf (dirtyWin {}) (sliceTen (dirtyWin {}) (granSlice 4096))) 3 true = (some trickleTo, trickleAt)
    ∧ dramMayAll trickleAt ⟨0x3A2, sliceTen (dirtyWin {}) (granSlice 4096)⟩ .write [(trickleTo, 65536)] = (true, trickleAt)
    ∧ Tbl.find (dirtyWin {}).win.snaps 4096 = none := by decide +kernel

theorem witness_WindowUpkeep_marked : oldestDirty markedWin = none ∧ firstMarked markedWin = some 4096 := by decide +kernel

/-- A snapshot whose 16 codewords are closed on NAND. -/
def closedSnap (n : Nat) : State :=
  { dirtyWin { snaps := [(4096, { buf := dramBase + 65536, gseq := 7 })] } with
    cpc := { sysDone := (List.range n).map fun k => (.backing 4096 k, 100 + k) }
    flash := { cells := (List.range n).map fun k => (100 + k, .backing 4096 k 7 0 0 0 []) } }

theorem witness_WindowUpkeep_complete : (snapPuas (closedSnap 16) 4096 7).length = 16 ∧ (snapPuas (closedSnap 15) 4096 7).length < 16
    ∧ (bufAt (closedSnap 16) (dramBase + 65536)).isSome = true ∧ (closedSnap 16).bpm.waiters = [] := by decide +kernel

/-- A CLOSED BACKING unit with the live copy of granule 4096. -/
def backed : State := { dirtyWin { bdir := [(4096, ⟨[puaMk 0 0 0 0 0], 7⟩)] } with cpc := { rus := [(0, { st := .closed, ruh := ruhBacking })], dsets := [(0, dset8)] } }

theorem witness_WindowUpkeep_mark : prevCopies backed = [] ∧ backingFree { backed with regs := [] } < 2 ∧ 2 ≤ backingFree (wr (wr (plant {}) 0x18 0x1008 3) 0x18 0x100 2)
    ∧ (backed.cpc.rus.filter fun p => p.2.ruh = ruhBacking && p.2.st = .closed).length = 1 := by decide +kernel

/-- A window that restores, and one granule copy with GSEQ 7 of 16 codewords without data. -/
def restoring (n crc : Nat) : State :=
  let s := winUp {}
  { wr64 (wr (wr s 0x0F 0x104 0xC1C) 0x0F 0x108 0x10005) 0x18 0x104 dramBase with
    win := {}, pwr := { cause := 0 }, blk := [0x0F, 0x18, 0x1B].map fun r => (r, ready)
    cpc := { rus := [(1, { st := .closed, ruh := ruhBacking, members := mems 1 })], dsets := [(0, dset8)] }
    flash := { cells := (List.range n).map fun k => (puaMk 0 0 1 0 k, .backing 4096 k 7 0 0 crc []) } }

theorem witness_WindowUpkeep_restore : (restoring 16 0).win.state = 0 ∧ isEnabled (restoring 16 0) 0x18 = true ∧ dramUp (restoring 16 0) = true ∧ lostGrans (restoring 16 0) = []
    ∧ scanCopies (restoring 0 0) = [] ∧ ledgerValid (restoring 0 0) = true ∧ ledgerValid { restoring 0 0 with pwr := {} } = false
    ∧ scanCopies (restoring 16 0) = [(4096, 7)] ∧ (copyData (restoring 16 (crc32c [])) 4096 7 []).isSome = true
    ∧ copyData (restoring 16 1) 4096 7 [] = none ∧ copyData (restoring 16 1) 4096 0 [] = none ∧ rd (restoring 16 1) 0x18 0x28 = 0 := by decide +kernel

theorem witness_WindowUpkeep_store (w : Win) : busWrite { restoring 16 0 with win := w } (winWho (restoring 16 0) (4096 * 1024)) (winAddr (restoring 16 0) (4096 * 1024)) []
    = (.ok, { restoring 16 0 with win := w }) := rfl

theorem witness_WindowUpkeep_regs : Admits (winUp {}) core0 0x18 (0x1000 + 8 * 5) 2 ∧ Word.bit (2 : Word) 1 ≠ slicePersist (winUp {}) 5 ∧ sliceTen (winUp {}) 5 = 0 ∧ sliceMapped (winUp {}) 5 = false
    ∧ sliceMapped (winUp {}) 1 = true ∧ slicePersist (winUp {}) 1 = true ∧ Admits (winUp {}) core0 0x18 (0x2000 + 32 * 511) 12582912 ∧ Admits (winUp {}) core0 0x18 (0x2004 + 32 * 511) 0
    ∧ Admits (winUp {}) core0 0x18 (0x2008 + 32 * 511) 0 ∧ rd (winUp {}) 0x18 0x28 = 0 := by decide +kernel

theorem witness_CxlMailbox : (7 : Nat) ∈ (Tbl.getD (cxlDev (winUp { devs := [(0, { logs := [(2, [(7, [1])])] })] }) 0).logs 2 []).map (·.1)
    ∧ portLayout (winUp {}) 0 = ⟨[0], [1]⟩ ∧ dpaOf (winUp {}) 0 (2 ^ 28) = some (2 ^ 22) ∧ dpaOf (winUp {}) 0 (2 ^ 29) = none
    ∧ layoutNow (wr (winUp {}) 0x18 0x1008 2) (portTenant (winUp {}) 0) ≠ ⟨[0], [1]⟩ ∧ effectsLogId ≠ [] := by decide +kernel

/-! ### Grove engines and computational programs -/

/-- Engine 18, in grove 1. -/
def engAt (x : Eng) (s : State) : State := { s with grv := { s.grv with eng := [(18, x)] } }
def mEng : Eng := { st := .assigned, tenant := 5, pc := 0x70010 }
def eng (x : Eng) : State := engAt x (up [0x41, 0x18, 0x1B])
/-- A stream of LBAs with 60 bytes in its ring, and a stream to the host with 30 bytes in its ring. -/
def inStr : Stream := { typ := .lbaIn, cls := 2, nsid := 1, start := 0, len := 8192, ring := 0x40000, ringLog := 13, desc := 0x1000, delivered := 100, used := 40 }
def outStr : Stream := { typ := .hostOut, cls := 2, nsid := 0, start := 64, len := 8192, ring := 0x50000, ringLog := 12, desc := 0x1040, delivered := 10, used := 40 }
/-- Registers 11 and 12 hold a stream's number and a count. -/
def wsEng (k n : Nat) (t : Tbl Stream) : Eng := { mEng with x := [(10, 0x2000), (11, k), (12, n)], streams := t, vsew := 8, vl := 16, vill := false }
def cmd7 : CmdId := ⟨3, 1, 7⟩
def exec7 : ExecCmd := { cmd := cmd7, nsid := 2, slot := 1, params := [], rset := 0, outLen := 4096, engine := some 18 }
def ctx7 : Ctx := { id := cmd7, tenant := 5, idx := 0, cls := .high, src := .shared, sqe := { opc := 1, cid := 7, nsid := 2 }, nsid := 2, stage := .waiting }
def onEng (x : Eng) : State :=
  let s := eng { x with st := .running, prog := some (2, 1, cmd7) }
  { s with grv := { s.grv with execs := [exec7] }, hqe := { s.hqe with ctxs := [ctx7] } }

theorem witness_EnginesAndStreams_access : engLive (eng mEng) (18 : Fin 256) = true ∧ gatePass (eng mEng) 18 0x7FFF8 8 = true ∧ localAddr (eng mEng) 18 0x7FFF8 8 = some (tileBase 18 + 0x7FFF8)
    ∧ gatePass (eng mEng) 18 0x900000 8 = true ∧ (localAddr (eng mEng) 18 0x900000 8).isSome = true ∧ pmpPass (engOf (eng mEng) 18) 0 8 true true true = true
    ∧ resvHas { eng mEng with grv := { (eng mEng).grv with rsv := [(18, (tileBase 18 + 64) / 64)] } } 18 (tileBase 18 + 64) = true ∧ resvHas (eng mEng) 18 (tileBase 18 + 64) = false
    ∧ gatePass (eng mEng) 18 0x800000 4 = false ∧ engTgt (eng mEng) 18 0x800000 4 ≠ .nothing ∧ engTgt (eng mEng) 18 0x7FFFD 4 = .nothing ∧ rd (eng mEng) (engRgn 18) 0x28 = 0 := by decide +kernel

/-- Two blocks of SLM, of tenant 5, and slice 0 of the window, of tenant 5, with line 1 in the grove's cache. -/
def slmEng : State := wr (wr (wr (wr (setBark (openBark (wr (eng mEng) 0x1B 0x104 0xFF8200) []) 0x1B 0 ⟨0, 0x3FFF0000, 0xFFFFFFFF, 0x9800FFFF⟩) 0x41 0x2008 2) 0x41 0x2004 (w32 (dramBase / 2 ^ 32))) 0x41 0x3000 0x80058005) 0x41 0x2000 (w32 (dramBase % 2 ^ 32))
def cached : State :=
  let s := wr (wr slmEng 0x18 0x100 2) 0x18 0x1000 0x15
  { s with win := { sf := [(1, { a := true, holders := [9], tenant := 5 })] }, grv := { s.grv with lines := [(2 ^ 32 + 1, List.replicate 64 7)] } }

theorem witness_EnginesAndStreams_slm : engTgt slmEng 18 0x20000000040 4 = .slm 0x40 ∧ gatePass slmEng 18 0x20000000040 4 = true
    ∧ busRead slmEng (engWho slmEng 18) (slmBase slmEng 1 + 0x40) 4 = (.ok, [0, 0, 0, 0], slmEng) ∧ (busWrite slmEng (engWho slmEng 18) (slmBase slmEng 1 + 0x40) [7, 0, 0, 0]).1 = .ok
    ∧ engTgt slmEng 18 0x20002000000 1 = .nothing := by decide +kernel

theorem witness_EnginesAndStreams_window : engTgt cached 18 0x10000000048 8 = .window 0x48 ∧ gatePass cached 18 0x10000000048 8 = true ∧ gLine cached 1 1 = some (List.replicate 64 7)
    ∧ sfA cached 1 = true ∧ sfOthers cached 1 9 = [] ∧ (sfOf cached 1).map (·.holders) = some [9] ∧ gFull cached 1 1 = false := by decide +kernel

/-- A descriptor at 0x2000: 8 KiB of namespace 1 in a ring at 0x20000. -/
def described (n : Ns) (t typ : Nat) (x : Eng) : State :=
  let s := nsAt n (eng x)
  { s with mem := cellsAt (tileBase 18 + 0x2000) ([BitVec.ofNat 8 typ, 2, 0, 0] ++ leBytes 4 (if typ = 1 then 1 else 0) ++ leBytes 8 0 ++ leBytes 8 t ++ leBytes 4 0x20000 ++ [12]) }
def nvm1 : Ns := { lbas := 1024, owner := 5, attached := [3] }
def opener : Eng := { wsEng 3 2 [] with x := [(10, 0x2000), (12, 2)] }
def openRun (n : Ns) : State := { described n 8192 1 opener with grv := { (described n 8192 1 opener).grv with execs := [exec7] } }

theorem witness_EnginesAndStreams_open : WsReady (openRun nvm1) (18 : Fin 256) ∧ xReg (openRun nvm1) 18 12 % 8 = 2 ∧ xReg (openRun nvm1) 18 10 = 0x2000
    ∧ strType (descAt (openRun nvm1) 18 0x2000).typ = some .lbaIn ∧ strOf (openRun nvm1) 18 2 = none
    ∧ descBad (openRun nvm1) 18 2 0x2000 (descAt (openRun nvm1) 18 0x2000) = false ∧ descDenied (openRun nvm1) 18 (descAt (openRun nvm1) 18 0x2000) = false
    ∧ 3 ∉ ({ nvm1 with attached := [] } : Ns).attached ∧ descBad (openRun { nvm1 with attached := [] }) 18 2 0x2000 (descAt (openRun nvm1) 18 0x2000) = false
    ∧ (descAt (described nvm1 0 1 opener) 18 0x2000).len = 0 ∧ (strOf (eng (wsEng 3 0 [(3, inStr)])) 18 3).isSome = true := by decide +kernel

theorem witness_EnginesAndStreams_ring : WsReady (eng (wsEng 3 60 [(3, inStr)])) (18 : Fin 256) ∧ strOf (eng (wsEng 3 60 [(3, inStr)])) 18 (xReg (eng (wsEng 3 60 [(3, inStr)])) 18 11 % 8) = some inStr
    ∧ inStr.isIn = true ∧ inStr.avail = 60 ∧ inStr.eos = false ∧ xReg (eng (wsEng 3 61 [])) 18 12 = 61 ∧ { inStr with code := 4 }.code ≠ 0
    ∧ outStr.isIn = false ∧ outStr.avail = 4096 - 30 ∧ outStr.used + 60 ≤ outStr.len ∧ outStr.delivered < outStr.used ∧ hostOpen (onEng mEng) 3 = false
    ∧ execOf (onEng mEng) 18 = some exec7 ∧ (ctxOf (onEng mEng) exec7.cmd).isSome = true
    ∧ hostOpen { onEng mEng with ports := [(0, { pstate := .up, fns := [(3, { bme := true })] })] } 3 = true ∧ (engOf (eng (wsEng 3 0 [])) 18).vl * ((engOf (eng (wsEng 3 0 [])) 18).vsew / 8) = 16
    ∧ inStr.avail < ({ wsEng 3 0 [] with vsew := 64 }).vl * 8 ∧ (vActive (wsEng 3 0 []) 8 true).length = 16 := by decide +kernel

/-- A hash job of 3 bytes described at 0x2000. -/
def hashDesc : List Byte := leBytes 1 10 ++ leBytes 1 0 ++ leBytes 1 3 ++ leBytes 1 0 ++ leBytes 4 3 ++ leBytes 8 0x3000 ++ leBytes 8 0x4000 ++ leBytes 4 4 ++ leBytes 4 0
def jobber (l : Tbl Job) : State := { eng { wsEng 0 1 [] with jobs := l } with mem := cellsAt (tileBase 18 + 0x2000) hashDesc }
def job9 (r : Option Nat) : Job := ⟨1, 10, 0, 3, 0x3000, 3, 0x4000, 4, r⟩

theorem witness_EnginesAndStreams_job : memReadN (jobber []) (tileBase 18 + xReg (jobber []) 18 10) 32 = hashDesc ∧ xReg (jobber []) 18 12 = 1 ∧ Tbl.find (engOf (jobber []) 18).jobs 0 = none
    ∧ (localAddr (jobber []) 18 0x3000 3).isSome = true ∧ gatePass (jobber []) 18 0x4000 4 = true ∧ (localAddr (jobber []) 18 0x3000000 3).isSome = false
    ∧ Tbl.find (engOf (eng { wsEng 0 0 [] with jobs := [(0, job9 (some 4))] }) 18).jobs (xReg (eng (wsEng 0 0 [])) 18 11) = some (job9 (some 4))
    ∧ (job9 none).result = none ∧ ([(0, job9 none), (1, job9 none), (2, job9 none), (3, job9 none)] : Tbl Job).length = 4
    ∧ (engOf (eng { wsEng 0 0 [] with wait := some (.wait 5 3 9) }) 18).wait = some (.wait 5 3 9) ∧ engLive (eng { wsEng 0 0 [] with wait := some (.wait 5 3 9) }) (18 : Fin 256) = true
    ∧ (engOf (eng { mEng with vill := true }) 18).vill = true ∧ (2 ^ 3).testBit (18 % 16) = false := by decide +kernel

/-- A pool whose one chunk of a class has a slot to spare. -/
def oneSlot (cls n : Nat) : State := { pool 0 1 9 with bpm := { chunks := [(0, { owner := 0, cls := cls, internal := false, live := (List.range n).map fun k => (k, 1) })] } }

/-- Stream 3 has read MU 0 into a buffer, with this end, and has asked for all; a table lets every master reach DRAM. -/
def head3 (st : MuSt) : InnerRead :=
  { id := 4, who := .stream 18 3, tenant := 5, nsid := 1, gmu := 0, off := 100, len := 3996, cls := 2, buf := dramBase, st := st, data := List.replicate 4096 7 }
def in3 : Stream := { inStr with used := 100, asked := 8192 }
def feeding (n : Ns) (st : MuSt) : State :=
  let s := engAt (wsEng 3 0 [(3, in3)]) (setBark (openBark (oneSlot 1 1) []) 0x1B 0 ⟨0, 0x3FFF0000, 0xFFFFFFFF, 0x9800FFFF⟩)
  { s with ten := { nss := [(1, n)] }, grv := { s.grv with reads := [head3 st], nextRead := 5 } }

theorem witness_EngineStates_head : LbaTurn (feeding nvm1 .data) 18 3 in3 (head3 .data) := ⟨by decide +kernel, by decide, by decide +kernel, rfl, by decide +kernel⟩

theorem witness_EngineStates_failed : LbaTurn (feeding nvm1 (.failed stUnrecRead)) 18 3 in3 (head3 (.failed stUnrecRead)) :=
  ⟨by decide +kernel, by decide, by decide +kernel, rfl, by decide +kernel⟩

theorem witness_EngineStates_stream : (feeding nvm1 .data).bpm.waiters = [] ∧ in3.asked = in3.len
    ∧ (bufAt (feeding nvm1 .data) (head3 .data).buf).isSome = true ∧ (head3 .data).off + (head3 .data).len ≤ 4096 := by decide +kernel

theorem witness_EngineStates_buffer (b : Tbl Nat) : dramMayAll (turned (feeding nvm1 .data) b) ⟨0x212, 5⟩ .read [((head3 .data).buf, 4096)] = (true, turned (feeding nvm1 .data) b) :=
  have h : ∀ s : State, ∀ a, (barkCheck s 0x1B ⟨⟨0x212, 5⟩, a, 64, .read, 0⟩).2 = true → (barkCheck (turned s b) 0x1B ⟨⟨0x212, 5⟩, a, 64, .read, 0⟩).2 = true := fun _ _ h => h
  dramMayAll_pass fun p hp => by
    rw [List.mem_singleton.1 hp]
    exact ⟨h _ _ (by decide +kernel), h _ _ (by decide +kernel)⟩

theorem witness_EngineStates_limit : (rdsOf (feeding nvm1 .lookup) (.stream 18 3)).find? (fun r => !r.st.ended) = some (head3 .lookup) ∧ rdOf (feeding nvm1 .lookup) 4 = some (head3 .lookup) :=
  ⟨rfl, rfl⟩

theorem witness_EngineStates_stops : strMay (feeding { nvm1 with owner := 9 } .data) 18 in3 = false
    ∧ StrTurn (feeding { nvm1 with owner := 9 } .data) 18 3 ∧ ¬ StrTurn (feeding nvm1 .lookup) 18 3
    ∧ rdF (wr (feeding nvm1 .lookup) 0x1A 0x1000 9) 0x1A (0x1000 + 4 * (1 - 1)) 15 0 ≠ 0 ∧ rdF (feeding nvm1 .lookup) 0x1A 0x1000 15 0 = 0
    ∧ (rdsOf (feeding nvm1 .data) (.stream 18 3)).find? (fun r => !r.st.ended) = none := by decide +kernel

/-- The last bytes of a stream from SLM, and from line 1 of the window. -/
def lastIn (t : StrType) (at_ : Nat) : Stream := { typ := t, cls := 2, nsid := 0, start := at_, len := 40, ring := 0x40000, ringLog := 12, desc := 0x1000, delivered := 8, used := 8 }
def lineIn (t : StrType) : State := engAt (wsEng 3 0 [(3, lastIn t (if t = .slmIn then 0 else 64))]) { cached with win := { state := 1 } }

theorem witness_EngineStates_lines : StrTurn (lineIn .slmIn) 18 3 ∧ gatePass (lineIn .slmIn) 18 (0x20000000000 + 8) 32 = true ∧ 32 ≤ 64 - (0 + 8) % 64
    ∧ StrTurn (lineIn .winIn) 18 3 ∧ gatePass (lineIn .winIn) 18 (0x10000000000 + 72) 32 = true ∧ pendOf (lineIn .winIn) (72 / 64) = none ∧ sfA (lineIn .winIn) (72 / 64) = false
    ∧ (lineIn .winIn).win.queue = []
    ∧ gatePass (engAt (wsEng 3 0 [(3, lastIn .slmIn (2 ^ 25))]) cached) 18 (0x20000000000 + 2 ^ 25 + 8) 32 = false ∧ StrTurn (engAt (wsEng 3 0 [(3, lastIn .slmIn (2 ^ 25))]) cached) 18 3 := by decide +kernel

theorem witness_EngineStates_line (b : Tbl Nat) : WinBytes (turned (lineIn .winIn) b) (72 / 64) (List.replicate 64 0) := .inl ⟨rfl, rfl⟩

/-- An engine in each condition that a row asks for. -/
def uEng : Eng := { mEng with umode := true }
def hashed : Eng := { mEng with jobs := [(0, job9 none)] }

theorem witness_EngineStates_codec (n : Nat) : let j : Job := ⟨0, 2, 3, 0, 0x3000, 3, 0x4000, 4, none⟩
    (Config.codec j.op j.level (List.replicate n 0)).2.length ≤ j.dstCap ∨ (j.op ≠ 1 ∧ j.op ≠ 3 ∧ j.dstCap < (Config.codec j.op j.level (List.replicate n 0)).2.length) := by
  intro j; by_cases h : (Config.codec j.op j.level (List.replicate n 0)).2.length ≤ j.dstCap
  · exact .inl h
  · exact .inr ⟨by decide, by decide, by omega⟩

theorem witness_EngineStates_run : (engOf (onEng uEng) 18).st = .running ∧ (engOf (onEng uEng) 18).halted = false ∧ (engOf (onEng uEng) 18).umode = true
    ∧ (engOf (onEng uEng) 18).prog = some (2, 1, cmd7) ∧ execOf (onEng uEng) 18 = some exec7 ∧ ctxOf (onEng uEng) cmd7 = some ctx7 ∧ ctx7.stage ≠ .done ∧ (onEng uEng).win.queue = []
    ∧ xReg (onEng uEng) 18 17 = 0 ∧ xReg (onEng { uEng with x := [(17, 1), (11, 99), (10, 0x7FFD0)] }) 18 17 = 1 ∧ 0x7FFD0 + min 48 99 ≤ 0x80000
    ∧ (engOf (onEng { uEng with mip := 2 ^ 17 + 2 ^ 18 }) 18).mip.testBit 18 = true ∧ (engOf (onEng { uEng with mip := 2 ^ 17 + 2 ^ 18 }) 18).mip.testBit 17 = true
    ∧ Admits (onEng uEng) core0 (engRgn 18) 0x1084 1 ∧ Admits (onEng uEng) core0 (engRgn 18) 0x1084 2 ∧ Admits (onEng uEng) core0 (engRgn 18) 0x1084 4 ∧ (engOf (onEng { uEng with aborting := true }) 18).aborting = true
    ∧ (engOf (eng mEng) 18).prog = none ∧ engLive (onEng mEng) (18 : Fin 256) = true := by decide +kernel

theorem witness_EngineStates_rest : Admits (eng mEng) core0 (engRgn 18) 0x1088 0x8009 ∧ Admits (eng mEng) core0 (engRgn 18) 0x1088 0 ∧ isReady (eng mEng) (engRgn 18) = true
    ∧ Admits (eng {}) core0 0x41 0x1088 0x8009 ∧ (engOf (eng {}) 18).st = .free ∧ rd (eng mEng) 0x41 0x28 = 0 ∧ isReady (onEng uEng) 0x42 = false
    ∧ (engOf (eng { mEng with st := .scrubbing, target := some 9, leaving := true }) 18).st = .scrubbing ∧ (eng mEng).grv.lineTen = []
    ∧ rdF (eng mEng) (engRgn 18) 0x100 31 16 * 65536 + rdF (eng mEng) (engRgn 18) 0x104 15 0 * 2 ^ 32 + min (rdF (eng mEng) (engRgn 18) 0x108 16 0) 65536 ≤ 2 ^ 37
    ∧ (∀ k : Fin 2, Admits (wr (eng mEng) 0x41 0x2008 12) core0 0x41 (0x3000 + 4 * (5 + k)) 0x80090008) ∧ 2 * 5 + 1 < slmBlocks (wr (eng mEng) 0x41 0x2008 12) 1
    ∧ slmBlocks (wr (eng mEng) 0x41 0x2008 12) 1 ≤ 2 * 6
    ∧ (engOf (eng hashed) 18).jobs.find? (fun y => y.2.unit = 1 && y.2.result.isNone) = some (0, job9 none) ∧ localAddr (eng hashed) 18 (job9 none).src 3 = some (tileBase 18 + 0x3000)
    ∧ (leBytes 4 (crc32c (memReadN (eng hashed) (tileBase 18 + 0x3000) 3))).length = 4 ∧ (∀ m : Fin 16, m ≠ 2 → (engOf (eng hashed) (1 * 16 + m : Nat)).jobs = []) := by decide +kernel

/-- The smallest image: an ELF header, a loadable segment of 4 bytes at 0x1000, and the notes ABI, ISA and RES. -/
def note (t : Nat) (d : List Byte) : List Byte := leBytes 4 6 ++ leBytes 4 d.length ++ leBytes 4 t ++ [0x43, 0x65, 0x73, 0x61, 0x6E, 0, 0, 0] ++ d
def notes : List Byte := note 1 (leBytes 4 0) ++ note 2 (leBytes 8 0) ++ note 3 (leBytes 4 0x1000 ++ leBytes 4 0 ++ leBytes 8 99)
def phdr (typ flags off va n m : Nat) : List Byte := leBytes 4 typ ++ leBytes 4 flags ++ leBytes 8 off ++ leBytes 8 va ++ leBytes 8 va ++ leBytes 8 n ++ leBytes 8 m ++ leBytes 8 4096
def image : List Byte :=
  [0x7F, 0x45, 0x4C, 0x46, 2, 1] ++ leBytes 10 0 ++ leBytes 2 2 ++ leBytes 2 243 ++ leBytes 4 1 ++ leBytes 8 0x1000 ++ leBytes 8 64 ++ leBytes 8 0 ++ leBytes 4 4 ++ leBytes 2 64 ++ leBytes 2 56
    ++ leBytes 2 2 ++ leBytes 6 0 ++ phdr 1 5 176 0x1000 4 8 ++ phdr 4 4 180 0 notes.length 0 ++ leBytes 4 0x73 ++ notes
def comp : Ns := { lbaf := 0, lbas := 0, owner := 5, kind := .compute, attached := [3] }
def cmd (opc : Nat) (admin : Bool) (d10 d11 d12 : Nat) (data : List Byte) : Ctx :=
  { ctx7 with stage := .ready, admin := admin, sqe := { opc := opc, cid := 7, nsid := 2, cdw10 := w32 d10, cdw11 := w32 d11, cdw12 := w32 d12 }, data := data }
def prog (x : Ctx) (t : Tbl ProgSlot) (s : State) : State :=
  { s with hqe := { s.hqe with ctxs := [x] }, ten := { s.ten with nss := [(2, comp)] }, grv := { s.grv with progs := t } }
def slot1 (a : Bool) : Tbl ProgSlot := [(129, { image := image, active := a })]
def waiting : State :=
  let s := prog ctx7 (slot1 true) (wr (eng mEng) 0x41 0x1088 0x8005)
  { s with grv := { s.grv with execs := [{ exec7 with engine := none }] } }
def longImage : List Byte := image.take 176 ++ [1] ++ image.drop 177

theorem witness_ComputationalPrograms_load : (let s := prog (cmd 0x85 true 1 0 0 image) [] (oneSlot 4 0)
      CompReady s cmd7 true 0x85 (cmd 0x85 true 1 0 0 image) comp ∧ imageRefusal s image = 0 ∧ (takeBufs s (ownerOf s 5) [] (ceilDiv image.length (2 ^ clsLog s 4))).1.isSome = true
        ∧ Tbl.find s.grv.progs 129 = none)
    ∧ Word.bit (cmd 0x85 true 0x1000001 0 0 []).sqe.cdw10 24 = true ∧ imageRefusal State.reset [] = 1 ∧ 63 < Word.fld (cmd 0x85 true 64 0 0 []).sqe.cdw10 15 0
    ∧ (takeBufs (eng mEng) 0 [] 1).1 = none ∧ Tbl.find (prog ctx7 (slot1 true) State.reset).grv.progs (2 * 64 + 1) = some { image := image, active := true } := by decide +kernel

theorem witness_ComputationalPrograms_run : CompReady (prog (cmd 1 false 1 0 9 []) (slot1 true) (wr (eng mEng) 0x41 0x1088 0x8005)) cmd7 false 1 (cmd 1 false 1 0 9 []) comp
    ∧ inSet waiting 18 5 = true ∧ (engOf waiting 18).st = .assigned ∧ isReady waiting (engRgn 18) = true ∧ waiting.grv.execs.find? (fun y => y.cmd = cmd7) = some { exec7 with engine := none }
    ∧ (∀ j : Fin 18, inSet waiting j 5 = false) ∧ Tbl.getD waiting.grv.rr (rrEng 5) 0 ≤ 18 ∧ (progPmp waiting 18 image (rsetRanges waiting 2 0)).length = 3
    ∧ loads image = [⟨1, 5, 176, 0x1000, 0x1000, 4, 8⟩] ∧ 176 + 4 ≤ image.length ∧ CompReady (prog (cmd 0x88 true 0x10001 0 0 []) (slot1 false) State.reset) cmd7 true 0x88 (cmd 0x88 true 0x10001 0 0 []) comp
    ∧ CompReady (prog (cmd 0x89 true 0 8 0 []) [] State.reset) cmd7 true 0x89 (cmd 0x89 true 0 8 0 []) comp ∧ rangeOk (prog (cmd 0x89 true 0 8 0 []) [] State.reset) 5 (rangeAt [] 0) = false := by decide +kernel

/-- A memory namespace of one block, read, written, or filled from a deallocated LBA. -/
def memory2 (x : Ctx) : State :=
  let s := prog { x with nsid := 9 } [] (wr (wr (setBark slmEng 0x1B 0 ⟨0, 0x3FFF0000, 0xFFFFFFFF, 0x9A00FFFF⟩) 0x40 0x2008 2) 0x40 0x2004 (w32 (dramBase / 2 ^ 32)))
  { s with ten := { s.ten with nss := [(1, { nvm1 with attached := [3] }), (9, { kind := .memory, lbas := 2 ^ 24, owner := 5, attached := [3], blocks := [0] })] } }
def reading : State := memory2 (cmd 2 false 0x40 0 64 [])
def copying : State := wr (memory2 (cmd 1 false 0x40 0 0 (leBytes 4 1))) 0xC 0x124 0

theorem witness_ComputationalPrograms_slm : CmdReady reading cmd7 false 2 { cmd 2 false 0x40 0 64 [] with nsid := 9 } ∧ (nsOf reading 9).map (·.kind) = some .memory
    ∧ busRead reading ⟨3, 5⟩ (slmAddr reading ((nsOf reading 9).getD {}) 0x40) 64 = (.ok, List.replicate 64 0, reading)
    ∧ CmdReady (memory2 (cmd 5 false 0x40 0 64 (List.replicate 64 9))) cmd7 false 5 { cmd 5 false 0x40 0 64 (List.replicate 64 9) with nsid := 9 }
    ∧ (busWrite reading ⟨3, 5⟩ (slmAddr reading ((nsOf reading 9).getD {}) 0x40) (List.replicate 64 9)).1 = .ok
    ∧ CmdReady copying cmd7 false 1 { cmd 1 false 0x40 0 0 (leBytes 4 1) with nsid := 9 } ∧ copyRange (leBytes 4 1) 0 = (1, 0, 1) ∧ copying.grv.copies = []
    ∧ (match copySource copying cmd7 (1, 0, 1) with | .ok k => k == nvm1 | .error _ => false) = true ∧ (match copySource copying cmd7 (8, 0, 1) with | .ok _ => false | .error st => st != stAccessDenied) = true
    ∧ copyParts copying (1, 0, 1) = [(1, 0, 0, 4096)] ∧ rdsOf copying (.copy cmd7) = [] := by decide +kernel

theorem witness_ComputationalPrograms_wait (g : Grv) (h : Hqe) : bpmTry { copying with grv := g, hqe := h } (ownerOf copying 5) 1 false = (none, { copying with grv := g, hqe := h }) := by
  have h0 : clsEn copying 1 = false := by decide +kernel
  have : clsEn { copying with grv := g, hqe := h } 1 = false := h0
  simp [bpmTry, this]

/-- The last MU of a copy has come to this end. -/
def lastPart (st : MuSt) : State :=
  { copying with
    hqe := { ctxs := [{ cmd 1 false 0x40 0 0 (leBytes 4 1) with nsid := 9, stage := .reading }] }
    grv := { copying.grv with copies := [⟨cmd7, [], 0x40, (0x40, 512)⟩], reads := [{ head3 st with who := .copy cmd7, buf := 0, off := 0, len := 512 }] } }

theorem witness_ComputationalPrograms_copy : (ctxOf (lastPart .data) cmd7).map (·.stage) = some .reading ∧ (lastPart .data).grv.copies.find? (fun z => z.cmd = cmd7) = some ⟨cmd7, [], 0x40, (0x40, 512)⟩
    ∧ (rdsOf (lastPart .data) (.copy cmd7)).map (·.id) = [4] ∧ (rdOf (lastPart .data) 4).isSome = true ∧ (lastPart .data).bpm.waiters = []
    ∧ (busWrite (lastPart .data) ⟨3, 5⟩ (slmAddr (lastPart .data) ((nsOf reading 9).getD {}) 0x40) (List.replicate 512 7)).1 = .ok ∧ MuSt.ended .lookup = false ∧ stAccessDenied ≠ stUnrecRead := by
  decide +kernel

theorem witness_ComputationalPrograms_refused : (programDispatch { waiting with ten := {} } cmd7).grv.execs = [] ∧ nsOf { waiting with ten := {} } exec7.nsid = none
    ∧ ({ comp with attached := [] } : Ns).attached ≠ [3] ∧ 1 < Word.fld (cmd 0x89 true 2 0 0 []).sqe.cdw10 3 0 := by decide +kernel

/-! ### Cambium and the Seed domain -/

/-- A device that runs on VIN, with the bank charged and PWR and AON Ready. -/
def powered (p : Pwr) : State := { (up [0x02, 0x03]) with pwr := { p with cstate := .protected_, vin := 12000 }, ports := [(0, { pstate := .up })], grv := { eng := [(0, {})] } }
/-- The same in another state of Cambium. -/
def cambium (c : CState) (p : Pwr) : State := { (up [0x02, 0x03]) with pwr := { p with cstate := c } }
/-- A flush runs. -/
def loss (f : FlushRec) (p : Pwr) : State := cambium .flush { p with flush := some f }
def okLedger : State := { powered { measured := some 0, measOk := true, cause := 0 } with clock := 26 * 3600 + 1, hqe := { vwc := false } }
/-- A module that has cooled down after a thermal trip. -/
def tripped (c : CState) (vin : Nat) : State := cambium c { trip := true, vin := vin }
/-- The Seed domain's state. -/
def seeded (a : Aon) (c : CState) : State := { cambium c {} with aon := a }
/-- Tamper inputs: enabled at 0 and 2 of the register, with ZEROIZE at bit 4. -/
def tampered (v : Word) (c : CState) : State := wr (seeded {} c) 0x03 0x138 v
/-- Alarms that are not enabled. -/
def muted (v : Word) (c : CState) : State := wr (seeded {} c) 0x03 0x13C v

theorem witness_CambiumStates : State.reset.pwr.cstate = .off ∧ vinOk State.reset 8800 = true ∧ State.reset.pwr.trip = false ∧ State.reset.aon.lost = false
    ∧ ({ State.reset with aon := { lost := true } } : State).aon.lost = true ∧ State.reset.aon.ring = [] ∧ vinOk (cambium .off { plWhy := 2 }) 60000 = false
    ∧ (cambium .softStart {}).pwr.cstate = .softStart ∧ (cambium .softStart {}).dev.started = false ∧ (cambium .softStart {}).dev.rstn = true
    ∧ rdF (powered {}) 0x02 0x114 15 0 ≤ 12000 ∧ 7000 < rdF (powered {}) 0x02 0x114 15 0 ∧ LossQuiet (powered {}) ∧ (powered {}).pwr.pl = false ∧ (powered {}).pwr.flush = none
    ∧ (powered { pl := true }).pwr.pl = true ∧ (powered { flush := some { reset := true } }).pwr.flush = some { reset := true } ∧ (powered {}).tap.run = none ∧ (powered {}).bst.slices = []
    ∧ (powered {}).dev.fault = false ∧ (powered {}).graft.trial = false ∧ (powered {}).pwr.cstate = .protected_ := by decide +kernel

theorem witness_CambiumStates_flush : (loss {} { pl := true }).pwr.flush = some {} ∧ flashGated (loss {} {}) = false ∧ flashGated { loss {} {} with
      blk := (List.range 32).map fun c => (0x20 + c, { st := .off }) } = true
    ∧ (loss { void := true } { pl := true }).pwr.flush = some { void := true } ∧ (loss { dramLost := true } {}).pwr.trip = false
    ∧ (powered { flush := some { reset := true, cause := 3 } }).dev.rstn = true
    ∧ ({ powered { flush := some { reset := true, cause := 3 } } with dev := { rstn := false } } : State).dev.rstn = false
    ∧ (cambium .bleed {}).pwr.cstate = .bleed ∧ vinOk (cambium .bleed {}) 9000 = true ∧ vinOk (cambium .bleed {}) 8000 = false
    ∧ rdF (cambium .charging {}) 0x02 0x118 15 0 ≤ 56000 ∧ 55999 < rdF (cambium .charging {}) 0x02 0x118 15 0 ∧ (cambium .charging { chgFault := true }).pwr.chgFault = true
    ∧ 53999 + 2000 < rdF (powered {}) 0x02 0x118 15 0 ∧ rdF (powered {}) 0x02 0x118 15 0 ≤ 54000 + 2000 ∧ rd (powered {}) 0x02 0x28 = 0
    ∧ rd (wr (powered {}) 0x02 0x28 1) 0x02 0x28 ≠ 0 := by decide +kernel

theorem witness_SeedAndMeasurement : Admits (powered {}) core0 0x02 0x128 1 ∧ (powered {}).pwr.measAct = false ∧ Admits (powered { measAct := true }) core0 0x02 0x128 1
    ∧ (powered {}).pwr.firstProtected = false ∧ measAge okLedger = 26 * 3600 + 1 ∧ rdF okLedger 0x02 0x124 5 0 * 3600 ≤ measAge okLedger
    ∧ measAge { okLedger with clock := 0 } < rdF okLedger 0x02 0x124 5 0 * 3600 ∧ (powered { measFails := 1 }).pwr.measTry + 600 ≤ 600
    ∧ okLedger.pwr.cause = 0 ∧ okLedger.hqe.vwc = false ∧ 0 + (rdF okLedger 0x02 0x124 5 0 + 2) * 3600 < okLedger.clock
    ∧ ({ en := true, autoPs := true, apst := [3 * 8 + 256] } : Ctrl).apst.getD 0 0 / 8 % 32 = 3 ∧ ([3 * 8 + 256] : List Nat).getD 0 0 / 256 ≠ 0 ∧ ([3 * 8] : List Nat).getD 0 0 / 256 = 0
    ∧ Admits (powered {}) core0 0x03 0x114 5 ∧ Admits (powered {}) core0 0x03 0x128 5 ∧ Admits (powered {}) core0 0x03 0x12C 5 ∧ Admits (powered {}) core0 0x03 0x140 1
    ∧ (powered {}).aon.cntValid = false ∧ rd (powered {}) 0x03 0x28 = 0 ∧ Admits { powered {} with aon := { cntValid := true } } core0 0x03 0x128 5
    ∧ Admits { powered {} with aon := { cntValid := true } } core0 0x03 0x12C 5 := by decide +kernel

theorem witness_SeedAndMeasurement_seed : blkRetired (powered {}) 0x03 = false ∧ SeedCalm (powered {}) 300 3000 ∧ tempHi (powered {}) < ((400 : Nat) : Int) ∧ ((200 : Nat) : Int) < tempLo (powered {})
    ∧ tempHi (powered {}) - tempHyst (powered {}) ≤ ((353 : Nat) : Int) ∧ ((340 : Nat) : Int) < tempHi (powered {}) - tempHyst (powered {})
    ∧ tempLo (powered {}) + tempHyst (powered {}) < ((300 : Nat) : Int) ∧ alarmOn (powered {}) 3 = true ∧ alarmOn (muted 0 .off) 3 = false
    ∧ vinOk (tripped .off 12000) 12000 = true ∧ vinOk (tripped .bleed 5000) 5000 = false ∧ tempHi (tripped .off 12000) = tempHi (powered {})
    ∧ Word.bit (rd (tampered 0x14 .off) 0x03 0x138) (2 * 1) = true ∧ Word.bit (rd (tampered 4 .protected_) 0x03 0x138) 4 = false ∧ Word.bit (rd (tampered 0x14 .protected_) 0x03 0x138) 4 = true
    ∧ Word.bit (rd (tampered 4 .off) 0x03 0x138) (2 * 0) = false ∧ alarmOn (tampered 0x14 .off) 2 = true ∧ alarmOn (muted 0 .off) 2 = false ∧ (tampered 0x14 .off).graft.trial = false
    ∧ (seeded { onCell := false } .off).aon.onCell = false ∧ (seeded {} .protected_).aon.onCell = true ∧ alarmOn (seeded {} .off) 7 = true ∧ alarmOn (seeded {} .off) 6 = true
    ∧ (seeded { latched := [3] } .off).aon.latched = [3] ∧ (seeded { latched := [4] } .off).aon.latched = [4] ∧ (seeded { latched := [5] } .off).aon.latched = [5] := by decide +kernel

/-! ### Reset, boot, fuses and self-test -/

/-- A device that has left reset, with fuses sensed and power-up BIST not yet ended. -/
def sensed (f : Fus) : State := { (up [0x02, 0x04, 0x05]) with dev := { State.reset.dev with started := true }, fus := { f with sensed := true } }
/-- A device in service whose PLLs are locked and whose rails are in tolerance. -/
def healthy : State := let s := { (up [0x02, 0x04, 0x05]) with sec := { drbgOk := true }, dev := { State.reset.dev with step4 := true, started := true }, pwr := { State.reset.pwr with rails := 0xFF7 } }; wr (wr s 0 0x114 0x7FF) 0 0x118 300
def assigned0 : State := { healthy with grv := { eng := [(0, { st := .assigned, tenant := 1 })] } }
def testing0 (p : EngSt) : State := { healthy with grv := { eng := [(0, { st := .testing, prior := p, tenant := 1 })] }, bst := { slices := [⟨0, 0x40, 0⟩] } }
def unlocked (f : Fus) : State := { healthy with fus := { f with sensed := true } }
/-- The device has been ready, and runs with the bank charged. -/
def serving (b : Bool) : State := { powered {} with dev := { ready := true, started := true, rstn := b } }

/-- A fuse program operation of one word that waits for its end. -/
def programming (w r : Nat) : State := { healthy with fus := { prog := some { op := 1, word := w, data := [7], result := r } } }

theorem witness_ResetsBootAndFuses : (cambium .charging {}).pwr.flush = none ∧ (cambium .charging {}).dev.ready = false ∧ Admits (cambium .charging {}) core0 0x00 0x108 1
    ∧ (cambium .charging {}).dev.rstn = true ∧ Admits { cambium .charging {} with dev := { rstn := false } } core0 0x00 0x108 1
    ∧ (loss {} {}).pwr.flush ≠ none ∧ Admits (loss {} {}) core0 0x00 0x108 1 ∧ (serving true).pwr.cstate = .protected_ ∧ LossQuiet (serving true) ∧ Admits (serving true) core0 0x00 0x108 1
    ∧ (cambium .charging {}).dev.started = false
    ∧ (sensed {}).dev.started = true ∧ (sensed {}).fus.sensed = true ∧ rd (sensed {}) 0x05 0x100 = 0 ∧ (sensed {}).dev.retired = []
    ∧ lifecycle (sensed { eff := [(0, 8)] }) = 4 ∧ lifecycle (sensed {}) ≠ 4 ∧ recordRead (sensed { usable := [0] }) = (sensed { usable := [0] }).graft.srec
    ∧ (sensed { usable := [0] }).graft.srec.trial = false ∧ (sensed { usable := [0] }).graft.srec.pref < 2
    ∧ bistPrecond (sensed {}) = false ∧ bistPrecond healthy = true ∧ healthy.dev.started = true ∧ Word.bit (rd (sensed {}) 0x05 0x100) 0 = false := by decide +kernel

/-- The store is empty: each slot's manifest fails its format check. -/
theorem witness_ResetsBootAndFuses_slots : slotRefusal (sensed { usable := [0] }) 0 false = 1 ∧ slotRefusal (sensed { usable := [0] }) (otherSlot 0) false = 1
    ∧ ticketsOf (sensed { usable := [0] }) (otherSlot 0) = [] := by constructor <;> decide +kernel

theorem witness_ResetsBootAndFuses_fuses : ({ sensing := true } : Fus).sensed = false ∧ ({ sensing := true, sensed := true } : Fus).sensing = true ∧ fuseKind 0x100 = .plain ∧ fuseKind 0x30 = .copy
    ∧ fuseKind 1 = .restrictive ∧ blkRetired healthy 0x04 = false ∧ Admits healthy core0 0x04 0x118 1 ∧ fuseDue { unlocked {} with dev := { opsec := 86400 } } = true
    ∧ fuseDue (wr healthy 0x04 0x11C 300) = false ∧ Admits (programming 0x100 0) core0 0x04 0x118 1 ∧ (programming 0x100 0).fus.prog ≠ none ∧ Admits healthy core0 0x04 0x12C 1
    ∧ Admits (programming 0x100 0) core0 0x04 0x12C 1 ∧ Admits (programming 0x100 0) core0 0x04 0x12C 2
    ∧ Admits { unlocked { sensing := true } with clock := 0 } core0 0x04 0x118 1 ∧ Admits healthy core0 0x04 0x12C 2 ∧ fuseReserved 3 = true ∧ fuseReserved 0x100 = false
    ∧ lifecycle healthy = 0 ∧ lifecycle (unlocked { eff := [(0, 1)] }) = 1 ∧ lifecycle (unlocked { eff := [(0, 4)] }) = 3
    ∧ progPrecond healthy = true ∧ progPrecond (unlocked {}) = true ∧ progPrecond (wr healthy 0 0x118 400) = false ∧ healthy.sec.drbgOk = true
    ∧ Tbl.getD (unlocked { blown := [(0x10, 1)] }).fus.blown (0x10 + 0) 0 ≠ 0
    ∧ (programming 0x100 0).fus.prog = some { op := 1, word := 0x100, data := [7], result := 0 } ∧ fuseCritical 0x100 = false ∧ fuseCritical 0x30 = true
    ∧ fuseRead (sensed {}) [⟨1, .bad, .bad, .bad⟩] 1 = ⟨1, .bad, .bad, .bad⟩
    ∧ fuseRead (sensed {}) [⟨1, .bad, .bad, .bad⟩, ⟨0x201, .bad, .bad, .bad⟩] 0x201 = ⟨0x201, .bad, .bad, .bad⟩ := by constructor <;> decide +kernel

theorem witness_DebugAndSelfTest : MayUnlock (unlocked { usable := [0], eff := [(0, 1)] }) 1 0 ∧ MayUnlock (unlocked { usable := [1], eff := [(0, 2)] }) 2 1 ∧ ¬ MayUnlock (unlocked {}) 1 0
    ∧ debugLock (unlocked {}) 0 = false ∧ debugLock (unlocked { eff := [(1, 1)] }) 0 = true ∧ scanOpen (unlocked {}) = true ∧ scanOpen (unlocked { eff := [(0, 1)] }) = false
    ∧ (unlocked {}).dev.fault = false ∧ (unlocked {}).graft.trial = false := by decide +kernel

theorem witness_DebugAndSelfTest_slices : SliceOpen assigned0 0 0x40 0 ∧ (engOf assigned0 0).st = .assigned ∧ (engOf assigned0 1).st = .free ∧ SliceOpen assigned0 1 0x40 1 ∧ SliceOpen assigned0 2 0x40 1
    ∧ (engOf assigned0 0).jobs = [] ∧ SliceOpen assigned0 3 0x1A 70 ∧ decBusy assigned0 (64 ≤ 70) < decoders assigned0 (64 ≤ 70) := by decide +kernel

theorem witness_DebugAndSelfTest_slices2 : SliceOpen assigned0 4 0x0A 3 ∧ Tbl.getD assigned0.sec.queues 3 [] = [] ∧ SliceOpen assigned0 5 0x19 7 ∧ assigned0.cpc.accs.length < foldAccs assigned0
    ∧ ¬ SliceOpen (wr healthy 0x05 0x118 0) 0 0x40 0 ∧ (engOf (testing0 .free) 0).st = .testing ∧ ¬ (engOf (testing0 .free) 0).st = .free := by decide +kernel

theorem witness_DebugAndSelfTest_ends : (testing0 .assigned).bst.slices = [⟨0, 0x40, 0⟩] ∧ (engOf (testing0 .assigned) 0).st = .testing ∧ (engOf (testing0 .assigned) 0).prior = .assigned
    ∧ ({ healthy with bst := { slices := [⟨4, 0x0A, 3⟩] } } : State).bst.slices = [⟨4, 0x0A, 3⟩]
    ∧ blkRetired healthy 5 = false ∧ (blkOf 5).isSome = true ∧ (blkOf 0x7F).isNone = true ∧ degradesOnly 6 = false ∧ (blkOf 6).isSome = true ∧ blkRetired healthy 0x40 = false
    ∧ (engOf healthy 0).st ≠ .running ∧ blkRetired healthy 0x20 = false ∧ dieUsable { healthy with flash := { dies := [(0, { st := .ready })] } } 0 = true
    ∧ (portOf healthy 3).pstate ≠ .up ∧ (portOf healthy 3).pstate ≠ .contained := by decide +kernel

/-! ### Crown cores, the Taproot store, mailboxes and movers -/

/-- TOP, MBX, TAP and XMV Ready, with the Bark entries of the boot ROM. -/
def crown : State := barkInstall (up [0x00, 0x07, 0x08, 0x09])
/-- A Taproot sequence or operation under way. -/
def tapAt (t : Tap) : State := { crown with tap := t }
/-- The watchdog of core 1 is on, at a stage. -/
def watched (k : Nat) : State := wr { crown with cores := [(1, { stage := k })] } 0x08 (cwdOff 1) 1
/-- A mailbox with a notice in a slot. -/
def mail (x : Mbx) : State := { crown with mbx := [(0, x)] }
/-- Channel 0 of XMV with its ring in Crown SRAM, an entry between head and tail, and a descriptor there that moves 8 bytes. -/
def mover (x : XmvCh) (ctrl : Nat) : State :=
  memWriteN (wr (wr { crown with xmv := [(0, x)] } 0x09 0x1000 0x50000000) 0x09 0x100C 1) 0x50000000
    (leBytes 8 0x50001000 ++ leBytes 8 0x50002000 ++ leBytes 4 7 ++ leBytes 4 ctrl)
/-- Eight bytes to move inside Crown SRAM. -/
def eight : XmvDesc := { src := 0x50001000, dst := 0x50002000, len := 8, ctrl := 0 }
/-- A read of those bytes. -/
def eightRd : XmvReq := { write := false, addr := 0x50001000, size := 8, n := 8 }
/-- The read of a store's unit by core 0. -/
def unitRead : Acc := ⟨core0, 0x100, 32, .read, 0⟩
def unitFetch : Acc := ⟨core0, 0x100, 32, .fetch, 0⟩

theorem witness_CoresAndTaproot : Admits crown core0 0x08 0x1000 2 ∧ coreRuns crown 1 = false ∧ Admits crown core0 0x08 (cwdOff 1) 1 ∧ Word.bit (rd crown 0x08 (cwdOff 1)) 0 = false
    ∧ Admits (watched 3) core0 0x08 (cwdOff 1 + 0x0C) 0x5EED ∧ (coreOf crown 1).stage ≠ 3 ∧ (coreOf (watched 3) 1).stage = 3 ∧ Admits crown core0 0x08 (cwdOff 1 + 0x0C) 5
    ∧ wdAt (watched 0) 1 0 = true ∧ wdAt (watched 1) 1 1 = true ∧ wdAt (watched 2) 1 2 = true ∧ wdAt (watched 2) 1 1 = false ∧ (watched 2).dev.ready = false ∧ (watched 2).dev.rstn = true
    ∧ LossQuiet { watched 2 with dev := { ready := true } } ∧ wdAt { watched 2 with dev := { ready := true } } 1 2 = true ∧ wdAt { watched 2 with pwr := { flush := some {} } } 1 2 = true
    ∧ tapRefused (tapAt { run := some { op := 3, addr := 0 } }) 1 0 = 1 ∧ tapProtected crown 0x4000 = false ∧ tapProtected (wr crown 0x08 0x130 2) 0x4000 = true
    ∧ tapBlank crown 0 = true ∧ (0 - tapSector 0) / 512 % 8 < 4 := by decide +kernel

theorem witness_CoresAndTaproot_sequence : (∀ reg : Fin 4, Admits crown core0 0x08 (0x104 + 4 * reg) 0xA5C3) ∧ crown.tap.step = 0 ∧ (tapAt { step := 1, core := 0x300 }).tap.core = core0.mid
    ∧ Word.fld 2 3 0 = 2 ∧ tapRefused (tapIdle (tapAt { step := 4, op := 1, words := List.replicate 127 0 })) 1 0 = 0
    ∧ tapRefused (tapIdle (tapAt { step := 4, op := 1, run := some { op := 3, addr := 0 } })) 1 0 = 1 ∧ Admits crown core0 0x08 0x110 0xD0
    ∧ tapRefused (tapIdle (tapAt { step := 4, op := 2 })) 2 0x4000 = 0 ∧ tapRefused (tapIdle (tapAt { step := 4, op := 3 })) 3 0x200 = 0
    ∧ tapRefused (tapIdle (tapAt { step := 4, op := 2 })) 2 0x4200 = 9
    ∧ (tapAt { run := some { op := 1, addr := 0, data := List.replicate 128 1 } }).tap.run = some { op := 1, addr := 0, data := List.replicate 128 1 }
    ∧ (tapAt { run := some { op := 3, addr := 0 }, waits := [(unitRead, 0)] }).tap.waits = [(unitRead, 0)] := by decide +kernel

theorem witness_CoresAndTaproot_reads : TapAdmits crown unitRead ∧ TapArray crown unitRead ∧ (barkCheck crown 0x08 ⟨⟨0, 1⟩, 0x100, 32, .read, 0⟩).2 = false
    ∧ (barkCheck { crown with blk := [] } 0x08 unitRead).2 = true ∧ refusesData { crown with blk := [] } 0x08 = true
    ∧ tapBank 0 = tapBank 0x100 ∧ tapHit { op := 2, addr := 0x4000 } 0x100 32 = false ∧ tapHit { op := 2, addr := 0 } 0x100 32 = true
    ∧ tapHit { op := 2, addr := 0x10000000 } 0x100 32 = false ∧ tapBank 0x10000000 ≠ tapBank 0x100 ∧ TapAdmits (tapAt { run := some { op := 2, addr := 0x4000 } }) unitRead
    ∧ TapArray (tapAt { run := some { op := 2, addr := 0x4000, suspended := true } }) unitRead ∧ tapUnits unitRead.addr unitRead.size = [8] ∧ pfOn crown = true ∧ btcOn crown = true
    ∧ TapAdmits (tapAt { pf := [8] }) unitRead ∧ TapAdmits (tapAt { btc := [8] }) unitRead ∧ TapAdmits crown unitFetch ∧ tapBranch crown unitFetch = true := by decide +kernel

theorem witness_MailboxesAndMovers : Admits crown core0 0x07 (mbxOff 0 + 0x14) 5 ∧ mbxSide crown 0 0 (some core0) = true ∧ mbxPeerOff crown 0 = false ∧ mbxFull (mbxOf crown 0) 0 = false
    ∧ mbxFull (mbxOf (mail { full0 := true }) 0) 0 = true ∧ mbxPeerOff { crown with blk := (0x10, { st := .off }) :: crown.blk } 8 = true ∧ mbxSide crown 8 0 (some core0) = true
    ∧ mbxSide crown 20 0 (some ⟨0, 0⟩) = false ∧ mbxSide crown 8 1 none = true ∧ mbxSide crown 0 1 (some core0) = true ∧ Admits crown core0 0x07 (mbxOff 0 + 0x2C) 5
    ∧ Admits crown core0 0x07 (mbxOff 0 + 0x30) 1 ∧ mbxReceiver crown 0 1 (some core0) = true ∧ mbxFull (mbxOf (mail { full1 := true }) 0) 1 = true ∧ mbxReceiver crown 8 0 none = true
    ∧ mbxReceiver crown 8 1 none = false ∧ (mbxOf (mail { offer0 := some [(1, 2)] }) 0).offer0 = some [(1, 2)] ∧ (mbxOf (mail { ver0 := some (1, 2) }) 0).ver0 = some (1, 2)
    ∧ (mbxOf (mail { ver1 := some (0, 0) }) 0).ver1 = some (0, 0) := by decide +kernel

theorem witness_MailboxesAndMovers_control : Admits crown core0 0x09 (xmvOff 0 + 0x0C) 1 ∧ Word.fld 1 11 0 < xmvSize crown 0 ∧ xmvSize crown 0 ≤ Word.fld 16 11 0
    ∧ Admits crown core0 0x09 (xmvOff 0 + 0x14) (rd crown 0x09 (xmvOff 0 + 0x14) ||| 2) ∧ Admits crown core0 0x09 (xmvOff 0 + 0x14) (rd crown 0x09 (xmvOff 0 + 0x14) ||| 4)
    ∧ Admits crown core0 0x09 (xmvOff 0 + 0x14) 1 ∧ (xmvWriteBack (mover { st := .run, desc := some eight } 0) 0 1 0).1 = .ok
    ∧ xmvOf (xmvWriteBack (mover { st := .run, desc := some eight } 0) 0 1 0).2 0 = { st := .run, desc := some eight } ∧ Admits crown core0 0x09 (xmvOff 0 + 0x1C) 3
    ∧ Admits crown core0 0x09 0x104 (w32 (2 ^ 3)) ∧ xmvBusy { st := .run } = true := by decide +kernel

theorem witness_MailboxesAndMovers_moves : xmvHead (mover { st := .run } 0) 0 ≠ xmvTail (mover { st := .run } 0) 0 ∧ xmvOutAll (mover { st := .run } 0) < 1024 ∧ xmvClear { st := .run } = { st := .run }
    ∧ (busRead (mover { st := .run } 0) (xmvWho 0) (xmvEntry (mover { st := .run } 0) 0 0) 32).1 = .ok
    ∧ xmvMalformed (busRead (mover { st := .run } 0) (xmvWho 0) (xmvEntry (mover { st := .run } 0) 0 0) 32).2.1 = false
    ∧ xmvMalformed (busRead (mover { st := .run } 0x30) (xmvWho 0) (xmvEntry (mover { st := .run } 0) 0 0) 32).2.1 = true
    ∧ xmvOf (busRead (mover { st := .run } 0) (xmvWho 0) (xmvEntry (mover { st := .run } 0) 0 0) 32).2.2 0 = { st := .run }
    ∧ (busRead (wr (mover { st := .run } 0) 0x09 0x1000 0x60000000) (xmvWho 0) (xmvEntry (wr (mover { st := .run } 0) 0x09 0x1000 0x60000000) 0 0) 32).1 = .decode
    ∧ (trunkAccess (setXmv (mover { st := .run, desc := some eight, out := [eightRd] } 0) 0 { st := .run, desc := some eight }) ⟨xmvWho 0, 0x50001000, 8, .read, 0⟩).1 = .ok
    ∧ xmvOf (trunkAccess (setXmv (mover { st := .run, desc := some eight, out := [eightRd] } 0) 0 { st := .run, desc := some eight }) ⟨xmvWho 0, 0x50001000, 8, .read, 0⟩).2.2 0
      = { st := .run, desc := some eight }
    ∧ (trunkAccess (mover { st := .run, desc := some eight } 0) ⟨xmvWho 0, 0x60000000, 8, .read, 0⟩).1 = .decode
    ∧ (trunkAccess (mover { st := .run, desc := some eight } 0) ⟨xmvWho 0, 0x50002000, 8, .write, 0⟩).1 = .ok ∧ eight.ctrl / 8 % 2 = 0
    ∧ (xmvWriteBack (mover { st := .run, desc := some eight, done := 8 } 0) 0 0 0).1 = .ok := by decide +kernel

/-! ### Graft -/

/-- An admin command of Graft or the recorder, dispatched, in a state where it is the only one. -/
def adminCmd (opc d10 d11 : Nat) (data : List Byte) : Ctx :=
  { id := cmd7, admin := true, tenant := 0, idx := 0, cls := .high, src := .shared, sqe := { opc := opc, cid := 7, cdw10 := w32 d10, cdw11 := w32 d11 }, nsid := 0, stage := .ready, data := data }
def withCmd (x : Ctx) (g : Graft) : State := { (up [0x04, 0x06]) with hqe := { ctxs := [x] }, graft := g }
def trialled : Graft := { running := 1, trial := true, srec := { pref := 1, trial := true } }

theorem witness_GraftUpdates : CmdReady (withCmd (adminCmd 0x11 3 0 (List.replicate 16 1)) {}) cmd7 true 0x11 (adminCmd 0x11 3 0 (List.replicate 16 1))
    ∧ inTrial (withCmd (adminCmd 0x11 3 0 []) trialled) = true ∧ inTrial (withCmd (adminCmd 0x11 3 0 []) {}) = false ∧ ({ session := some ⟨1, 0⟩ } : Graft).session = some ⟨1, 0⟩
    ∧ (adminCmd 0x11 3 0x800 []).sqe.cdw11.toNat * 4 = 0x2000 ∧ ({ session := some ⟨cmd7.mid, 0x2000⟩ } : Graft).session = some ⟨cmd7.mid, 0x2000⟩
    ∧ CmdReady (withCmd (adminCmd 0x10 0x10 0 []) {}) cmd7 true 0x10 (adminCmd 0x10 0x10 0 []) ∧ Word.fld (adminCmd 0x10 0x10 0 []).sqe.cdw10 5 3 = 2 ∧ Word.fld (adminCmd 0x10 0x10 0 []).sqe.cdw10 2 0 = 0
    ∧ CmdReady (withCmd (adminCmd 0xC5 0 0 []) trialled) cmd7 true 0xC5 (adminCmd 0xC5 0 0 []) ∧ Word.fld (adminCmd 0xC5 1 0 []).sqe.cdw10 3 0 = 1
    ∧ trialled.srec.trialOpsec + 7200 ≤ ({ State.reset.dev with opsec := 7200 }).opsec ∧ ticketsOf (withCmd (adminCmd 0xC5 0 0 []) trialled) 1 = [] := by decide +kernel
theorem witness_commitCode : commitCode (withCmd (adminCmd 0x10 0x10 0 []) {}) 0 1 false = 1 := by decide +kernel
theorem witness_svn : manSvn (manifestOf (memWriteN (withCmd (adminCmd 0xC5 0 0 []) trialled) 0x14000008 [5, 0, 0, 0]) 1) = 5 := by decide +kernel

/-! ### The event recorder, SPDM, NVMe-MI and temperature -/

/-- The recorder with EN and COAL_EN set, in some state. -/
def recorder (r : Rings) (q : List Ev) : State := { (wr (up [0x06]) 0x06 0x100 0x000A0003) with rings := { r with started := true }, evq := q }
def ev (code sev : Nat) : Ev := { code := code, sev := sev, block := 1, inst := 0, tenant := none, detail := [] }
def rec1 (code : Nat) : Rec := { code := code, sev := 3, block := 1, inst := 0 }
/-- The recorder without EN. -/
def silent (r : Rings) : State := { (up [0x06]) with rings := r }
/-- What firmware has written to its first post interface. -/
def post (w : Word) (r : Rings) : State := wr (recorder r []) 0x06 0x1000 w
/-- A Clear Rings command with action 1, in a device with an operator key hash. -/
def erasing (data : List Byte) (r : Rings) : State :=
  let s := wr (recorder r []) 0x06 0x10C 9
  { s with hqe := { ctxs := [adminCmd 0xC6 1 0 data] }, fus := { usable := [1] } }
def token : List Byte := List.replicate 32 7 ++ List.replicate 8 0 ++ leBytes 8 5 ++ List.replicate 160 0
/-- Bytes as listed memory. -/
def listed : Nat → List Byte → List Host.Cell
  | _, [] => []
  | a, b :: t => (a, b) :: listed (a + 1) t

theorem find_listed : ∀ (l : List Byte) (a i : Nat), Tbl.find (listed a l) (a + i) = l[i]? := by
  intro l
  induction l with
  | nil => intro a i; rfl
  | cons b t ih =>
    intro a i
    cases i with
    | zero => simp [listed, Tbl.find]
    | succ i => simpa [listed, Tbl.find, Nat.add_assoc, Nat.add_comm 1 i] using ih (a + 1) i

theorem memReadN_of (s : State) : ∀ (l : List Byte) (a : Nat), (∀ i, i < l.length → some (memRead s (a + i)) = l[i]?) → memReadN s a l.length = l := by
  intro l
  induction l with
  | nil => intro a _; rfl
  | cons b t ih =>
    intro a h
    have h0 := h 0 (by simp)
    have ht := ih (a + 1) fun i hi => by simpa [Nat.add_assoc, Nat.add_comm 1 i] using h (i + 1) (by simpa using hi)
    simp only [List.length_cons, memReadN, ht]
    simpa using h0

theorem storeWords : ∀ (l : List Byte) (a : Nat), storeBase ≤ a → a + l.length ≤ storeAddr 1 →
    ((listed a l).filter fun x => storeBase ≤ x.1 && x.1 < storeAddr storePages).map (fun x => (x.1 - storeBase) / 512) = List.replicate l.length 0 := by
  intro l
  induction l with
  | nil => intro a _ _; rfl
  | cons b t ih =>
    intro a h1 h2
    have e1 : storeAddr 1 = storeBase + 512 := rfl
    have e2 : storeAddr 1 ≤ storeAddr storePages := by decide
    have h3 : a < storeAddr 1 := by simp only [List.length_cons] at h2; omega
    have hp : (decide (storeBase ≤ a) && decide (a < storeAddr storePages)) = true := by simp; omega
    have hd : (a - storeBase) / 512 = 0 := by omega
    simp only [listed, List.filter_cons, hp, if_true, List.map_cons, hd, List.length_cons, List.replicate_succ]
    rw [ih (a + 1) (by omega) (by simp only [List.length_cons] at h2; omega)]

theorem padTo_length (n : Nat) (b : List Byte) : (padTo n b).length = n := by simp [padTo]

theorem pageImage_length (p : List Rec) : (pageImage p).length = 512 := padTo_length 512 _

/-- A page of one record, in the store at its first page. -/
def inStore (s : State) (x : Rec) : State := { s with mem := listed (storeAddr 0) (pageImage [x]) }
/-- A device whose firmware runs, with SPDM sessions. -/
def responder (l : List SpdmSession) : State :=
  { (up [0x06, 0x0B]) with
    dev := { State.reset.dev with crown := true, rstn := false }, sec := { sessions := l }, ports := [(2, { doe := { busy := true } })] }
def session1 : SpdmSession := { id := 1, operator := true, gcm := [0, 1] }

theorem storeUsed_inStore (s : State) (x : Rec) : storeUsed (inStore s x) = [0] := by
  unfold storeUsed inStore
  rw [storeWords (pageImage [x]) (storeAddr 0) (by decide) (by rw [pageImage_length]; decide), pageImage_length]
  decide +kernel

theorem storeAt_inStore (s : State) (x : Rec) : storeAt (inStore s x) 0 = pageRecs (pageImage [x]) := by
  unfold storeAt
  have h := memReadN_of (inStore s x) (pageImage [x]) (storeAddr 0) fun i hi => by
    have hf : Tbl.find (inStore s x).mem (storeAddr 0 + i) = (pageImage [x])[i]? := find_listed _ _ _
    simp [memRead, hf, List.getElem?_eq_getElem hi]
  rw [pageImage_length] at h
  rw [h]

/-- The page that the record store holds in the witnesses is good. -/
theorem page_good : (pageRecs (pageImage [rec1 1])).map (·.seq) = [0] := by decide +kernel

theorem storeSeqs_inStore (s : State) : (storeRecs (inStore s (rec1 1))).map (·.seq) = [0] := by
  simp [storeRecs, storeUsed_inStore, storeAt_inStore, page_good]

theorem witness_RecorderWork_events : (recorder {} [ev 0x3001 3]).evq = [ev 0x3001 3] ∧ (ev 0x3001 3).sev < 5 ∧ (recorder {} []).evq = [] ∧ coalEn (recorder {} []) = true
    ∧ (∃ y ∈ (recorder { opened := [rec1 0x3001] } []).rings.opened, Folds y 0x3001 1 0) ∧ (∀ y ∈ (recorder { opened := [rec1 0x3002] } []).rings.opened, ¬Folds y 0x3001 1 0)
    ∧ admitBelow 3 ≤ evrUsed (recorder { part := List.replicate 3584 (rec1 1) } [ev 0x3001 3]) ∧ evrUsed (recorder {} [ev 0x3001 3]) < admitBelow 3 ∧ evrEn (recorder {} []) = true
    ∧ evrEn (silent {}) = false ∧ SeqRoom (recorder {} []) 1 ∧ (recorder { opened := [rec1 1] } []).rings.opened = [rec1 1] ∧ (rec1 1).at_ + 1 ≤ ({ recorder {} [] with clock := 1 }).clock
    ∧ (recorder {} []).clock < (rec1 1).at_ + 1 ∧ (recorder { part := [rec1 1] } []).rings.part ≠ [] ∧ Admits (recorder {} []) core0 0x06 0x11C 1
    ∧ (recorder { dropRec := some (rec1 1) } []).rings.dropRec = some (rec1 1) ∧ evrUsed (recorder { dropRec := some (rec1 1) } []) < 4096 ∧ (recorder {} []).rings.drops.length = 5 := by
  decide +kernel

theorem witness_RecorderWork_posts : Admits (post 0x3001 {}) core0 0x06 0x1020 1 ∧ PostOk (post 0x33001 {}) 0x1000 ∧ ¬PostOk (post 0x53001 {}) 0x1000
    ∧ ¬PostOk (post 0x3D001 {}) 0x1000 ∧ ¬PostOk (post 0x30003 {}) 0x1000 ∧ PostOk (post 0x30004 {}) 0x1000 ∧ Word.fld (rd (post 0x33001 {}) 0x06 0x1000) 18 16 = 3
    ∧ Word.bit (rd (post 0x33001 {}) 0x06 0x1000) 19 = false ∧ Word.bit (rd (post 0x33001 {}) 0x06 0x1000) 20 = false ∧ coalEn (post 0x33001 {}) = true
    ∧ (∃ y ∈ (post 0x33001 { opened := [{ rec1 0x3001 with block := 0 }] }).rings.opened, Folds y 0x3001 0 0) ∧ evrUsed (post 0x33001 {}) < admitBelow 3
    ∧ admitBelow 3 ≤ evrUsed (post 0x33001 { part := List.replicate 3584 (rec1 1) }) ∧ Word.bit (rd (post 0xB3001 {}) 0x06 0x1000) 19 = true := by decide +kernel

theorem witness_RecorderWork_next : NextPage (recorder {} []) 0 := ⟨0, by decide, by decide, by decide +kernel, fun _ h => absurd h (by omega)⟩

theorem witness_RecorderWork_pages : Admits (recorder {} []) core0 0x06 0x200C 1 ∧ (recorder { pages := [[rec1 1]] } []).rings.pages = [[rec1 1]] ∧ (recorder {} []).rings.part.length < 8
    ∧ (∃ x ∈ [rec1 1], ∀ y ∈ storeRecs (recorder {} []), y.seq ≠ x.seq) ∧ (recorder { pages := [[rec1 1]], waitClear := [⟨5, 2, none, some 2⟩] } []).rings.waitClear = [⟨5, 2, none, some 2⟩] ∧ (Tbl.find (responder []).ports 2).isSome = true := by decide +kernel

theorem witness_RecorderWork_stored : ∀ x ∈ [rec1 1], ∃ y ∈ storeRecs (inStore (recorder {} []) (rec1 1)), y.seq = x.seq := by
  intro x hx
  have h : x.seq ∈ (storeRecs (inStore (recorder {} []) (rec1 1))).map (·.seq) := by
    rw [storeSeqs_inStore, List.mem_singleton.mp hx]; decide
  simpa using h

theorem witness_RecorderWork_enable : Admits (silent {}) core0 0x06 0x100 3 ∧ (silent {}).rings.started = false ∧ (silent { started := true }).rings.started = true ∧ seqStart (silent {}) = 0
    ∧ (∀ y ∈ (silent { opened := [{ rec1 1 with single := true }] }).rings.opened, y.single = true ∨ y.at_ + 1 ≤ 0)
    ∧ (∀ y ∈ (silent { opened := [rec1 1] }).rings.opened, y.single = false ∧ (silent {}).clock < y.at_ + 1) ∧ (silent {}).aon.ring = [] ∧ Word.bit 3 0 = true ∧ Word.bit 2 0 = false
    ∧ (silent { saved := [rec1 1] }).rings.saved.filter (fun x => !(storeRecs (silent {})).any fun y => y.seq = x.seq) = [rec1 1] := by decide +kernel

theorem witness_RecorderWork_clears : CmdReady (erasing token { nonce := some (List.replicate 32 7, 600) }) cmd7 true 0xC6 (adminCmd 0xC6 1 0 token) ∧ Word.fld (adminCmd 0xC6 1 0 token).sqe.cdw10 3 0 = 1
    ∧ (erasing token {}).clock < 600 ∧ (∃ k ∈ (erasing token {}).fus.usable, 1 ≤ k) ∧ token.take 32 = List.replicate 32 7 ∧ zeroBytes token 48 64 = true
    ∧ (token.drop 32).take 8 = leBytes 4 (Tbl.getD (erasing token {}).fus.eff 8 0).toNat ++ leBytes 4 (Tbl.getD (erasing token {}).fus.eff 9 0).toNat
    ∧ lastClosed (erasing token {}) = some 8 ∧ leNat ((token.drop 40).take 8) = 5 := by decide +kernel

theorem witness_RecorderWork_closed : lastClosed (inStore (erasing token {}) (rec1 1)) = some 8 := by
  have h : ((closedRecs (inStore (erasing token {}) (rec1 1))).map (·.seq)) = [0] := by
    simp only [closedRecs, List.map_append, storeSeqs_inStore]; rfl
  have hn : seqNext (inStore (erasing token {}) (rec1 1)) = 9 := by decide +kernel
  unfold lastClosed
  rw [h, hn]; rfl

theorem witness_RecorderWork_clearsNow : ClearsNow (erasing token {}) 5 5 := ⟨by decide, rfl, rfl, rfl, 8, by decide +kernel, by decide⟩

theorem witness_RecorderWork_sector : SectorOld (inStore (erasing token {}) (rec1 1)) 5 0 := by
  refine ⟨⟨0, by rw [storeUsed_inStore]; decide, by decide⟩, fun p hp _ r hr => ?_⟩
  rw [storeUsed_inStore, List.mem_singleton] at hp
  subst hp
  rw [storeAt_inStore] at hr
  have h : r.seq ∈ (pageRecs (pageImage [rec1 1])).map (·.seq) := List.mem_map_of_mem hr
  rw [page_good, List.mem_singleton] at h
  omega

theorem witness_RecorderWork_spdm : spdmHere (responder [session1]) none = true ∧ spdmHere (responder [session1]) (some 2) = true ∧ spdmHere (responder [session1]) (some 3) = false
    ∧ sessionOf (responder [session1]) 1 = some session1 ∧ (responder [session1]).rings.clearUsed = false ∧ ({ responder [session1] with rings := { clearUsed := true } }).rings.clearUsed = true
    ∧ lastClosed (wr (responder []) 0x06 0x10C 9) = some 8 := by decide +kernel

theorem witness_ManagementAndTemperature : spdmHere (responder []) none = true ∧ blkRetired (responder []) 0x0B = false ∧ freeGcm (responder []) = [0, 1] ∧ sessionOf (responder []) 1 = none
    ∧ 16 ≤ (responder (List.replicate 16 { id := 3 })).sec.sessions.length ∧ sessionOf (responder [session1]) 1 = some session1
    ∧ sessionOf (responder [{ id := 1, alive := false }]) 1 = some { id := 1, alive := false } ∧ spdmUp State.reset = false
    ∧ blkRetired { responder [] with blk := [(0x0B, { st := .retired })] } 0x0B = true ∧ (responder []).dev.crown = true ∧ (responder []).pwr.flush = none ∧ (responder []).dev.ready = false
    ∧ (responder []).dev.rstn = false ∧ ({ responder [] with pwr := { cstate := .charging } }).pwr.cstate = .charging
    ∧ LossQuiet { responder [] with dev := { crown := true, ready := true } } := by decide +kernel

theorem witness_ManagementAndTemperature_logs : Tbl.find ({ responder [] with rings := { snaps := [(0xFFFF, (3, 9))] } }).rings.snaps 0xFFFF = some (3, 9)
    ∧ (ringsSpan { wr (responder []) 0x06 0x10C 9 with rings := { part := [{ rec1 1 with seq := 2 }], snaps := [(0xFFFF, (3, 9))] } }).1 = 2
    ∧ (ringsSpan { wr (responder []) 0x06 0x10C 9 with rings := { part := [{ rec1 1 with seq := 8 }], snaps := [(0xFFFF, (3, 9))] } }).1 = 8
    ∧ 388 ≤ rdF (wr (powered {}) 0 0x118 390) 0 0x118 15 0 ∧ LossQuiet (wr (powered {}) 0 0x118 390) ∧ (powered {}).pwr.cstate ≠ .off ∧ rdF (powered {}) 0 0x118 15 0 < 388
    ∧ (powered {}).pwr.pl = false ∧ (powered {}).pwr.flush = none := by decide +kernel

theorem witness_ManagementAndTemperature_pins : pwrGood State.reset = false ∧ pwrGood { State.reset with pwr := { State.reset.pwr with cstate := .protected_ } } = true
    ∧ Word.bit (rd State.reset 0x00 0x134) 8 = true ∧ devState { State.reset with dev := { State.reset.dev with fault := true } } = 3 ∧ ({ lit := true } : Hqe).lit = true := by decide +kernel

/-! ### The host ports -/

/-- Step 4 has ended, blocks run, and port 0 is in a state. -/
def linked (x : Port) : State := { (up [0x10]) with dev := { State.reset.dev with step4 := true }, ports := [(0, x)] }
/-- A port whose PERST# is deasserted. -/
def portAt (l : Ltssm) : Port := { ltssm := l, perst := false, quiet := false }
/-- A port whose link is up, with PF0 ready. -/
def upPort (st : PState) : Port := { (portAt .l0) with pstate := st, dlActive := true, flit := true, width := 16, trained := 16, fns := [(0, { ready := true, bme := true }), (3, { ready := true })], vfEn := true, numVfs := 3 }
def upLink (f : Port → Port) : State := linked (f (upPort .up))
/-- A port without lanes under the straps of reset. -/
def unlaned : State := { linked {} with dev := { State.reset.dev with straps := 0, step4 := true }, ports := [(0, {}), (1, { perst := true })] }
/-- A write command whose one piece of data is asked for. -/
def dataCtx : Ctx := { id := cmd7, tenant := 0, idx := 0, cls := .high, src := .shared, sqe := { opc := 1, cid := 7, nsid := 1 }, nsid := 1, stage := .dataIn }
def fetching (d : Bool) : State := nsAt { lbas := 1024, owner := 0, attached := [3] }
  { upLink fun x => { x with np := [{ tag := 9, mid := 3, purpose := .data cmd7 0 0x1000 64, discard := d }] } with hqe := { ctxs := [dataCtx] } }

theorem witness_PortLinks_training : portMayTrain (linked (portAt .detect)) 0 = true ∧ (portOf (linked (portAt .detect)) 0).ltssm = .detect ∧ portMayTrain (linked {}) 0 = false
    ∧ (portOf (linked (portAt .hotReset)) 0).ltssm = .hotReset ∧ portMayTrain (linked (portAt .hotReset)) 0 = true ∧ portMayTrain (linked (portAt .polling)) 0 = true
    ∧ PortIdle (linked (portAt .polling)) 0 ∧ PortQuiet (upLink id) 0 ∧ portPresent (upLink id) 0 = true ∧ (portOf (upLink id) 0).dlActive = true ∧ (portOf (linked {}) 0).dlActive = false
    ∧ portPresent (linked {}) 0 = true ∧ (portOf (linked {}) 0).perst = true ∧ portPresent unlaned 1 = false ∧ (portOf unlaned 1).perst = true ∧ (portOf (upLink id) 0).perst = false
    ∧ (portOf (linked (portAt .configuration)) 0).ltssm = .configuration := by decide +kernel

theorem witness_PortLinks_control : Admits (upLink id) core0 (portRgn 0) 0x100 0x1A3 ∧ Admits (upLink id) core0 (portRgn 0) 0x100 0x1A1 ∧ Admits (upLink id) core0 (portRgn 0) 0x100 0x1A0 ∧ Word.bit (0x1A3 : Word) 1 = true ∧ Word.bit (0x1A1 : Word) 1 = false
    ∧ Word.bit (rd (upLink id) (portRgn 0) 0x100) 0 = true ∧ Word.bit (0x1A0 : Word) 0 = false ∧ (portOf (upLink id) 0).np = [] ∧ (upLink id).ftl.hmbMem = []
    ∧ (portOf (linked (portAt .polling)) 0).ltssm = .polling ∧ Word.bit (rd (wr (linked (portAt .detect)) 0x10 0x100 0x1A0) (portRgn 0) 0x100) 0 = false
    ∧ (portOf (wr (linked (portAt .detect)) 0x10 0x100 0x1A0) 0).ltssm = .detect := by decide +kernel

theorem witness_PortLinks_errors : (portOf (upLink id) 0).flit = true ∧ (portOf (upLink fun x => { x with flit := false }) 0).flit = false ∧ 3 ≤ (portOf (upLink fun x => { x with replays := 3 }) 0).replays
    ∧ (portOf (linked (portAt .recovery)) 0).ltssm = .recovery ∧ (portOf (linked (portAt .recovery)) 0).pstate = .down ∧ (portOf (upLink id) 0).pstate = .up
    ∧ Admits (upLink id) core0 (portRgn 0) 0x110 2 ∧ (portOf (linked (upPort .contained)) 0).pstate = .contained ∧ (portOf (linked (upPort .contained)) 0).dlActive = true
    ∧ PortIdle (linked (upPort .contained)) 0 ∧ PortQuiet (linked (upPort .contained)) 0 ∧ (portOf (linked { upPort .contained with dlActive := false }) 0).dlActive = false
    ∧ (portOf (upLink id) 0).ltssm = .l0 ∧ 8 ≤ (portOf (upLink id) 0).trained ∧ (portOf (upLink id) 0).cxl = false ∧ Word.bit (portOf (upLink id) 0).link 8 = true
    ∧ (portOf (upLink fun x => { x with cxl := true }) 0).cxl = true ∧ (portOf (upLink fun x => { x with ltssm := .l1 }) 0).ltssm ≠ .l0 := by decide +kernel

theorem witness_PortRequests_completions : (portOf (fetching false) 0).np = [{ tag := 9, mid := 3, purpose := .data cmd7 0 0x1000 64 }] ∧ dataCtx.id = cmd7 ∧ 3 = dataCtx.id.mid ∧ (fetching false).hqe.ctxs = [dataCtx]
    ∧ dataCtx.want = [] ∧ dataCtx.twant = [] ∧ dataCtx.got = [] ∧ isNvmWrite (fetching false) dataCtx = true ∧ (fetching false).grv.execs = [] ∧ (portOf (fetching false) 0).pstate = .up
    ∧ (fetching false).ftl.hmbMem = [] ∧ (∀ f ∈ (portOf (fetching false) 0).fns, f.2.pba = []) ∧ (fetching false).dev.fault = false
    ∧ (portOf (fetching false) 0).ctoOff = false ∧ (portOf (fetching true) 0).np.find? (fun y => y.tag = 9) = some { tag := 9, mid := 3, purpose := .data cmd7 0 0x1000 64, discard := true }
    ∧ (∀ n ∈ (portOf (fetching true) 0).np, n.tag ≠ 8) ∧ (portOf (upLink fun x => { x with np := [{ tag := 9, mid := 3, purpose := .entries 3 1 0 [] }] }) 0).np.find? (fun y => y.tag = 9)
      = some { tag := 9, mid := 3, purpose := .entries 3 1 0 [] } := by decide +kernel

/-- BAR2 of port 0, which Crown's Bark entries admit for PF0's tenant only where firmware has opened them. -/
def bar2State (l : List Bar2) (r : List TrkReq) : State := { upLink (fun x => { x with bar2 := l }) with trunk := { reqs := r } }
def openBar2 : State := setBark (bar2State [] []) 0x10 0 ⟨0, 0x3FFF0000, 0xFFFFFFFF, 0x9800FFFF⟩
def bar2Get : Acc := carriedAcc openBar2 (bar2Acc openBar2 0x10003C 4 0 .read)

theorem witness_PortRequests_bar2 : bar2Up (bar2State [] []) = true ∧ bar2Up (linked {}) = false ∧ bar2Fits 0x10003C 4 = true ∧ bar2Fits 2 4 = false ∧ (fnOf (bar2State [] []) (mgmtPf (bar2State [] []))).d3hot = false
    ∧ isBcast (regPlace bar2Get).1 = false ∧ trunkAdmits openBar2 bar2Get = true ∧ trunkAdmits (bar2State [] []) bar2Get = false
    ∧ (regSpace (bar2State [] []) (carriedAcc (bar2State [] []) (bar2Acc (bar2State [] []) 0x10003C 4 7 .write))).1 = .denied
    ∧ Word.bit (rd (regSpace (bar2State [] []) (carriedAcc (bar2State [] []) (bar2Acc (bar2State [] []) 0x10003C 4 7 .write))).2.2 0x10 0x134) 0 = false
    ∧ (regSpace openBar2 (carriedAcc openBar2 (bar2Acc openBar2 0x10003C 4 7 .write))).1 = .ok
    ∧ (portOf (bar2State [{ id := 4, off := 0x3C, size := 4 }] []) (mgmtPort (bar2State [{ id := 4, off := 0x3C, size := 4 }] []))).bar2 = [{ id := 4, off := 0x3C, size := 4 }]
    ∧ takeFirst (fun y : Bar2 => y.id = 4 && y.timedOut) [{ id := 4, off := 0x3C, size := 4, timedOut := true }] = some ({ id := 4, off := 0x3C, size := 4, timedOut := true }, [])
    ∧ takeFirst (fun r : TrkReq => r.id = 4) [⟨4, ⟨core0, 0x100000000, 4, .read, 0⟩, 0⟩] = some (⟨4, ⟨core0, 0x100000000, 4, .read, 0⟩, 0⟩, [])
    ∧ barUp (upLink id) 3 = true ∧ barUp (linked {}) 3 = false ∧ barFits (barSize 3 false) 0x1008 4 = true ∧ barFits (barSize 3 false) 0x1002 4 = false ∧ barOpen 3 0x1008 false = true
    ∧ barOpen 3 0 false = false ∧ (ctrlOf (upLink id) 3).en = false ∧ 0x20 < 16 * msixVectors 3 ∧ (fnOf (upLink id) 3).pba = [] ∧ barFits (barSize 3 true) 0x20 4 = true := by decide +kernel

theorem witness_PortRequests_functions : (portOf (upLink id) 0).dlActive = true ∧ fnPresent (upLink id) 4 = false ∧ fnPresent (upLink id) 3 = true ∧ fnPresent (upLink id) 2 = true ∧ (fnOf (upLink id) 2).ready = false
    ∧ (fnOf (upLink id) 3).ready = true ∧ (fnOf (upLink id) 3).flrPend = false ∧ PortIdle (upLink id) 0 ∧ (fnOf (upLink id) 0).bme = true ∧ (fnOf (upLink id) 0).d3hot = false ∧ (fnOf (upLink id) 0).ready = true
    ∧ (fnOf (upLink fun x => { x with fns := [(0, { flrPend := true }), (3, { flrPend := true })] }) 3).flrPend = true ∧ (fnOf (upLink fun x => { x with fns := [(0, { flrPend := true })] }) 0).flrPend = true
    ∧ cfgOpen true (cfgOff (.other 0x1A4)) = true ∧ cfgOpen true (cfgOff .devCtl) = false ∧ (fnOf (upLink id) 3).bme = false ∧ (upLink id).dev.dormant = false
    ∧ (portOf (upLink id) 0).vfEn = true ∧ (portOf (upLink fun x => { x with vfEn := false }) 0).vfEn = false := by decide +kernel

theorem witness_PortRequests_doe : (portOf (upLink id) 0).doe.busy = false ∧ (portOf (upLink fun x => { x with doe := { busy := true, intEn := true } }) 0).doe.busy = true
    ∧ (portOf (upLink fun x => { x with doe := { intEn := true } }) 0).doe.intEn = true ∧ leNat (([2, 0, 0, 0] : List Byte).take 1) = (2 : Fin 4).val
    ∧ (doeAnswer (upLink id) 0 1 0 [2, 0, 0, 0]).isSome = true ∧ (fnOf (upLink fun x => { x with fns := [(0, { ready := true, bme := true, msixEn := true, msixTab := [(3, 0)] })] }) 0).msixEn = true
    ∧ vecMasked (fnOf (upLink fun x => { x with fns := [(0, { ready := true, bme := true, msixEn := true, msixTab := [(3, 0)] })] }) 0) 0 = false ∧ hostOpen (upLink id) 0 = true := by decide +kernel

/-! ### Host commands -/

/-- Port 0 up with PF0 and VF3 ready and with Bus Master Enable. -/
def hostPort : Port := { upPort .up with fns := [(0, { ready := true, bme := true }), (3, { ready := true, bme := true, msixEn := true })] }
/-- A device that serves hosts, with HQE in a state. -/
def host (h : Hqe) : State := { oneSlot 1 63 with dev := { State.reset.dev with step4 := true, ready := true, crown := true }, ports := [(0, hostPort)], hqe := h }
/-- A controller that is ready, with requests for asynchronous events. -/
def live (l : List Nat) : Ctrl := { en := true, rdy := true, aers := l }
/-- An SQ with one entry. -/
def oneEntry : Sq := { size := 4, head := 3, tail := 0, cq := 1 }
/-- A controller with I/O queues of identifier 1. -/
def queues (q : Sq) (k : Cq) (l : List Nat) (c : List Ctx) : State := host { ctrls := [(3, live l)], sqs := [(3 * 65536 + 1, q)], cqs := [(3 * 65536 + 1, k)], ctxs := c }
def doneCtx (st : Status) : Ctx := { id := cmd7, tenant := 0, idx := 2, cls := .high, src := .shared, sqe := { opc := 2, cid := 7, nsid := 1 }, nsid := 1, stage := .done, status := some st, moved := true }
def aerCtx (n : Nat) : Ctx := { id := ⟨3, 0, n⟩, tenant := 0, idx := 0, cls := .high, src := .reserve, admin := true, sqe := { opc := 0x0C, cid := n }, stage := .waiting }
/-- An admin command of controller 3 that has been dispatched. -/
def adm (opc : Nat) (d10 d11 d12 : Word) (data : List Byte) : Ctx :=
  { id := ⟨3, 0, 9⟩, tenant := 0, idx := 0, cls := .high, src := .reserve, admin := true, sqe := { opc := opc, cid := 9, cdw10 := d10, cdw11 := d11, cdw12 := d12 }, stage := .ready, data := data }
/-- One entry of an SQ is on its way. -/
def due (sqid : Nat) (d : Bool) (h : Hqe) : State :=
  { host { h with ctrls := [(3, live [])], sqs := [(3 * 65536 + sqid, { size := 4 })] } with ports := [(0, { hostPort with np := [{ tag := 9, mid := 3, purpose := .entries 3 sqid 0 [(.high, .reserve)], discard := d }] })] }
def readEntry : Sqe := { opc := 2, cid := 7, nsid := 1, prp1 := 0x1000 }
/-- A controller that is enabled and not ready yet. -/
def starting (r : Bool) : State := { host { ctrls := [(3, { en := true })], vwc := false } with dev := { State.reset.dev with dormant := true, ready := r }, ten := { applied := true } }
def frozenSq : Sq := { oneEntry with st := .frozen, latch := 3 }
/-- An ordered SQ with a command that has failed, and a later one. -/
def ordered (c : List Ctx) : State := queues { oneEntry with ordered := true } { size := 4 } [] c
def later : Ctx := { doneCtx stOk with id := ⟨3, 1, 8⟩, stage := .ready, status := none, moved := false }
/-- The target of an Abort. -/
def target (st : Stage) : Ctx := { doneCtx stOk with stage := st, status := none, moved := false }
/-- The state of `due` with a namespace of 4 MiB. -/
def dueNs (sqid : Nat) : State := nsAt { lbas := 1024, attached := [3] } (due sqid false {})
/-- The oldest request of the port in `due`. -/
def dueReq (sqid : Nat) (d : Bool) : NpReq := { tag := 9, mid := 3, purpose := .entries 3 sqid 0 [(.high, .reserve)], discard := d }
def arrival (sqid : Nat) (e : Sqe) : Ctx := entryCtx (due sqid false {}) 3 sqid 0 .high .reserve e

theorem witness_HostQueues_doorbells : (queues oneEntry { size := 4 } [] []).dev.fault = false ∧ ctrlOf (queues oneEntry { size := 4 } [] []) 3 = live [] ∧ (live []).en = true ∧ (live []).psReq < 3
    ∧ sqOf (queues oneEntry { size := 4 } [] []) 3 1 = some oneEntry ∧ oneEntry.st = .active ∧ oneEntry.head ≠ 1 ∧ 3 ≤ (ctrlOf (host { ctrls := [(3, { live [] with psReq := 4 })] }) 3).psReq
    ∧ sqOf (queues { oneEntry with st := .errored } { size := 4 } [] []) 3 1 = some { oneEntry with st := .errored } ∧ sqOf (queues oneEntry { size := 4 } [5] [aerCtx 5]) 3 2 = none
    ∧ cqOf (queues oneEntry { size := 4 } [] []) 3 1 = some { size := 4 } ∧ cqOf (queues oneEntry { size := 4 } [5] [aerCtx 5]) 3 2 = none ∧ (ctrlOf (host {}) 3).en = false
    ∧ (1 + 4 - 0) % 4 ≤ [(⟨1, 3, 7, stOk, 0, 0, true⟩ : Cqe)].length ∧ ctxOf (queues oneEntry { size := 4 } [5] [aerCtx 5]) ⟨3, 0, 5⟩ = some (aerCtx 5) := by decide +kernel

theorem witness_HostQueues_fetch : (queues oneEntry { size := 4 } [] []).hqe.ctrls = [(3, live [])] ∧ sqFetchable (queues oneEntry { size := 4 } [] []) 3 1 oneEntry = true
    ∧ oneEntry.tail = (oneEntry.head + 1) % oneEntry.size ∧ drawOne (queues oneEntry { size := 4 } [] []) 3 false [] = some .reserve ∧ 1 ≤ rdF (queues oneEntry { size := 4 } [] []) 0x0D 0x120 3 0
    ∧ 1 ≤ portWeight (queues oneEntry { size := 4 } [] []) 0 ∧ npOut (queues oneEntry { size := 4 } [] []) 0 < 4096 ∧ (queues oneEntry { size := 4 } [] []).hqe.deficit = []
    ∧ tokensOf (queues oneEntry { size := 4 } [] []) 0 = 32 ∧ urgRate (queues oneEntry { size := 4 } [] []) 0 ≠ 0xFFFFFF ∧ tokensOf (host { tokens := [(0, 0)] }) 0 = 0 := by decide +kernel

theorem witness_HostQueues_arrival : (portOf (due 1 false {}) 0).np = [dueReq 1 false] ∧ (∀ y ∈ (portOf (due 1 false {}) 0).np, y.tag ≠ 8) ∧ (portOf (due 1 true {}) 0).np = [dueReq 1 true]
    ∧ (portOf (upLink fun x => { x with np := [{ tag := 9, mid := 3, purpose := .entries 3 1 0 [] }] }) 0).np.find? (·.tag = 9) = some { tag := 9, mid := 3, purpose := .entries 3 1 0 [] }
    ∧ (portOf (fetching false) 0).np.find? (·.tag = 9) = some { tag := 9, mid := 3, purpose := .data cmd7 0 0x1000 64 } ∧ sqOf (due 1 false {}) 3 1 = some { size := 4 } ∧ (due 1 false {}).dev.fault = false
    ∧ (due 1 false { ctxs := [doneCtx stOk] }).hqe.ctxs = [doneCtx stOk] ∧ (doneCtx stOk).id = ⟨3, 1, 7⟩ ∧ adminMay (due 0 false {}) 3 { opc := 0x19, cid := 7 } = false
    ∧ adminMay (due 0 false {}) 3 { opc := 0x08, cid := 7 } = true ∧ (due 1 false {}).ftl.replayDue = false ∧ ioCheck (due 1 false {}) (arrival 1 readEntry) = some stInvalidNs
    ∧ sqeReserved (due 0 false {}) (arrival 0 { opc := 0x0C, cid := 7, cdw10 := 1 }) = true ∧ sqeReserved (dueNs 1) (arrival 1 { readEntry with cdw13 := 0x100 }) = true
    ∧ ioCheck (dueNs 1) (arrival 1 { readEntry with cdw13 := 0x100 }) = none := by decide +kernel

theorem witness_HostQueues_pointers : EntryPasses (dueNs 1) (arrival 1 readEntry) ∧ (xferOf (dueNs 1) (arrival 1 readEntry)).toHost = 4096 ∧ (xferOf (dueNs 1) (arrival 1 readEntry)).ofHost = 0 ∧ readEntry.psdt = 0
    ∧ readEntry.prp1 % 4 = 0 ∧ 4096 ≤ pageSize (dueNs 1) 3 - readEntry.prp1 % pageSize (dueNs 1) 3 ∧ EntryPasses (dueNs 1) (arrival 1 { readEntry with prp1 := 2 }) ∧ EntryPasses (dueNs 0) (arrival 0 { opc := 0x08, cid := 7 })
    ∧ EntryPasses (dueNs 0) (arrival 0 { opc := 0x09, cid := 7, cdw10 := 0x0B, cdw11 := 0x100 }) ∧ (adminXfer { opc := 0x09, cid := 7, cdw10 := 0x0B }).ofHost = 0 ∧ (dueNs 1).ftl.moving = [] ∧ hostOpen (dueNs 1) 3 = true
    := by decide +kernel

theorem witness_HostQueues_lists : EntryPasses (dueNs 1) (arrival 1 { opc := 9, cid := 7, nsid := 1, cdw11 := 4, prp1 := 0x1000 }) ∧ (xferOf (dueNs 1) (arrival 1 { opc := 9, cid := 7, nsid := 1, cdw11 := 4, prp1 := 0x1000 })).ofHost = 16
    ∧ EntryPasses (dueNs 1) (arrival 1 { readEntry with cdw12 := 2, prp2 := 0x2000 }) ∧ (xferOf (dueNs 1) (arrival 1 { readEntry with cdw12 := 2 })).toHost = 12288
    ∧ EntryPasses (dueNs 1) (arrival 1 { readEntry with cdw12 := 2, prp2 := 0x2004 }) ∧ EntryPasses (dueNs 1) (arrival 1 { readEntry with cdw12 := 1023 })
    ∧ 2 ^ 21 < (xferOf (dueNs 1) (arrival 1 { readEntry with cdw12 := 1023 })).toHost := by decide +kernel

theorem witness_HostQueues_post : ctxOf (queues oneEntry { size := 4 } [] [doneCtx stOk]) cmd7 = some (doneCtx stOk) ∧ hostOpen (queues oneEntry { size := 4 } [] [doneCtx stOk]) 3 = true
    ∧ (queues oneEntry { size := 4 } [] [doneCtx stOk]).pwr.pl = false ∧ mapWaits (queues oneEntry { size := 4 } [] [doneCtx stOk]) cmd7 = false ∧ oneEntry.resume = none ∧ (doneCtx stOk).bufs = []
    ∧ (fnOf (queues oneEntry { size := 4 } [] []) 3).msixEn = true ∧ vecMasked (fnOf (queues oneEntry { size := 4 } [] []) 3) 0 = true
    ∧ Signals { host {} with ports := [(0, { hostPort with fns := [(3, { msixEn := true, msixTab := [(3, 0)] })] })] } 3 { size := 4 }
    ∧ (ordered [doneCtx stUnrecRead, later]).hqe.ctxs = [doneCtx stUnrecRead, later] ∧ later.id.sqid = 1 ∧ later.id ≠ cmd7 ∧ stUnrecRead ≠ stOk ∧ mapWaits (ordered [doneCtx stUnrecRead, later]) cmd7 = false
    ∧ mapWaits (ordered [later, doneCtx stOk]) cmd7 = true ∧ (portOf (ordered []) 0).np = [] := by decide +kernel

theorem witness_HostQueues_queues : CmdReady (host { ctxs := [adm 0x05 0x00030001 0x00020003 0 []] }) ⟨3, 0, 9⟩ true 0x05 (adm 0x05 0x00030001 0x00020003 0 []) ∧ allotOf (host {}) 3 = 16 ∧ ioCqs (host {}) < 16384
    ∧ 64 ≤ msixVectors 3 ∧ CmdReady (host { ctxs := [adm 0x01 0x00030001 0x00010003 0 []] }) ⟨3, 0, 9⟩ true 0x01 (adm 0x01 0x00030001 0x00010003 0 []) ∧ ioSqs (host {}) < 16384
    ∧ CmdReady (queues oneEntry { size := 4 } [] [adm 0x04 1 0 0 []]) ⟨3, 0, 9⟩ true 0x04 (adm 0x04 1 0 0 []) ∧ CmdReady (queues oneEntry { size := 4 } [] [adm 0x00 1 0 0 []]) ⟨3, 0, 9⟩ true 0x00 (adm 0x00 1 0 0 [])
    ∧ (∃ q ∈ (queues oneEntry { size := 4 } [] []).hqe.sqs, q.1 / 65536 = 3 ∧ q.2.cq = 1) ∧ (∀ q ∈ (queues { oneEntry with cq := 2 } { size := 4 } [] []).hqe.sqs, q.2.cq ≠ 1)
    ∧ ctxOf (host {}) cmd7 = none ∧ sqOf (queues { oneEntry with resume := some (⟨3, 0, 5⟩, 0) } { size := 4 } [] [aerCtx 5]) 3 1 = some { oneEntry with resume := some (⟨3, 0, 5⟩, 0) } := by decide +kernel

theorem witness_HostQueues_abort : CmdReady (host { ctxs := [adm 0x08 0x00070001 0 0 []] }) ⟨3, 0, 9⟩ true 0x08 (adm 0x08 0x00070001 0 0 []) ∧ Word.fld (0x00070001 : Word) 31 16 = 7 ∧ Word.fld (0x00070001 : Word) 15 0 = 1
    ∧ ctxOf (host { ctxs := [adm 0x08 0x00070001 0 0 [], target .ready] }) cmd7 = some (target .ready) ∧ ctxOf (host { ctxs := [adm 0x08 0x00070001 0 0 [], target .held] }) cmd7 = some (target .held)
    ∧ (target .ready).admin = false ∧ (target .ready).sqe.opc ≠ 0 ∧ (host {}).grv.execs = [] ∧ (host {}).ldc.cws = [] ∧ (host {}).bpm.waiters = []
    ∧ ({ host { ctxs := [adm 0x08 0x00070001 0 0 [], target .waiting] } with grv := { execs := [exec7] } }).grv.execs = [exec7] ∧ exec7.cmd = cmd7 ∧ exec7.engine = some 18
    ∧ 8 ≤ countOf (fun y : Ctx => y.id.mid = 3 && y.admin && y.sqe.opc = 0x08 && y.id ≠ ⟨3, 0, 9⟩)
        (((List.range 8).map (fun k => ({ adm 0x08 0 0 0 [] with id := ⟨3, 0, 20 + k⟩ } : Ctx)) ++ [adm 0x08 0 0 0 []]).takeWhile fun y : Ctx => y.id ≠ ⟨3, 0, 9⟩) := by decide +kernel

theorem witness_HostQueues_resume : CmdReady (host { ctxs := [adm 0x0C 0 0 0 []] }) ⟨3, 0, 9⟩ true 0x0C (adm 0x0C 0 0 0 []) ∧ CmdReady (queues frozenSq { size := 4 } [] [adm 0xC4 1 3 0 []]) ⟨3, 0, 9⟩ true 0xC4 (adm 0xC4 1 3 0 [])
    ∧ 8 ≤ (ctrlOf (queues frozenSq { size := 4 } (List.range 8) []) 3).aers.length ∧ sqOf (queues frozenSq { size := 4 } [] []) 3 1 = some frozenSq ∧ frozenSq.resume = none
    ∧ (3 + frozenSq.size - (frozenSq.latch + frozenSq.size - 1) % frozenSq.size) % frozenSq.size ≤ (frozenSq.tail + frozenSq.size - (frozenSq.latch + frozenSq.size - 1) % frozenSq.size) % frozenSq.size
    ∧ entriesDue (queues frozenSq { size := 4 } [] [adm 0xC4 1 3 0 []]) 3 1 = false ∧ entriesDue (due 1 false {}) 3 1 = true
    ∧ sqOf (queues { frozenSq with resume := some (⟨3, 0, 5⟩, 0) } { size := 4 } [] []) 3 1 = some { frozenSq with resume := some (⟨3, 0, 5⟩, 0) } := by decide +kernel

theorem witness_HostQueues_controllers : (ctrlOf (queues oneEntry { size := 4 } [] []) 3).en = true ∧ PortIdle (queues oneEntry { size := 4 } [] []) 0 ∧ (queues oneEntry { size := 4 } [] []).ftl.hmbMem = []
    ∧ (ctrlOf (host {}) 3).en = false ∧ fnPresent (host {}) 3 = true ∧ fnPresent (host {}) 4 = false ∧ powerUpDone (starting false) = true ∧ (ctrlOf (starting false) 3).rdy = false ∧ (starting true).dev.ready = true
    ∧ (starting false).dev.fault = false ∧ (starting false).ten.applied = true ∧ (starting false).graft.trial = false ∧ (starting false).hqe.vwc = false ∧ (host {}).hqe.vwc = true ∧ (host {}).cpc.rus = []
    ∧ powerUpDone (host {}) = false ∧ (ctrlOf (host { ctrls := [(3, { en := true, shst := 1 })] }) 3).shst = 1 ∧ (host {}).ftl.pwt = [] := by decide +kernel

/-- DRAM is trained, Crown's firmware runs, and the settings have not been applied. -/
def restored (r : Bool) : State :=
  { host { ctrls := [(3, { en := true })] } with
    dev := { State.reset.dev with step4 := true, crown := true, ready := r }, dmc := { tstate := 3 }
    ten := { nss := [(1, { lbas := 1024, attached := [3] })], saved := { nsOwner := [(1, 5)] } } }

theorem witness_HostQueues_restored : powerUpDone (restored false) = true ∧ (ctrlOf (restored false) 3).en = true ∧ (ctrlOf (restored false) 3).rdy = false ∧ (restored false).ten.applied = false
    ∧ (restored false).dev.dormant = false ∧ (restored false).dev.fault = false ∧ nsOf (restored false) 1 = some { lbas := 1024, attached := [3] } := by decide +kernel

/-! ### Host I/O commands -/

def ns1 : Ns := { lbas := 1024, owner := 0, attached := [3] }
/-- A command of controller 3 on LBA 0 of namespace 1. -/
def ioCtx (opc : Nat) (st : Stage) (d : List Byte) : Ctx :=
  { id := cmd7, tenant := 0, idx := 2, cls := .high, src := .shared, sqe := { opc := opc, cid := 7, nsid := 1 }, nsid := 1, nlb := 1, stage := st, wseq := 4, data := d }
/-- The same with a buffer. -/
def bufCtx (opc : Nat) : Ctx := { ioCtx opc .dataIn (List.replicate 4 0) with bufs := [dramBase], xlen := 4096 }
/-- A device that serves namespace 1; a table lets every master reach DRAM. -/
def io (n : Ns) (x : Ctx) (v : Bool) (f : Ftl) : State :=
  let s := nsAt n { host { ctxs := [x], vwc := v, ctrls := [(3, { live [] with hostId := 9 })] } with ftl := f, pwr := { State.reset.pwr with cause := 0 } }
  setBark s 0x1B 0 ⟨0, 0x3FFF0000, 0xFFFFFFFF, 0x9A00FFFF⟩
/-- The same with a table that lets none. -/
def ioShut (x : Ctx) : State := setBark (io ns1 x false {}) 0x1B 0 ⟨0, 0, 0, 0⟩
/-- The leaf of MU 0 in frame 3, with an entry. -/
def frame3 (e : Nat) : Frame := { leaf := 0, raw := true, grans := (List.range 10).map fun k => (k, dramBase + 1024 * k), entries := if e = 0 then [] else [(0, e)] }
def leafIn (e : Nat) : Ftl := { frames := [(3, frame3 e)], root := [(0, { tier := .canopy 3 })] }
def pwt0 : Pwt := { gmu := 0, wseq := 2, nsid := 1, mu := 0, tenant := 0, cmd := cmd7, data := [], merged := true }
/-- The records and leaves that the journal takes. -/
def jReady (s : State) : State := wr (wr s 0x0E 0x150 1000) 0x0E 0x14C 1000
def fuaCtx (opc : Nat) : Ctx := { bufCtx opc with sqe := { opc := opc, cid := 7, nsid := 1, cdw12 := 0x40000000 } }
/-- A write with its transfer laid out. -/
def wrCtx : Ctx := { ioCtx 0x01 .ready [] with xlen := 4096, frags := [(0x1000, 4096, false)] }
def reg9 (key rtype : Nat) (h : Option Nat) : Ns := { ns1 with regs := [⟨9, 3, key⟩, ⟨8, 4, 5⟩], rtype := rtype, holder := h }
def resv (opc : Nat) (d10 : Word) : Ctx := { ioCtx opc .ready (leBytes 8 6 ++ leBytes 8 7) with sqe := { opc := opc, cid := 7, nsid := 1, cdw10 := d10 } }
/-- An earlier write of the same SQ and LBA. -/
def earlier : Ctx := { ioCtx 0x01 .dataIn [] with id := ⟨3, 1, 6⟩, wseq := 3 }
/-- The same on an ordered SQ. -/
def ioOrdered (x : Ctx) : State := { io ns1 x false {} with hqe := { ctxs := [earlier, x], sqs := [(3 * 65536 + 1, { size := 4, ordered := true })] } }
/-- The ledger is not valid, and the pending-write table has no room. -/
def ioFull (n : Ns) (x : Ctx) : State := wr { io n x false {} with pwr := { State.reset.pwr with cause := 1 } } 0x0E 0x12C 0
def ioRoom (n : Ns) (x : Ctx) (f : Ftl) : State := wr { io n x false f with pwr := { State.reset.pwr with cause := 1 } } 0x0E 0x12C 9
/-- A pool that gives its owner no buffer. -/
def ioBare (x : Ctx) : State := wr (io ns1 x false {}) 0xC (minOff 0 1 + 4) 0
def got4 : Ctx := ioCtx 0x01 .received (List.replicate 512 7)

theorem witness_HostIo_nothing : ¬CmdReady (io ns1 (bufCtx 0x02) false {}) cmd7 false 0x19 (bufCtx 0x02) ∧ ctxOf (host {}) cmd7 = none ∧ (∀ p ∈ [0x04, 0x05, 0x08, 0x09, 0x0C, 0x0D, 0x0E, 0x11, 0x15, 0x1D], p ≠ (bufCtx 0x02).sqe.opc)
    ∧ isNvmWrite (io ns1 (bufCtx 0x02) false {}) (bufCtx 0x02) = false ∧ nsOf (host {}) 1 = none ∧ (bufCtx 0x02).stage ≠ .received ∧ earlierWrite (ioOrdered wrCtx) wrCtx = true := by decide +kernel

theorem witness_HostIo_writes : ctxOf (ioFull ns1 (ioCtx 0x01 .received [])) cmd7 = some (ioCtx 0x01 .received []) ∧ nsOf (ioFull ns1 (ioCtx 0x01 .received [])) 1 = some ns1
    ∧ (ioFull ns1 (ioCtx 0x01 .received [])).pwr.pl = false ∧ earlierWrite (ioFull ns1 (ioCtx 0x01 .received [])) (ioCtx 0x01 .received []) = false
    ∧ fitsShare (ioFull ns1 (ioCtx 0x01 .received [])) (ioCtx 0x01 .received []) ns1 = true ∧ fitsShare (io ns1 (ioCtx 0x01 .received []) false {}) (ioCtx 0x01 .received []) ns1 = false
    ∧ pwtRoom (ioFull ns1 (ioCtx 0x01 .received [])) 1 = false ∧ pwtRoom (ioRoom ns1 (ioCtx 0x01 .received []) { pwt := [pwt0] }) 1 = true ∧ fitsShare (ioRoom ns1 (ioCtx 0x01 .received []) { pwt := [pwt0] }) (ioCtx 0x01 .received []) ns1 = true
    ∧ muRange ns1 0 1 = [0] ∧ (∀ q ∈ (ioRoom ns1 (ioCtx 0x01 .received []) { pwt := [pwt0] }).ftl.pwt, q.wseq < 4) ∧ ns1.lbaf = 0 := by decide +kernel

theorem witness_HostIo_parts : fitsShare (ioRoom { ns1 with lbaf := 1 } got4 {}) got4 { ns1 with lbaf := 1 } = true ∧ pwtRoom (ioRoom { ns1 with lbaf := 1 } got4 {}) 1 = true ∧ muRange { ns1 with lbaf := 1 } 0 1 = [0]
    ∧ nsOf (ioRoom { ns1 with lbaf := 1 } got4 {}) 1 = some { ns1 with lbaf := 1 } ∧ ctxOf (ioRoom { ns1 with lbaf := 1 } got4 {}) cmd7 = some got4 ∧ mapWaits (ioRoom { ns1 with lbaf := 1 } got4 {}) cmd7 = false
    ∧ got4.data.length = 512 * got4.nlb ∧ Unmapped (ioRoom { ns1 with lbaf := 1 } got4 {}) (gmuOf { ns1 with lbaf := 1 } 0) := by decide +kernel

theorem witness_HostIo_flush : CmdReady (io ns1 (ioCtx 0x00 .ready []) false {}) cmd7 false 0x00 (ioCtx 0x00 .ready []) ∧ (io ns1 (ioCtx 0x00 .ready []) false {}).hqe.vwc = false ∧ (io ns1 (ioCtx 0x00 .ready []) true {}).hqe.vwc = true
    ∧ (io ns1 (ioCtx 0x00 .ready []) true { pwt := [pwt0] }).cpc.rus = [] ∧ CmdReady (io ns1 (ioCtx 0x00 .ready []) true { pwt := [pwt0] }) cmd7 false 0x00 (ioCtx 0x00 .ready []) := by decide +kernel

theorem witness_HostIo_buffers : IoReady (io ns1 wrCtx false {}) cmd7 0x01 wrCtx ns1 ∧ cutFrags (128 * 2 ^ (fnOf { io ns1 wrCtx false {} with ports := [(0, { hostPort with fns := [(3, { bme := true, mrrs := 5 })] })] } 3).mrrs) 0 wrCtx.frags = [(0, 0x1000, 4096)]
    ∧ hostOpen { io ns1 wrCtx false {} with ports := [(0, { hostPort with fns := [(3, { bme := true, mrrs := 5 })] })] } 3 = true ∧ npOut (io ns1 wrCtx false {}) 0 < 4096
    ∧ hostOpen { io ns1 wrCtx false {} with ports := [(0, { hostPort with fns := [(3, { mrrs := 5 })] })] } 3 = false
    ∧ IoReady (io ns1 (ioCtx 0x02 .ready []) false {}) cmd7 0x02 (ioCtx 0x02 .ready []) ns1 := by decide +kernel

theorem witness_HostIo_noBuffer : IoReady (ioBare wrCtx) cmd7 0x01 wrCtx ns1 ∧ classFor (ioBare wrCtx) 4096 = some 1 ∧ (bpmTry (ioBare wrCtx) (ownerOf (ioBare wrCtx) 0) 1 false).1 = none := by decide +kernel

theorem witness_HostIo_noBufferState : (bpmTry (ioBare wrCtx) (ownerOf (ioBare wrCtx) 0) 1 false).2 = ioBare wrCtx := by rfl

/-- The state after the write has asked for its buffer. -/
def asked (s : State) : State := askBufs (ctxUpd s cmd7 fun y => { y with want := [(0, 0x1000, 4096)], got := [] }) wrCtx 4096

theorem witness_HostIo_hasBuffer : ((ctxOf (asked (io ns1 wrCtx false {})) cmd7).any fun y => y.stage = .dataIn) = true ∧ (bufsMay (asked (ioShut wrCtx)) cmd7).1 = false
    ∧ ((ctxOf (asked (ioShut wrCtx)) cmd7).any fun y => y.stage = .dataIn) = true ∧ (bufsMay (asked (io ns1 wrCtx false {})) cmd7).1 = true := by decide +kernel

theorem witness_HostIo_goesOn : ctxOf (io ns1 { wrCtx with stage := .dataIn, bufs := [dramBase], want := [(0, 0x1000, 4096)] } false {}) cmd7 = some { wrCtx with stage := .dataIn, bufs := [dramBase], want := [(0, 0x1000, 4096)] }
    ∧ isNvmWrite (io ns1 wrCtx false {}) wrCtx = true ∧ (bufsMay (ioShut { wrCtx with stage := .dataIn, bufs := [dramBase] }) cmd7).1 = false
    ∧ (bufsMay (io ns1 { wrCtx with stage := .dataIn, bufs := [dramBase], want := [(0, 0x1000, 4096)] } false {}) cmd7).1 = true := by decide +kernel

/-- A buffered command passes where the entry does. -/
theorem witness_HostIo_passes : bufsMay (io ns1 (bufCtx 0x02) false {}) cmd7 = (true, io ns1 (bufCtx 0x02) false {}) := by rfl

theorem witness_HostIo_reads : IoHere (io ns1 (bufCtx 0x02) false {}) cmd7 0x02 (bufCtx 0x02) ns1 ∧ IoHere (io ns1 (bufCtx 0x05) false {}) cmd7 0x05 (bufCtx 0x05) ns1 ∧ IoHere (io ns1 (bufCtx 0x0C) false {}) cmd7 0x0C (bufCtx 0x0C) ns1
 := by decide +kernel

theorem witness_HostIo_readWaits : readWaits (ioOrdered (bufCtx 0x02)) (bufCtx 0x02) = true ∧ IoHere (ioOrdered (bufCtx 0x02)) cmd7 0x02 (bufCtx 0x02) ns1 ∧ readWaits (io ns1 (bufCtx 0x02) false {}) (bufCtx 0x02) = false
 := by decide +kernel

theorem witness_HostIo_readEnds : (bufsMay (ioShut (bufCtx 0x02)) cmd7).1 = false ∧ readWaits (ioShut (bufCtx 0x02)) (bufCtx 0x02) = false ∧ (∀ y ∈ (io ns1 (bufCtx 0x02) false {}).hqe.ctxs, y.leader ≠ some cmd7)
    ∧ Unmapped (io ns1 (bufCtx 0x02) false {}) (gmuOf ns1 0) ∧ gmuOf ns1 0 / 2048 ∈ (io ns1 (bufCtx 0x02) false { rebuilding := [0] }).ftl.rebuilding := by decide +kernel

/-- A read for the same buffers by another command. -/
def sharer : State := { io ns1 (ioCtx 0x02 .ready []) false {} with hqe := { ctxs := [{ bufCtx 0x02 with id := ⟨3, 1, 6⟩, bufs := [dramBase + 0x1000], stage := .reading, mus := [{ gmu := 0 }] }, ioCtx 0x02 .ready []] } }

theorem witness_HostIo_shares : ((shareWith sharer (ioCtx 0x02 .ready []) ns1).any fun y => y.bufs = [dramBase + 0x1000]) = true ∧ (takeShares sharer 0 [dramBase + 0x1000]).isSome = true
    ∧ IoHere sharer cmd7 0x02 (ioCtx 0x02 .ready []) ns1 ∧ readWaits sharer (ioCtx 0x02 .ready []) = false ∧ shareWith (ioBare (ioCtx 0x02 .ready [])) (ioCtx 0x02 .ready []) ns1 = none := by decide +kernel

def pua0 : Nat := puaMk 0 0 0 0 0
/-- A default set of die 0, with the leaf of MU 0 resident. -/
def ioMap (e : Nat) : State := { wr (io ns1 (bufCtx 0x02) false (leafIn e)) 0x0F 0x104 4 with cpc := { dsets := [(0, { members := [(0, true, true)] })] }, flash := { dies := [(0, { st := .ready })] } }

theorem witness_HostIo_entries : (rootOf (ioMap 0) 0).busy = false ∧ WalkPasses (ioMap 0) 0 (some 0) .read ∧ residentOf (ioMap 0) 0 = some (3, frame3 0) ∧ entPresent (frame3 0) 0 = true ∧ staleFrame (ioMap 0) (frame3 0) = false
    ∧ Tbl.getD (frame3 0).entries 0 0 = 0 ∧ Tbl.getD (frame3 entUncorr).entries 0 0 = entUncorr ∧ WalkPasses (ioMap entUncorr) 0 (some 0) .read ∧ residentOf (ioMap entUncorr) 0 = some (3, frame3 entUncorr) := by decide +kernel

theorem witness_HostIo_mapped : pua0 < 2 ^ 38 ∧ Tbl.getD (frame3 (entMapped pua0)).entries 0 0 = entMapped pua0 ∧ WalkPasses (ioMap (entMapped pua0)) 0 (some 0) .read ∧ entMalformed (ioMap (entMapped pua0)) (entMapped pua0) = false
    ∧ dieUsable (ioMap (entMapped pua0)) (puaDie pua0) = true ∧ (∀ b ∈ (ioMap (entMapped pua0)).ldc.bg, b.pua ≠ pua0) ∧ IoHere (ioMap (entMapped pua0)) cmd7 0x02 (bufCtx 0x02) ns1 := by decide +kernel

theorem witness_HostIo_pending : (io ns1 (fuaCtx 0x02) true { pwt := [pwt0] }).ftl.pwt = [pwt0] ∧ pwt0.gmu = gmuOf ns1 0 ∧ sqeFua (fuaCtx 0x02).sqe = true ∧ sqeFua (bufCtx 0x02).sqe = false ∧ pwt0.lost = 0 ∧ pwt0.held = false ∧ pwt0.closed = false
    ∧ IoHere (io ns1 (fuaCtx 0x02) true { pwt := [pwt0] }) cmd7 0x02 (fuaCtx 0x02) ns1 ∧ (io ns1 (fuaCtx 0x02) true { pwt := [pwt0] }).hqe.vwc = true := by decide +kernel

theorem witness_HostIo_changes : IoHere (jReady (io ns1 (ioCtx 0x04 .ready []) false {})) cmd7 0x04 (ioCtx 0x04 .ready []) ns1 ∧ deallocWaits (jReady (io ns1 (ioCtx 0x04 .ready []) false {})) cmd7 (ioCtx 0x04 .ready []) = false
    ∧ deallocWaits (ioOrdered (ioCtx 0x04 .ready [])) cmd7 (ioCtx 0x04 .ready []) = true ∧ partMus ns1 0 1 = 0 ∧ partMus { ns1 with lbaf := 1 } 0 1 = 1
    ∧ pwtRoom (jReady (ioFull { ns1 with lbaf := 1 } (ioCtx 0x04 .ready []))) 1 = false ∧ deallocWaits (jReady (ioFull { ns1 with lbaf := 1 } (ioCtx 0x04 .ready []))) cmd7 (ioCtx 0x04 .ready []) = false
    ∧ pwtRoom (jReady (ioRoom { ns1 with lbaf := 1 } (ioCtx 0x04 .ready []) {})) 1 = true ∧ Word.bit (0x02000000 : Word) 25 = true ∧ Word.bit (0 : Word) 25 = false
    ∧ mapWaits (jReady (ioRoom ns1 (ioCtx 0x08 .ready []) {})) cmd7 = false ∧ earlierWrite (jReady (ioRoom ns1 (ioCtx 0x08 .ready []) {})) (ioCtx 0x08 .ready []) = false
    ∧ fitsShare (jReady (ioRoom ns1 (ioCtx 0x08 .ready []) {})) (ioCtx 0x08 .ready []) ns1 = true ∧ fitsShare (ioFull ns1 (ioCtx 0x08 .ready [])) (ioCtx 0x08 .ready []) ns1 = true ∧ pwtRoom (ioFull ns1 (ioCtx 0x08 .ready [])) 1 = false
    ∧ mapWaits (ioOrdered (ioCtx 0x08 .ready [])) cmd7 = true := by decide +kernel

theorem witness_HostIo_ranges : dsmRanges (leBytes 4 0 ++ leBytes 4 1 ++ leBytes 8 0) 1 = [(0, 1)] ∧ (∀ r ∈ dsmRanges (leBytes 4 0 ++ leBytes 4 1 ++ leBytes 8 0) 1, r.1 + r.2 ≤ ns1.lbas) ∧ (∃ r ∈ dsmRanges (leBytes 4 0 ++ leBytes 4 9 ++ leBytes 8 1020) 1, ns1.lbas < r.1 + r.2)
    ∧ Word.bit (4 : Word) 2 = true ∧ Word.bit (0 : Word) 2 = false ∧ sumOf (fun r : Nat × Nat => partMus { ns1 with lbaf := 1 } r.1 r.2) [(0, 1)] = 1 ∧ Word.fld (0 : Word) 7 0 = 0 := by decide +kernel

theorem witness_HostIo_map : residentOf (jReady (io ns1 (ioCtx 0x04 .ready []) false (leafIn 0))) 0 = some (3, frame3 0) ∧ (rootOf (jReady (io ns1 (ioCtx 0x04 .ready []) false (leafIn 0))) 0).busy = false
    ∧ (frame3 0).raw = true ∧ entPresent (frame3 0) 0 = true ∧ (jReady (io ns1 (ioCtx 0x04 .ready []) false (leafIn 0))).cpc.rus = [] ∧ (jReady (io ns1 (ioCtx 0x04 .ready []) false (leafIn 0))).ftl.pwt = []
    ∧ jStalled (jReady (io ns1 (ioCtx 0x04 .ready []) false (leafIn 0))) = false ∧ (frame3 0).lseq < (jReady (io ns1 (ioCtx 0x04 .ready []) false (leafIn 0))).ftl.jseq
    ∧ WalkPasses (jReady (io ns1 (ioCtx 0x04 .ready []) false (leafIn 0))) 0 none .write ∧ IoReady (jReady (io ns1 (ioCtx 0x04 .ready []) false (leafIn 0))) cmd7 0x04 (ioCtx 0x04 .ready []) ns1
    ∧ deallocWaits (jReady (io ns1 (ioCtx 0x04 .ready []) false (leafIn 0))) cmd7 (ioCtx 0x04 .ready []) = false := by decide +kernel

theorem witness_HostIo_reservations : IoHere (io (reg9 6 0 none) (resv 0x0D 0) false {}) cmd7 0x0D (resv 0x0D 0) (reg9 6 0 none) ∧ (ctrlOf (io (reg9 6 0 none) (resv 0x0D 0) false {}) 3).hostId = 9
    ∧ ledgerValid (io (reg9 6 0 none) (resv 0x0D 0) false {}) = true ∧ regOf ns1 9 = none ∧ regOf (reg9 6 0 none) 9 = some ⟨9, 3, 6⟩ ∧ leNat ((leBytes 8 6 ++ leBytes 8 7).take 8) = 6
    ∧ leNat (((leBytes 8 6 ++ leBytes 8 7).drop 8).take 8) = 7 ∧ resvHolds (reg9 6 1 (some 8)) 9 = false ∧ resvHolds (reg9 6 1 (some 9)) 9 = true ∧ Word.fld (0x100 : Word) 15 8 = 1 ∧ Word.bit (8 : Word) 3 = true
    ∧ Word.fld (2 : Word) 2 0 = 2 ∧ (reg9 6 1 (some 9)).rtype < 5 ∧ (reg9 6 1 (some 8)).holder ≠ some 9 ∧ IoHere (io (reg9 6 0 none) (resv 0x0E 7) false {}) cmd7 0x0E (resv 0x0E 7) (reg9 6 0 none)
    ∧ ((7 : Word).toNat + 1) * 4 = 32 := by decide +kernel

theorem witness_HostIo_outcomes : (match resvRegister (reg9 6 0 none) 9 3 { opc := 0x0D, cid := 7, cdw10 := 1 } (leBytes 16 6) with | .ok _ => true | .error _ => false) = true
    ∧ (match resvRegister (reg9 6 0 none) 9 3 { opc := 0x0D, cid := 7, cdw10 := 3 } (leBytes 16 6) with | .ok _ => true | .error _ => false) = false
    ∧ (match resvAcquire (reg9 6 0 none) 9 { opc := 0x11, cid := 7, cdw10 := 0x100 } (leBytes 16 6) with | .ok _ => true | .error _ => false) = true
    ∧ (match resvAcquire (reg9 6 1 (some 8)) 9 { opc := 0x11, cid := 7, cdw10 := 0x102 } (leBytes 8 6 ++ leBytes 8 5) with | .ok p => p.2 = [8] | .error _ => false) = true
    ∧ (match resvAcquire (reg9 6 0 none) 9 { opc := 0x11, cid := 7 } (leBytes 16 6) with | .ok _ => true | .error _ => false) = false
    ∧ (match resvRelease (reg9 6 1 (some 9)) 9 { opc := 0x15, cid := 7, cdw10 := 0x100 } (leBytes 16 6) with | .ok _ => true | .error _ => false) = true
    ∧ (match resvRelease (reg9 6 1 (some 9)) 9 { opc := 0x15, cid := 7, cdw10 := 0x200 } (leBytes 16 6) with | .ok _ => true | .error _ => false) = false := by decide +kernel

theorem witness_HostIo_handles : IoHere (io ns1 (resv 0x1D 1) false {}) cmd7 0x1D (resv 0x1D 1) ns1 ∧ Word.fld (1 : Word) 7 0 = 1 ∧ Tbl.getD (io ns1 (resv 0x1D 1) false {}).ten.fdp 0 false = false
    ∧ Tbl.getD { (io ns1 (resv 0x1D 1) false {}).ten with fdp := [(0, true)] }.fdp ns1.owner false = true ∧ 8 ≤ (9 % 1024 : Nat) ∧ leNat ((leBytes 8 6 ++ leBytes 8 7).take 2) % 1024 < 8
    ∧ (Tbl.find (ioMap 0).cpc.dsets (6 / 1024)).isSome = true ∧ Tbl.find (ioMap 0).cpc.opens (openKey 0 6 0) = none
    ∧ (ruAt { ioMap 0 with cpc := { (ioMap 0).cpc with opens := [(openKey 0 6 0, 4)], rus := [(4, { st := .opened })] } } 4).st = .opened
    ∧ CmdReady (io ns1 (ioCtx 0x19 .ready []) false {}) cmd7 false 0x19 (ioCtx 0x19 .ready []) := by decide +kernel

/-! ### Identify, log pages and features -/

/-- The device with an admin command of controller 3 and its SQ 1. -/
def feat (opc : Nat) (d10 d11 d12 : Word) (data : List Byte) : State := queues { oneEntry with head := 0 } { size := 4 } [] [adm opc d10 d11 d12 data]
def cid9 : CmdId := ⟨3, 0, 9⟩
/-- The same from PF0 of the management port. -/
def pfCtx (opc : Nat) (d10 d11 d12 : Word) (data : List Byte) : Ctx := { adm opc d10 d11 d12 data with id := ⟨0, 0, 9⟩ }
def pfCmd (opc : Nat) (d10 d11 d12 : Word) (data : List Byte) : State := { host { ctrls := [(0, live [])], ctxs := [pfCtx opc d10 d11 d12 data] } with dev := { (host {}).dev with straps := 0 } }
def onNs (x : Ctx) : Ctx := { x with sqe := { x.sqe with nsid := 1 } }
/-- A command of controller 3 that names namespace 1, which controller 3 has attached. -/
def tler (opc : Nat) (d10 d11 : Word) : State := nsAt ns1 (queues oneEntry { size := 4 } [] [onNs (adm opc d10 d11 0 [])])

theorem witness_HostAdmin_nothing : ctxOf (host {}) cid9 = none ∧ ctxOf (feat 0x02 0xC0 0 0 []) cid9 = some (adm 0x02 0xC0 0 0 []) ∧ Word.fld (0xC0 : Word) 7 0 ≠ 0xC2 ∧ (adm 0x02 0xC0 0 0 []).sqe.opc ≠ 0x06 := by decide +kernel

theorem witness_HostAdmin_identify : CmdReady (tler 0x06 0 0) cid9 true 0x06 (onNs (adm 0x06 0 0 0 [])) ∧ nsOf (tler 0x06 0 0) 1 = some ns1 ∧ CmdReady (feat 0x06 0 0 0 []) cid9 true 0x06 (adm 0x06 0 0 0 [])
    ∧ nsOf (feat 0x06 0 0 0 []) 1 = none ∧ Word.fld (0x10 : Word) 7 0 = 0x10 ∧ Word.fld (0x12 : Word) 7 0 = 0x12 ∧ Word.fld (0x13 : Word) 7 0 = 0x13 ∧ Word.fld (0x00030012 : Word) 31 16 = 3 ∧ nsOf (feat 0x06 0 0 0 []) 0xFFFFFFFF = none
    ∧ (((tler 0x06 2 0).ten.nss.filter fun n => 0 < n.1 && n.2.attached.contains 3).map (·.1)) = [1] := by decide +kernel

theorem witness_HostAdmin_logs : CmdReady (feat 0x02 0x007F00C0 0 0 []) cid9 true 0x02 (adm 0x02 0x007F00C0 0 0 []) ∧ Word.fld (0x007F00C0 : Word) 7 0 = 0xC0 ∧ numd (adm 0x02 0x007F00C0 0 0 []).sqe = 512
    ∧ cdw64 (0 : Word) 0 = 0 ∧ cdw64 (516 : Word) 0 = 516 ∧ CmdReady (feat 0x02 0x007F0002 0 0 []) cid9 true 0x02 (adm 0x02 0x007F0002 0 0 []) ∧ numd (adm 0x02 0x000F01C3 0 0 []).sqe = 64 ∧ (List.replicate 32 (0 : Byte)).length = 32
    ∧ CmdReady (feat 0x02 0x000F01C3 0 0 []) cid9 true 0x02 (adm 0x02 0x000F01C3 0 0 []) ∧ Word.bit (0x000F00C3 : Word) 8 = false ∧ (sqsOf (feat 0x02 0xC2 0 0 []) 3).length = 1 ∧ Word.bit (0x000F01C3 : Word) 8 = true ∧ fnTenant (feat 0x02 0 0 0 []) 3 = 0
    ∧ fnTenant (wr (feat 0x02 0 0 0 []) 0x01 0x200C 5) 3 = 5 := by decide +kernel

theorem witness_HostAdmin_sets : SetReady (feat 0x09 7 0 0 []) cid9 0x07 (adm 0x09 7 0 0 []) ∧ FeatReady (feat 0x09 0x80000007 0 0 []) cid9 0x09 0x07 (adm 0x09 0x80000007 0 0 []) ∧ Word.bit (0x80000007 : Word) 31 = true
    ∧ SetReady (feat 0x09 1 3 0 []) cid9 0x01 (adm 0x09 1 3 0 []) ∧ SetReady (feat 0x09 2 4 0 []) cid9 0x02 (adm 0x09 2 4 0 []) ∧ Word.fld (4 : Word) 4 0 = 4 ∧ Word.fld (5 : Word) 4 0 = 5
    ∧ SetReady (feat 0x09 4 0x00130150 0 []) cid9 0x04 (adm 0x09 4 0x00130150 0 []) ∧ Word.fld (0x00130150 : Word) 19 16 = 3 ∧ Word.fld (0x00130150 : Word) 21 20 = 1 ∧ Word.fld (0x00030150 : Word) 21 20 = 0
    ∧ (feat 0x09 4 0 0 []).hqe.ctrls = [(3, live [])] ∧ (live []).aers = [] ∧ SetReady (feat 0x09 0x0E 0 0 (leBytes 8 5000)) cid9 0x0E (adm 0x09 0x0E 0 0 (leBytes 8 5000))
    ∧ SetReady (pfCmd 0x09 0x0E 0 0 (leBytes 8 5000)) ⟨0, 0, 9⟩ 0x0E (pfCtx 0x09 0x0E 0 0 (leBytes 8 5000)) ∧ mgmtPf (pfCmd 0x09 0 0 0 []) = 0 ∧ (pfCmd 0x09 0 0 0 []).aon.rtcValid = false ∧ mgmtPf (feat 0x09 0 0 0 []) ≠ 3 := by decide +kernel

theorem witness_HostAdmin_queues : SetReady (feat 0x09 0xC1 0x10001 0 []) cid9 0xC1 (adm 0x09 0xC1 0x10001 0 []) ∧ sqOf (feat 0x09 0xC1 0x10001 0 []) 3 1 = some { oneEntry with head := 0 } ∧ oneEntry.st = .active
    ∧ entriesDue (feat 0x09 0xC1 0x10001 0 []) 3 1 = false ∧ sqOf (feat 0x09 0xC1 0x10001 0 []) 3 2 = none ∧ FeatReady (feat 0x0A 0xC1 1 0 []) cid9 0x0A 0xC1 (adm 0x0A 0xC1 1 0 [])
    ∧ (queues oneEntry { size := 4 } [] [adm 0x09 0xC1 0x10001 0 [], doneCtx stOk]).hqe.ctxs.length = 2 ∧ (doneCtx stOk).id.mid = 3 ∧ (doneCtx stOk).id.sqid = 1 ∧ entriesDue { queues { oneEntry with head := 0 } { size := 4 } [] [adm 0x09 0xC1 0x10001 0 []] with ports := [(0, { hostPort with np := [{ tag := 9, mid := 3, purpose := .entries 3 1 0 [(.high, .reserve)] }] })] } 3 1 = true := by decide +kernel

theorem witness_HostAdmin_budgets : SetReady (feat 0x09 0xC2 5 0x01000010 []) cid9 0xC2 (adm 0x09 0xC2 5 0x01000010 []) ∧ Word.fld (0x01000010 : Word) 31 24 ≠ 0 ∧ Word.fld (0x10 : Word) 31 24 = 0
    ∧ FeatReady (feat 0x0A 0xC2 5 0 []) cid9 0x0A 0xC2 (adm 0x0A 0xC2 5 0 []) ∧ SetReady (pfCmd 0x09 0xC4 0x01010101 0x01020304 []) ⟨0, 0, 9⟩ 0xC4 (pfCtx 0x09 0xC4 0x01010101 0x01020304 [])
    ∧ (∀ i : Fin 8, cdwByte 0x01010101 0x01020304 i ≠ 0) ∧ cdwByte 0x01010101 0x00020304 7 = 0 ∧ FeatReady (feat 0x0A 0xC4 0 0 []) cid9 0x0A 0xC4 (adm 0x0A 0xC4 0 0 []) := by decide +kernel

theorem witness_HostAdmin_rest : SetReady (pfCmd 0x09 0x0D 1 0 []) ⟨0, 0, 9⟩ 0x0D (pfCtx 0x09 0x0D 1 0 []) ∧ 262144 ≤ [200000, 62144].sum ∧ [4].sum < 262144 ∧ (pfCmd 0x09 0x0D 0 0 []).ftl.pageIns = [] ∧ Word.bit (1 : Word) 0 = true ∧ (pfCmd 0x09 0x0D 0 0 []).ftl.moving = []
    ∧ FeatReady (pfCmd 0x09 0x8000000D 0 0 []) ⟨0, 0, 9⟩ 0x09 0x0D (pfCtx 0x09 0x8000000D 0 0 []) ∧ FeatReady (tler 0x09 0x80000005 100) cid9 0x09 0x05 (onNs (adm 0x09 0x80000005 100 0 []))
    ∧ FeatReady (tler 0x0A 0x205 0) cid9 0x0A 0x05 (onNs (adm 0x0A 0x205 0 0 [])) ∧ nsOf (tler 0x0A 5 0) 1 = some ns1 ∧ 3 ∈ ns1.attached ∧ nsOf (feat 0x09 5 0 0 []) 0 = none ∧ (feat 0x09 5 0 0 []).ten.nss = []
    ∧ SetReady (feat 0x09 0x1D 1 1 []) cid9 0x1D (adm 0x09 0x1D 1 1 []) ∧ Word.fld (1 : Word) 15 8 = 0 ∧ (tler 0x09 0x1D 1).ten.nss = [(1, ns1)] ∧ ns1.owner = 0 := by decide +kernel

/-! ### Tenants and namespaces -/

/-- A Tenant Configure of controller 3 that has been dispatched. -/
def tcCtx (d10 d11 d12 d13 d14 : Word) (data : List Byte) : Ctx :=
  { adm 0xC9 d10 d11 d12 data with sqe := { opc := 0xC9, cid := 9, cdw10 := d10, cdw11 := d11, cdw12 := d12, cdw13 := d13, cdw14 := d14 } }
def tc (x : Ctx) : State := host { ctxs := [x] }
/-- The same beside namespace 1; a table lets every master reach DRAM. -/
def tcNs (n : Ns) (x : Ctx) : State := setBark (nsAt n (host { ctxs := [x] })) 0x1B 0 ⟨0, 0x3FFF0000, 0xFFFFFFFF, 0x9A00FFFF⟩
/-- The same with a state of the groves. -/
def tcGrv (g : List (Nat × Eng)) (x : Ctx) : State := { host { ctxs := [x] } with grv := { eng := g }, blk := (up [0x40]).blk }
/-- Four slices, slice 1 of tenant 5. -/
def sliced (x : Ctx) : State := wr (wr (tc x) 0x18 0x100 4) 0x18 0x1008 0x14
def busyFrame : State := { tc (tcCtx 4 5 2 0 0 []) with ftl := { frames := [(3, { leaf := 0, wb := true })] }, ten := { nss := [(1, { lbas := 1024, owner := 5, leafCount := 1 })] } }
def allNs (x : Ctx) : Ctx := { x with sqe := { x.sqe with nsid := 0xFFFFFFFF } }
def mgmtX (sel set : Word) (d : List Byte) : Ctx := onNs (adm 0x0D sel (set <<< 24) 0 d)

theorem witness_TenancyAdmin_arguments : CmdReady (tc (tcCtx 1 7 5 0 0 [])) cid9 true 0xC9 (tcCtx 1 7 5 0 0 []) ∧ tcFirst (tc (tcCtx 1 7 5 0 0 [])) cid9 = true
    ∧ tcFirst (host { ctxs := [{ tcCtx 2 0 0 0 0 [] with id := ⟨3, 0, 8⟩ }, tcCtx 1 7 5 0 0 []] }) cid9 = false ∧ tcFits (tcCtx 1 7 0x200 0 0 []).sqe 0x1FF 0x1FF 0 0 = false
    ∧ tcFits (tcCtx 4 7 0x40 0 0 []).sqe 0x1FF 0x3F 0 0 = false ∧ ctxOf (host {}) cid9 = none ∧ CmdReady (tc (tcCtx 4 7 0x40 0 0 [])) cid9 true 0xC9 (tcCtx 4 7 0x40 0 0 []) := by decide +kernel

theorem witness_TenancyAdmin_bind : TcReady (tc (tcCtx 1 7 5 0 0 [])) cid9 0x01 0x1FF 0x1FF 0 0 (tcCtx 1 7 5 0 0 []) ∧ mgmtPf (tc (tcCtx 1 7 5 0 0 [])) ≠ 7 ∧ fnBusy (tc (tcCtx 1 7 5 0 0 [])) 7 = false
    ∧ fnBusy (tc (tcCtx 1 3 5 0 0 [])) 3 = true ∧ TcReady (tc (tcCtx 2 7 100 0 0 [])) cid9 0x02 0x1FF 0x1FFF 0 0 (tcCtx 2 7 100 0 0 []) ∧ fnSqs (tc (tcCtx 2 7 100 0 0 [])) 7 ≤ 100
    ∧ 100 - fnSqs (tc (tcCtx 2 7 100 0 0 [])) 7 ≤ 16384 - ioSqs (tc (tcCtx 2 7 100 0 0 [])) := by decide +kernel

theorem witness_TenancyAdmin_limits : TcReady (tc (tcCtx 3 7 10 20 0x01000005 [])) cid9 0x03 0x1FF 0xFFFF 0x1FFFF 0xFFFFFFFF (tcCtx 3 7 10 20 0x01000005 [])
    ∧ Word.fld (0x01000005 : Word) 31 24 ≠ 0 := by decide +kernel

theorem witness_TenancyAdmin_sums : ctxMinSum (tc (tcCtx 3 7 10 20 0x01000005 [])) - ctxMin (tc (tcCtx 3 7 10 20 0x01000005 [])) 7 + 10 ≤ 49152
    ∧ 49152 < ctxMinSum (wr (tc (tcCtx 3 7 10 20 0x01000005 [])) 0x0D 0x2000 49150) - ctxMin (wr (tc (tcCtx 3 7 10 20 0x01000005 [])) 0x0D 0x2000 49150) 7 + 10 := by decide +kernel

theorem witness_TenancyAdmin_owners : TcReady (tc (tcCtx 4 5 2 0 0 [])) cid9 0x04 0x1FF 0x3F 0 0 (tcCtx 4 5 2 0 0 []) ∧ ownerRefusal (tc (tcCtx 4 5 2 0 0 [])) 5 2 = none ∧ (tc (tcCtx 4 5 2 0 0 [])).ftl.frames = []
    ∧ ownerRefusal (tc (tcCtx 4 0 2 0 0 [])) 0 2 = some stSequence ∧ ownerRefusal busyFrame 5 2 = none ∧ leafTenant busyFrame 0 = 5 ∧ ownerOf busyFrame 5 ≠ 2 ∧ (∀ p ∈ busyFrame.ftl.frames, p.2.wb = true)
    ∧ (∃ p ∈ busyFrame.ftl.frames, leafTenant busyFrame p.2.leaf = 5 ∧ p.2.owner ≠ 2) ∧ ownerLeft busyFrame 5 = false ∧ ownerLeft (wr busyFrame 0xC (ownerOff 5) 2) 5 = true
    ∧ ({ tcCtx 4 5 2 0 0 [] with jmark := some 0 } : Ctx).jmark.isSome = true
    ∧ Admits (tc (tcCtx 4 5 2 0 0 [])) core0 0xC (0x3400 + 4 * 5) 2 := by decide +kernel

theorem witness_TenancyAdmin_pools : TcReady (area (tc (tcCtx 5 0x102 10 20 0 []))) cid9 0x05 0x73F 0xFFFFFFF 0xFFFFFFF 0 (tcCtx 5 0x102 10 20 0 []) ∧ Word.fld (0x102 : Word) 10 8 = 1 ∧ Word.fld (0x600 : Word) 10 8 = 6
    ∧ (area (tc (tcCtx 5 0x102 10 20 0 []))).bpm.waiters = []
    ∧ TcReady (area (tc (tcCtx 6 2 3 0 0 []))) cid9 0x06 0x3F 0x3FFFFF 0 0 (tcCtx 6 2 3 0 0 []) := by decide +kernel

theorem witness_TenancyAdmin_rsv : rsvOk (wr (area (tc (tcCtx 6 2 3 0 0 []))) 0xC 0x3020 3) = true ∧ rsvOk (wr (area (tc (tcCtx 6 2 0x3FFFFF 0 0 []))) 0xC 0x3020 0x3FFFFF) = false := by decide +kernel

theorem witness_TenancyAdmin_rsv_limits : rsvOk (wr (wr (area (tc (tcCtx 5 0x102 10 20 0 []))) 0xC 0x1110 10) 0xC 0x1114 20) = true
    ∧ rsvOk (wr (wr (area (tc (tcCtx 5 0x402 0xFFFFFFF 0xFFFFFFF 0 []))) 0xC 0x1140 0xFFFFFFF) 0xC 0x1144 0xFFFFFFF) = false := by decide +kernel

theorem witness_TenancyAdmin_namespaces : TcReady (tcNs { lbas := 1024 } (tcCtx 7 1 5 0 0 [])) cid9 0x07 0xFFFFFFFF 0x1FF 0 0 (tcCtx 7 1 5 0 0 []) ∧ nsOf (tcNs { lbas := 1024 } (tcCtx 7 1 5 0 0 [])) 1 = some { lbas := 1024 }
    ∧ nuse (tcNs { lbas := 1024 } (tcCtx 7 1 5 0 0 [])) { lbas := 1024 } = 0 ∧ nsOf (tc (tcCtx 7 1 5 0 0 [])) 1 = none ∧ refusesRegs (tcNs {} (tcCtx 7 1 5 0 0 [])) 0x40 = false
    ∧ ownerOf (wr (tcNs {} (tcCtx 7 1 5 0 0 [])) 0xC (ownerOff 5) 2) 5 ≠ ownerOf (wr (tcNs {} (tcCtx 7 1 5 0 0 [])) 0xC (ownerOff 5) 2) 6
    ∧ TcReady (tcNs ns1 (tcCtx 8 1 5 1 0 [])) cid9 0x08 0xFFFFFFFF 0x1FF 1 0 (tcCtx 8 1 5 1 0 []) ∧ Word.bit (1 : Word) 0 = true ∧ 5 ∉ ns1.party ∧ ns1.sharers.length < 15 ∧ (∀ b ∈ ns1.blocks, b < 16384) ∧ fnTenant (tcNs ns1 (tcCtx 8 1 0 0 0 [])) 3 = 0 := by decide +kernel

theorem witness_TenancyAdmin_slots : TcReady (tc (tcCtx 9 5 16 8 0 [])) cid9 0x09 0x1FF 0xFFF 0x1FFF 0x1FFFF (tcCtx 9 5 16 8 0 []) ∧ (tc (tcCtx 9 5 16 8 0 [])).ten.keySlots = [] ∧ rangesMeet 16 8 20 1 = true
    ∧ xtsTenant (tc (tcCtx 9 5 16 8 0 [])) 17 ≠ xtsTenant { tc (tcCtx 9 5 16 8 0 []) with ten := { keySlots := [(5, [16, 8, 0, 0])] } } 17 := by decide +kernel

theorem witness_TenancyAdmin_engines : TcReady (tcGrv [] (tcCtx 0x0A 5 0 0 0 (leBytes 32 2))) cid9 0x0A 0x1FF 0 0 0 (tcCtx 0x0A 5 0 0 0 (leBytes 32 2)) ∧ leNat ((leBytes 32 2).take 32) = 2 ^ 1
    ∧ engAssigned (tcGrv [] (tcCtx 0x0A 5 0 0 0 [])) 1 = none ∧ isReady (tcGrv [] (tcCtx 0x0A 5 0 0 0 [])) 0x40 = true ∧ (engOf (tcGrv [] (tcCtx 0x0A 5 0 0 0 [])) 1).st = .free
    ∧ engAssigned (wr (tcGrv [] (tcCtx 0x0A 5 0 0 0 [])) 0x40 0x1048 0x8006) 1 = some 6 ∧ (tcGrv [] (tcCtx 0x0A 5 0 0 0 [])).grv.eng = []
    ∧ (engOf (tcGrv [(1, { st := .assigned, tenant := 5 })] (tcCtx 0x0A 5 0 0 0 [])) 1).st = .assigned ∧ (∀ j : Fin 256, inSet (tcGrv [] (tcCtx 0x0A 5 0 0 0 [])) j 5 = false)
    ∧ (∀ j : Fin 256, inSet (wr (tcGrv [] (tcCtx 0x0A 5 0 0 0 [])) 0x40 0x1048 0x8005) j 5 = true ↔ j.val = 1) ∧ leNat (([] : List Byte).take 32) = 0
    ∧ (∀ j : Fin 256, (2 ^ 1).testBit j.val = true → engAssigned (tcGrv [] (tcCtx 0x0A 5 0 0 0 [])) j = none ∧ isReady (tcGrv [] (tcCtx 0x0A 5 0 0 0 [])) (0x40 + j / 16) = true ∧ (engOf (tcGrv [] (tcCtx 0x0A 5 0 0 0 [])) j).st ≠ .running)
    ∧ isReady (tcGrv [] (tcCtx 0x0A 5 0 0 0 [])) 0x41 = false := by decide +kernel

theorem witness_TenancyAdmin_slices : TcReady (sliced (tcCtx 0x0B 5 0 2 0 [])) cid9 0x0B 0x1FF 0x1FF 0x3FF 0 (tcCtx 0x0B 5 0 2 0 []) ∧ sliceCount (sliced (tcCtx 0x0B 5 0 2 0 [])) = 4 ∧ sliceTen (sliced (tcCtx 0x0B 5 0 2 0 [])) 1 = 5
    ∧ sliceTen (sliced (tcCtx 0x0B 5 0 2 0 [])) 0 = 0 ∧ (∀ k : Fin 4, sliceMapped (sliced (tcCtx 0x0B 5 0 2 0 [])) k = false) ∧ (sliced (tcCtx 0x0B 5 0 2 0 [])).win.sf = []
    ∧ TcReady (sliced (tcCtx 0x0C 0 2 0 0 [])) cid9 0x0C 0x1FF 0x3FF 0 0 (tcCtx 0x0C 0 2 0 0 []) ∧ (sliced (tcCtx 0x0C 0 2 0 0 [])).win.grans = [] ∧ (sliced (tcCtx 0x0C 0 2 0 0 [])).win.bdir = []
    ∧ (sliced (tcCtx 0x0C 0 2 0 0 [])).win.snaps = [] ∧ granSlice 4096 = 1 := by decide +kernel

theorem witness_TenancyAdmin_mapped : sliceMapped { sliced (tcCtx 0x0C 0 2 0 0 []) with win := { decs := [(0, { committed := true })], layouts := [(0, { vol := [1], per := [] })] } } 1 = true := by decide +kernel

theorem witness_TenancyAdmin_registers : Admits (tc (tcCtx 0 0 0 0 0 [])) core0 0x01 (0x2000 + 4 * 7) 5 ∧ Admits (tc (tcCtx 0 0 0 0 0 [])) core0 0x0D (0x1800 + 4 * 7) 100 ∧ allotOk (tc (tcCtx 0 0 0 0 0 [])) 7 100 = true
    ∧ allotOk (tc (tcCtx 0 0 0 0 0 [])) 7 4097 = false ∧ Admits (tc (tcCtx 0 0 0 0 0 [])) core0 0x0D (0x2000 + 32 * 7) 100 ∧ Admits (tc (tcCtx 0 0 0 0 0 [])) core0 0x0D (0x2004 + 32 * 7) 100
    ∧ Admits (tc (tcCtx 0 0 0 0 0 [])) core0 0x0D (0x2008 + 32 * 7) 100 := by decide +kernel

theorem witness_TenancyAdmin_create : CmdReady (host { ctxs := [mgmtX 0 0 (leBytes 26 4096 ++ [0])] }) cid9 true 0x0D (mgmtX 0 0 (leBytes 26 4096 ++ [0])) ∧ freeNsid (host { ctxs := [] }) = some 1
    ∧ leNat ((leBytes 26 4096 ++ [0]).take 8) = 4096 ∧ leavesFor 4096 0 = 2 ∧ freeRoots (wr (host {}) 0x0E 0x10C 100) 2 = some 0 ∧ freeRoots (host {}) 0x2000000 = none ∧ Word.fld (3 <<< 24 : Word) 31 24 = 3
    ∧ Word.fld (4 <<< 24 : Word) 31 24 = 4 ∧ freeBlocks (wr (host {}) 0x40 0x2008 8) 2 = some [0, 1] ∧ freeBlocks (host {}) 20000 = none := by decide +kernel

def nsLeaf : Ns := { lbas := 1024, leafCount := 1 }
def dooming : State := jReady (tcNs nsLeaf (mgmtX 1 0 []))

theorem witness_TenancyAdmin_droppable : dooming.ftl.pwt = [] ∧ dooming.bpm.waiters = [] ∧ dooming.ftl.waits = [] ∧ jStalled dooming = false ∧ nsLeaf.leafCount ≤ 1 ∧ (rootOf dooming 0).busy = false
    ∧ (rootOf dooming 0).tier = .flash 0 ∧ currentLseq dooming 0 < dooming.ftl.jseq ∧ WalkPasses dooming 0 none .write := by decide +kernel

theorem witness_TenancyAdmin_delete : CmdReady dooming cid9 true 0x0D (mgmtX 1 0 []) ∧ nsOf dooming 1 = some nsLeaf ∧ nsInUse dooming 1 cid9 = false ∧ (∀ p ∈ dooming.ten.nss, p.2.deleting ≠ some cid9)
    ∧ jStalled (wr (tcNs nsLeaf (mgmtX 1 0 [])) 0x0E 0x150 0) = true
    ∧ nsInUse (nsAt ns1 (host { ctxs := [mgmtX 1 0 [], doneCtx stOk] })) 1 cid9 = true ∧ nsOf (nsAt { ns1 with deleting := some cid9 } (host {})) 1 = some { ns1 with deleting := some cid9 }
    ∧ CmdReady (nsAt ns1 (host { ctxs := [allNs (adm 0x0D 1 0 0 []), doneCtx stOk] })) cid9 true 0x0D (allNs (adm 0x0D 1 0 0 [])) ∧ ns1.deleting = none ∧ (host {}).ten.nss = []
    ∧ (nsAt ns1 (host { ctxs := [allNs (adm 0x0D 1 0 0 []), doneCtx stOk] })).ten.nss = [(1, ns1)] ∧ nsInUse (nsAt ns1 (host { ctxs := [allNs (adm 0x0D 1 0 0 []), doneCtx stOk] })) 1 cid9 = true
    ∧ ctxOf (host { ctxs := [{ mgmtX 1 0 [] with stage := .waiting }] }) cid9 = some { mgmtX 1 0 [] with stage := .waiting } := by decide +kernel

theorem witness_TenancyAdmin_attach : CmdReady (nsAt ns1 (host { ctxs := [onNs (adm 0x15 1 0 0 (leBytes 2 1 ++ leBytes 2 3))] })) cid9 true 0x15 (onNs (adm 0x15 1 0 0 (leBytes 2 1 ++ leBytes 2 3))) ∧ ctrlList (leBytes 2 1 ++ leBytes 2 3) = [3]
    ∧ fnPresent (host {}) 3 = true ∧ fnPresent (host {}) 64 = false ∧ 3 ∈ ns1.attached ∧ fnTenant (host {}) 3 ∈ ns1.party ∧ fnTenant (wr (host {}) 0x01 0x200C 5) 3 ∉ ns1.party ∧ ns1.deleting = none
    ∧ CmdReady (nsAt { ns1 with attached := [] } (host { ctxs := [onNs (adm 0x15 0 0 0 (leBytes 2 1 ++ leBytes 2 3))] })) cid9 true 0x15 (onNs (adm 0x15 0 0 0 (leBytes 2 1 ++ leBytes 2 3))) := by decide +kernel

theorem witness_TenancyAdmin_format : CmdReady (jReady (tcNs ns1 (onNs (adm 0x80 1 0 0 [])))) cid9 true 0x80 (onNs (adm 0x80 1 0 0 [])) ∧ nsOf (jReady (tcNs ns1 (onNs (adm 0x80 1 0 0 [])))) 1 = some ns1 ∧ ns1.kind = .nvm ∧ 3 ∈ ns1.attached
    ∧ Word.fld (1 : Word) 3 0 = 1 ∧ Word.fld (1 : Word) 11 9 = 0 ∧ (jReady (tcNs ns1 (onNs (adm 0x80 1 0 0 [])))).cpc.readOnly = 0 ∧ earlierOnNs (jReady (tcNs ns1 (onNs (adm 0x80 1 0 0 [])))) 1 cid9 = false
    ∧ jStalled (jReady (tcNs ns1 (onNs (adm 0x80 1 0 0 [])))) = false ∧ earlierOnNs (nsAt ns1 (host { ctxs := [doneCtx stOk, onNs (adm 0x80 1 0 0 [])] })) 1 cid9 = true ∧ Word.fld (0x401 : Word) 11 9 = 2
    ∧ nsKey { host {} with sec := { bind := [(0, 5)] } } 1 = some 5 ∧ formatKey { host {} with sec := { drbgOk := false } } 5 = none ∧ jStalled (wr (tcNs ns1 (onNs (adm 0x80 1 0 0 []))) 0x0E 0x150 0) = true ∧ ({ drbgOk := false } : Sec).drbgOk = false ∧ nsKey (host {}) 1 = none ∧ Word.fld (0x10 : Word) 8 4 ≠ 0 := by decide +kernel

end Sys2Proof.Tests
end

section
/-! Proofs about DRAM protection: a read of a granule that nothing has written (R360), and what a reset leaves of the valid bits. -/

namespace Sys2Proof.Proofs

open Sys2Proof Sys2Proof.Machine Sys2Proof.Laws

/-- A new answer changes no other part of the state. -/
theorem keepsBut_resp (s : State) (r : Resp) : KeepsBut [.resp] s { s with resp := r } := by
  intro p hp
  cases p
  case resp => simp at hp
  case xmv => exact ⟨rfl, rfl⟩
  all_goals rfl

section Unwritten

variable {s : State} {addr : Nat} (unwritten : granuleValid s (granuleOf (lineOf addr)) = false)
include unwritten

/-- No decode runs for an unwritten granule (R360): the outcome is clean and nothing is recorded. -/
theorem readLine_of_unwritten (now : List SymErr) (who : Who) : readLine s (lineOf addr) now who = (0, s) := by
  simp [readLine, decodeLine, unwritten]

theorem plainBytes_of_unwritten (n : Nat) : plainBytes s addr n = List.replicate n 0 := by
  simp [plainBytes, unwritten]

theorem length_dramBytes_of_unwritten (n : Nat) : (dramBytes s addr n).length = n := by
  unfold dramBytes
  split
  · rw [plainBytes_of_unwritten unwritten, List.length_replicate]
  · rw [List.length_map, List.length_range]

/-- Only a structure of the walker, Coppice or the window gives such a read a byte that is not zero. -/
theorem dramBytes_getElem?_of_unwritten {n i : Nat} (hi : i < n) (bare : tablesOff s = true ∨ tableByte s (addr + i) = none) :
    (dramBytes s addr n)[i]? = some 0 := by
  unfold dramBytes
  rw [plainBytes_of_unwritten unwritten]
  split
  case isTrue => simp [hi]
  case isFalse hoff =>
    have hnone : tableByte s (addr + i) = none := bare.resolve_left hoff
    simp [hi, hnone]

end Unwritten

/-- The read of an unwritten granule answers at once, with no DRAM access and no decode (R360). -/
theorem dramRead_of_unwritten {s : State} {a : Acc} (now : List SymErr) (up : dramUp s = true)
    (noFill : Tbl.find s.dmc.fills (granuleOf (lineOf a.addr)) = none) (unwritten : granuleValid s (granuleOf (lineOf a.addr)) = false) :
    dramRead s a now =
      { s with resp := { code := .ok, data := leNat (dramBytes s a.addr a.size), bytes := dramBytes s a.addr a.size } } := by
  simp [dramRead, up, noFill, readLine_of_unwritten unwritten]

/-- DRAM_READ without an error of the bitmap is the read itself while DMC takes data requests. -/
theorem exec_dramRead_of_serves {s : State} (serves : refusesData s 0x1B = false) (a : Acc) (errs : List SymErr) :
    exec (.dramRead a errs false) s = .next (settle (dramRead s { a with kind := .read } errs)) := by
  have harm : exec (.dramRead a errs false) s = execDramRead a errs false s := rfl
  simp [harm, execDramRead, dmcServes, serves, fin]

/-- A device reset leaves DMC in its reset state, whichever event of the flush it records (R478). -/
theorem deviceReset_dmc (s : State) (cause : Nat) (flushed : Bool) : (deviceReset s cause flushed).dmc = {} := by
  unfold deviceReset
  dsimp only
  simp only [apply_ite State.dmc, emit_dmc, wr_dmc, ite_self]

theorem granuleValid_of_dmc_reset {s : State} (h : s.dmc = {}) (g : Nat) : granuleValid s g = false := by
  rw [granuleValid, h]
  rfl

/-- Settles O20: the read of an unwritten granule is answered OK with `dramBytes`, which are zero wherever no structure stands, and the DMC state
that a reset leaves has no valid bit. -/
theorem unwrittenReadsZero : Obligations.UnwrittenReadsZero := by
  refine ⟨fun s a errs up serves noFill unwritten => ?_, fun g => ?_, fun s c flushed g => ?_⟩
  · refine ⟨_, exec_dramRead_of_serves serves a errs, ?_⟩
    rw [dramRead_of_unwritten (a := { a with kind := .read }) errs up noFill unwritten]
    exact ⟨keepsBut_resp _ _, rfl, length_dramBytes_of_unwritten unwritten _, fun i hi bare => dramBytes_getElem?_of_unwritten unwritten hi bare⟩
  · exact granuleValid_of_dmc_reset rfl g
  · exact granuleValid_of_dmc_reset (deviceReset_dmc s c flushed) g

end Sys2Proof.Proofs
end
